-- ==== Sys2Proof/Word.lean ====
section
/-! DEFINITION. The plain word types of the model: 32-bit register words, bytes, 64-bit epochs, and the sparse table
(a list of key and value pairs) in which every replicated piece of state is kept. -/
namespace Sys2Proof

/-- A 32-bit register word (R8). -/
abbrev Word := BitVec 32

/-- A byte of a memory. -/
abbrev Byte := BitVec 8

/-- An epoch: a 64-bit number of ticks that wraps (R91). -/
abbrev Epoch := BitVec 64

/-- A sparse table: keys strictly rising, no entry equal to what an unlisted key reads as. -/
abbrev Bank (α : Type) := List (Nat × α)

end Sys2Proof
end

