-- ==== Sys2Proof/Syntax.lean ====
section
/-! DEFINITION. The commands of the block: one constructor per row of the spec's table of operations and events, with the
operands the outside world supplies (addresses, data, indices, and the measured or received values that come from beyond
the part's boundary). Indices are bounded by their type; the other bounds are in WellFormed. -/
namespace Sys2Proof

/-- What a self-test meets beyond the part's boundary: a read that does not return what was written there, and what the loop tests measure. A read or a
measurement that is not given is that of a good part. -/
inductive TestItem where
  /-- a read of a memory test: element, operation and byte address of its word, the stored codeword it meets (data and check bits, those of a word of a
  per-byte class five by five), and whether CXL memory returned it poisoned -/
  | read (elem : Fin 6) (op : Fin 2) (addr : BitVec 41) (data : BitVec 64) (check : BitVec 40) (poison : Bool)
  /-- LOOP_CONV, RF output: its level less that of R391, and its highest other component less that level, in 0.01 dB -/
  | tone (c : Fin 160) (level spur : Int)
  /-- LOOP_CONV, ADC input of a tile: a comb line less its factory value, in 0.01 dB -/
  | comb (tl : Fin 32) (dev : Int)
  /-- LOOP_CONV, flux output: what the monitor reads at code −16,384, 0 or +16,384 -/
  | flux (c : Fin 256) (code : Fin 3) (monitor : Int)
  /-- LOOP_LANE: symbol errors in a lane block, and its EYE_W -/
  | lane (i : Fin 20) (errors : Bool) (eyeW : BitVec 8)
  deriving DecidableEq, Repr

/-- What the host's configuration writes and ASPM have made of the function and its link (R551): power state D3hot or D0, link state L1, Max Payload Size
and Max Read Request Size (128 bytes doubled so many times), and the bits written as 1 to the AER status. -/
structure PciSettings where
  d3hot : Bool
  l1 : Bool
  payload : Fin 3
  request : Fin 6
  clear : Word
  deriving DecidableEq, Repr

/-- How a host-memory read ends without its data (R566). -/
inductive ReadEnd where
  | timeout
  | error
  | poison
  deriving DecidableEq, Repr

/-- What the monitor sampler of a lane finds in a sweep, for each of the three eyes (R609): the phase steps at which its decisions and the data sampler's
differ, as a mask, and the eye's vertical opening at its centre phase, in units of 4 mV. -/
abbrev EyeSweep := List (BitVec 64 × BitVec 8)

inductive Instr where
  -- host register access
  | regWrite (off : BitVec 25) (be : BitVec 4) (data : Word)
  | unmappedRead (off : BitVec 25)
  | lowWordRead (off : BitVec 25)
  | lowWordWrite (off : BitVec 25) (be : BitVec 4) (data : Word)
  | highWordWrite (off : BitVec 25) (be : BitVec 4) (data : Word)
  | unitQuery
  | ncoFreqRead (f : Fin 1024)
  | patchRdDataRead
  | rdLastIRead (d : Fin 512)
  | eccLogRead
  | tapDataRead
  -- timebase
  | refclkEdge (syncIn : Bool)
  | syncInPulse (pos : Fin 32)
  | syncLoad
  | syncGen
  | syncOutPulseEnd
  | refclkLost
  | refclkRestored
  | pllLockLost
  -- tower image
  | imgLoad
  | imgCheckDone (poisoned : List Nat)
  | imgCommit
  | imgDiscard
  | committingStart
  | commitTick
  -- runs
  | runStartRequest
  | runCancel
  | runStart
  | runEnd
  -- schedule operations
  | play (e : Fin 64)
  | playEnd (m : Fin 640)
  | envLineTest (m : Fin 640) (line : Fin 16384)
  | setf (e : Fin 64)
  | shiftp (e : Fin 64)
  | flux (e : Fin 64)
  | mark (e : Fin 64)
  | acq (e : Fin 64)
  | disc (e : Fin 64)
  | send (e : Fin 64)
  | forkDeadline (e : Fin 64)
  | fork (e : Fin 64)
  | wait (e : Fin 64)
  | waitResume (e : Fin 64)
  | waitTimeout (e : Fin 64)
  | loop (e : Fin 64)
  | safe (e : Fin 64)
  | endOp (e : Fin 64)
  | safeVote (e : Fin 64)
  | safePointPass (e : Fin 64)
  | holdTimeout (e : Fin 64)
  | shotVoid (e : Fin 64)
  | voidNotice (e : Fin 64)
  | voidLimit (e : Fin 64)
  | jumpRequest (e : Fin 64) (data : Word)
  | jumpCancel (e : Fin 64)
  | outcomeDelivery (port : Fin 2048)
  -- micro-sequencers
  | lineFill (e : Fin 64)
  | invalidate (e : Fin 64)
  | safePass (e : Fin 64)
  | voidRoutine (e : Fin 64)
  | runStartRoutine (e : Fin 64)
  | runEndRoutine (e : Fin 64)
  | stopRoutine (e : Fin 64)
  | house (e : Fin 64)
  | qmaxClr (e : Fin 64)
  | cntClr (e : Fin 64)
  | microword (e : Fin 64) (word : BitVec 192) (err : Fin 3)
  | escalate (e : Fin 64)
  | routineLong (e : Fin 64)
  | sampleGap (e : Fin 64)
  | commitOverrun (e : Fin 64)
  | patchLoad
  -- read-out, triggers and acquisition
  | integrationEnd (d : Fin 512) (adc : List Int)
  | triggerEdge (k : Fin 8) (rising : Bool) (back : Fin 2048)
  | levelCrossing (c : Fin 8) (last : Fin 4) (xs : List Int)
  | swtrig (data : Word)
  | timerTrigger (c : Fin 8)
  | segmentEnd (t : Fin 32) (samples : List Int)
  | rearm (t : Fin 32)
  | streamBlock (slot : Fin 4) (samples : List Int)
  | streamEnd (slot : Fin 4) (samples : List Int)
  | drainRecord
  | drainEnable (data : Word)
  | streamRingEnable (slot : Fin 4) (data : Word)
  -- decision fabric; a cell that arrives is given as the 112 symbols of its lane, of two bits each, the first in the top bits (R586 to R589)
  | decisionSend (slot : Fin 65536)
  | decisionCell (port : Fin 9) (lane : Fin 4) (line : BitVec 224)
  | slotDelivery (slot : Fin 65536)
  | relaySend (slot : Fin 65536)
  | statusCell (port : Fin 9) (lane : Fin 4) (line : BitVec 224)
  | voteCell (port : Fin 9) (lane : Fin 4) (line : BitVec 224)
  | aniseSend (port : Fin 9)
  | aniseRequest (port : Fin 9) (lane : Fin 4) (line : BitVec 224)
  | aniseGrant (port : Fin 9) (lane : Fin 4) (line : BitVec 224)
  | aniseCredit (port : Fin 9) (lane : Fin 4) (line : BitVec 224)
  | aniseForkResolve (e : Fin 64)
  | aniseTimeout (e : Fin 64) (sel : Fin 32)
  -- flux, converters, calibration
  | rangeGainSwitch (c : Fin 256)
  | rangeClampRelease (c : Fin 256)
  | monitorVisit (c : Fin 256) (measured : Int)
  | outCfgWrite (c : Fin 160) (be : BitVec 4) (data : Word)
  | outCfgApply (c : Fin 160)
  | settleEnd (c : Fin 160)
  | bgEstimate (cls : Fin 8) (path : Fin 512) (values : List Int)
  | calStep (cls : Fin 8) (path : Fin 512)
  | calStepDone (cls : Fin 8) (path : Fin 512) (first second : List Int)
  | calMaxint (cls : Fin 8)
  | gapStarved (cls : Fin 8)
  | calRequest (data : Word)
  | calDeferredStart
  | fgCalDone
  | calRecordCommit
  -- thermal
  | sensorSample (temps : List Int)
  | rateClampStop
  | sensorFault (n : Fin 12)
  | bandPend
  | bandWdrawn
  | bandChg
  | shutdownTrip (n : Fin 12)
  | keepAbort
  | shutdownPowerDown
  | resume
  -- memory integrity
  | ceWriteback (line : BitVec 21)
  | scrubVisit (unit : Fin 33)
  | flipArm (data : Word)
  | flipInject
  | eccLogPop (data : Word)
  | cxlReadComplete (e : Fin 64) (wave : Bool) (block : BitVec 24) (slot : BitVec 13) (data : List Byte) (poison : BitVec 4)
  -- the Keep
  | keepRecordCommit (readBackOk : Bool)
  | logReclaim (eraseOk : Bool)
  | keepBootScan
  | lifeHour
  | pwrfailFall
  | pwrfailRise
  | keepWriteResume
  -- firmware and the service port
  | begin (readBackOk : Bool)
  | lit (readBackOk : Bool)
  | copy (readBackOk : Bool)
  | activate
  | confirm
  | rollback
  | abort
  | restart
  | watchStart
  | svcId (len : BitVec 16)
  | svcNonce (len : BitVec 16)
  | svcUnlock (sig : List Byte)
  | svcReadKeep (addr : Word) (len : BitVec 16)
  | svcReadOtp (addr : Word) (len : BitVec 16)
  | svcReadReg (addr : Word) (len : BitVec 16)
  | svcFwCmd (op : Word) (args : List Word) (block : List Byte)
  | svcFwStat (len : BitVec 16)
  | svcRst
  -- host port and CXL port
  | hostLinkUp (rate : Fin 7) (width active : Fin 9) (flit : Bool) (pci : PciSettings)
  | hostLinkDown
  | flr
  | bar2Read (off : BitVec 26) (len : BitVec 13)
  | bar2Wr (off : BitVec 26)
  | queueEnable (q : Fin 64) (data : Word)
  | queueDisable (q : Fin 64) (data : Word)
  | sqDoorbell (q : Fin 64) (data : Word)
  | cqDoorbell (q : Fin 64) (data : Word)
  | h2c (q : Fin 64) (entry : List Byte) (turn : List Byte)
  | c2h (q : Fin 64) (entry : List Byte) (poisoned : List Nat)
  | ring (q : Fin 64) (entry : List Byte) (poisoned : List Nat)
  | nop (q : Fin 64) (entry : List Byte)
  | hostReadTimeout (q : Fin 64) (why : ReadEnd)
  | msixMessage (v : Fin 2048) (enable functionMask : Bool)
  | getVersion
  | getCapabilities
  | negotiateAlgorithms (req : List Byte)
  | getDigests
  | getCertificate (slot : Fin 8) (off : BitVec 16) (len : BitVec 16)
  | challenge (slot : Fin 8) (nonce : List Byte)
  | getMeasurements (index : BitVec 8)
  | keyExchange
  | cxlEnumerate (type3 : Bool) (mld : Bool) (capacity : BitVec 52) (timeout : Bool) (rate : Fin 7) (width : Fin 9)
  | cxlLinkDown
  | cxlEventPoll (events : BitVec 16)
  -- serial lanes
  | portBringup (p : Fin 9) (lanes : BitVec 4) (sweeps : List EyeSweep)
  | trainCell (p : Fin 9) (l : Fin 4) (cell : BitVec 224)
  | bringupTimeout (p : Fin 9)
  | bringupRetry (p : Fin 9)
  | portRetrain (p : Fin 9)
  | dfeAdapt (p : Fin 9) (l : Fin 4) (taps : List Int)
  | eyeSweepDone (p : Fin 9) (l : Fin 4) (sweep : EyeSweep)
  | lockLost (p : Fin 9) (l : Fin 4)
  | lanePresetCommit
  -- twin
  | attach
  | selSettle
  | attached
  | attachTimeout
  | detach
  | mirrorCell (l : Fin 4) (line : BitVec 224)
  | mirrorRequestApply
  | digestMissing (t : Fin 32)
  | handover (q : Fin 4)
  | hbLost
  -- the Watch
  | watchReset (watchdog : Bool)
  | setLimit
  | setLimitApply
  | keepCommit
  | hostFault
  | readFault
  | stopRun
  | stopRunImmediate
  | setAsset
  -- power, clocks and resets
  | powerOnReset
  | powerupStep (k : Fin 5)
  | railDrop (rail : Fin 7) (below85 : Bool)
  | fundamentalReset (perst : Bool)
  | deviceReset (data : Word)
  | tilePairSwitch (k : Fin 16)
  | tilePairUp (k : Fin 16)
  | wake
  | wakeStart
  | pllLock
  | clockGroupEnable (g : Fin 9)
  | awake
  | sleep
  | autoSleep
  | sleeping
  -- self-test
  | selftestRequest (data : Word)
  | selftestDeferredStart
  | selftestDone (items : List TestItem)
  -- reset and Keep completions
  | perstNRise
  | resetEnd
  | transactionCut
  | programOrEraseEnd
  deriving DecidableEq, Repr

end Sys2Proof
end

