-- ==== Sys2Proof/WellFormed.lean ====
section
/-! DEFINITION. Well-formed commands: the bounds on operands that their types do not state. An ill-formed command stands for nothing the outside world
can do; the meanings are total all the same. -/
namespace Sys2Proof

/-- An integer lies in a closed range. -/
def within (lo hi x : Int) : Bool := decide (lo ≤ x) && decide (x ≤ hi)

/-- Every value is a 12-bit ADC sample (R252). -/
def adcSamples (xs : List Int) : Bool := xs.all (within (-2048) 2047)

/-- Every offset is that of a 64-byte line (R485). -/
def lineOffsets (os : List Nat) : Bool := os.all (fun o => o % 64 == 0)

/-- The operands of a command lie within the bounds the spec gives them. -/
def WellFormed : Instr → Bool
  | .regWrite .. | .unmappedRead .. | .lowWordRead .. | .lowWordWrite .. | .highWordWrite .. | .unitQuery | .ncoFreqRead .. | .patchRdDataRead
  | .rdLastIRead .. | .eccLogRead | .tapDataRead | .refclkEdge .. => true
  | .syncInPulse pos => 1 ≤ pos.val && pos.val ≤ 20
  | .syncLoad | .syncGen | .syncOutPulseEnd | .refclkLost | .refclkRestored | .pllLockLost | .imgLoad => true
  | .imgCheckDone poisoned => lineOffsets poisoned
  | .imgCommit | .imgDiscard | .committingStart | .commitTick | .runStartRequest | .runCancel | .runStart | .runEnd | .play .. | .playEnd ..
  | .envLineTest .. | .setf .. | .shiftp .. | .flux .. | .mark .. | .acq .. | .disc .. | .send .. | .forkDeadline .. | .fork .. | .wait ..
  | .waitResume .. | .waitTimeout .. | .loop .. | .safe .. | .endOp .. | .safeVote .. | .safePointPass .. | .holdTimeout .. | .shotVoid ..
  | .voidNotice .. | .voidLimit .. | .jumpRequest .. | .jumpCancel .. | .outcomeDelivery .. | .lineFill .. | .invalidate .. | .safePass ..
  | .voidRoutine .. | .runStartRoutine .. | .runEndRoutine .. | .stopRoutine .. | .house .. | .qmaxClr .. | .cntClr .. | .microword .. | .escalate ..
  | .routineLong .. | .sampleGap .. | .commitOverrun .. | .patchLoad => true
  | .integrationEnd _ adc => adcSamples adc && adc.length % 4 = 0
  | .triggerEdge .. => true
  | .levelCrossing _ _ xs => adcSamples xs
  | .swtrig .. | .timerTrigger .. => true
  | .segmentEnd _ samples => adcSamples samples
  | .rearm .. => true
  | .streamBlock _ samples => adcSamples samples && samples.length = 160
  | .streamEnd _ samples => adcSamples samples && samples.length ≤ 160
  | .drainRecord | .drainEnable .. | .streamRingEnable .. | .decisionSend .. | .decisionCell .. | .slotDelivery .. | .relaySend .. | .statusCell ..
  | .voteCell .. | .aniseSend .. | .aniseRequest .. | .aniseGrant .. | .aniseCredit .. | .aniseForkResolve .. | .aniseTimeout .. | .rangeGainSwitch ..
  | .rangeClampRelease .. => true
  | .monitorVisit _ measured => within (-32768) 32767 measured
  | .outCfgWrite .. | .outCfgApply .. | .settleEnd .. | .bgEstimate .. | .calStep .. => true
  | .calStepDone _ _ first second => first.length = second.length
  | .calMaxint .. | .gapStarved .. | .calRequest .. | .calDeferredStart | .fgCalDone | .calRecordCommit => true
  | .sensorSample temps => temps.length = 12 && temps.all (within (-32768) 32767)
  | .rateClampStop | .sensorFault .. | .bandPend | .bandWdrawn | .bandChg | .shutdownTrip .. | .keepAbort | .shutdownPowerDown | .resume
  | .ceWriteback .. | .scrubVisit .. | .flipArm .. | .flipInject | .eccLogPop .. => true
  | .cxlReadComplete _ wave _ slot data _ => data.length = 256 && slot.toNat < (if wave then 6144 else 1024)
  | .keepRecordCommit .. | .logReclaim .. | .keepBootScan | .lifeHour | .pwrfailFall | .pwrfailRise | .keepWriteResume | .begin .. | .lit .. | .copy ..
  | .activate | .confirm | .rollback | .abort | .restart | .watchStart | .svcId _ | .svcNonce _ => true
  | .svcUnlock sig => sig.length = 96
  | .svcReadKeep .. | .svcReadOtp .. | .svcReadReg .. => true
  | .svcFwCmd _ args block => args.length ≤ 3 && block.length ≤ 4096
  | .svcFwStat _ | .svcRst | .hostLinkUp .. | .hostLinkDown | .flr => true
  | .bar2Read _ len => 0 < len.toNat
  | .bar2Wr .. | .queueEnable .. | .queueDisable .. | .sqDoorbell .. | .cqDoorbell .. => true
  | .h2c _ entry turn => entry.length = 64 && turn.length ≤ 4096
  | .c2h _ entry poisoned => entry.length = 64 && lineOffsets poisoned
  | .ring _ entry poisoned => entry.length = 64 && lineOffsets poisoned
  | .nop _ entry => entry.length = 64
  | .hostReadTimeout .. | .msixMessage .. | .getVersion | .getCapabilities | .negotiateAlgorithms .. | .getDigests | .getCertificate .. => true
  | .challenge _ nonce => nonce.length = 32
  | .getMeasurements .. | .keyExchange | .cxlEnumerate .. | .cxlLinkDown | .cxlEventPoll .. => true
  | .portBringup _ _ sweeps => sweeps.length ≤ 4 && sweeps.all (fun e => e.length = 3)
  | .trainCell .. | .bringupTimeout .. | .bringupRetry .. | .portRetrain .. => true
  | .dfeAdapt _ _ taps => taps.length = 14 && taps.all (within (-1) 1)
  | .eyeSweepDone _ _ sweep => sweep.length = 3
  | .lockLost .. | .lanePresetCommit | .attach | .selSettle | .attached | .attachTimeout | .detach | .mirrorCell ..
  | .mirrorRequestApply | .digestMissing .. | .handover .. | .hbLost | .watchReset .. | .setLimit | .setLimitApply | .keepCommit | .hostFault
  | .readFault | .stopRun | .stopRunImmediate | .setAsset | .powerOnReset | .powerupStep .. | .railDrop .. | .fundamentalReset .. | .deviceReset ..
  | .tilePairSwitch .. | .tilePairUp .. | .wake | .wakeStart | .pllLock | .clockGroupEnable .. | .awake | .sleep | .autoSleep | .sleeping
  | .selftestRequest .. | .selftestDeferredStart => true
  | .selftestDone items => items.all (fun x => match x with
      | .flux _ _ monitor => within (-32768) 32767 monitor
      | .lane _ _ eyeW => decide (eyeW.toNat ≤ 64)
      | _ => true)
  | .perstNRise | .resetEnd | .transactionCut | .programOrEraseEnd => true

end Sys2Proof
end

