-- ==== Sys2Proof/Decode.lean ====
section
/-! DEFINITION. The word form of the commands. The table of operations and events gives no row any bits: the commands reach the
block over its ports and pins, each in that port's own form, and no word spells one. The service port's form is a sequence of bytes. -/
namespace Sys2Proof

/-- The command that a word of `nbits` bits spells by the table's bits: none, since no row of the table has bits. -/
def decodeTableWord (_nbits _w : Nat) : Option Instr := none

/-- The number that little-endian bytes spell (R4). -/
def svcNat (bs : List Byte) : Nat := bs.foldr (fun b n => b.toNat + 256 * n) 0

/-- The command that a service-port transaction spells (R546, R547): a command byte, a 4-byte address, a 2-byte length, and the data bytes of a write.
A transaction that ends before these are complete is cut (R549); a command byte that no command has is answered BAD_CMD, and is no row of the table. -/
def svcTransaction (bs : List Byte) : Option Instr :=
  let addr := BitVec.ofNat 32 (svcNat ((bs.drop 1).take 4))
  let len := BitVec.ofNat 16 (svcNat ((bs.drop 5).take 2))
  let data := (bs.drop 7).take len.toNat
  let word := fun (k : Nat) => BitVec.ofNat 32 (svcNat ((data.drop (4 * k)).take 4))
  match bs with
  | [] => some .transactionCut
  | c :: _ =>
    let write := c == 0x03 || c == 0x20
    if bs.length < 7 || (write && data.length < len.toNat) then some .transactionCut
    else match c.toNat with
      | 0x01 => some (.svcId len)
      | 0x02 => some (.svcNonce len)
      | 0x03 => some (.svcUnlock data)
      | 0x10 => some (.svcReadKeep addr len)
      | 0x11 => some (.svcReadOtp addr len)
      | 0x12 => some (.svcReadReg addr len)
      | 0x20 => some (.svcFwCmd (word 0) [word 1, word 2, word 3] (data.drop 16))
      | 0x21 => some (.svcFwStat len)
      | _ => none

end Sys2Proof
end

