-- ==== Sys2Proof/Machine/Bank.lean ====
section
/-! DEFINITION. The named operations over a sparse table (Bank): read, write, write of a run of keys, drop of a range.
An unlisted key reads as the default the caller names; a write of the default removes the entry, so equal tables are
equal lists. -/
namespace Sys2Proof.Machine

/-- What key `k` reads as: its entry, or `d k` where none is listed. -/
def bget {α : Type} (d : Nat → α) : Bank α → Nat → α
  | [], k => d k
  | (a, x) :: r, k => if a = k then x else bget d r k

/-- The table without key `k`. -/
def bdel {α : Type} (k : Nat) (m : Bank α) : Bank α := m.filter (fun c => c.1 != k)

/-- The table with the entry `(k, v)` put before the first greater key. -/
def bins {α : Type} (k : Nat) (v : α) : Bank α → Bank α
  | [] => [(k, v)]
  | (a, x) :: r => if k < a then (k, v) :: (a, x) :: r else (a, x) :: bins k v r

/-- Write `v` at key `k`. Writing what an unlisted key reads as removes the entry. -/
def bset {α : Type} [DecidableEq α] (d : Nat → α) (m : Bank α) (k : Nat) (v : α) : Bank α :=
  if v = d k then bdel k m else bins k v (bdel k m)

/-- The entries of a run of values from key `k` on, without those equal to the default. -/
def brun {α : Type} [DecidableEq α] (d : Nat → α) : Nat → List α → Bank α
  | _, [] => []
  | k, v :: r => if v = d k then brun d (k + 1) r else (k, v) :: brun d (k + 1) r

/-- Drop every entry whose key lies in `[lo, hi)`: those keys read as the default again. -/
def bdrop {α : Type} (lo hi : Nat) (m : Bank α) : Bank α := m.filter (fun c => c.1 < lo || hi ≤ c.1)

/-- Write a run of values at keys `k, k+1, …`. -/
def bsplice {α : Type} [DecidableEq α] (d : Nat → α) (m : Bank α) (k : Nat) (vs : List α) : Bank α :=
  m.filter (fun c => c.1 < k) ++ brun d k vs ++ m.filter (fun c => k + vs.length ≤ c.1)

/-- The values at `n` keys from `k` on. -/
def bvals {α : Type} (d : Nat → α) (m : Bank α) : Nat → Nat → List α
  | _, 0 => []
  | k, n + 1 => bget d m k :: bvals d m (k + 1) n

/-- A run of `n` values from key `k` on; only the entries of the run are looked at. -/
def bread {α : Type} (d : Nat → α) (m : Bank α) (k n : Nat) : List α := bvals d (m.filter (fun c => decide (k ≤ c.1) && decide (c.1 < k + n))) k n

/-- Every key of the table is above `k` and the keys rise strictly. -/
def bsorted {α : Type} : Bank α → Bool
  | [] => true
  | [_] => true
  | (a, _) :: (b, y) :: r => a < b && bsorted ((b, y) :: r)

/-- The canonical form: keys strictly rising, no entry equal to the default. -/
def bwf {α : Type} [DecidableEq α] (d : Nat → α) (m : Bank α) : Bool :=
  bsorted m && m.all (fun c => c.2 ≠ d c.1)

/-- Little-endian value of a run of bytes (R4). -/
def leNat : List Byte → Nat
  | [] => 0
  | b :: r => b.toNat + 256 * leNat r

/-- The `n` little-endian bytes of a number. -/
def leBytes : Nat → Nat → List Byte
  | 0, _ => []
  | n + 1, v => BitVec.ofNat 8 v :: leBytes n (v / 256)

/-- Bits [hi:lo] of a number. -/
def bitsOf (v hi lo : Nat) : Nat := (v / 2 ^ lo) % 2 ^ (hi - lo + 1)

/-- The two's complement value of the low `w` bits of `v`. -/
def signedOf (w v : Nat) : Int := if v % 2 ^ w < 2 ^ (w - 1) then (v % 2 ^ w : Nat) else ((v % 2 ^ w : Nat) : Int) - (2 ^ w : Nat)

/-- The `w`-bit two's complement pattern of an integer. -/
def patternOf (w : Nat) (v : Int) : Nat := (v % (2 ^ w : Nat)).toNat

/-- An event counter of width `w` counts one more and saturates (R7). -/
def satInc (w v : Nat) : Nat := if v + 1 < 2 ^ w then v + 1 else 2 ^ w - 1

/-- An event counter of width `w` counts `n` more and saturates (R7). -/
def satAdd (w v n : Nat) : Nat := if v + n < 2 ^ w then v + n else 2 ^ w - 1

end Sys2Proof.Machine
end

