-- ==== Sys2Proof/Machine/Flags.lean ====
section
/-! DEFINITION. The arithmetic of the signal path: the sine table and phase to cosine and sine (R111, R127, R128), the
envelope interpolator (R132 to R134), mixing and summing (R136, R137), read-out integration and discrimination
(R262 to R264), and the measurements of a capture segment (R294). -/
namespace Sys2Proof.Machine

/-- Saturation to `[lo, hi]`. -/
def satI (lo hi x : Int) : Int := if x < lo then lo else if hi < x then hi else x

/-- π × 2^96, truncated. -/
def piFix : Int := 0x3243F6A8885A308D313198A2E

/-- Terms of the sine series still to add: `t` is the last term, scaled by 2^96, `x` the angle. -/
def sinSeries (x : Int) : Nat → Nat → Int → Int → Int
  | 0, _, _, acc => acc
  | n + 1, k, t, acc =>
    let t' := -(t * x / 2 ^ 96) * x / 2 ^ 96 / ((2 * k) * (2 * k + 1) : Nat)
    sinSeries x n (k + 1) t' (acc + t')

/-- The sine of an angle, both scaled by 2^96, for angles up to a quarter turn. -/
def sinFix (x : Int) : Int := sinSeries x 15 1 x x

/-- Entry `i` of the sine table, for i from 0 to 4,096 (R127). -/
def sineEntry (i : Nat) : Int := (sinFix (piFix * i / 8192) * 2 ^ 17 + 2 ^ 95) / 2 ^ 96

/-- The interpolated quarter-wave sine of R128; `u` in [0, 2^22]. -/
def qsin (u : Nat) : Int :=
  let i := u / 1024
  let fr := u % 1024
  if fr = 0 then sineEntry i
  else sineEntry i + ((sineEntry (i + 1) - sineEntry i) * fr + 512) / 1024

/-- Cosine and sine of a 32-bit phase (R128). -/
def cossin (p32 : Nat) : Int × Int :=
  let u := p32 / 256 % 2 ^ 22
  let v := 2 ^ 22 - u
  match p32 / 2 ^ 30 % 4 with
  | 0 => (qsin v, qsin u)
  | 1 => (-qsin u, qsin v)
  | 2 => (-qsin v, -qsin u)
  | _ => (qsin u, -qsin v)

/-- The phase of a frame with words F, Θ, E at sample `k` of tick `t` (R111). -/
def phaseOf (f theta : Nat) (e t : BitVec 64) (k : Nat) : Nat :=
  let n := (8 * (t - e).toNat + k) % 2 ^ 64
  (f * n + theta * 2 ^ 16) % 2 ^ 48 / 2 ^ 16

/-! The interpolator -/

/-- Division to nearest, ties upward, then saturation to 18 bits (R133). -/
def interRound (sum div : Int) : Int := satI (-131072) 131071 ((2 * sum + div) / (2 * div))

/-- Weighted sum of `xs j` for the coefficients from index `j` on. -/
def tapSum (xs : Int → Int) : Int → List Int → Int
  | _, [] => 0
  | j, c :: r => c * xs j + tapSum xs (j + 1) r

/-- One stage (R132): index 2j passes x[j] through, index 2j + 1 lies midway between x[j] and x[j+1]. -/
def interStage (coef : List Int) (div : Int) (xs : Int → Int) (i : Int) : Int :=
  if i % 2 = 0 then xs (i / 2)
  else interRound (tapSum xs (i / 2 - (coef.length / 2 - 1 : Nat)) coef) div

/-- The envelope at n + k/8 ticks, where `i` is 8n + k (R132). -/
def interpolate (xs : Int → Int) (i : Int) : Int :=
  interStage [-1, 9, 9, -1] 16
    (interStage [3, -25, 150, 150, -25, 3] 256
      (interStage [-5, 49, -245, 1225, 1225, -245, 49, -5] 2048 xs)) i

/-- A mixer's contribution before and after its saturation (R136). -/
def mixRaw (eI eQ c s g : Int) : Int := ((eI * c - eQ * s) * g + 2 ^ 29) / 2 ^ 30

def mixOut (eI eQ c s g : Int) : Int := satI (-131072) 131071 (mixRaw eI eQ c s g)

/-- An output's code before and after its saturation (R137). -/
def dacRaw (acc : Int) : Int := (acc + 8) / 16

def dacCode (acc : Int) : Int := satI (-8192) 8191 (dacRaw acc)

/-! Read-out -/

/-- One ADC sample's addition to the accumulators (R262). -/
def integStep (acc : Int × Int) (x c s wI wQ : Int) : Int × Int :=
  let yI := x * c
  let yQ := -x * s
  (acc.1 + (yI * wI + yQ * wQ + 2 ^ 30) / 2 ^ 31, acc.2 + (yQ * wI - yI * wQ + 2 ^ 30) / 2 ^ 31)

def sat32 (x : Int) : Int := satI (-2147483648) 2147483647 x

/-- Output scaling before saturation (R263). -/
def integScale (acc : Int) (oshift : Nat) : Int := (acc + (if oshift = 0 then 0 else 2 ^ (oshift - 1))) / 2 ^ oshift

/-- The state code of a point (R264). -/
def discriminate (i q : Int) (c0 c1 c2 : Int × Int) (twoState : Bool) (radius : Nat) (clipInvalid clipped : Bool) : Nat :=
  let dist := fun (c : Int × Int) => (i - c.1) * (i - c.1) + (q - c.2) * (q - c.2)
  let r0 := (0, dist c0)
  let r1 := if dist c1 < r0.2 then (1, dist c1) else r0
  let r2 := if !twoState && decide (dist c2 < r1.2) then (2, dist c2) else r1
  let code := if radius ≠ 0 && decide ((radius * radius : Nat) < r2.2) then 3 else r2.1
  if clipInvalid && clipped then 3 else code

/-! Measurements -/

/-- The integer square root, by bits from `n` down. -/
def isqrtBits (v : Nat) : Nat → Nat → Nat
  | 0, r => r
  | n + 1, r => let c := r + 2 ^ n; isqrtBits v n (if c * c ≤ v then c else r)

def isqrt (v : Nat) : Nat := isqrtBits v 48 0

/-- The angle (k - 1/2) × 2^-16 turn, scaled by 2^96, is not above that of the point (x, y), 0 ≤ y ≤ x. -/
def angleReaches (x y : Nat) (k : Nat) : Bool :=
  let th := piFix * (2 * k - 1 : Int) / 65536
  let s := sinFix th
  let c := sinFix (piFix / 2 - th)
  (x : Int) * s ≤ (y : Int) * c

/-- The nearest multiple of 2^-16 turn to the angle of (x, y), 0 ≤ y ≤ x, by bits. -/
def octantBits (x y : Nat) : Nat → Nat → Nat
  | 0, r => r
  | n + 1, r => let k := r + 2 ^ n; octantBits x y n (if k ≤ 8192 && angleReaches x y k then k else r)

/-- atan2(Q, I) in 2^-16 turn, rounded to nearest, modulo 2^16; 0 for the origin (R294). -/
def phase16 (i q : Int) : Nat :=
  let x := i.natAbs
  let y := q.natAbs
  if x = 0 && y = 0 then 0
  else
    let a := if y ≤ x then octantBits x y 14 0 else 16384 - octantBits y x 14 0
    let a := if i < 0 then 32768 - a else a
    (if q < 0 then 65536 - a else a) % 65536

/-- A threshold detector (R277): armed, the previous sample if any, crossings so far as positions in sixteenths. -/
structure Detector where
  armed : Bool := false
  prev : Option Int := none
  hits : List Int := []
  deriving DecidableEq, Repr

/-- One sample, at position `n`, of a detector of rising crossings of `lvl` (R277). A detector of falling crossings is this
one on samples and level of the opposite sign. -/
def detRise (lvl hyst : Int) (d : Detector) (n : Nat) (x : Int) : Detector :=
  match d.prev with
  | some p =>
    if d.armed && decide (p < lvl) && decide (lvl ≤ x) then
      { armed := false, prev := some x, hits := d.hits ++ [16 * ((n : Int) - 1) + 16 * (lvl - p) / (x - p)] }
    else { d with armed := d.armed || decide (x ≤ lvl - hyst), prev := some x }
  | none => { d with armed := d.armed || decide (x ≤ lvl - hyst), prev := some x }

/-- A status summary without its flag bits [15:9] (R46). -/
def dropFlags (x : Nat) : Nat := x - x / 2 ^ 9 % 128 * 2 ^ 9

end Sys2Proof.Machine
end

