-- ==== Sys2Proof/Config.lean ====
section
/-! DEFINITION. What one part fixes and the spec does not publish (factory identity, mask ROM), and the free values: constants
with no body, applied to a counter the state holds or to the operands they depend on. Nothing can be proved of them. -/
namespace Sys2Proof

/-- The bytes of the one-time-programmable region (R496), programmed and locked at factory test: unknown to the model. -/
opaque Config.otp : Nat → Byte

/-- The bytes of firmware slot A as the factory wrote it (R529): block `i` at byte 4,096 `i`; from byte 2^25 on, bytes 4 to 15 of its descriptor. -/
opaque Config.firmware : Nat → Byte

/-- What the part has put at an address of the state bus, among the contents of its region (R224): the spec gives no address within a region. -/
opaque Config.busPlace : Nat → Nat

/-- Which byte of the image tables, taken section after section, the part keeps at a byte of their region of the state SRAM (R456): the spec gives that
region no layout. -/
opaque Config.tablePlace : Nat → Nat

/-- Which byte of the coefficient data the part keeps at a byte address of the coefficient lines of the state SRAM (R456): the spec gives that region no
layout. -/
opaque Config.coefPlace : Nat → Nat

/-- A byte the spec leaves open, of use number `n` and by address. -/
opaque Config.freeByte : Nat → Nat → Byte

/-- A value the spec leaves open, of use number `n` (a counter the state holds and every use advances). -/
opaque Config.freeValue : Nat → Nat

end Sys2Proof
end

