-- ==== Sys2Proof/Machine/Otp.lean ====
section
/-! DEFINITION. CRC-32C (R477), and the one-time-programmable region (R496) with the identity of the part that it holds (R650). -/
namespace Sys2Proof

namespace Machine

/-! CRC-32C -/

/-- One bit step of the reflected polynomial of R477. -/
def crcBit (c : Nat) : Nat := if c % 2 = 1 then (c / 2) ^^^ 0x82F63B78 else c / 2

def crcByte (c : Nat) (b : Byte) : Nat := crcBit (crcBit (crcBit (crcBit (crcBit (crcBit (crcBit (crcBit (c ^^^ b.toNat))))))))

/-- CRC-32C of a run of bytes (R477). -/
def crc32c (bs : List Byte) : Nat := bs.foldl crcByte 0xFFFFFFFF ^^^ 0xFFFFFFFF

/-! The one-time-programmable region (R496) -/

/-- A run of its bytes. -/
def otpBytes (a n : Nat) : List Byte := (List.range n).map (fun i => Config.otp (a + i))

/-- The record at an offset fits its slot and its header checks. -/
def otpGood (a size : Nat) : Bool :=
  let len := leNat (otpBytes (a + 8) 4)
  decide (16 + len ≤ size) && crc32c (otpBytes a 12 ++ otpBytes (a + 16) len) == leNat (otpBytes (a + 12) 4)

/-- Body of the record at an offset, where its header checks. -/
def otpRecord (a size : Nat) : Option (List Byte) := if otpGood a size then some (otpBytes (a + 16) (leNat (otpBytes (a + 8) 4))) else none

/-- Offset of the copy of the IDENT record that the Watch uses: the first whose header checks; with both bad, copy A (DESIGN CHOICE, log 213). -/
def otpIdent : Nat := if otpGood 0 0x1000 then 0 else if otpGood 0x1000 0x1000 then 0x1000 else 0

/-- Both copies of the IDENT record fail. -/
def identBad : Bool := !otpGood 0 0x1000 && !otpGood 0x1000 0x1000

end Machine

/-! The identity of the part (R650) -/

/-- A byte of the factory IDENT record's body, where the spec does not fix it; its record header is 16 bytes. -/
def Config.factoryByte (i : Nat) : Byte := Config.otp (Machine.otpIdent + 16 + i)

/-- Byte `i` of the factory IDENT body (R650): the bytes the spec fixes, and the part's own elsewhere. -/
def Config.identByte (i : Nat) : Byte :=
  if i = 0 then 0x01
  else if i = 4 then 0x16
  else if i = 5 then 0x44
  else if i = 6 || i = 7 || (28 ≤ i && i < 32) || (226 ≤ i && i < 256) then 0
  else Config.factoryByte i

/-- Word `k` of the IDENT window (chapter 20), little-endian (R4). -/
def Config.identWord (k : Nat) : Nat :=
  (Config.identByte (4 * k)).toNat + 0x100 * (Config.identByte (4 * k + 1)).toNat
    + 0x10000 * (Config.identByte (4 * k + 2)).toNat + 0x1000000 * (Config.identByte (4 * k + 3)).toNat

end Sys2Proof
end

