-- ==== Sys2Proof/Machine/Regs.lean ====
section
/-! DEFINITION. The register map of the block (chapter 23 and the register tables of every chapter): one name per field
with its offset, its bits, its access code (R16) and its reset value, and the table from which a write or a read finds
the register at an offset. BAR0 registers stand at their offset; BAR4 registers (R556) at 0x1000000 plus theirs. -/
namespace Sys2Proof.Machine

/-- The access codes of R16 that a field of the register map carries (no field carries RC). -/
inductive Acc where
  | ro | rw | w1c | w1s | wo | wl
  deriving DecidableEq, Repr

/-- A register field: its register's offset, its bits [hi:lo], its access code and its reset value. -/
structure Fld where
  off : Nat
  hi : Nat
  lo : Nat
  acc : Acc
  rst : Nat
  deriving DecidableEq, Repr

/-- The width of a field. -/
def Fld.width (F : Fld) : Nat := F.hi - F.lo + 1

/-- The key under which the register file holds a field: 32 per offset, plus its lowest bit. -/
def Fld.key (F : Fld) : Nat := F.off * 32 + F.lo

/-- Offset in the tile blocks of local replica `i % per` of tile `i / per` (R696, the tile table of chapter 23). -/
def tileOff (per base stride i : Nat) : Nat := 0x100000 + 0x20000 * (i / per) + base + stride * (i % per)

/-- Reset of GLB_WIN_SEL[a].BASE (chapter 17). -/
def winSelReset (a : Nat) : Nat := if a = 0 then 0x40 else if a = 1 then 0x50 else if a = 2 then 0x60 else 0

/-- The registers of the part, by name. -/
inductive Reg where
  | GLB_ID | GLB_ACC_ERR | GLB_ACC_ADDR | GLB_RUN_CTL | GLB_RUN_STAT | GLB_UNIT_SELF | GLB_UNIT_QSEL | GLB_UNIT_QSTAT 
  | GLB_UNIT_QEPOCH_LO | GLB_UNIT_QEPOCH_HI | GLB_UNIT_QINFO | GLB_IMG_BASE_LO | GLB_IMG_BASE_HI | GLB_IMG_LEN 
  | GLB_IMG_CTL | GLB_IMG_STAT | GLB_IMG_ERR_OFF | GLB_IMG_ACT_ID_LO | GLB_IMG_ACT_ID_HI | GLB_IMG_PEND_ID_LO | GLB_IMG_PEND_ID_HI 
  | GLB_IMG_COMMIT_EPOCH_LO | GLB_IMG_COMMIT_EPOCH_HI | TB_EPOCH_LO | TB_EPOCH_HI | TB_CTL | TB_SYNC_LOAD_LO | TB_SYNC_LOAD_HI 
  | TB_SYNC_DELAY | TB_STAT | TB_SYNC_POS | ENG_ROM_ID | ENG_PATCH_ID | ENG_PATCH_STAT | ENG_PATCH_RD_SEL | ENG_PATCH_RD_DATA 
  | ACQ_TIN_STAT | ACQ_SWTRIG | ACQ_TIN_SKEW | ACQ_TRIG_CNT | ACQ_DRAIN_BASE_LO | ACQ_DRAIN_BASE_HI | ACQ_DRAIN_SIZE 
  | ACQ_DRAIN_WPTR | ACQ_DRAIN_RPTR | ACQ_DRAIN_CTL | ACQ_DRAIN_STAT | ACQ_STRM_BASE_LO | ACQ_STRM_BASE_HI | ACQ_STRM_SIZE 
  | ACQ_STRM_WPTR | ACQ_STRM_RPTR | ACQ_STRM_CTL | ACQ_STRM_STAT | MON_WIN | MON_STAT | MON_LAPS | CAL_REQ | CAL_REQ_STAT 
  | CAL_STAT | CAL_EVT | CAL_CNT | CAL_TCFG | CAL_KEEP_SEQ | CAL_SRC | GLB_INT_STAT | GLB_WIN_SEL | GLB_DEV_EVT 
  | WATCH_REQ | WATCH_ARG0 | WATCH_ARG1 | WATCH_RESP | WATCH_EVT | GLB_ST_REQ | GLB_ST_BG_LO | GLB_ST_BG_HI | GLB_ST_CXL_BASE_LO 
  | GLB_ST_CXL_BASE_HI | GLB_ST_CXL_LEN | GLB_ST_STAT | GLB_ST_FAIL | GLB_ST_FAIL_ADDR_LO | GLB_ST_FAIL_ADDR_HI 
  | GLB_ST_TMAP | GLB_ST_EMAP_LO | GLB_ST_EMAP_HI | GLB_ST_CONV | GLB_ST_LANE | GLB_ST_FAILCNT | THM_SENS | THM_MAX 
  | THM_STAT | THM_EVT | THM_CTL | THM_RATE_LIM | THM_PEAK | PWR_CTL | PWR_STAT | PWR_DOM_STAT | PWR_TILE_CTL | PWR_TILE_STAT 
  | PWR_EVT | PWR_RST_CTL | PWR_RST | ECC_EVT | ECC_LOG_STAT | ECC_LOG_W0 | ECC_LOG_W1 | ECC_LOG_EPOCH_LO | ECC_LOG_EPOCH_HI 
  | ECC_LOG_POP | ECC_CNT | ECC_FLIP_CTL | ECC_FLIP_POS | ECC_FLIP_DATA_LO | ECC_FLIP_DATA_HI | ECC_CXL_STAT | SCRUB_CTL 
  | SCRUB_STAT | SCRUB_LAPS | LNK_HOST_STAT | LNK_HOST_EVT | LNK_CXL_STAT | LNK_CXL_EVT | LNK_CXL_CNT | LNK_PORT_CTL 
  | LNK_PORT_STAT | LNK_PORT_CAP | LNK_PORT_EVT | LNK_LANE_STAT | LNK_TAP_SEL | LNK_TAP_DATA | LNK_SER_CTL | TWIN_STAT 
  | TWIN_CTL | TWIN_EVT | TWIN_CNT | TWIN_CFG | TWIN_LAST | TWIN_HO_EPOCH_LO | TWIN_HO_EPOCH_HI | FAB_STAT | FAB_START_LO 
  | FAB_START_HI | FAB_EVT | FAB_CNT | FAB_ANISE | FAB_PORT_STAT | FAB_PORT_ERR | FAB_PORT_LOST | WATCH_STAT | WATCH_DENY_CNT 
  | WATCH_DENY_ADDR | WATCH_DISC | IDENT | WATCH_FLT | KEEP_STAT | KEEP_WEAR | KEEP_EVT | KEEP_CNT | KEEP_SEQ | KEEP_ERASE 
  | KEEP_BOOT | FW_CMD | FW_ARG0 | FW_ARG1 | FW_ARG2 | FW_STAT | FW_SLOT | FW_VER | FW_MINSVN | FW_BUF | NCO_FREQ_LO 
  | NCO_FREQ_HI | NCO_PHASE | NCO_REF_LO | NCO_REF_HI | NCO_STAT | NCO_MIX_STAT | NCO_OUT_STAT | NCO_OUT_CFG | SCH_STAT 
  | SCH_SEG | SCH_SHOT_LO | SCH_SHOT_HI | SCH_JUMP_REQ | SCH_JUMP_STATUS | SCH_JUMP_EPOCH_LO | SCH_JUMP_EPOCH_HI 
  | SCH_EVT | SCH_CNT | SCH_HOLD | SCH_PORT_PRES | ENG_CTL | ENG_STAT | ENG_FAULT | ENG_EVT | ENG_CNT | ENG_LINES 
  | ENG_QUEUE | ENG_MATCH | RD_DSTAT | RD_LAST_I | RD_LAST_Q | RD_CNT | RD_EVT | RD_RECQ | ACQ_STAT | ACQ_EVT | ACQ_ARM_ERR 
  | ACQ_CNT | ACQ_FORCE | ACQ_SKEW_ADC | ACQ_RECMEM | FLX_OUT_STAT | FLX_HELD | FLX_MON | FLX_MON_CNT | FLX_EVT 
  | FLX_MARK | CAL_ADC_Q | CAL_AGE | CAL_DAC_Q | CAL_FLX_Q | LNK_SQ_BASE_LO | LNK_SQ_BASE_HI | LNK_CQ_BASE_LO | LNK_CQ_BASE_HI 
  | LNK_Q_CFG | LNK_Q_CTL | LNK_Q_STAT | MSIX | LNK_SQ_TAIL | LNK_CQ_HEAD 
  deriving DecidableEq, Repr

/-- One row of the register map: the register, its first offset, its replication as (stride, count) from the outermost,
how many replicas one tile holds (0 outside the tile blocks), and its fields for given indices. -/
structure RegSpec where
  reg : Reg
  base : Nat
  dims : List (Nat × Nat)
  per : Nat
  flds : List Nat → List Fld

namespace R
def GLB_ID.PART : Fld := ⟨0x0, 31, 16, .ro, 0x4416⟩
def GLB_ID.STEP : Fld := ⟨0x0, 15, 8, .ro, (Config.identByte 1).toNat⟩
def GLB_ID.MAP : Fld := ⟨0x0, 7, 0, .ro, 1⟩
def GLB_ACC_ERR.MULTI : Fld := ⟨0x4, 31, 31, .w1c, 0⟩
def GLB_ACC_ERR.OFF : Fld := ⟨0x4, 30, 30, .w1c, 0⟩
def GLB_ACC_ERR.RSVD_ENC : Fld := ⟨0x4, 2, 2, .w1c, 0⟩
def GLB_ACC_ERR.UNMAPPED : Fld := ⟨0x4, 1, 1, .w1c, 0⟩
def GLB_ACC_ERR.NARROW : Fld := ⟨0x4, 0, 0, .w1c, 0⟩
def GLB_ACC_ADDR.OFFSET : Fld := ⟨0x8, 23, 0, .ro, 0⟩
def GLB_RUN_CTL.START : Fld := ⟨0x10, 31, 31, .w1s, 0⟩
def GLB_RUN_CTL.CANCEL : Fld := ⟨0x10, 30, 30, .w1s, 0⟩
def GLB_RUN_STAT.RUNNING : Fld := ⟨0x14, 31, 31, .ro, 0⟩
def GLB_RUN_STAT.PENDING : Fld := ⟨0x14, 30, 30, .ro, 0⟩
def GLB_RUN_STAT.REFUSED : Fld := ⟨0x14, 29, 29, .w1c, 0⟩
def GLB_RUN_STAT.DUP : Fld := ⟨0x14, 28, 28, .w1c, 0⟩
def GLB_RUN_STAT.REFUSE : Fld := ⟨0x14, 23, 16, .ro, 0⟩
def GLB_RUN_STAT.RUNS : Fld := ⟨0x14, 15, 0, .ro, 0⟩
def GLB_UNIT_SELF.VALID : Fld := ⟨0x100, 31, 31, .ro, 0⟩
def GLB_UNIT_SELF.DEV : Fld := ⟨0x100, 23, 16, .ro, 0⟩
def GLB_UNIT_SELF.UNIT_ID : Fld := ⟨0x100, 15, 0, .ro, 0x6000⟩
def GLB_UNIT_QSEL.NAME : Fld := ⟨0x104, 23, 0, .rw, 0x6000⟩
def GLB_UNIT_QSTAT.SUMMARY : Fld := ⟨0x108, 31, 0, .ro, 0x20000000⟩
def GLB_UNIT_QEPOCH_LO.EPOCH : Fld := ⟨0x10c, 31, 0, .ro, 0⟩
def GLB_UNIT_QEPOCH_HI.EPOCH : Fld := ⟨0x110, 31, 0, .ro, 0⟩
def GLB_UNIT_QINFO.NOUNIT : Fld := ⟨0x114, 31, 31, .ro, 0⟩
def GLB_UNIT_QINFO.REMOTE : Fld := ⟨0x114, 30, 30, .ro, 0⟩
def GLB_UNIT_QINFO.MEMBERS : Fld := ⟨0x114, 23, 16, .ro, 0⟩
def GLB_UNIT_QINFO.AGE : Fld := ⟨0x114, 15, 0, .ro, 0⟩
def GLB_IMG_BASE_LO.ADDR : Fld := ⟨0x200, 31, 12, .rw, 0⟩
def GLB_IMG_BASE_HI.ADDR : Fld := ⟨0x204, 8, 0, .rw, 0⟩
def GLB_IMG_LEN.LEN : Fld := ⟨0x208, 31, 0, .rw, 0⟩
def GLB_IMG_CTL.DISCARD : Fld := ⟨0x20c, 2, 2, .w1s, 0⟩
def GLB_IMG_CTL.COMMIT : Fld := ⟨0x20c, 1, 1, .w1s, 0⟩
def GLB_IMG_CTL.LOAD : Fld := ⟨0x20c, 0, 0, .w1s, 0⟩
def GLB_IMG_STAT.LOAD_STATE : Fld := ⟨0x210, 31, 30, .ro, 0⟩
def GLB_IMG_STAT.COMMIT_HELD : Fld := ⟨0x210, 29, 29, .ro, 0⟩
def GLB_IMG_STAT.ACTIVE : Fld := ⟨0x210, 28, 28, .ro, 0⟩
def GLB_IMG_STAT.PLAN_MISMATCH : Fld := ⟨0x210, 27, 27, .ro, 0⟩
def GLB_IMG_STAT.SECTION : Fld := ⟨0x210, 23, 16, .ro, 0⟩
def GLB_IMG_STAT.CODE : Fld := ⟨0x210, 7, 0, .ro, 0⟩
def GLB_IMG_ERR_OFF.OFFSET : Fld := ⟨0x214, 31, 0, .ro, 0⟩
def GLB_IMG_ACT_ID_LO.VALUE : Fld := ⟨0x218, 31, 0, .ro, 0⟩
def GLB_IMG_ACT_ID_HI.VALUE : Fld := ⟨0x21c, 31, 0, .ro, 0⟩
def GLB_IMG_PEND_ID_LO.VALUE : Fld := ⟨0x220, 31, 0, .ro, 0⟩
def GLB_IMG_PEND_ID_HI.VALUE : Fld := ⟨0x224, 31, 0, .ro, 0⟩
def GLB_IMG_COMMIT_EPOCH_LO.VALUE : Fld := ⟨0x228, 31, 0, .ro, 0⟩
def GLB_IMG_COMMIT_EPOCH_HI.VALUE : Fld := ⟨0x22c, 31, 0, .ro, 0⟩
def TB_EPOCH_LO.EPOCH : Fld := ⟨0x300, 31, 0, .ro, 0⟩
def TB_EPOCH_HI.EPOCH : Fld := ⟨0x304, 31, 0, .ro, 0⟩
def TB_CTL.SOUT_MODE : Fld := ⟨0x308, 5, 4, .rw, 0⟩
def TB_CTL.SYNC_GEN : Fld := ⟨0x308, 3, 3, .w1s, 0⟩
def TB_CTL.SYNC_ARM : Fld := ⟨0x308, 0, 0, .rw, 0⟩
def TB_SYNC_LOAD_LO.LOAD : Fld := ⟨0x30c, 31, 0, .rw, 0⟩
def TB_SYNC_LOAD_HI.LOAD : Fld := ⟨0x310, 31, 0, .rw, 0⟩
def TB_SYNC_DELAY.DELAY : Fld := ⟨0x314, 7, 0, .rw, 1⟩
def TB_STAT.AWAKE : Fld := ⟨0x318, 31, 31, .ro, 0⟩
def TB_STAT.LOCKED : Fld := ⟨0x318, 30, 30, .ro, 0⟩
def TB_STAT.REF_OK : Fld := ⟨0x318, 29, 29, .ro, 0⟩
def TB_STAT.SYNCED : Fld := ⟨0x318, 28, 28, .ro, 0⟩
def TB_STAT.SYNC_OK : Fld := ⟨0x318, 27, 27, .ro, 0⟩
def TB_STAT.SLIP : Fld := ⟨0x318, 20, 20, .w1c, 0⟩
def TB_STAT.REF_LOST : Fld := ⟨0x318, 19, 19, .w1c, 0⟩
def TB_STAT.SYNC_IGNORED : Fld := ⟨0x318, 18, 18, .w1c, 0⟩
def TB_STAT.SYNC_MARGIN : Fld := ⟨0x318, 17, 17, .w1c, 0⟩
def TB_STAT.NOSYNC_RUN : Fld := ⟨0x318, 16, 16, .w1c, 0⟩
def TB_STAT.SYNC_COUNT : Fld := ⟨0x318, 15, 0, .ro, 0⟩
def TB_SYNC_POS.VALID : Fld := ⟨0x31c, 31, 31, .ro, 0⟩
def TB_SYNC_POS.POS : Fld := ⟨0x31c, 4, 0, .ro, 0⟩
def ENG_ROM_ID.ID : Fld := ⟨0x400, 31, 0, .ro, 0x10000⟩
def ENG_PATCH_ID.ID : Fld := ⟨0x404, 31, 0, .wl, 0⟩
def ENG_PATCH_STAT.LOADED : Fld := ⟨0x408, 31, 31, .wl, 0⟩
def ENG_PATCH_STAT.PENDING : Fld := ⟨0x408, 30, 30, .wl, 0⟩
def ENG_PATCH_STAT.REFUSED : Fld := ⟨0x408, 29, 29, .wl, 0⟩
def ENG_PATCH_STAT.REASON : Fld := ⟨0x408, 23, 16, .wl, 0⟩
def ENG_PATCH_STAT.WORDS : Fld := ⟨0x408, 9, 0, .wl, 0⟩
def ENG_PATCH_RD_SEL.ENGINE : Fld := ⟨0x40c, 21, 16, .rw, 0⟩
def ENG_PATCH_RD_SEL.ADDR : Fld := ⟨0x40c, 8, 0, .rw, 0⟩
def ENG_PATCH_RD_DATA.DATA (k : Nat) : Fld := ⟨(0x410 + 0x4 * k), 31, 0, .ro, 0⟩
def ACQ_TIN_STAT.FALL : Fld := ⟨0x500, 23, 16, .w1c, 0⟩
def ACQ_TIN_STAT.RISE : Fld := ⟨0x500, 15, 8, .w1c, 0⟩
def ACQ_TIN_STAT.LEVEL : Fld := ⟨0x500, 7, 0, .ro, 0⟩
def ACQ_SWTRIG.FIRE : Fld := ⟨0x504, 7, 0, .wo, 0⟩
def ACQ_TIN_SKEW.TRIM (k : Nat) : Fld := ⟨(0x520 + 0x4 * k), 31, 16, .rw, 0⟩
def ACQ_TIN_SKEW.CAL (k : Nat) : Fld := ⟨(0x520 + 0x4 * k), 15, 0, .ro, 0⟩
def ACQ_TRIG_CNT.EVENTS (c : Nat) : Fld := ⟨(0x540 + 0x4 * c), 31, 0, .ro, 0⟩
def ACQ_DRAIN_BASE_LO.ADDR : Fld := ⟨0x580, 31, 12, .rw, 0⟩
def ACQ_DRAIN_BASE_HI.ADDR : Fld := ⟨0x584, 8, 0, .rw, 0⟩
def ACQ_DRAIN_SIZE.SIZE : Fld := ⟨0x588, 31, 12, .rw, 0⟩
def ACQ_DRAIN_WPTR.OFF : Fld := ⟨0x58c, 31, 8, .ro, 0⟩
def ACQ_DRAIN_RPTR.OFF : Fld := ⟨0x590, 31, 8, .rw, 0⟩
def ACQ_DRAIN_CTL.THRESH : Fld := ⟨0x594, 31, 12, .rw, 0⟩
def ACQ_DRAIN_CTL.EN : Fld := ⟨0x594, 0, 0, .rw, 0⟩
def ACQ_DRAIN_STAT.WAITING : Fld := ⟨0x598, 31, 31, .ro, 0⟩
def ACQ_DRAIN_STAT.NORUN : Fld := ⟨0x598, 30, 30, .w1c, 0⟩
def ACQ_DRAIN_STAT.EN_DENIED : Fld := ⟨0x598, 29, 29, .w1c, 0⟩
def ACQ_DRAIN_STAT.ABOVE : Fld := ⟨0x598, 28, 28, .ro, 0⟩
def ACQ_STRM_BASE_LO.ADDR (s : Nat) : Fld := ⟨(0x5c0 + 0x20 * s), 31, 12, .rw, 0⟩
def ACQ_STRM_BASE_HI.ADDR (s : Nat) : Fld := ⟨(0x5c4 + 0x20 * s), 8, 0, .rw, 0⟩
def ACQ_STRM_SIZE.SIZE (s : Nat) : Fld := ⟨(0x5c8 + 0x20 * s), 31, 12, .rw, 0⟩
def ACQ_STRM_WPTR.OFF (s : Nat) : Fld := ⟨(0x5cc + 0x20 * s), 31, 8, .ro, 0⟩
def ACQ_STRM_RPTR.OFF (s : Nat) : Fld := ⟨(0x5d0 + 0x20 * s), 31, 8, .rw, 0⟩
def ACQ_STRM_CTL.THRESH (s : Nat) : Fld := ⟨(0x5d4 + 0x20 * s), 31, 12, .ro, 0⟩
def ACQ_STRM_CTL.EN (s : Nat) : Fld := ⟨(0x5d4 + 0x20 * s), 0, 0, .rw, 0⟩
def ACQ_STRM_STAT.ACTIVE (s : Nat) : Fld := ⟨(0x5d8 + 0x20 * s), 31, 31, .ro, 0⟩
def ACQ_STRM_STAT.GAP (s : Nat) : Fld := ⟨(0x5d8 + 0x20 * s), 30, 30, .w1c, 0⟩
def ACQ_STRM_STAT.EN_DENIED (s : Nat) : Fld := ⟨(0x5d8 + 0x20 * s), 29, 29, .w1c, 0⟩
def ACQ_STRM_STAT.TILE (s : Nat) : Fld := ⟨(0x5d8 + 0x20 * s), 28, 24, .ro, 0⟩
def ACQ_STRM_STAT.GAPS (s : Nat) : Fld := ⟨(0x5d8 + 0x20 * s), 23, 0, .ro, 0⟩
def MON_WIN.FAULT (q : Nat) : Fld := ⟨(0x700 + 0x10 * q), 31, 16, .wl, 0x20c⟩
def MON_WIN.WARN (q : Nat) : Fld := ⟨(0x700 + 0x10 * q), 15, 0, .rw, 0x83⟩
def MON_STAT.RUNNING (q : Nat) : Fld := ⟨(0x704 + 0x10 * q), 31, 31, .ro, 0⟩
def MON_STAT.LAP (q : Nat) : Fld := ⟨(0x704 + 0x10 * q), 15, 0, .ro, 0⟩
def MON_LAPS.LAPS (q : Nat) : Fld := ⟨(0x708 + 0x10 * q), 31, 0, .ro, 0⟩
def CAL_REQ.GO : Fld := ⟨0x800, 31, 31, .w1s, 0⟩
def CAL_REQ.CLASSES : Fld := ⟨0x800, 7, 3, .rw, 0⟩
def CAL_REQ_STAT.RESULT : Fld := ⟨0x804, 31, 24, .ro, 0⟩
def CAL_REQ_STAT.PENDING : Fld := ⟨0x804, 23, 16, .ro, 0⟩
def CAL_REQ_STAT.DONE : Fld := ⟨0x804, 15, 8, .ro, 0⟩
def CAL_REQ_STAT.REJECTED : Fld := ⟨0x804, 7, 0, .ro, 0⟩
def CAL_STAT.INITIAL : Fld := ⟨0x808, 31, 31, .ro, 0⟩
def CAL_STAT.FG_BUSY : Fld := ⟨0x808, 30, 30, .ro, 0⟩
def CAL_STAT.BAND : Fld := ⟨0x808, 29, 27, .ro, 0⟩
def CAL_STAT.SOURCE : Fld := ⟨0x808, 26, 25, .ro, 0⟩
def CAL_STAT.STALE : Fld := ⟨0x808, 15, 8, .ro, 0⟩
def CAL_STAT.PEND_TEMP : Fld := ⟨0x808, 7, 0, .ro, 0⟩
def CAL_EVT.CAL_REJECT : Fld := ⟨0x80c, 31, 31, .w1c, 0⟩
def CAL_EVT.RUN_REFUSED : Fld := ⟨0x80c, 30, 30, .w1c, 0⟩
def CAL_EVT.STEP_CUT : Fld := ⟨0x80c, 29, 29, .w1c, 0⟩
def CAL_EVT.GAP_STARVED : Fld := ⟨0x80c, 28, 28, .w1c, 0⟩
def CAL_EVT.RELOAD : Fld := ⟨0x80c, 27, 27, .w1c, 0⟩
def CAL_EVT.COMMIT : Fld := ⟨0x80c, 26, 26, .w1c, 0⟩
def CAL_CNT.REJECTS : Fld := ⟨0x810, 31, 16, .ro, 0⟩
def CAL_CNT.COMPLETIONS : Fld := ⟨0x810, 15, 0, .ro, 0⟩
def CAL_TCFG.MAXINT : Fld := ⟨0x814, 31, 16, .rw, 0x258⟩
def CAL_TCFG.TDELTA : Fld := ⟨0x814, 7, 0, .rw, 0xc⟩
def CAL_KEEP_SEQ.SEQ : Fld := ⟨0x818, 31, 0, .ro, 0⟩
def CAL_SRC.VALID : Fld := ⟨0x81c, 4, 0, .ro, 0⟩
def GLB_INT_STAT.PRESENT (k : Nat) : Fld := ⟨(0xa00 + 0x4 * k), 31, 0, .ro, 0⟩
def GLB_WIN_SEL.BASE (a : Nat) : Fld := ⟨(0xb00 + 0x4 * a), 6, 0, .rw, (winSelReset a)⟩
def GLB_DEV_EVT.IMG_COMMIT : Fld := ⟨0xb10, 31, 31, .w1c, 0⟩
def GLB_DEV_EVT.IMG_DONE : Fld := ⟨0xb10, 30, 30, .w1c, 0⟩
def GLB_DEV_EVT.TB_SYNC : Fld := ⟨0xb10, 29, 29, .w1c, 0⟩
def GLB_DEV_EVT.FW_DONE : Fld := ⟨0xb10, 28, 28, .w1c, 0⟩
def WATCH_REQ.GO : Fld := ⟨0xc00, 31, 31, .w1s, 0⟩
def WATCH_REQ.OP : Fld := ⟨0xc00, 7, 0, .rw, 0⟩
def WATCH_ARG0.ARG : Fld := ⟨0xc04, 31, 0, .rw, 0⟩
def WATCH_ARG1.ARG : Fld := ⟨0xc08, 31, 0, .rw, 0⟩
def WATCH_RESP.BUSY : Fld := ⟨0xc0c, 31, 31, .ro, 0⟩
def WATCH_RESP.OVERRUN : Fld := ⟨0xc0c, 30, 30, .w1c, 0⟩
def WATCH_RESP.RESULT : Fld := ⟨0xc0c, 23, 16, .ro, 0⟩
def WATCH_RESP.OP : Fld := ⟨0xc0c, 15, 8, .ro, 0⟩
def WATCH_EVT.REQ_DONE : Fld := ⟨0xc10, 31, 31, .w1c, 0⟩
def WATCH_EVT.DENY : Fld := ⟨0xc10, 30, 30, .w1c, 0⟩
def WATCH_EVT.WATCH_RESET : Fld := ⟨0xc10, 29, 29, .w1c, 0⟩
def WATCH_EVT.DISCONNECT : Fld := ⟨0xc10, 28, 28, .w1c, 0⟩
def WATCH_EVT.FAULT_LOGGED : Fld := ⟨0xc10, 27, 27, .w1c, 0⟩
def WATCH_EVT.IDENT_FIX : Fld := ⟨0xc10, 26, 26, .w1c, 0⟩
def GLB_ST_REQ.GO : Fld := ⟨0xd00, 31, 31, .w1s, 0⟩
def GLB_ST_REQ.STOP_FIRST : Fld := ⟨0xd00, 16, 16, .rw, 0⟩
def GLB_ST_REQ.DATA : Fld := ⟨0xd00, 15, 12, .rw, 0⟩
def GLB_ST_REQ.ALGO : Fld := ⟨0xd00, 11, 8, .rw, 0⟩
def GLB_ST_REQ.TESTS : Fld := ⟨0xd00, 7, 0, .rw, 0⟩
def GLB_ST_BG_LO.BG : Fld := ⟨0xd04, 31, 0, .rw, 0⟩
def GLB_ST_BG_HI.BG : Fld := ⟨0xd08, 31, 0, .rw, 0⟩
def GLB_ST_CXL_BASE_LO.ADDR : Fld := ⟨0xd0c, 31, 12, .rw, 0⟩
def GLB_ST_CXL_BASE_HI.ADDR : Fld := ⟨0xd10, 8, 0, .rw, 0⟩
def GLB_ST_CXL_LEN.LEN : Fld := ⟨0xd14, 31, 0, .rw, 0⟩
def GLB_ST_STAT.BUSY : Fld := ⟨0xd18, 31, 31, .ro, 0⟩
def GLB_ST_STAT.DEFERRED : Fld := ⟨0xd18, 30, 30, .ro, 0⟩
def GLB_ST_STAT.RUN_REFUSED : Fld := ⟨0xd18, 29, 29, .w1c, 0⟩
def GLB_ST_STAT.RESULT : Fld := ⟨0xd18, 28, 24, .ro, 0⟩
def GLB_ST_STAT.REASON : Fld := ⟨0xd18, 23, 20, .ro, 0⟩
def GLB_ST_STAT.DONE : Fld := ⟨0xd18, 15, 8, .ro, 0⟩
def GLB_ST_STAT.FAILED : Fld := ⟨0xd18, 7, 0, .ro, 0⟩
def GLB_ST_FAIL.TEST : Fld := ⟨0xd1c, 31, 28, .ro, 0⟩
def GLB_ST_FAIL.ELEM : Fld := ⟨0xd1c, 27, 25, .ro, 0⟩
def GLB_ST_FAIL.OP : Fld := ⟨0xd1c, 24, 23, .ro, 0⟩
def GLB_ST_FAIL.WORD : Fld := ⟨0xd1c, 22, 20, .ro, 0⟩
def GLB_ST_FAIL.BIT : Fld := ⟨0xd1c, 19, 13, .ro, 0⟩
def GLB_ST_FAIL.NBITS : Fld := ⟨0xd1c, 12, 6, .ro, 0⟩
def GLB_ST_FAIL.KIND : Fld := ⟨0xd1c, 5, 3, .ro, 0⟩
def GLB_ST_FAIL_ADDR_LO.ADDR : Fld := ⟨0xd20, 31, 0, .ro, 0⟩
def GLB_ST_FAIL_ADDR_HI.ADDR : Fld := ⟨0xd24, 31, 0, .ro, 0⟩
def GLB_ST_TMAP.MAP : Fld := ⟨0xd28, 31, 0, .ro, 0⟩
def GLB_ST_EMAP_LO.MAP : Fld := ⟨0xd2c, 31, 0, .ro, 0⟩
def GLB_ST_EMAP_HI.MAP : Fld := ⟨0xd30, 31, 0, .ro, 0⟩
def GLB_ST_CONV.MAP : Fld := ⟨0xd34, 31, 0, .ro, 0⟩
def GLB_ST_LANE.MAP : Fld := ⟨0xd38, 31, 0, .ro, 0⟩
def GLB_ST_FAILCNT.MAP : Fld := ⟨0xd3c, 31, 0, .ro, 0⟩
def THM_SENS.VALID (i : Nat) : Fld := ⟨(0x10000 + 0x4 * i), 31, 31, .ro, 0⟩
def THM_SENS.FAULT (i : Nat) : Fld := ⟨(0x10000 + 0x4 * i), 30, 30, .ro, 0⟩
def THM_SENS.TEMP (i : Nat) : Fld := ⟨(0x10000 + 0x4 * i), 15, 0, .ro, 0⟩
def THM_MAX.ID : Fld := ⟨0x10040, 31, 28, .ro, 0⟩
def THM_MAX.RATE : Fld := ⟨0x10040, 27, 16, .ro, 0⟩
def THM_MAX.TEMP : Fld := ⟨0x10040, 15, 0, .ro, 0⟩
def THM_STAT.SHUTDOWN : Fld := ⟨0x10044, 31, 31, .ro, 0⟩
def THM_STAT.RATE_CLAMP : Fld := ⟨0x10044, 30, 30, .ro, 0⟩
def THM_STAT.RATE_WARN : Fld := ⟨0x10044, 29, 29, .ro, 0⟩
def THM_STAT.RATE_SUPP : Fld := ⟨0x10044, 28, 28, .ro, 1⟩
def THM_STAT.BAND_PEND : Fld := ⟨0x10044, 27, 27, .ro, 0⟩
def THM_STAT.BAND : Fld := ⟨0x10044, 26, 24, .ro, 0⟩
def THM_STAT.NEXT_BAND : Fld := ⟨0x10044, 23, 21, .ro, 0⟩
def THM_STAT.DWELL : Fld := ⟨0x10044, 20, 12, .ro, 0⟩
def THM_STAT.SHUT_WHY : Fld := ⟨0x10044, 11, 8, .ro, 0⟩
def THM_EVT.SHUTDOWN : Fld := ⟨0x10048, 31, 31, .w1c, 0⟩
def THM_EVT.RATE_CLAMP : Fld := ⟨0x10048, 30, 30, .w1c, 0⟩
def THM_EVT.RATE_WARN : Fld := ⟨0x10048, 29, 29, .w1c, 0⟩
def THM_EVT.BAND_CHG : Fld := ⟨0x10048, 28, 28, .w1c, 0⟩
def THM_EVT.BAND_WDRAWN : Fld := ⟨0x10048, 27, 27, .w1c, 0⟩
def THM_EVT.SENS_FAULT : Fld := ⟨0x10048, 26, 26, .w1c, 0⟩
def THM_EVT.KEEP_ABORT : Fld := ⟨0x10048, 25, 25, .w1c, 0⟩
def THM_EVT.RUN_REFUSED : Fld := ⟨0x10048, 24, 24, .w1c, 0⟩
def THM_CTL.RESUME : Fld := ⟨0x1004c, 31, 31, .w1s, 0⟩
def THM_CTL.THERM_MASK : Fld := ⟨0x1004c, 3, 0, .rw, 0xf⟩
def THM_RATE_LIM.CLAMP : Fld := ⟨0x10050, 31, 16, .wl, 0x50⟩
def THM_RATE_LIM.WARN : Fld := ⟨0x10050, 15, 0, .rw, 0x20⟩
def THM_PEAK.PEAK : Fld := ⟨0x10054, 15, 0, .ro, 0⟩
def PWR_CTL.WAKE : Fld := ⟨0x10100, 31, 31, .w1s, 0⟩
def PWR_CTL.SLEEP : Fld := ⟨0x10100, 30, 30, .w1s, 0⟩
def PWR_CTL.AUTO_SLEEP : Fld := ⟨0x10100, 29, 29, .rw, 1⟩
def PWR_CTL.SLEEP_DELAY : Fld := ⟨0x10100, 15, 0, .rw, 0x64⟩
def PWR_STAT.STATE : Fld := ⟨0x10104, 31, 30, .ro, 0⟩
def PWR_STAT.WAIT : Fld := ⟨0x10104, 29, 24, .ro, 0⟩
def PWR_STAT.REFUSE : Fld := ⟨0x10104, 23, 20, .ro, 0⟩
def PWR_STAT.WAKE_TIME : Fld := ⟨0x10104, 15, 0, .ro, 0⟩
def PWR_DOM_STAT.ON : Fld := ⟨0x10108, 23, 0, .ro, 0xffffff⟩
def PWR_TILE_CTL.EN : Fld := ⟨0x1010c, 15, 0, .rw, 0xffff⟩
def PWR_TILE_STAT.PENDING : Fld := ⟨0x10110, 31, 16, .ro, 0⟩
def PWR_TILE_STAT.UP : Fld := ⟨0x10110, 15, 0, .ro, 0⟩
def PWR_EVT.PWRFAIL : Fld := ⟨0x10114, 31, 31, .w1c, 0⟩
def PWR_EVT.RUN_REFUSED : Fld := ⟨0x10114, 30, 30, .w1c, 0⟩
def PWR_EVT.RST_DENIED : Fld := ⟨0x10114, 29, 29, .w1c, 0⟩
def PWR_EVT.WAKE_ABORT : Fld := ⟨0x10114, 28, 28, .w1c, 0⟩
def PWR_RST_CTL.DEVICE : Fld := ⟨0x10118, 31, 31, .w1s, 0⟩
def PWR_RST_CTL.KEY : Fld := ⟨0x10118, 15, 0, .wo, 0⟩
def PWR_RST.CAUSE : Fld := ⟨0x10120, 31, 24, .ro, 1⟩
def PWR_RST.COUNT : Fld := ⟨0x10120, 15, 0, .ro, 0⟩
def ECC_EVT.UE_IDLE : Fld := ⟨0x20000, 31, 31, .w1c, 0⟩
def ECC_EVT.UE_READ : Fld := ⟨0x20000, 30, 30, .w1c, 0⟩
def ECC_EVT.E2E_FAIL : Fld := ⟨0x20000, 29, 29, .w1c, 0⟩
def ECC_EVT.CXL_POISON : Fld := ⟨0x20000, 28, 28, .w1c, 0⟩
def ECC_EVT.CE : Fld := ⟨0x20000, 27, 27, .w1c, 0⟩
def ECC_EVT.LOG_OVF : Fld := ⟨0x20000, 26, 26, .w1c, 0⟩
def ECC_EVT.FLIP_DENIED : Fld := ⟨0x20000, 25, 25, .w1c, 0⟩
def ECC_EVT.MAP_ERR : Fld := ⟨0x20000, 24, 24, .w1c, 0⟩
def ECC_EVT.REC_LOST : Fld := ⟨0x20000, 23, 23, .w1c, 0⟩
def ECC_LOG_STAT.COUNT : Fld := ⟨0x20004, 4, 0, .ro, 0⟩
def ECC_LOG_W0.VALID : Fld := ⟨0x20008, 31, 31, .ro, 0⟩
def ECC_LOG_W0.KIND : Fld := ⟨0x20008, 30, 28, .ro, 0⟩
def ECC_LOG_W0.SOURCE : Fld := ⟨0x20008, 27, 25, .ro, 0⟩
def ECC_LOG_W0.CLASS : Fld := ⟨0x20008, 24, 22, .ro, 0⟩
def ECC_LOG_W0.UNIT : Fld := ⟨0x20008, 21, 16, .ro, 0⟩
def ECC_LOG_W0.LINE : Fld := ⟨0x20008, 15, 0, .ro, 0⟩
def ECC_LOG_W1.SYNDROME : Fld := ⟨0x2000c, 31, 24, .ro, 0⟩
def ECC_LOG_W1.POS : Fld := ⟨0x2000c, 21, 16, .ro, 0⟩
def ECC_LOG_W1.ACTION : Fld := ⟨0x2000c, 15, 8, .ro, 0⟩
def ECC_LOG_EPOCH_LO.EPOCH : Fld := ⟨0x20010, 31, 0, .ro, 0⟩
def ECC_LOG_EPOCH_HI.EPOCH : Fld := ⟨0x20014, 31, 0, .ro, 0⟩
def ECC_LOG_POP.POP : Fld := ⟨0x20018, 0, 0, .wo, 0⟩
def ECC_CNT.CE (k : Nat) : Fld := ⟨(0x20020 + 0x4 * k), 31, 16, .ro, 0⟩
def ECC_CNT.UE (k : Nat) : Fld := ⟨(0x20020 + 0x4 * k), 15, 0, .ro, 0⟩
def ECC_FLIP_CTL.ARM : Fld := ⟨0x20040, 31, 31, .w1s, 0⟩
def ECC_FLIP_CTL.CLASS : Fld := ⟨0x20040, 26, 24, .rw, 0⟩
def ECC_FLIP_CTL.UNIT : Fld := ⟨0x20040, 21, 16, .rw, 0⟩
def ECC_FLIP_CTL.LINE : Fld := ⟨0x20040, 15, 0, .rw, 0⟩
def ECC_FLIP_POS.CHK : Fld := ⟨0x20044, 15, 8, .rw, 0⟩
def ECC_FLIP_POS.POS : Fld := ⟨0x20044, 5, 0, .rw, 0⟩
def ECC_FLIP_DATA_LO.MASK : Fld := ⟨0x20048, 31, 0, .rw, 0⟩
def ECC_FLIP_DATA_HI.MASK : Fld := ⟨0x2004c, 31, 0, .rw, 0⟩
def ECC_CXL_STAT.PRESENT : Fld := ⟨0x20050, 31, 31, .ro, 0⟩
def ECC_CXL_STAT.MAP_WHY : Fld := ⟨0x20050, 30, 28, .ro, 0⟩
def ECC_CXL_STAT.CAP : Fld := ⟨0x20050, 11, 0, .ro, 0⟩
def SCRUB_CTL.EN : Fld := ⟨0x20080, 31, 31, .rw, 1⟩
def SCRUB_CTL.INTERVAL : Fld := ⟨0x20080, 7, 0, .rw, 0x10⟩
def SCRUB_STAT.RUNNING : Fld := ⟨0x20084, 31, 31, .ro, 0⟩
def SCRUB_STAT.LAP : Fld := ⟨0x20084, 19, 0, .ro, 0⟩
def SCRUB_LAPS.LAPS : Fld := ⟨0x20088, 31, 0, .ro, 0⟩
def LNK_HOST_STAT.UP : Fld := ⟨0x30000, 31, 31, .ro, 0⟩
def LNK_HOST_STAT.FLIT : Fld := ⟨0x30000, 30, 30, .ro, 0⟩
def LNK_HOST_STAT.RATE : Fld := ⟨0x30000, 23, 16, .ro, 0⟩
def LNK_HOST_STAT.WIDTH : Fld := ⟨0x30000, 15, 8, .ro, 0⟩
def LNK_HOST_STAT.L0P : Fld := ⟨0x30000, 7, 0, .ro, 0⟩
def LNK_HOST_EVT.DOWN : Fld := ⟨0x30004, 31, 31, .w1c, 0⟩
def LNK_HOST_EVT.RATE_CHG : Fld := ⟨0x30004, 30, 30, .w1c, 0⟩
def LNK_HOST_EVT.BAR2_WR : Fld := ⟨0x30004, 29, 29, .w1c, 0⟩
def LNK_HOST_EVT.BAR2_UNMAPPED : Fld := ⟨0x30004, 28, 28, .w1c, 0⟩
def LNK_HOST_EVT.RPTR_BUSY : Fld := ⟨0x30004, 27, 27, .w1c, 0⟩
def LNK_HOST_EVT.BAR4_ACC : Fld := ⟨0x30004, 26, 26, .w1c, 0⟩
def LNK_CXL_STAT.UP : Fld := ⟨0x30100, 31, 31, .ro, 0⟩
def LNK_CXL_STAT.WHY : Fld := ⟨0x30100, 26, 24, .ro, 0⟩
def LNK_CXL_STAT.RATE : Fld := ⟨0x30100, 23, 16, .ro, 0⟩
def LNK_CXL_STAT.WIDTH : Fld := ⟨0x30100, 15, 8, .ro, 0⟩
def LNK_CXL_EVT.DOWN : Fld := ⟨0x30104, 31, 31, .w1c, 0⟩
def LNK_CXL_EVT.ENUM_FAIL : Fld := ⟨0x30104, 30, 30, .w1c, 0⟩
def LNK_CXL_EVT.MEDIA : Fld := ⟨0x30104, 29, 29, .w1c, 0⟩
def LNK_CXL_CNT.RETRAINS : Fld := ⟨0x30108, 31, 16, .ro, 0⟩
def LNK_CXL_CNT.MEDIA : Fld := ⟨0x30108, 15, 0, .ro, 0⟩
def LNK_PORT_CTL.EN (p : Nat) : Fld := ⟨(0x31000 + 0x40 * p), 31, 31, .rw, 1⟩
def LNK_PORT_CTL.RETRAIN (p : Nat) : Fld := ⟨(0x31000 + 0x40 * p), 30, 30, .w1s, 0⟩
def LNK_PORT_CTL.EXTENDED (p : Nat) : Fld := ⟨(0x31000 + 0x40 * p), 29, 29, .rw, 0⟩
def LNK_PORT_STAT.PHASE (p : Nat) : Fld := ⟨(0x31004 + 0x40 * p), 31, 28, .ro, 0⟩
def LNK_PORT_STAT.WHY (p : Nat) : Fld := ⟨(0x31004 + 0x40 * p), 27, 24, .ro, 0⟩
def LNK_PORT_STAT.LANES (p : Nat) : Fld := ⟨(0x31004 + 0x40 * p), 23, 20, .ro, 0⟩
def LNK_PORT_STAT.RATE (p : Nat) : Fld := ⟨(0x31004 + 0x40 * p), 19, 18, .ro, 0⟩
def LNK_PORT_STAT.SRC (p : Nat) : Fld := ⟨(0x31004 + 0x40 * p), 17, 16, .ro, 0⟩
def LNK_PORT_STAT.TRAINS (p : Nat) : Fld := ⟨(0x31004 + 0x40 * p), 15, 0, .ro, 0⟩
def LNK_PORT_CAP.RATES (p : Nat) : Fld := ⟨(0x31008 + 0x40 * p), 31, 28, .ro, 0⟩
def LNK_PORT_CAP.LANES (p : Nat) : Fld := ⟨(0x31008 + 0x40 * p), 27, 24, .ro, 0⟩
def LNK_PORT_CAP.FORMATS (p : Nat) : Fld := ⟨(0x31008 + 0x40 * p), 23, 20, .ro, 0⟩
def LNK_PORT_CAP.LINK (p : Nat) : Fld := ⟨(0x31008 + 0x40 * p), 19, 19, .ro, 0⟩
def LNK_PORT_CAP.PART (p : Nat) : Fld := ⟨(0x31008 + 0x40 * p), 15, 0, .ro, 0⟩
def LNK_PORT_EVT.DOWN (p : Nat) : Fld := ⟨(0x3100c + 0x40 * p), 31, 31, .w1c, 0⟩
def LNK_PORT_EVT.EYE_WARN (p : Nat) : Fld := ⟨(0x3100c + 0x40 * p), 30, 30, .w1c, 0⟩
def LNK_PORT_EVT.RETRY (p : Nat) : Fld := ⟨(0x3100c + 0x40 * p), 29, 29, .w1c, 0⟩
def LNK_PORT_EVT.LOCK_LOST (p : Nat) : Fld := ⟨(0x3100c + 0x40 * p), 28, 28, .w1c, 0⟩
def LNK_LANE_STAT.LOCK (p : Nat) (l : Nat) : Fld := ⟨(0x31010 + 0x40 * p + 4 * l), 31, 31, .ro, 0⟩
def LNK_LANE_STAT.PRECODE_TX (p : Nat) (l : Nat) : Fld := ⟨(0x31010 + 0x40 * p + 4 * l), 30, 30, .ro, 0⟩
def LNK_LANE_STAT.PRECODE_RX (p : Nat) (l : Nat) : Fld := ⟨(0x31010 + 0x40 * p + 4 * l), 29, 29, .ro, 0⟩
def LNK_LANE_STAT.EYE_LOW (p : Nat) (l : Nat) : Fld := ⟨(0x31010 + 0x40 * p + 4 * l), 23, 16, .ro, 0⟩
def LNK_LANE_STAT.EYE_H (p : Nat) (l : Nat) : Fld := ⟨(0x31010 + 0x40 * p + 4 * l), 15, 8, .ro, 0⟩
def LNK_LANE_STAT.EYE_W (p : Nat) (l : Nat) : Fld := ⟨(0x31010 + 0x40 * p + 4 * l), 7, 0, .ro, 0⟩
def LNK_TAP_SEL.PORT : Fld := ⟨0x31400, 7, 4, .rw, 0⟩
def LNK_TAP_SEL.LANE : Fld := ⟨0x31400, 1, 0, .rw, 0⟩
def LNK_TAP_DATA.TAPS (k : Nat) : Fld := ⟨(0x31404 + 0x4 * k), 31, 0, .ro, 0⟩
def LNK_SER_CTL.EYE_WARN : Fld := ⟨0x31410, 23, 16, .rw, 0x18⟩
def LNK_SER_CTL.EYE_MIN : Fld := ⟨0x31410, 15, 8, .wl, 0x10⟩
def TWIN_STAT.STATE : Fld := ⟨0x32000, 31, 30, .ro, 0⟩
def TWIN_STAT.ROLE : Fld := ⟨0x32000, 29, 28, .ro, 0⟩
def TWIN_STAT.WHY : Fld := ⟨0x32000, 27, 24, .ro, 0⟩
def TWIN_STAT.SEL : Fld := ⟨0x32000, 23, 20, .ro, 0⟩
def TWIN_STAT.PEER_SEL : Fld := ⟨0x32000, 19, 16, .ro, 0⟩
def TWIN_STAT.QOK : Fld := ⟨0x32000, 15, 12, .ro, 0⟩
def TWIN_STAT.PEER_QOK : Fld := ⟨0x32000, 11, 8, .ro, 0⟩
def TWIN_STAT.DIVERGED : Fld := ⟨0x32000, 7, 4, .ro, 0⟩
def TWIN_CTL.ATTACH : Fld := ⟨0x32004, 31, 31, .w1s, 0⟩
def TWIN_CTL.DETACH : Fld := ⟨0x32004, 30, 30, .w1s, 0⟩
def TWIN_CTL.ON_MISMATCH : Fld := ⟨0x32004, 29, 29, .rw, 0⟩
def TWIN_CTL.CLAIM : Fld := ⟨0x32004, 3, 0, .rw, 0⟩
def TWIN_EVT.ATTACHED : Fld := ⟨0x32008, 31, 31, .w1c, 0⟩
def TWIN_EVT.ATTACH_REFUSED : Fld := ⟨0x32008, 30, 30, .w1c, 0⟩
def TWIN_EVT.DETACHED : Fld := ⟨0x32008, 29, 29, .w1c, 0⟩
def TWIN_EVT.HB_LOST : Fld := ⟨0x32008, 28, 28, .w1c, 0⟩
def TWIN_EVT.HANDOVER : Fld := ⟨0x32008, 27, 27, .w1c, 0⟩
def TWIN_EVT.HANDOVER_REFUSED : Fld := ⟨0x32008, 26, 26, .w1c, 0⟩
def TWIN_EVT.MISMATCH : Fld := ⟨0x32008, 25, 25, .w1c, 0⟩
def TWIN_EVT.DIGEST_MISSING : Fld := ⟨0x32008, 24, 24, .w1c, 0⟩
def TWIN_EVT.FOLLOW_WRITE : Fld := ⟨0x32008, 23, 23, .w1c, 0⟩
def TWIN_EVT.PEER_CHANGED : Fld := ⟨0x32008, 22, 22, .w1c, 0⟩
def TWIN_EVT.RUN_REFUSED : Fld := ⟨0x32008, 21, 21, .w1c, 0⟩
def TWIN_CNT.MISMATCHES : Fld := ⟨0x3200c, 31, 16, .ro, 0⟩
def TWIN_CNT.MISSING : Fld := ⟨0x3200c, 15, 0, .ro, 0⟩
def TWIN_CFG.HB_LIMIT : Fld := ⟨0x32010, 31, 16, .wl, 0x400⟩
def TWIN_CFG.SEL_SETTLE : Fld := ⟨0x32010, 15, 0, .rw, 0x7d0⟩
def TWIN_LAST.VALID : Fld := ⟨0x32014, 31, 31, .ro, 0⟩
def TWIN_LAST.MISSING : Fld := ⟨0x32014, 30, 30, .ro, 0⟩
def TWIN_LAST.TILE : Fld := ⟨0x32014, 22, 18, .ro, 0⟩
def TWIN_LAST.SHOT : Fld := ⟨0x32014, 17, 0, .ro, 0⟩
def TWIN_HO_EPOCH_LO.EPOCH : Fld := ⟨0x32018, 31, 0, .ro, 0⟩
def TWIN_HO_EPOCH_HI.EPOCH : Fld := ⟨0x3201c, 31, 0, .ro, 0⟩
def FAB_STAT.PLAN : Fld := ⟨0x40000, 31, 31, .ro, 0⟩
def FAB_STAT.ANISE : Fld := ⟨0x40000, 30, 30, .ro, 0⟩
def FAB_STAT.PORTS_OK : Fld := ⟨0x40000, 29, 29, .ro, 0⟩
def FAB_STAT.REFUSE : Fld := ⟨0x40000, 23, 16, .ro, 0⟩
def FAB_START_LO.START : Fld := ⟨0x40008, 31, 0, .rw, 0⟩
def FAB_START_HI.START : Fld := ⟨0x4000c, 31, 0, .rw, 0⟩
def FAB_EVT.START_REFUSED : Fld := ⟨0x40010, 31, 31, .w1c, 0⟩
def FAB_EVT.LOST : Fld := ⟨0x40010, 30, 30, .w1c, 0⟩
def FAB_EVT.COPY_ERR : Fld := ⟨0x40010, 29, 29, .w1c, 0⟩
def FAB_EVT.LATE_COPY : Fld := ⟨0x40010, 28, 28, .w1c, 0⟩
def FAB_EVT.CYC_ERR : Fld := ⟨0x40010, 27, 27, .w1c, 0⟩
def FAB_EVT.TX_OVERRUN : Fld := ⟨0x40010, 26, 26, .w1c, 0⟩
def FAB_EVT.VOTE_LOST : Fld := ⟨0x40010, 25, 25, .w1c, 0⟩
def FAB_EVT.ANISE_TIMEOUT : Fld := ⟨0x40010, 24, 24, .w1c, 0⟩
def FAB_EVT.ANISE_STRAY : Fld := ⟨0x40010, 23, 23, .w1c, 0⟩
def FAB_EVT.PORT_DOWN : Fld := ⟨0x40010, 22, 22, .w1c, 0⟩
def FAB_CNT.LOST : Fld := ⟨0x40014, 31, 16, .ro, 0⟩
def FAB_CNT.OVERRUN : Fld := ⟨0x40014, 15, 0, .ro, 0⟩
def FAB_ANISE.MAX_OUT : Fld := ⟨0x40018, 20, 16, .ro, 0⟩
def FAB_ANISE.TIMEOUTS : Fld := ⟨0x40018, 15, 0, .ro, 0⟩
def FAB_PORT_STAT.USED (p : Nat) : Fld := ⟨(0x40100 + 0x20 * p), 31, 31, .ro, 0⟩
def FAB_PORT_STAT.IN_SERVICE (p : Nat) : Fld := ⟨(0x40100 + 0x20 * p), 30, 30, .ro, 0⟩
def FAB_PORT_STAT.NBR_OK (p : Nat) : Fld := ⟨(0x40100 + 0x20 * p), 29, 29, .ro, 0⟩
def FAB_PORT_STAT.EPOCH_OK (p : Nat) : Fld := ⟨(0x40100 + 0x20 * p), 28, 28, .ro, 0⟩
def FAB_PORT_STAT.PLAN_OK (p : Nat) : Fld := ⟨(0x40100 + 0x20 * p), 27, 27, .ro, 0⟩
def FAB_PORT_STAT.LAT_RANGE (p : Nat) : Fld := ⟨(0x40100 + 0x20 * p), 26, 26, .ro, 0⟩
def FAB_PORT_STAT.LAT (p : Nat) : Fld := ⟨(0x40100 + 0x20 * p), 23, 16, .ro, 0⟩
def FAB_PORT_STAT.NBR_DEV (p : Nat) : Fld := ⟨(0x40100 + 0x20 * p), 15, 8, .ro, 0⟩
def FAB_PORT_STAT.CREDITS (p : Nat) : Fld := ⟨(0x40100 + 0x20 * p), 3, 0, .ro, 0⟩
def FAB_PORT_ERR.LANE3 (p : Nat) : Fld := ⟨(0x40104 + 0x20 * p), 31, 24, .ro, 0⟩
def FAB_PORT_ERR.LANE2 (p : Nat) : Fld := ⟨(0x40104 + 0x20 * p), 23, 16, .ro, 0⟩
def FAB_PORT_ERR.LANE1 (p : Nat) : Fld := ⟨(0x40104 + 0x20 * p), 15, 8, .ro, 0⟩
def FAB_PORT_ERR.LANE0 (p : Nat) : Fld := ⟨(0x40104 + 0x20 * p), 7, 0, .ro, 0⟩
def FAB_PORT_LOST.LOST (p : Nat) : Fld := ⟨(0x40108 + 0x20 * p), 31, 16, .ro, 0⟩
def FAB_PORT_LOST.LATE_COPY (p : Nat) : Fld := ⟨(0x40108 + 0x20 * p), 15, 0, .ro, 0⟩
def WATCH_STAT.STATE : Fld := ⟨0x80000, 31, 30, .wl, 0⟩
def WATCH_STAT.RESETS : Fld := ⟨0x80000, 23, 16, .wl, 0⟩
def WATCH_STAT.DISCONNECTS : Fld := ⟨0x80000, 8, 0, .wl, 0⟩
def WATCH_DENY_CNT.COUNT : Fld := ⟨0x80004, 31, 0, .wl, 0⟩
def WATCH_DENY_ADDR.OFFSET : Fld := ⟨0x80008, 23, 0, .wl, 0⟩
def WATCH_DISC.OPEN (k : Nat) : Fld := ⟨(0x80010 + 0x4 * k), 31, 0, .wl, 0⟩
def IDENT.BYTES (k : Nat) : Fld := ⟨(0x80100 + 0x4 * k), 31, 0, .wl, (Config.identWord k)⟩
def WATCH_FLT.WORD (k : Nat) : Fld := ⟨(0x80200 + 0x4 * k), 31, 0, .wl, 0⟩
def KEEP_STAT.STATE : Fld := ⟨0x500000, 31, 30, .ro, 0⟩
def KEEP_STAT.READY : Fld := ⟨0x500000, 29, 29, .ro, 0⟩
def KEEP_STAT.BUSY : Fld := ⟨0x500000, 28, 28, .ro, 0⟩
def KEEP_STAT.PWRFAIL : Fld := ⟨0x500000, 27, 27, .ro, 0⟩
def KEEP_STAT.RING_GOOD : Fld := ⟨0x500000, 19, 16, .ro, 0⟩
def KEEP_STAT.QUEUE : Fld := ⟨0x500000, 15, 8, .ro, 0⟩
def KEEP_WEAR.SPARES : Fld := ⟨0x500004, 31, 24, .ro, 0⟩
def KEEP_WEAR.RETIRED : Fld := ⟨0x500004, 23, 16, .ro, 0⟩
def KEEP_EVT.WORN : Fld := ⟨0x500008, 31, 31, .w1c, 0⟩
def KEEP_EVT.RING_FAIL : Fld := ⟨0x500008, 30, 30, .w1c, 0⟩
def KEEP_EVT.RETIRE : Fld := ⟨0x500008, 29, 29, .w1c, 0⟩
def KEEP_EVT.SUSPECT : Fld := ⟨0x500008, 28, 28, .w1c, 0⟩
def KEEP_EVT.CHECK_FAIL : Fld := ⟨0x500008, 27, 27, .w1c, 0⟩
def KEEP_EVT.LIFE_GAP : Fld := ⟨0x500008, 26, 26, .w1c, 0⟩
def KEEP_EVT.OTP_BAD : Fld := ⟨0x500008, 25, 25, .w1c, 0⟩
def KEEP_EVT.FAULT_DROP : Fld := ⟨0x500008, 24, 24, .w1c, 0⟩
def KEEP_EVT.PROG_RETRY : Fld := ⟨0x500008, 23, 23, .w1c, 0⟩
def KEEP_CNT.COMMITS : Fld := ⟨0x50000c, 31, 16, .ro, 0⟩
def KEEP_CNT.FAULT_DROPPED : Fld := ⟨0x50000c, 15, 0, .ro, 0⟩
def KEEP_SEQ.SEQ : Fld := ⟨0x500010, 31, 0, .ro, 0⟩
def KEEP_ERASE.MAX : Fld := ⟨0x500014, 16, 0, .ro, 0⟩
def KEEP_BOOT.SCAN_MS : Fld := ⟨0x500018, 31, 16, .ro, 0⟩
def KEEP_BOOT.SUSPECT : Fld := ⟨0x500018, 15, 8, .ro, 0⟩
def KEEP_BOOT.RELOCATED : Fld := ⟨0x500018, 7, 0, .ro, 0⟩
def FW_CMD.GO : Fld := ⟨0x500100, 31, 31, .w1s, 0⟩
def FW_CMD.OP : Fld := ⟨0x500100, 3, 0, .rw, 0⟩
def FW_ARG0.ARG : Fld := ⟨0x500104, 31, 0, .rw, 0⟩
def FW_ARG1.ARG : Fld := ⟨0x500108, 31, 0, .rw, 0⟩
def FW_ARG2.ARG : Fld := ⟨0x50010c, 31, 0, .rw, 0⟩
def FW_STAT.BUSY : Fld := ⟨0x500110, 31, 31, .ro, 0⟩
def FW_STAT.OVERRUN : Fld := ⟨0x500110, 30, 30, .w1c, 0⟩
def FW_STAT.RUNNING : Fld := ⟨0x500110, 29, 29, .ro, 0⟩
def FW_STAT.RECOVERY : Fld := ⟨0x500110, 28, 28, .ro, 0⟩
def FW_STAT.OWNER : Fld := ⟨0x500110, 25, 24, .ro, 0⟩
def FW_STAT.RESULT : Fld := ⟨0x500110, 23, 16, .ro, 0⟩
def FW_STAT.NEXT : Fld := ⟨0x500110, 12, 0, .ro, 0⟩
def FW_SLOT.STATE (s : Nat) : Fld := ⟨(0x500114 + 0x4 * s), 31, 29, .ro, 0⟩
def FW_SLOT.TRIES (s : Nat) : Fld := ⟨(0x500114 + 0x4 * s), 28, 26, .ro, 0⟩
def FW_SLOT.SVN (s : Nat) : Fld := ⟨(0x500114 + 0x4 * s), 15, 0, .ro, 0⟩
def FW_VER.FW_VER (s : Nat) : Fld := ⟨(0x50011c + 0x4 * s), 31, 0, .ro, 0⟩
def FW_MINSVN.MIN_SVN : Fld := ⟨0x500124, 15, 0, .ro, 0⟩
def FW_BUF.DATA (k : Nat) : Fld := ⟨(0x501000 + 0x4 * k), 31, 0, .rw, 0⟩
def NCO_FREQ_LO.F_LO (f : Nat) : Fld := ⟨(tileOff 32 0x1000 0x20 f), 31, 0, .ro, 0⟩
def NCO_FREQ_HI.F_HI (f : Nat) : Fld := ⟨(tileOff 32 0x1004 0x20 f), 15, 0, .ro, 0⟩
def NCO_PHASE.THETA (f : Nat) : Fld := ⟨(tileOff 32 0x1008 0x20 f), 31, 0, .ro, 0⟩
def NCO_REF_LO.REF (f : Nat) : Fld := ⟨(tileOff 32 0x100c 0x20 f), 31, 0, .ro, 0⟩
def NCO_REF_HI.REF (f : Nat) : Fld := ⟨(tileOff 32 0x1010 0x20 f), 31, 0, .ro, 0⟩
def NCO_STAT.COLLIDE (f : Nat) : Fld := ⟨(tileOff 32 0x1014 0x20 f), 31, 31, .w1c, 0⟩
def NCO_STAT.OCC (f : Nat) : Fld := ⟨(tileOff 32 0x1014 0x20 f), 19, 0, .ro, 0⟩
def NCO_MIX_STAT.BUSY (m : Nat) : Fld := ⟨(tileOff 20 0x1400 0x4 m), 31, 31, .ro, 0⟩
def NCO_MIX_STAT.OVERLAP (m : Nat) : Fld := ⟨(tileOff 20 0x1400 0x4 m), 30, 30, .w1c, 0⟩
def NCO_MIX_STAT.ENV_RANGE (m : Nat) : Fld := ⟨(tileOff 20 0x1400 0x4 m), 29, 29, .w1c, 0⟩
def NCO_MIX_STAT.ZERO_SUB (m : Nat) : Fld := ⟨(tileOff 20 0x1400 0x4 m), 28, 28, .w1c, 0⟩
def NCO_MIX_STAT.BOUND (m : Nat) : Fld := ⟨(tileOff 20 0x1400 0x4 m), 20, 20, .ro, 0⟩
def NCO_MIX_STAT.FRAME (m : Nat) : Fld := ⟨(tileOff 20 0x1400 0x4 m), 19, 16, .ro, 0⟩
def NCO_MIX_STAT.PLAYS (m : Nat) : Fld := ⟨(tileOff 20 0x1400 0x4 m), 15, 0, .ro, 0⟩
def NCO_OUT_STAT.SAT (c : Nat) : Fld := ⟨(tileOff 5 0x1480 0x4 c), 31, 31, .w1c, 0⟩
def NCO_OUT_STAT.SAT_CNT (c : Nat) : Fld := ⟨(tileOff 5 0x1480 0x4 c), 23, 0, .ro, 0⟩
def NCO_OUT_CFG.PENDING (c : Nat) : Fld := ⟨(tileOff 5 0x14a0 0x4 c), 31, 31, .ro, 0⟩
def NCO_OUT_CFG.SETTLING (c : Nat) : Fld := ⟨(tileOff 5 0x14a0 0x4 c), 30, 30, .ro, 0⟩
def NCO_OUT_CFG.DLY (c : Nat) : Fld := ⟨(tileOff 5 0x14a0 0x4 c), 25, 16, .rw, 0⟩
def NCO_OUT_CFG.FS_TRIM (c : Nat) : Fld := ⟨(tileOff 5 0x14a0 0x4 c), 13, 8, .rw, 0x1e⟩
def NCO_OUT_CFG.MODE (c : Nat) : Fld := ⟨(tileOff 5 0x14a0 0x4 c), 1, 0, .rw, 0⟩
def SCH_STAT.STATE (e : Nat) : Fld := ⟨(tileOff 2 0x2000 0x40 e), 31, 30, .ro, 0⟩
def SCH_STAT.WAITING (e : Nat) : Fld := ⟨(tileOff 2 0x2000 0x40 e), 29, 29, .ro, 0⟩
def SCH_STAT.VOIDED (e : Nat) : Fld := ⟨(tileOff 2 0x2000 0x40 e), 28, 28, .ro, 0⟩
def SCH_STAT.FAULT (e : Nat) : Fld := ⟨(tileOff 2 0x2000 0x40 e), 27, 24, .ro, 0⟩
def SCH_STAT.LOOP_ACTIVE (e : Nat) : Fld := ⟨(tileOff 2 0x2000 0x40 e), 23, 20, .ro, 0⟩
def SCH_SEG.POINTER (e : Nat) : Fld := ⟨(tileOff 2 0x2004 0x40 e), 31, 0, .ro, 0⟩
def SCH_SHOT_LO.SHOT (e : Nat) : Fld := ⟨(tileOff 2 0x2008 0x40 e), 31, 0, .ro, 0⟩
def SCH_SHOT_HI.SHOT (e : Nat) : Fld := ⟨(tileOff 2 0x200c 0x40 e), 31, 0, .ro, 0⟩
def SCH_JUMP_REQ.REQ (e : Nat) : Fld := ⟨(tileOff 2 0x2010 0x40 e), 31, 31, .w1s, 0⟩
def SCH_JUMP_REQ.PAIR (e : Nat) : Fld := ⟨(tileOff 2 0x2010 0x40 e), 30, 30, .rw, 0⟩
def SCH_JUMP_REQ.CANCEL (e : Nat) : Fld := ⟨(tileOff 2 0x2010 0x40 e), 29, 29, .w1s, 0⟩
def SCH_JUMP_REQ.J (e : Nat) : Fld := ⟨(tileOff 2 0x2010 0x40 e), 3, 0, .rw, 0⟩
def SCH_JUMP_STATUS.RESULT (e : Nat) : Fld := ⟨(tileOff 2 0x2014 0x40 e), 31, 30, .ro, 0⟩
def SCH_JUMP_STATUS.TAKEN_CNT (e : Nat) : Fld := ⟨(tileOff 2 0x2014 0x40 e), 19, 4, .ro, 0⟩
def SCH_JUMP_STATUS.J (e : Nat) : Fld := ⟨(tileOff 2 0x2014 0x40 e), 3, 0, .ro, 0⟩
def SCH_JUMP_EPOCH_LO.EPOCH (e : Nat) : Fld := ⟨(tileOff 2 0x2018 0x40 e), 31, 0, .ro, 0⟩
def SCH_JUMP_EPOCH_HI.EPOCH (e : Nat) : Fld := ⟨(tileOff 2 0x201c 0x40 e), 31, 0, .ro, 0⟩
def SCH_EVT.LATE_FORK (e : Nat) : Fld := ⟨(tileOff 2 0x2020 0x40 e), 31, 31, .w1c, 0⟩
def SCH_EVT.LOST (e : Nat) : Fld := ⟨(tileOff 2 0x2020 0x40 e), 30, 30, .w1c, 0⟩
def SCH_EVT.VOID (e : Nat) : Fld := ⟨(tileOff 2 0x2020 0x40 e), 29, 29, .w1c, 0⟩
def SCH_EVT.HOLD (e : Nat) : Fld := ⟨(tileOff 2 0x2020 0x40 e), 28, 28, .w1c, 0⟩
def SCH_EVT.WAIT_TIMEOUT (e : Nat) : Fld := ⟨(tileOff 2 0x2020 0x40 e), 27, 27, .w1c, 0⟩
def SCH_EVT.PORT_OVERRUN (e : Nat) : Fld := ⟨(tileOff 2 0x2020 0x40 e), 26, 26, .w1c, 0⟩
def SCH_CNT.VOIDS (e : Nat) : Fld := ⟨(tileOff 2 0x2024 0x40 e), 31, 16, .ro, 0⟩
def SCH_CNT.LATE (e : Nat) : Fld := ⟨(tileOff 2 0x2024 0x40 e), 15, 0, .ro, 0⟩
def SCH_HOLD.QUANTA (e : Nat) : Fld := ⟨(tileOff 2 0x2028 0x40 e), 31, 0, .ro, 0⟩
def SCH_PORT_PRES.PRESENT (e : Nat) : Fld := ⟨(tileOff 2 0x202c 0x40 e), 31, 0, .ro, 0⟩
def ENG_CTL.QMAX_CLR (e : Nat) : Fld := ⟨(tileOff 2 0x3000 0x100 e), 1, 1, .w1s, 0⟩
def ENG_CTL.CNT_CLR (e : Nat) : Fld := ⟨(tileOff 2 0x3000 0x100 e), 0, 0, .w1s, 0⟩
def ENG_STAT.SEQ_STATE (e : Nat) : Fld := ⟨(tileOff 2 0x3004 0x100 e), 31, 30, .ro, 0⟩
def ENG_STAT.PRIO (e : Nat) : Fld := ⟨(tileOff 2 0x3004 0x100 e), 29, 28, .ro, 0⟩
def ENG_STAT.COMMITTED (e : Nat) : Fld := ⟨(tileOff 2 0x3004 0x100 e), 27, 27, .ro, 0⟩
def ENG_STAT.SPACE (e : Nat) : Fld := ⟨(tileOff 2 0x3004 0x100 e), 26, 26, .ro, 0⟩
def ENG_STAT.EVENT (e : Nat) : Fld := ⟨(tileOff 2 0x3004 0x100 e), 25, 22, .ro, 0⟩
def ENG_STAT.SHADOW (e : Nat) : Fld := ⟨(tileOff 2 0x3004 0x100 e), 21, 15, .ro, 0⟩
def ENG_STAT.UPC (e : Nat) : Fld := ⟨(tileOff 2 0x3004 0x100 e), 13, 0, .ro, 0⟩
def ENG_FAULT.CODE (e : Nat) : Fld := ⟨(tileOff 2 0x3008 0x100 e), 31, 24, .ro, 0⟩
def ENG_FAULT.TRAP (e : Nat) : Fld := ⟨(tileOff 2 0x3008 0x100 e), 23, 16, .ro, 0⟩
def ENG_FAULT.SPACE (e : Nat) : Fld := ⟨(tileOff 2 0x3008 0x100 e), 15, 15, .ro, 0⟩
def ENG_FAULT.UPC (e : Nat) : Fld := ⟨(tileOff 2 0x3008 0x100 e), 13, 0, .ro, 0⟩
def ENG_EVT.ISSUE_LATE (e : Nat) : Fld := ⟨(tileOff 2 0x300c 0x100 e), 31, 31, .w1c, 0⟩
def ENG_EVT.BUS_SHORT (e : Nat) : Fld := ⟨(tileOff 2 0x300c 0x100 e), 30, 30, .w1c, 0⟩
def ENG_EVT.RESTART (e : Nat) : Fld := ⟨(tileOff 2 0x300c 0x100 e), 29, 29, .w1c, 0⟩
def ENG_EVT.ESCALATE (e : Nat) : Fld := ⟨(tileOff 2 0x300c 0x100 e), 28, 28, .w1c, 0⟩
def ENG_EVT.PATCH_CE (e : Nat) : Fld := ⟨(tileOff 2 0x300c 0x100 e), 27, 27, .w1c, 0⟩
def ENG_EVT.LINE_BAD (e : Nat) : Fld := ⟨(tileOff 2 0x300c 0x100 e), 26, 26, .w1c, 0⟩
def ENG_CNT.RESTARTS (e : Nat) : Fld := ⟨(tileOff 2 0x3010 0x100 e), 31, 16, .ro, 0⟩
def ENG_CNT.ESCALATIONS (e : Nat) : Fld := ⟨(tileOff 2 0x3010 0x100 e), 15, 0, .ro, 0⟩
def ENG_LINES.LINES (e : Nat) : Fld := ⟨(tileOff 2 0x3014 0x100 e), 31, 0, .ro, 0⟩
def ENG_QUEUE.MAX (e : Nat) : Fld := ⟨(tileOff 2 0x3018 0x100 e), 13, 8, .ro, 0⟩
def ENG_QUEUE.DEPTH (e : Nat) : Fld := ⟨(tileOff 2 0x3018 0x100 e), 5, 0, .ro, 0⟩
def ENG_MATCH.EN (e : Nat) (i : Nat) : Fld := ⟨(tileOff 2 0x3080 0x100 e + 4 * i), 31, 31, .wl, 0⟩
def ENG_MATCH.PADDR (e : Nat) (i : Nat) : Fld := ⟨(tileOff 2 0x3080 0x100 e + 4 * i), 22, 14, .wl, 0⟩
def ENG_MATCH.ROM_ADDR (e : Nat) (i : Nat) : Fld := ⟨(tileOff 2 0x3080 0x100 e + 4 * i), 13, 0, .wl, 0⟩
def RD_DSTAT.OPEN (d : Nat) : Fld := ⟨(tileOff 16 0x4000 0x10 d), 31, 31, .ro, 0⟩
def RD_DSTAT.VALID (d : Nat) : Fld := ⟨(tileOff 16 0x4000 0x10 d), 30, 30, .ro, 0⟩
def RD_DSTAT.CODE (d : Nat) : Fld := ⟨(tileOff 16 0x4000 0x10 d), 29, 28, .ro, 0⟩
def RD_DSTAT.CLIP (d : Nat) : Fld := ⟨(tileOff 16 0x4000 0x10 d), 27, 27, .ro, 0⟩
def RD_DSTAT.OSAT (d : Nat) : Fld := ⟨(tileOff 16 0x4000 0x10 d), 26, 26, .ro, 0⟩
def RD_DSTAT.FRAME (d : Nat) : Fld := ⟨(tileOff 16 0x4000 0x10 d), 19, 16, .ro, 0⟩
def RD_DSTAT.WSET (d : Nat) : Fld := ⟨(tileOff 16 0x4000 0x10 d), 15, 0, .ro, 0⟩
def RD_LAST_I.I (d : Nat) : Fld := ⟨(tileOff 16 0x4004 0x10 d), 31, 0, .ro, 0⟩
def RD_LAST_Q.Q (d : Nat) : Fld := ⟨(tileOff 16 0x4008 0x10 d), 31, 0, .ro, 0⟩
def RD_CNT.LEAK (d : Nat) : Fld := ⟨(tileOff 16 0x400c 0x10 d), 31, 16, .ro, 0⟩
def RD_CNT.INVALID (d : Nat) : Fld := ⟨(tileOff 16 0x400c 0x10 d), 15, 0, .ro, 0⟩
def RD_EVT.OVERLAP (t : Nat) : Fld := ⟨(0x104100 + 0x20000 * t), 31, 31, .w1c, 0⟩
def RD_EVT.TRUNC (t : Nat) : Fld := ⟨(0x104100 + 0x20000 * t), 30, 30, .w1c, 0⟩
def RD_EVT.CLIP (t : Nat) : Fld := ⟨(0x104100 + 0x20000 * t), 29, 29, .w1c, 0⟩
def RD_EVT.REC_OVF (t : Nat) : Fld := ⟨(0x104100 + 0x20000 * t), 28, 28, .w1c, 0⟩
def RD_EVT.WPOISON (t : Nat) : Fld := ⟨(0x104100 + 0x20000 * t), 27, 27, .w1c, 0⟩
def RD_EVT.OSAT (t : Nat) : Fld := ⟨(0x104100 + 0x20000 * t), 26, 26, .w1c, 0⟩
def RD_RECQ.MAX (t : Nat) : Fld := ⟨(0x104104 + 0x20000 * t), 14, 8, .ro, 0⟩
def RD_RECQ.DEPTH (t : Nat) : Fld := ⟨(0x104104 + 0x20000 * t), 6, 0, .ro, 0⟩
def ACQ_STAT.STATE (t : Nat) : Fld := ⟨(0x105000 + 0x20000 * t), 31, 30, .ro, 0⟩
def ACQ_STAT.STREAM (t : Nat) : Fld := ⟨(0x105000 + 0x20000 * t), 29, 29, .ro, 0⟩
def ACQ_STAT.SLOT (t : Nat) : Fld := ⟨(0x105000 + 0x20000 * t), 28, 27, .ro, 0⟩
def ACQ_STAT.SEGDONE (t : Nat) : Fld := ⟨(0x105000 + 0x20000 * t), 26, 16, .ro, 0⟩
def ACQ_STAT.INDEX (t : Nat) : Fld := ⟨(0x105000 + 0x20000 * t), 15, 0, .ro, 0⟩
def ACQ_EVT.ARM_REFUSED (t : Nat) : Fld := ⟨(0x105004 + 0x20000 * t), 31, 31, .w1c, 0⟩
def ACQ_EVT.TRUNC (t : Nat) : Fld := ⟨(0x105004 + 0x20000 * t), 30, 30, .w1c, 0⟩
def ACQ_EVT.MISSED (t : Nat) : Fld := ⟨(0x105004 + 0x20000 * t), 29, 29, .w1c, 0⟩
def ACQ_EVT.PRE_SHORT (t : Nat) : Fld := ⟨(0x105004 + 0x20000 * t), 28, 28, .w1c, 0⟩
def ACQ_EVT.RESV_OVF (t : Nat) : Fld := ⟨(0x105004 + 0x20000 * t), 27, 27, .w1c, 0⟩
def ACQ_EVT.REC_FULL (t : Nat) : Fld := ⟨(0x105004 + 0x20000 * t), 26, 26, .w1c, 0⟩
def ACQ_ARM_ERR.CODE (t : Nat) : Fld := ⟨(0x105008 + 0x20000 * t), 31, 24, .ro, 0⟩
def ACQ_ARM_ERR.INDEX (t : Nat) : Fld := ⟨(0x105008 + 0x20000 * t), 15, 0, .ro, 0⟩
def ACQ_CNT.SEGMENTS (t : Nat) : Fld := ⟨(0x10500c + 0x20000 * t), 31, 16, .ro, 0⟩
def ACQ_CNT.MISSED (t : Nat) : Fld := ⟨(0x10500c + 0x20000 * t), 15, 0, .ro, 0⟩
def ACQ_FORCE.EN (t : Nat) : Fld := ⟨(0x105010 + 0x20000 * t), 31, 31, .rw, 0⟩
def ACQ_FORCE.POST (t : Nat) : Fld := ⟨(0x105010 + 0x20000 * t), 19, 0, .rw, 0⟩
def ACQ_SKEW_ADC.TRIM (t : Nat) : Fld := ⟨(0x105014 + 0x20000 * t), 31, 16, .rw, 0⟩
def ACQ_SKEW_ADC.CAL (t : Nat) : Fld := ⟨(0x105014 + 0x20000 * t), 15, 0, .ro, 0⟩
def ACQ_RECMEM.MAX_USED (t : Nat) : Fld := ⟨(0x105018 + 0x20000 * t), 30, 16, .ro, 0⟩
def ACQ_RECMEM.FREE (t : Nat) : Fld := ⟨(0x105018 + 0x20000 * t), 14, 0, .ro, 0x4000⟩
def FLX_OUT_STAT.MON_FAULT (c : Nat) : Fld := ⟨(tileOff 8 0x6000 0x10 c), 31, 31, .ro, 0⟩
def FLX_OUT_STAT.MON_WARN (c : Nat) : Fld := ⟨(tileOff 8 0x6000 0x10 c), 30, 30, .w1c, 0⟩
def FLX_OUT_STAT.DROPPED (c : Nat) : Fld := ⟨(tileOff 8 0x6000 0x10 c), 29, 29, .w1c, 0⟩
def FLX_OUT_STAT.CLAMPED (c : Nat) : Fld := ⟨(tileOff 8 0x6000 0x10 c), 28, 28, .ro, 1⟩
def FLX_OUT_STAT.CLAMP_WHY (c : Nat) : Fld := ⟨(tileOff 8 0x6000 0x10 c), 27, 25, .ro, 3⟩
def FLX_OUT_STAT.RANGE (c : Nat) : Fld := ⟨(tileOff 8 0x6000 0x10 c), 24, 24, .ro, 0⟩
def FLX_OUT_STAT.GROUP (c : Nat) : Fld := ⟨(tileOff 8 0x6000 0x10 c), 23, 21, .ro, 0⟩
def FLX_OUT_STAT.CODE (c : Nat) : Fld := ⟨(tileOff 8 0x6000 0x10 c), 15, 0, .ro, 0⟩
def FLX_HELD.HELD (c : Nat) : Fld := ⟨(tileOff 8 0x6004 0x10 c), 31, 31, .ro, 0⟩
def FLX_HELD.CODE (c : Nat) : Fld := ⟨(tileOff 8 0x6004 0x10 c), 15, 0, .ro, 0⟩
def FLX_MON.MEAS (c : Nat) : Fld := ⟨(tileOff 8 0x6008 0x10 c), 31, 16, .ro, 0⟩
def FLX_MON.EXPECT (c : Nat) : Fld := ⟨(tileOff 8 0x6008 0x10 c), 15, 0, .ro, 0⟩
def FLX_MON_CNT.VALID (c : Nat) : Fld := ⟨(tileOff 8 0x600c 0x10 c), 31, 31, .ro, 0⟩
def FLX_MON_CNT.UNSTABLE (c : Nat) : Fld := ⟨(tileOff 8 0x600c 0x10 c), 30, 30, .ro, 0⟩
def FLX_MON_CNT.WARNS (c : Nat) : Fld := ⟨(tileOff 8 0x600c 0x10 c), 15, 0, .ro, 0⟩
def FLX_EVT.MON_WARN (t : Nat) : Fld := ⟨(0x106080 + 0x20000 * t), 31, 31, .w1c, 0⟩
def FLX_EVT.MON_FAULT (t : Nat) : Fld := ⟨(0x106080 + 0x20000 * t), 30, 30, .w1c, 0⟩
def FLX_EVT.CLAMP_FAULT (t : Nat) : Fld := ⟨(0x106080 + 0x20000 * t), 29, 29, .w1c, 0⟩
def FLX_EVT.DROPPED (t : Nat) : Fld := ⟨(0x106080 + 0x20000 * t), 28, 28, .w1c, 0⟩
def FLX_EVT.MARK_STRETCH (t : Nat) : Fld := ⟨(0x106080 + 0x20000 * t), 27, 27, .w1c, 0⟩
def FLX_MARK.LEVEL (t : Nat) : Fld := ⟨(0x106084 + 0x20000 * t), 31, 31, .ro, 0⟩
def FLX_MARK.MIDLE (t : Nat) : Fld := ⟨(0x106084 + 0x20000 * t), 30, 30, .ro, 0⟩
def FLX_MARK.CLAMPED (t : Nat) : Fld := ⟨(0x106084 + 0x20000 * t), 29, 29, .ro, 1⟩
def FLX_MARK.CHANGES (t : Nat) : Fld := ⟨(0x106084 + 0x20000 * t), 15, 0, .ro, 0⟩
def CAL_ADC_Q.IL_SPUR (t : Nat) : Fld := ⟨(0x107000 + 0x20000 * t), 31, 24, .ro, 0⟩
def CAL_ADC_Q.FLAT (t : Nat) : Fld := ⟨(0x107000 + 0x20000 * t), 23, 16, .ro, 0⟩
def CAL_ADC_Q.TDIFF (t : Nat) : Fld := ⟨(0x107000 + 0x20000 * t), 15, 8, .ro, 0⟩
def CAL_ADC_Q.CONV (t : Nat) : Fld := ⟨(0x107000 + 0x20000 * t), 7, 7, .ro, 0⟩
def CAL_ADC_Q.FLAT_VALID (t : Nat) : Fld := ⟨(0x107000 + 0x20000 * t), 6, 6, .ro, 0⟩
def CAL_AGE.ADC (t : Nat) : Fld := ⟨(0x107060 + 0x20000 * t), 31, 16, .ro, 0⟩
def CAL_AGE.DAC (t : Nat) : Fld := ⟨(0x107060 + 0x20000 * t), 15, 0, .ro, 0⟩
def CAL_DAC_Q.FLAT (c : Nat) : Fld := ⟨(tileOff 5 0x7010 0x4 c), 31, 24, .ro, 0⟩
def CAL_DAC_Q.PFS_ERR (c : Nat) : Fld := ⟨(tileOff 5 0x7010 0x4 c), 23, 16, .ro, 0⟩
def CAL_DAC_Q.TDIFF (c : Nat) : Fld := ⟨(tileOff 5 0x7010 0x4 c), 15, 8, .ro, 0⟩
def CAL_DAC_Q.CONV (c : Nat) : Fld := ⟨(tileOff 5 0x7010 0x4 c), 7, 7, .ro, 0⟩
def CAL_DAC_Q.FLAT_VALID (c : Nat) : Fld := ⟨(tileOff 5 0x7010 0x4 c), 6, 6, .ro, 0⟩
def CAL_DAC_Q.DELAY_VALID (c : Nat) : Fld := ⟨(tileOff 5 0x7010 0x4 c), 5, 5, .ro, 0⟩
def CAL_FLX_Q.OFFSET (c : Nat) : Fld := ⟨(tileOff 8 0x7040 0x4 c), 31, 16, .ro, 0⟩
def CAL_FLX_Q.GAIN (c : Nat) : Fld := ⟨(tileOff 8 0x7040 0x4 c), 15, 8, .ro, 0⟩
def CAL_FLX_Q.CONV (c : Nat) : Fld := ⟨(tileOff 8 0x7040 0x4 c), 7, 7, .ro, 0⟩
def LNK_SQ_BASE_LO.ADDR (q : Nat) : Fld := ⟨(0x1000000 + 0x40 * q), 31, 12, .rw, 0⟩
def LNK_SQ_BASE_HI.ADDR (q : Nat) : Fld := ⟨(0x1000004 + 0x40 * q), 31, 0, .rw, 0⟩
def LNK_CQ_BASE_LO.ADDR (q : Nat) : Fld := ⟨(0x1000008 + 0x40 * q), 31, 12, .rw, 0⟩
def LNK_CQ_BASE_HI.ADDR (q : Nat) : Fld := ⟨(0x100000c + 0x40 * q), 31, 0, .rw, 0⟩
def LNK_Q_CFG.CQ_LOG (q : Nat) : Fld := ⟨(0x1000010 + 0x40 * q), 11, 8, .rw, 4⟩
def LNK_Q_CFG.SQ_LOG (q : Nat) : Fld := ⟨(0x1000010 + 0x40 * q), 3, 0, .rw, 4⟩
def LNK_Q_CTL.IEN (q : Nat) : Fld := ⟨(0x1000014 + 0x40 * q), 1, 1, .rw, 0⟩
def LNK_Q_CTL.EN (q : Nat) : Fld := ⟨(0x1000014 + 0x40 * q), 0, 0, .rw, 0⟩
def LNK_Q_STAT.DB_RANGE (q : Nat) : Fld := ⟨(0x1000018 + 0x40 * q), 31, 31, .w1c, 0⟩
def LNK_Q_STAT.CQ_FULL (q : Nat) : Fld := ⟨(0x1000018 + 0x40 * q), 30, 30, .ro, 0⟩
def LNK_Q_STAT.BUSY (q : Nat) : Fld := ⟨(0x1000018 + 0x40 * q), 29, 29, .ro, 0⟩
def LNK_Q_STAT.CQ_TAIL (q : Nat) : Fld := ⟨(0x1000018 + 0x40 * q), 25, 13, .ro, 0⟩
def LNK_Q_STAT.SQ_HEAD (q : Nat) : Fld := ⟨(0x1000018 + 0x40 * q), 12, 0, .ro, 0⟩
def MSIX.WORD (v : Nat) (i : Nat) : Fld := ⟨(0x1010000 + 0x10 * v + 4 * i), 31, 0, .rw, (if i = 3 then 1 else 0)⟩
def LNK_SQ_TAIL.INDEX (q : Nat) : Fld := ⟨(0x1002000 + 0x8 * q), 12, 0, .rw, 0⟩
def LNK_CQ_HEAD.INDEX (q : Nat) : Fld := ⟨(0x1002004 + 0x8 * q), 12, 0, .rw, 0⟩
end R

def regTable0 : List RegSpec := [
  ⟨.GLB_ID, 0x0, [], 0, fun _ => [R.GLB_ID.PART, R.GLB_ID.STEP, R.GLB_ID.MAP]⟩,
  ⟨.GLB_ACC_ERR, 0x4, [], 0, fun _ => [R.GLB_ACC_ERR.MULTI, R.GLB_ACC_ERR.OFF, R.GLB_ACC_ERR.RSVD_ENC, R.GLB_ACC_ERR.UNMAPPED, R.GLB_ACC_ERR.NARROW]⟩,
  ⟨.GLB_ACC_ADDR, 0x8, [], 0, fun _ => [R.GLB_ACC_ADDR.OFFSET]⟩,
  ⟨.GLB_RUN_CTL, 0x10, [], 0, fun _ => [R.GLB_RUN_CTL.START, R.GLB_RUN_CTL.CANCEL]⟩,
  ⟨.GLB_RUN_STAT, 0x14, [], 0, fun _ => [R.GLB_RUN_STAT.RUNNING, R.GLB_RUN_STAT.PENDING, R.GLB_RUN_STAT.REFUSED, R.GLB_RUN_STAT.DUP, R.GLB_RUN_STAT.REFUSE, R.GLB_RUN_STAT.RUNS]⟩,
  ⟨.GLB_UNIT_SELF, 0x100, [], 0, fun _ => [R.GLB_UNIT_SELF.VALID, R.GLB_UNIT_SELF.DEV, R.GLB_UNIT_SELF.UNIT_ID]⟩,
  ⟨.GLB_UNIT_QSEL, 0x104, [], 0, fun _ => [R.GLB_UNIT_QSEL.NAME]⟩,
  ⟨.GLB_UNIT_QSTAT, 0x108, [], 0, fun _ => [R.GLB_UNIT_QSTAT.SUMMARY]⟩,
  ⟨.GLB_UNIT_QEPOCH_LO, 0x10c, [], 0, fun _ => [R.GLB_UNIT_QEPOCH_LO.EPOCH]⟩,
  ⟨.GLB_UNIT_QEPOCH_HI, 0x110, [], 0, fun _ => [R.GLB_UNIT_QEPOCH_HI.EPOCH]⟩,
  ⟨.GLB_UNIT_QINFO, 0x114, [], 0, fun _ => [R.GLB_UNIT_QINFO.NOUNIT, R.GLB_UNIT_QINFO.REMOTE, R.GLB_UNIT_QINFO.MEMBERS, R.GLB_UNIT_QINFO.AGE]⟩,
  ⟨.GLB_IMG_BASE_LO, 0x200, [], 0, fun _ => [R.GLB_IMG_BASE_LO.ADDR]⟩]

def regTable1 : List RegSpec := [
  ⟨.GLB_IMG_BASE_HI, 0x204, [], 0, fun _ => [R.GLB_IMG_BASE_HI.ADDR]⟩,
  ⟨.GLB_IMG_LEN, 0x208, [], 0, fun _ => [R.GLB_IMG_LEN.LEN]⟩,
  ⟨.GLB_IMG_CTL, 0x20c, [], 0, fun _ => [R.GLB_IMG_CTL.DISCARD, R.GLB_IMG_CTL.COMMIT, R.GLB_IMG_CTL.LOAD]⟩,
  ⟨.GLB_IMG_STAT, 0x210, [], 0, fun _ => [R.GLB_IMG_STAT.LOAD_STATE, R.GLB_IMG_STAT.COMMIT_HELD, R.GLB_IMG_STAT.ACTIVE, R.GLB_IMG_STAT.PLAN_MISMATCH, R.GLB_IMG_STAT.SECTION, R.GLB_IMG_STAT.CODE]⟩,
  ⟨.GLB_IMG_ERR_OFF, 0x214, [], 0, fun _ => [R.GLB_IMG_ERR_OFF.OFFSET]⟩,
  ⟨.GLB_IMG_ACT_ID_LO, 0x218, [], 0, fun _ => [R.GLB_IMG_ACT_ID_LO.VALUE]⟩,
  ⟨.GLB_IMG_ACT_ID_HI, 0x21c, [], 0, fun _ => [R.GLB_IMG_ACT_ID_HI.VALUE]⟩,
  ⟨.GLB_IMG_PEND_ID_LO, 0x220, [], 0, fun _ => [R.GLB_IMG_PEND_ID_LO.VALUE]⟩,
  ⟨.GLB_IMG_PEND_ID_HI, 0x224, [], 0, fun _ => [R.GLB_IMG_PEND_ID_HI.VALUE]⟩,
  ⟨.GLB_IMG_COMMIT_EPOCH_LO, 0x228, [], 0, fun _ => [R.GLB_IMG_COMMIT_EPOCH_LO.VALUE]⟩,
  ⟨.GLB_IMG_COMMIT_EPOCH_HI, 0x22c, [], 0, fun _ => [R.GLB_IMG_COMMIT_EPOCH_HI.VALUE]⟩,
  ⟨.TB_EPOCH_LO, 0x300, [], 0, fun _ => [R.TB_EPOCH_LO.EPOCH]⟩]

def regTable2 : List RegSpec := [
  ⟨.TB_EPOCH_HI, 0x304, [], 0, fun _ => [R.TB_EPOCH_HI.EPOCH]⟩,
  ⟨.TB_CTL, 0x308, [], 0, fun _ => [R.TB_CTL.SOUT_MODE, R.TB_CTL.SYNC_GEN, R.TB_CTL.SYNC_ARM]⟩,
  ⟨.TB_SYNC_LOAD_LO, 0x30c, [], 0, fun _ => [R.TB_SYNC_LOAD_LO.LOAD]⟩,
  ⟨.TB_SYNC_LOAD_HI, 0x310, [], 0, fun _ => [R.TB_SYNC_LOAD_HI.LOAD]⟩,
  ⟨.TB_SYNC_DELAY, 0x314, [], 0, fun _ => [R.TB_SYNC_DELAY.DELAY]⟩,
  ⟨.TB_STAT, 0x318, [], 0, fun _ => [R.TB_STAT.AWAKE, R.TB_STAT.LOCKED, R.TB_STAT.REF_OK, R.TB_STAT.SYNCED, R.TB_STAT.SYNC_OK, R.TB_STAT.SLIP, R.TB_STAT.REF_LOST, R.TB_STAT.SYNC_IGNORED, R.TB_STAT.SYNC_MARGIN, R.TB_STAT.NOSYNC_RUN, R.TB_STAT.SYNC_COUNT]⟩,
  ⟨.TB_SYNC_POS, 0x31c, [], 0, fun _ => [R.TB_SYNC_POS.VALID, R.TB_SYNC_POS.POS]⟩,
  ⟨.ENG_ROM_ID, 0x400, [], 0, fun _ => [R.ENG_ROM_ID.ID]⟩,
  ⟨.ENG_PATCH_ID, 0x404, [], 0, fun _ => [R.ENG_PATCH_ID.ID]⟩,
  ⟨.ENG_PATCH_STAT, 0x408, [], 0, fun _ => [R.ENG_PATCH_STAT.LOADED, R.ENG_PATCH_STAT.PENDING, R.ENG_PATCH_STAT.REFUSED, R.ENG_PATCH_STAT.REASON, R.ENG_PATCH_STAT.WORDS]⟩,
  ⟨.ENG_PATCH_RD_SEL, 0x40c, [], 0, fun _ => [R.ENG_PATCH_RD_SEL.ENGINE, R.ENG_PATCH_RD_SEL.ADDR]⟩,
  ⟨.ENG_PATCH_RD_DATA, 0x410, [(0x4, 6)], 0, fun i => [R.ENG_PATCH_RD_DATA.DATA (i.getD 0 0)]⟩]

def regTable3 : List RegSpec := [
  ⟨.ACQ_TIN_STAT, 0x500, [], 0, fun _ => [R.ACQ_TIN_STAT.FALL, R.ACQ_TIN_STAT.RISE, R.ACQ_TIN_STAT.LEVEL]⟩,
  ⟨.ACQ_SWTRIG, 0x504, [], 0, fun _ => [R.ACQ_SWTRIG.FIRE]⟩,
  ⟨.ACQ_TIN_SKEW, 0x520, [(0x4, 8)], 0, fun i => [R.ACQ_TIN_SKEW.TRIM (i.getD 0 0), R.ACQ_TIN_SKEW.CAL (i.getD 0 0)]⟩,
  ⟨.ACQ_TRIG_CNT, 0x540, [(0x4, 8)], 0, fun i => [R.ACQ_TRIG_CNT.EVENTS (i.getD 0 0)]⟩,
  ⟨.ACQ_DRAIN_BASE_LO, 0x580, [], 0, fun _ => [R.ACQ_DRAIN_BASE_LO.ADDR]⟩,
  ⟨.ACQ_DRAIN_BASE_HI, 0x584, [], 0, fun _ => [R.ACQ_DRAIN_BASE_HI.ADDR]⟩,
  ⟨.ACQ_DRAIN_SIZE, 0x588, [], 0, fun _ => [R.ACQ_DRAIN_SIZE.SIZE]⟩,
  ⟨.ACQ_DRAIN_WPTR, 0x58c, [], 0, fun _ => [R.ACQ_DRAIN_WPTR.OFF]⟩,
  ⟨.ACQ_DRAIN_RPTR, 0x590, [], 0, fun _ => [R.ACQ_DRAIN_RPTR.OFF]⟩,
  ⟨.ACQ_DRAIN_CTL, 0x594, [], 0, fun _ => [R.ACQ_DRAIN_CTL.THRESH, R.ACQ_DRAIN_CTL.EN]⟩,
  ⟨.ACQ_DRAIN_STAT, 0x598, [], 0, fun _ => [R.ACQ_DRAIN_STAT.WAITING, R.ACQ_DRAIN_STAT.NORUN, R.ACQ_DRAIN_STAT.EN_DENIED, R.ACQ_DRAIN_STAT.ABOVE]⟩,
  ⟨.ACQ_STRM_BASE_LO, 0x5c0, [(0x20, 4)], 0, fun i => [R.ACQ_STRM_BASE_LO.ADDR (i.getD 0 0)]⟩]

def regTable4 : List RegSpec := [
  ⟨.ACQ_STRM_BASE_HI, 0x5c4, [(0x20, 4)], 0, fun i => [R.ACQ_STRM_BASE_HI.ADDR (i.getD 0 0)]⟩,
  ⟨.ACQ_STRM_SIZE, 0x5c8, [(0x20, 4)], 0, fun i => [R.ACQ_STRM_SIZE.SIZE (i.getD 0 0)]⟩,
  ⟨.ACQ_STRM_WPTR, 0x5cc, [(0x20, 4)], 0, fun i => [R.ACQ_STRM_WPTR.OFF (i.getD 0 0)]⟩,
  ⟨.ACQ_STRM_RPTR, 0x5d0, [(0x20, 4)], 0, fun i => [R.ACQ_STRM_RPTR.OFF (i.getD 0 0)]⟩,
  ⟨.ACQ_STRM_CTL, 0x5d4, [(0x20, 4)], 0, fun i => [R.ACQ_STRM_CTL.THRESH (i.getD 0 0), R.ACQ_STRM_CTL.EN (i.getD 0 0)]⟩,
  ⟨.ACQ_STRM_STAT, 0x5d8, [(0x20, 4)], 0, fun i => [R.ACQ_STRM_STAT.ACTIVE (i.getD 0 0), R.ACQ_STRM_STAT.GAP (i.getD 0 0), R.ACQ_STRM_STAT.EN_DENIED (i.getD 0 0), R.ACQ_STRM_STAT.TILE (i.getD 0 0), R.ACQ_STRM_STAT.GAPS (i.getD 0 0)]⟩,
  ⟨.MON_WIN, 0x700, [(0x10, 4)], 0, fun i => [R.MON_WIN.FAULT (i.getD 0 0), R.MON_WIN.WARN (i.getD 0 0)]⟩,
  ⟨.MON_STAT, 0x704, [(0x10, 4)], 0, fun i => [R.MON_STAT.RUNNING (i.getD 0 0), R.MON_STAT.LAP (i.getD 0 0)]⟩,
  ⟨.MON_LAPS, 0x708, [(0x10, 4)], 0, fun i => [R.MON_LAPS.LAPS (i.getD 0 0)]⟩,
  ⟨.CAL_REQ, 0x800, [], 0, fun _ => [R.CAL_REQ.GO, R.CAL_REQ.CLASSES]⟩,
  ⟨.CAL_REQ_STAT, 0x804, [], 0, fun _ => [R.CAL_REQ_STAT.RESULT, R.CAL_REQ_STAT.PENDING, R.CAL_REQ_STAT.DONE, R.CAL_REQ_STAT.REJECTED]⟩,
  ⟨.CAL_STAT, 0x808, [], 0, fun _ => [R.CAL_STAT.INITIAL, R.CAL_STAT.FG_BUSY, R.CAL_STAT.BAND, R.CAL_STAT.SOURCE, R.CAL_STAT.STALE, R.CAL_STAT.PEND_TEMP]⟩]

def regTable5 : List RegSpec := [
  ⟨.CAL_EVT, 0x80c, [], 0, fun _ => [R.CAL_EVT.CAL_REJECT, R.CAL_EVT.RUN_REFUSED, R.CAL_EVT.STEP_CUT, R.CAL_EVT.GAP_STARVED, R.CAL_EVT.RELOAD, R.CAL_EVT.COMMIT]⟩,
  ⟨.CAL_CNT, 0x810, [], 0, fun _ => [R.CAL_CNT.REJECTS, R.CAL_CNT.COMPLETIONS]⟩,
  ⟨.CAL_TCFG, 0x814, [], 0, fun _ => [R.CAL_TCFG.MAXINT, R.CAL_TCFG.TDELTA]⟩,
  ⟨.CAL_KEEP_SEQ, 0x818, [], 0, fun _ => [R.CAL_KEEP_SEQ.SEQ]⟩,
  ⟨.CAL_SRC, 0x81c, [], 0, fun _ => [R.CAL_SRC.VALID]⟩,
  ⟨.GLB_INT_STAT, 0xa00, [(0x4, 64)], 0, fun i => [R.GLB_INT_STAT.PRESENT (i.getD 0 0)]⟩,
  ⟨.GLB_WIN_SEL, 0xb00, [(0x4, 4)], 0, fun i => [R.GLB_WIN_SEL.BASE (i.getD 0 0)]⟩,
  ⟨.GLB_DEV_EVT, 0xb10, [], 0, fun _ => [R.GLB_DEV_EVT.IMG_COMMIT, R.GLB_DEV_EVT.IMG_DONE, R.GLB_DEV_EVT.TB_SYNC, R.GLB_DEV_EVT.FW_DONE]⟩,
  ⟨.WATCH_REQ, 0xc00, [], 0, fun _ => [R.WATCH_REQ.GO, R.WATCH_REQ.OP]⟩,
  ⟨.WATCH_ARG0, 0xc04, [], 0, fun _ => [R.WATCH_ARG0.ARG]⟩,
  ⟨.WATCH_ARG1, 0xc08, [], 0, fun _ => [R.WATCH_ARG1.ARG]⟩,
  ⟨.WATCH_RESP, 0xc0c, [], 0, fun _ => [R.WATCH_RESP.BUSY, R.WATCH_RESP.OVERRUN, R.WATCH_RESP.RESULT, R.WATCH_RESP.OP]⟩]

def regTable6 : List RegSpec := [
  ⟨.WATCH_EVT, 0xc10, [], 0, fun _ => [R.WATCH_EVT.REQ_DONE, R.WATCH_EVT.DENY, R.WATCH_EVT.WATCH_RESET, R.WATCH_EVT.DISCONNECT, R.WATCH_EVT.FAULT_LOGGED, R.WATCH_EVT.IDENT_FIX]⟩,
  ⟨.GLB_ST_REQ, 0xd00, [], 0, fun _ => [R.GLB_ST_REQ.GO, R.GLB_ST_REQ.STOP_FIRST, R.GLB_ST_REQ.DATA, R.GLB_ST_REQ.ALGO, R.GLB_ST_REQ.TESTS]⟩,
  ⟨.GLB_ST_BG_LO, 0xd04, [], 0, fun _ => [R.GLB_ST_BG_LO.BG]⟩,
  ⟨.GLB_ST_BG_HI, 0xd08, [], 0, fun _ => [R.GLB_ST_BG_HI.BG]⟩,
  ⟨.GLB_ST_CXL_BASE_LO, 0xd0c, [], 0, fun _ => [R.GLB_ST_CXL_BASE_LO.ADDR]⟩,
  ⟨.GLB_ST_CXL_BASE_HI, 0xd10, [], 0, fun _ => [R.GLB_ST_CXL_BASE_HI.ADDR]⟩,
  ⟨.GLB_ST_CXL_LEN, 0xd14, [], 0, fun _ => [R.GLB_ST_CXL_LEN.LEN]⟩,
  ⟨.GLB_ST_STAT, 0xd18, [], 0, fun _ => [R.GLB_ST_STAT.BUSY, R.GLB_ST_STAT.DEFERRED, R.GLB_ST_STAT.RUN_REFUSED, R.GLB_ST_STAT.RESULT, R.GLB_ST_STAT.REASON, R.GLB_ST_STAT.DONE, R.GLB_ST_STAT.FAILED]⟩,
  ⟨.GLB_ST_FAIL, 0xd1c, [], 0, fun _ => [R.GLB_ST_FAIL.TEST, R.GLB_ST_FAIL.ELEM, R.GLB_ST_FAIL.OP, R.GLB_ST_FAIL.WORD, R.GLB_ST_FAIL.BIT, R.GLB_ST_FAIL.NBITS, R.GLB_ST_FAIL.KIND]⟩,
  ⟨.GLB_ST_FAIL_ADDR_LO, 0xd20, [], 0, fun _ => [R.GLB_ST_FAIL_ADDR_LO.ADDR]⟩,
  ⟨.GLB_ST_FAIL_ADDR_HI, 0xd24, [], 0, fun _ => [R.GLB_ST_FAIL_ADDR_HI.ADDR]⟩,
  ⟨.GLB_ST_TMAP, 0xd28, [], 0, fun _ => [R.GLB_ST_TMAP.MAP]⟩]

def regTable7 : List RegSpec := [
  ⟨.GLB_ST_EMAP_LO, 0xd2c, [], 0, fun _ => [R.GLB_ST_EMAP_LO.MAP]⟩,
  ⟨.GLB_ST_EMAP_HI, 0xd30, [], 0, fun _ => [R.GLB_ST_EMAP_HI.MAP]⟩,
  ⟨.GLB_ST_CONV, 0xd34, [], 0, fun _ => [R.GLB_ST_CONV.MAP]⟩,
  ⟨.GLB_ST_LANE, 0xd38, [], 0, fun _ => [R.GLB_ST_LANE.MAP]⟩,
  ⟨.GLB_ST_FAILCNT, 0xd3c, [], 0, fun _ => [R.GLB_ST_FAILCNT.MAP]⟩,
  ⟨.THM_SENS, 0x10000, [(0x4, 12)], 0, fun i => [R.THM_SENS.VALID (i.getD 0 0), R.THM_SENS.FAULT (i.getD 0 0), R.THM_SENS.TEMP (i.getD 0 0)]⟩,
  ⟨.THM_MAX, 0x10040, [], 0, fun _ => [R.THM_MAX.ID, R.THM_MAX.RATE, R.THM_MAX.TEMP]⟩,
  ⟨.THM_STAT, 0x10044, [], 0, fun _ => [R.THM_STAT.SHUTDOWN, R.THM_STAT.RATE_CLAMP, R.THM_STAT.RATE_WARN, R.THM_STAT.RATE_SUPP, R.THM_STAT.BAND_PEND, R.THM_STAT.BAND, R.THM_STAT.NEXT_BAND, R.THM_STAT.DWELL, R.THM_STAT.SHUT_WHY]⟩,
  ⟨.THM_EVT, 0x10048, [], 0, fun _ => [R.THM_EVT.SHUTDOWN, R.THM_EVT.RATE_CLAMP, R.THM_EVT.RATE_WARN, R.THM_EVT.BAND_CHG, R.THM_EVT.BAND_WDRAWN, R.THM_EVT.SENS_FAULT, R.THM_EVT.KEEP_ABORT, R.THM_EVT.RUN_REFUSED]⟩,
  ⟨.THM_CTL, 0x1004c, [], 0, fun _ => [R.THM_CTL.RESUME, R.THM_CTL.THERM_MASK]⟩,
  ⟨.THM_RATE_LIM, 0x10050, [], 0, fun _ => [R.THM_RATE_LIM.CLAMP, R.THM_RATE_LIM.WARN]⟩,
  ⟨.THM_PEAK, 0x10054, [], 0, fun _ => [R.THM_PEAK.PEAK]⟩]

def regTable8 : List RegSpec := [
  ⟨.PWR_CTL, 0x10100, [], 0, fun _ => [R.PWR_CTL.WAKE, R.PWR_CTL.SLEEP, R.PWR_CTL.AUTO_SLEEP, R.PWR_CTL.SLEEP_DELAY]⟩,
  ⟨.PWR_STAT, 0x10104, [], 0, fun _ => [R.PWR_STAT.STATE, R.PWR_STAT.WAIT, R.PWR_STAT.REFUSE, R.PWR_STAT.WAKE_TIME]⟩,
  ⟨.PWR_DOM_STAT, 0x10108, [], 0, fun _ => [R.PWR_DOM_STAT.ON]⟩,
  ⟨.PWR_TILE_CTL, 0x1010c, [], 0, fun _ => [R.PWR_TILE_CTL.EN]⟩,
  ⟨.PWR_TILE_STAT, 0x10110, [], 0, fun _ => [R.PWR_TILE_STAT.PENDING, R.PWR_TILE_STAT.UP]⟩,
  ⟨.PWR_EVT, 0x10114, [], 0, fun _ => [R.PWR_EVT.PWRFAIL, R.PWR_EVT.RUN_REFUSED, R.PWR_EVT.RST_DENIED, R.PWR_EVT.WAKE_ABORT]⟩,
  ⟨.PWR_RST_CTL, 0x10118, [], 0, fun _ => [R.PWR_RST_CTL.DEVICE, R.PWR_RST_CTL.KEY]⟩,
  ⟨.PWR_RST, 0x10120, [], 0, fun _ => [R.PWR_RST.CAUSE, R.PWR_RST.COUNT]⟩,
  ⟨.ECC_EVT, 0x20000, [], 0, fun _ => [R.ECC_EVT.UE_IDLE, R.ECC_EVT.UE_READ, R.ECC_EVT.E2E_FAIL, R.ECC_EVT.CXL_POISON, R.ECC_EVT.CE, R.ECC_EVT.LOG_OVF, R.ECC_EVT.FLIP_DENIED, R.ECC_EVT.MAP_ERR, R.ECC_EVT.REC_LOST]⟩,
  ⟨.ECC_LOG_STAT, 0x20004, [], 0, fun _ => [R.ECC_LOG_STAT.COUNT]⟩,
  ⟨.ECC_LOG_W0, 0x20008, [], 0, fun _ => [R.ECC_LOG_W0.VALID, R.ECC_LOG_W0.KIND, R.ECC_LOG_W0.SOURCE, R.ECC_LOG_W0.CLASS, R.ECC_LOG_W0.UNIT, R.ECC_LOG_W0.LINE]⟩,
  ⟨.ECC_LOG_W1, 0x2000c, [], 0, fun _ => [R.ECC_LOG_W1.SYNDROME, R.ECC_LOG_W1.POS, R.ECC_LOG_W1.ACTION]⟩]

def regTable9 : List RegSpec := [
  ⟨.ECC_LOG_EPOCH_LO, 0x20010, [], 0, fun _ => [R.ECC_LOG_EPOCH_LO.EPOCH]⟩,
  ⟨.ECC_LOG_EPOCH_HI, 0x20014, [], 0, fun _ => [R.ECC_LOG_EPOCH_HI.EPOCH]⟩,
  ⟨.ECC_LOG_POP, 0x20018, [], 0, fun _ => [R.ECC_LOG_POP.POP]⟩,
  ⟨.ECC_CNT, 0x20020, [(0x4, 5)], 0, fun i => [R.ECC_CNT.CE (i.getD 0 0), R.ECC_CNT.UE (i.getD 0 0)]⟩,
  ⟨.ECC_FLIP_CTL, 0x20040, [], 0, fun _ => [R.ECC_FLIP_CTL.ARM, R.ECC_FLIP_CTL.CLASS, R.ECC_FLIP_CTL.UNIT, R.ECC_FLIP_CTL.LINE]⟩,
  ⟨.ECC_FLIP_POS, 0x20044, [], 0, fun _ => [R.ECC_FLIP_POS.CHK, R.ECC_FLIP_POS.POS]⟩,
  ⟨.ECC_FLIP_DATA_LO, 0x20048, [], 0, fun _ => [R.ECC_FLIP_DATA_LO.MASK]⟩,
  ⟨.ECC_FLIP_DATA_HI, 0x2004c, [], 0, fun _ => [R.ECC_FLIP_DATA_HI.MASK]⟩,
  ⟨.ECC_CXL_STAT, 0x20050, [], 0, fun _ => [R.ECC_CXL_STAT.PRESENT, R.ECC_CXL_STAT.MAP_WHY, R.ECC_CXL_STAT.CAP]⟩,
  ⟨.SCRUB_CTL, 0x20080, [], 0, fun _ => [R.SCRUB_CTL.EN, R.SCRUB_CTL.INTERVAL]⟩,
  ⟨.SCRUB_STAT, 0x20084, [], 0, fun _ => [R.SCRUB_STAT.RUNNING, R.SCRUB_STAT.LAP]⟩,
  ⟨.SCRUB_LAPS, 0x20088, [], 0, fun _ => [R.SCRUB_LAPS.LAPS]⟩]

def regTable10 : List RegSpec := [
  ⟨.LNK_HOST_STAT, 0x30000, [], 0, fun _ => [R.LNK_HOST_STAT.UP, R.LNK_HOST_STAT.FLIT, R.LNK_HOST_STAT.RATE, R.LNK_HOST_STAT.WIDTH, R.LNK_HOST_STAT.L0P]⟩,
  ⟨.LNK_HOST_EVT, 0x30004, [], 0, fun _ => [R.LNK_HOST_EVT.DOWN, R.LNK_HOST_EVT.RATE_CHG, R.LNK_HOST_EVT.BAR2_WR, R.LNK_HOST_EVT.BAR2_UNMAPPED, R.LNK_HOST_EVT.RPTR_BUSY, R.LNK_HOST_EVT.BAR4_ACC]⟩,
  ⟨.LNK_CXL_STAT, 0x30100, [], 0, fun _ => [R.LNK_CXL_STAT.UP, R.LNK_CXL_STAT.WHY, R.LNK_CXL_STAT.RATE, R.LNK_CXL_STAT.WIDTH]⟩,
  ⟨.LNK_CXL_EVT, 0x30104, [], 0, fun _ => [R.LNK_CXL_EVT.DOWN, R.LNK_CXL_EVT.ENUM_FAIL, R.LNK_CXL_EVT.MEDIA]⟩,
  ⟨.LNK_CXL_CNT, 0x30108, [], 0, fun _ => [R.LNK_CXL_CNT.RETRAINS, R.LNK_CXL_CNT.MEDIA]⟩,
  ⟨.LNK_PORT_CTL, 0x31000, [(0x40, 9)], 0, fun i => [R.LNK_PORT_CTL.EN (i.getD 0 0), R.LNK_PORT_CTL.RETRAIN (i.getD 0 0), R.LNK_PORT_CTL.EXTENDED (i.getD 0 0)]⟩,
  ⟨.LNK_PORT_STAT, 0x31004, [(0x40, 9)], 0, fun i => [R.LNK_PORT_STAT.PHASE (i.getD 0 0), R.LNK_PORT_STAT.WHY (i.getD 0 0), R.LNK_PORT_STAT.LANES (i.getD 0 0), R.LNK_PORT_STAT.RATE (i.getD 0 0), R.LNK_PORT_STAT.SRC (i.getD 0 0), R.LNK_PORT_STAT.TRAINS (i.getD 0 0)]⟩,
  ⟨.LNK_PORT_CAP, 0x31008, [(0x40, 9)], 0, fun i => [R.LNK_PORT_CAP.RATES (i.getD 0 0), R.LNK_PORT_CAP.LANES (i.getD 0 0), R.LNK_PORT_CAP.FORMATS (i.getD 0 0), R.LNK_PORT_CAP.LINK (i.getD 0 0), R.LNK_PORT_CAP.PART (i.getD 0 0)]⟩,
  ⟨.LNK_PORT_EVT, 0x3100c, [(0x40, 9)], 0, fun i => [R.LNK_PORT_EVT.DOWN (i.getD 0 0), R.LNK_PORT_EVT.EYE_WARN (i.getD 0 0), R.LNK_PORT_EVT.RETRY (i.getD 0 0), R.LNK_PORT_EVT.LOCK_LOST (i.getD 0 0)]⟩,
  ⟨.LNK_LANE_STAT, 0x31010, [(0x40, 9), (0x4, 4)], 0, fun i => [R.LNK_LANE_STAT.LOCK (i.getD 0 0) (i.getD 1 0), R.LNK_LANE_STAT.PRECODE_TX (i.getD 0 0) (i.getD 1 0), R.LNK_LANE_STAT.PRECODE_RX (i.getD 0 0) (i.getD 1 0), R.LNK_LANE_STAT.EYE_LOW (i.getD 0 0) (i.getD 1 0), R.LNK_LANE_STAT.EYE_H (i.getD 0 0) (i.getD 1 0), R.LNK_LANE_STAT.EYE_W (i.getD 0 0) (i.getD 1 0)]⟩,
  ⟨.LNK_TAP_SEL, 0x31400, [], 0, fun _ => [R.LNK_TAP_SEL.PORT, R.LNK_TAP_SEL.LANE]⟩,
  ⟨.LNK_TAP_DATA, 0x31404, [(0x4, 3)], 0, fun i => [R.LNK_TAP_DATA.TAPS (i.getD 0 0)]⟩]

def regTable11 : List RegSpec := [
  ⟨.LNK_SER_CTL, 0x31410, [], 0, fun _ => [R.LNK_SER_CTL.EYE_WARN, R.LNK_SER_CTL.EYE_MIN]⟩,
  ⟨.TWIN_STAT, 0x32000, [], 0, fun _ => [R.TWIN_STAT.STATE, R.TWIN_STAT.ROLE, R.TWIN_STAT.WHY, R.TWIN_STAT.SEL, R.TWIN_STAT.PEER_SEL, R.TWIN_STAT.QOK, R.TWIN_STAT.PEER_QOK, R.TWIN_STAT.DIVERGED]⟩,
  ⟨.TWIN_CTL, 0x32004, [], 0, fun _ => [R.TWIN_CTL.ATTACH, R.TWIN_CTL.DETACH, R.TWIN_CTL.ON_MISMATCH, R.TWIN_CTL.CLAIM]⟩,
  ⟨.TWIN_EVT, 0x32008, [], 0, fun _ => [R.TWIN_EVT.ATTACHED, R.TWIN_EVT.ATTACH_REFUSED, R.TWIN_EVT.DETACHED, R.TWIN_EVT.HB_LOST, R.TWIN_EVT.HANDOVER, R.TWIN_EVT.HANDOVER_REFUSED, R.TWIN_EVT.MISMATCH, R.TWIN_EVT.DIGEST_MISSING, R.TWIN_EVT.FOLLOW_WRITE, R.TWIN_EVT.PEER_CHANGED, R.TWIN_EVT.RUN_REFUSED]⟩,
  ⟨.TWIN_CNT, 0x3200c, [], 0, fun _ => [R.TWIN_CNT.MISMATCHES, R.TWIN_CNT.MISSING]⟩,
  ⟨.TWIN_CFG, 0x32010, [], 0, fun _ => [R.TWIN_CFG.HB_LIMIT, R.TWIN_CFG.SEL_SETTLE]⟩,
  ⟨.TWIN_LAST, 0x32014, [], 0, fun _ => [R.TWIN_LAST.VALID, R.TWIN_LAST.MISSING, R.TWIN_LAST.TILE, R.TWIN_LAST.SHOT]⟩,
  ⟨.TWIN_HO_EPOCH_LO, 0x32018, [], 0, fun _ => [R.TWIN_HO_EPOCH_LO.EPOCH]⟩,
  ⟨.TWIN_HO_EPOCH_HI, 0x3201c, [], 0, fun _ => [R.TWIN_HO_EPOCH_HI.EPOCH]⟩,
  ⟨.FAB_STAT, 0x40000, [], 0, fun _ => [R.FAB_STAT.PLAN, R.FAB_STAT.ANISE, R.FAB_STAT.PORTS_OK, R.FAB_STAT.REFUSE]⟩,
  ⟨.FAB_START_LO, 0x40008, [], 0, fun _ => [R.FAB_START_LO.START]⟩,
  ⟨.FAB_START_HI, 0x4000c, [], 0, fun _ => [R.FAB_START_HI.START]⟩]

def regTable12 : List RegSpec := [
  ⟨.FAB_EVT, 0x40010, [], 0, fun _ => [R.FAB_EVT.START_REFUSED, R.FAB_EVT.LOST, R.FAB_EVT.COPY_ERR, R.FAB_EVT.LATE_COPY, R.FAB_EVT.CYC_ERR, R.FAB_EVT.TX_OVERRUN, R.FAB_EVT.VOTE_LOST, R.FAB_EVT.ANISE_TIMEOUT, R.FAB_EVT.ANISE_STRAY, R.FAB_EVT.PORT_DOWN]⟩,
  ⟨.FAB_CNT, 0x40014, [], 0, fun _ => [R.FAB_CNT.LOST, R.FAB_CNT.OVERRUN]⟩,
  ⟨.FAB_ANISE, 0x40018, [], 0, fun _ => [R.FAB_ANISE.MAX_OUT, R.FAB_ANISE.TIMEOUTS]⟩,
  ⟨.FAB_PORT_STAT, 0x40100, [(0x20, 9)], 0, fun i => [R.FAB_PORT_STAT.USED (i.getD 0 0), R.FAB_PORT_STAT.IN_SERVICE (i.getD 0 0), R.FAB_PORT_STAT.NBR_OK (i.getD 0 0), R.FAB_PORT_STAT.EPOCH_OK (i.getD 0 0), R.FAB_PORT_STAT.PLAN_OK (i.getD 0 0), R.FAB_PORT_STAT.LAT_RANGE (i.getD 0 0), R.FAB_PORT_STAT.LAT (i.getD 0 0), R.FAB_PORT_STAT.NBR_DEV (i.getD 0 0), R.FAB_PORT_STAT.CREDITS (i.getD 0 0)]⟩,
  ⟨.FAB_PORT_ERR, 0x40104, [(0x20, 9)], 0, fun i => [R.FAB_PORT_ERR.LANE3 (i.getD 0 0), R.FAB_PORT_ERR.LANE2 (i.getD 0 0), R.FAB_PORT_ERR.LANE1 (i.getD 0 0), R.FAB_PORT_ERR.LANE0 (i.getD 0 0)]⟩,
  ⟨.FAB_PORT_LOST, 0x40108, [(0x20, 9)], 0, fun i => [R.FAB_PORT_LOST.LOST (i.getD 0 0), R.FAB_PORT_LOST.LATE_COPY (i.getD 0 0)]⟩,
  ⟨.WATCH_STAT, 0x80000, [], 0, fun _ => [R.WATCH_STAT.STATE, R.WATCH_STAT.RESETS, R.WATCH_STAT.DISCONNECTS]⟩,
  ⟨.WATCH_DENY_CNT, 0x80004, [], 0, fun _ => [R.WATCH_DENY_CNT.COUNT]⟩,
  ⟨.WATCH_DENY_ADDR, 0x80008, [], 0, fun _ => [R.WATCH_DENY_ADDR.OFFSET]⟩,
  ⟨.WATCH_DISC, 0x80010, [(0x4, 8)], 0, fun i => [R.WATCH_DISC.OPEN (i.getD 0 0)]⟩,
  ⟨.IDENT, 0x80100, [(0x4, 64)], 0, fun i => [R.IDENT.BYTES (i.getD 0 0)]⟩,
  ⟨.WATCH_FLT, 0x80200, [(0x4, 8)], 0, fun i => [R.WATCH_FLT.WORD (i.getD 0 0)]⟩]

def regTable13 : List RegSpec := [
  ⟨.KEEP_STAT, 0x500000, [], 0, fun _ => [R.KEEP_STAT.STATE, R.KEEP_STAT.READY, R.KEEP_STAT.BUSY, R.KEEP_STAT.PWRFAIL, R.KEEP_STAT.RING_GOOD, R.KEEP_STAT.QUEUE]⟩,
  ⟨.KEEP_WEAR, 0x500004, [], 0, fun _ => [R.KEEP_WEAR.SPARES, R.KEEP_WEAR.RETIRED]⟩,
  ⟨.KEEP_EVT, 0x500008, [], 0, fun _ => [R.KEEP_EVT.WORN, R.KEEP_EVT.RING_FAIL, R.KEEP_EVT.RETIRE, R.KEEP_EVT.SUSPECT, R.KEEP_EVT.CHECK_FAIL, R.KEEP_EVT.LIFE_GAP, R.KEEP_EVT.OTP_BAD, R.KEEP_EVT.FAULT_DROP, R.KEEP_EVT.PROG_RETRY]⟩,
  ⟨.KEEP_CNT, 0x50000c, [], 0, fun _ => [R.KEEP_CNT.COMMITS, R.KEEP_CNT.FAULT_DROPPED]⟩,
  ⟨.KEEP_SEQ, 0x500010, [], 0, fun _ => [R.KEEP_SEQ.SEQ]⟩,
  ⟨.KEEP_ERASE, 0x500014, [], 0, fun _ => [R.KEEP_ERASE.MAX]⟩,
  ⟨.KEEP_BOOT, 0x500018, [], 0, fun _ => [R.KEEP_BOOT.SCAN_MS, R.KEEP_BOOT.SUSPECT, R.KEEP_BOOT.RELOCATED]⟩,
  ⟨.FW_CMD, 0x500100, [], 0, fun _ => [R.FW_CMD.GO, R.FW_CMD.OP]⟩,
  ⟨.FW_ARG0, 0x500104, [], 0, fun _ => [R.FW_ARG0.ARG]⟩,
  ⟨.FW_ARG1, 0x500108, [], 0, fun _ => [R.FW_ARG1.ARG]⟩,
  ⟨.FW_ARG2, 0x50010c, [], 0, fun _ => [R.FW_ARG2.ARG]⟩,
  ⟨.FW_STAT, 0x500110, [], 0, fun _ => [R.FW_STAT.BUSY, R.FW_STAT.OVERRUN, R.FW_STAT.RUNNING, R.FW_STAT.RECOVERY, R.FW_STAT.OWNER, R.FW_STAT.RESULT, R.FW_STAT.NEXT]⟩]

def regTable14 : List RegSpec := [
  ⟨.FW_SLOT, 0x500114, [(0x4, 2)], 0, fun i => [R.FW_SLOT.STATE (i.getD 0 0), R.FW_SLOT.TRIES (i.getD 0 0), R.FW_SLOT.SVN (i.getD 0 0)]⟩,
  ⟨.FW_VER, 0x50011c, [(0x4, 2)], 0, fun i => [R.FW_VER.FW_VER (i.getD 0 0)]⟩,
  ⟨.FW_MINSVN, 0x500124, [], 0, fun _ => [R.FW_MINSVN.MIN_SVN]⟩,
  ⟨.FW_BUF, 0x501000, [(0x4, 1024)], 0, fun i => [R.FW_BUF.DATA (i.getD 0 0)]⟩,
  ⟨.NCO_FREQ_LO, 0x101000, [(0x20000, 32), (0x20, 32)], 32, fun i => [R.NCO_FREQ_LO.F_LO (i.getD 0 0)]⟩,
  ⟨.NCO_FREQ_HI, 0x101004, [(0x20000, 32), (0x20, 32)], 32, fun i => [R.NCO_FREQ_HI.F_HI (i.getD 0 0)]⟩,
  ⟨.NCO_PHASE, 0x101008, [(0x20000, 32), (0x20, 32)], 32, fun i => [R.NCO_PHASE.THETA (i.getD 0 0)]⟩,
  ⟨.NCO_REF_LO, 0x10100c, [(0x20000, 32), (0x20, 32)], 32, fun i => [R.NCO_REF_LO.REF (i.getD 0 0)]⟩,
  ⟨.NCO_REF_HI, 0x101010, [(0x20000, 32), (0x20, 32)], 32, fun i => [R.NCO_REF_HI.REF (i.getD 0 0)]⟩,
  ⟨.NCO_STAT, 0x101014, [(0x20000, 32), (0x20, 32)], 32, fun i => [R.NCO_STAT.COLLIDE (i.getD 0 0), R.NCO_STAT.OCC (i.getD 0 0)]⟩,
  ⟨.NCO_MIX_STAT, 0x101400, [(0x20000, 32), (0x4, 20)], 20, fun i => [R.NCO_MIX_STAT.BUSY (i.getD 0 0), R.NCO_MIX_STAT.OVERLAP (i.getD 0 0), R.NCO_MIX_STAT.ENV_RANGE (i.getD 0 0), R.NCO_MIX_STAT.ZERO_SUB (i.getD 0 0), R.NCO_MIX_STAT.BOUND (i.getD 0 0), R.NCO_MIX_STAT.FRAME (i.getD 0 0), R.NCO_MIX_STAT.PLAYS (i.getD 0 0)]⟩,
  ⟨.NCO_OUT_STAT, 0x101480, [(0x20000, 32), (0x4, 5)], 5, fun i => [R.NCO_OUT_STAT.SAT (i.getD 0 0), R.NCO_OUT_STAT.SAT_CNT (i.getD 0 0)]⟩]

def regTable15 : List RegSpec := [
  ⟨.NCO_OUT_CFG, 0x1014a0, [(0x20000, 32), (0x4, 5)], 5, fun i => [R.NCO_OUT_CFG.PENDING (i.getD 0 0), R.NCO_OUT_CFG.SETTLING (i.getD 0 0), R.NCO_OUT_CFG.DLY (i.getD 0 0), R.NCO_OUT_CFG.FS_TRIM (i.getD 0 0), R.NCO_OUT_CFG.MODE (i.getD 0 0)]⟩,
  ⟨.SCH_STAT, 0x102000, [(0x20000, 32), (0x40, 2)], 2, fun i => [R.SCH_STAT.STATE (i.getD 0 0), R.SCH_STAT.WAITING (i.getD 0 0), R.SCH_STAT.VOIDED (i.getD 0 0), R.SCH_STAT.FAULT (i.getD 0 0), R.SCH_STAT.LOOP_ACTIVE (i.getD 0 0)]⟩,
  ⟨.SCH_SEG, 0x102004, [(0x20000, 32), (0x40, 2)], 2, fun i => [R.SCH_SEG.POINTER (i.getD 0 0)]⟩,
  ⟨.SCH_SHOT_LO, 0x102008, [(0x20000, 32), (0x40, 2)], 2, fun i => [R.SCH_SHOT_LO.SHOT (i.getD 0 0)]⟩,
  ⟨.SCH_SHOT_HI, 0x10200c, [(0x20000, 32), (0x40, 2)], 2, fun i => [R.SCH_SHOT_HI.SHOT (i.getD 0 0)]⟩,
  ⟨.SCH_JUMP_REQ, 0x102010, [(0x20000, 32), (0x40, 2)], 2, fun i => [R.SCH_JUMP_REQ.REQ (i.getD 0 0), R.SCH_JUMP_REQ.PAIR (i.getD 0 0), R.SCH_JUMP_REQ.CANCEL (i.getD 0 0), R.SCH_JUMP_REQ.J (i.getD 0 0)]⟩,
  ⟨.SCH_JUMP_STATUS, 0x102014, [(0x20000, 32), (0x40, 2)], 2, fun i => [R.SCH_JUMP_STATUS.RESULT (i.getD 0 0), R.SCH_JUMP_STATUS.TAKEN_CNT (i.getD 0 0), R.SCH_JUMP_STATUS.J (i.getD 0 0)]⟩,
  ⟨.SCH_JUMP_EPOCH_LO, 0x102018, [(0x20000, 32), (0x40, 2)], 2, fun i => [R.SCH_JUMP_EPOCH_LO.EPOCH (i.getD 0 0)]⟩,
  ⟨.SCH_JUMP_EPOCH_HI, 0x10201c, [(0x20000, 32), (0x40, 2)], 2, fun i => [R.SCH_JUMP_EPOCH_HI.EPOCH (i.getD 0 0)]⟩,
  ⟨.SCH_EVT, 0x102020, [(0x20000, 32), (0x40, 2)], 2, fun i => [R.SCH_EVT.LATE_FORK (i.getD 0 0), R.SCH_EVT.LOST (i.getD 0 0), R.SCH_EVT.VOID (i.getD 0 0), R.SCH_EVT.HOLD (i.getD 0 0), R.SCH_EVT.WAIT_TIMEOUT (i.getD 0 0), R.SCH_EVT.PORT_OVERRUN (i.getD 0 0)]⟩,
  ⟨.SCH_CNT, 0x102024, [(0x20000, 32), (0x40, 2)], 2, fun i => [R.SCH_CNT.VOIDS (i.getD 0 0), R.SCH_CNT.LATE (i.getD 0 0)]⟩,
  ⟨.SCH_HOLD, 0x102028, [(0x20000, 32), (0x40, 2)], 2, fun i => [R.SCH_HOLD.QUANTA (i.getD 0 0)]⟩]

def regTable16 : List RegSpec := [
  ⟨.SCH_PORT_PRES, 0x10202c, [(0x20000, 32), (0x40, 2)], 2, fun i => [R.SCH_PORT_PRES.PRESENT (i.getD 0 0)]⟩,
  ⟨.ENG_CTL, 0x103000, [(0x20000, 32), (0x100, 2)], 2, fun i => [R.ENG_CTL.QMAX_CLR (i.getD 0 0), R.ENG_CTL.CNT_CLR (i.getD 0 0)]⟩,
  ⟨.ENG_STAT, 0x103004, [(0x20000, 32), (0x100, 2)], 2, fun i => [R.ENG_STAT.SEQ_STATE (i.getD 0 0), R.ENG_STAT.PRIO (i.getD 0 0), R.ENG_STAT.COMMITTED (i.getD 0 0), R.ENG_STAT.SPACE (i.getD 0 0), R.ENG_STAT.EVENT (i.getD 0 0), R.ENG_STAT.SHADOW (i.getD 0 0), R.ENG_STAT.UPC (i.getD 0 0)]⟩,
  ⟨.ENG_FAULT, 0x103008, [(0x20000, 32), (0x100, 2)], 2, fun i => [R.ENG_FAULT.CODE (i.getD 0 0), R.ENG_FAULT.TRAP (i.getD 0 0), R.ENG_FAULT.SPACE (i.getD 0 0), R.ENG_FAULT.UPC (i.getD 0 0)]⟩,
  ⟨.ENG_EVT, 0x10300c, [(0x20000, 32), (0x100, 2)], 2, fun i => [R.ENG_EVT.ISSUE_LATE (i.getD 0 0), R.ENG_EVT.BUS_SHORT (i.getD 0 0), R.ENG_EVT.RESTART (i.getD 0 0), R.ENG_EVT.ESCALATE (i.getD 0 0), R.ENG_EVT.PATCH_CE (i.getD 0 0), R.ENG_EVT.LINE_BAD (i.getD 0 0)]⟩,
  ⟨.ENG_CNT, 0x103010, [(0x20000, 32), (0x100, 2)], 2, fun i => [R.ENG_CNT.RESTARTS (i.getD 0 0), R.ENG_CNT.ESCALATIONS (i.getD 0 0)]⟩,
  ⟨.ENG_LINES, 0x103014, [(0x20000, 32), (0x100, 2)], 2, fun i => [R.ENG_LINES.LINES (i.getD 0 0)]⟩,
  ⟨.ENG_QUEUE, 0x103018, [(0x20000, 32), (0x100, 2)], 2, fun i => [R.ENG_QUEUE.MAX (i.getD 0 0), R.ENG_QUEUE.DEPTH (i.getD 0 0)]⟩,
  ⟨.ENG_MATCH, 0x103080, [(0x20000, 32), (0x100, 2), (0x4, 32)], 2, fun i => [R.ENG_MATCH.EN (i.getD 0 0) (i.getD 1 0), R.ENG_MATCH.PADDR (i.getD 0 0) (i.getD 1 0), R.ENG_MATCH.ROM_ADDR (i.getD 0 0) (i.getD 1 0)]⟩,
  ⟨.RD_DSTAT, 0x104000, [(0x20000, 32), (0x10, 16)], 16, fun i => [R.RD_DSTAT.OPEN (i.getD 0 0), R.RD_DSTAT.VALID (i.getD 0 0), R.RD_DSTAT.CODE (i.getD 0 0), R.RD_DSTAT.CLIP (i.getD 0 0), R.RD_DSTAT.OSAT (i.getD 0 0), R.RD_DSTAT.FRAME (i.getD 0 0), R.RD_DSTAT.WSET (i.getD 0 0)]⟩,
  ⟨.RD_LAST_I, 0x104004, [(0x20000, 32), (0x10, 16)], 16, fun i => [R.RD_LAST_I.I (i.getD 0 0)]⟩,
  ⟨.RD_LAST_Q, 0x104008, [(0x20000, 32), (0x10, 16)], 16, fun i => [R.RD_LAST_Q.Q (i.getD 0 0)]⟩]

def regTable17 : List RegSpec := [
  ⟨.RD_CNT, 0x10400c, [(0x20000, 32), (0x10, 16)], 16, fun i => [R.RD_CNT.LEAK (i.getD 0 0), R.RD_CNT.INVALID (i.getD 0 0)]⟩,
  ⟨.RD_EVT, 0x104100, [(0x20000, 32)], 0, fun i => [R.RD_EVT.OVERLAP (i.getD 0 0), R.RD_EVT.TRUNC (i.getD 0 0), R.RD_EVT.CLIP (i.getD 0 0), R.RD_EVT.REC_OVF (i.getD 0 0), R.RD_EVT.WPOISON (i.getD 0 0), R.RD_EVT.OSAT (i.getD 0 0)]⟩,
  ⟨.RD_RECQ, 0x104104, [(0x20000, 32)], 0, fun i => [R.RD_RECQ.MAX (i.getD 0 0), R.RD_RECQ.DEPTH (i.getD 0 0)]⟩,
  ⟨.ACQ_STAT, 0x105000, [(0x20000, 32)], 0, fun i => [R.ACQ_STAT.STATE (i.getD 0 0), R.ACQ_STAT.STREAM (i.getD 0 0), R.ACQ_STAT.SLOT (i.getD 0 0), R.ACQ_STAT.SEGDONE (i.getD 0 0), R.ACQ_STAT.INDEX (i.getD 0 0)]⟩,
  ⟨.ACQ_EVT, 0x105004, [(0x20000, 32)], 0, fun i => [R.ACQ_EVT.ARM_REFUSED (i.getD 0 0), R.ACQ_EVT.TRUNC (i.getD 0 0), R.ACQ_EVT.MISSED (i.getD 0 0), R.ACQ_EVT.PRE_SHORT (i.getD 0 0), R.ACQ_EVT.RESV_OVF (i.getD 0 0), R.ACQ_EVT.REC_FULL (i.getD 0 0)]⟩,
  ⟨.ACQ_ARM_ERR, 0x105008, [(0x20000, 32)], 0, fun i => [R.ACQ_ARM_ERR.CODE (i.getD 0 0), R.ACQ_ARM_ERR.INDEX (i.getD 0 0)]⟩,
  ⟨.ACQ_CNT, 0x10500c, [(0x20000, 32)], 0, fun i => [R.ACQ_CNT.SEGMENTS (i.getD 0 0), R.ACQ_CNT.MISSED (i.getD 0 0)]⟩,
  ⟨.ACQ_FORCE, 0x105010, [(0x20000, 32)], 0, fun i => [R.ACQ_FORCE.EN (i.getD 0 0), R.ACQ_FORCE.POST (i.getD 0 0)]⟩,
  ⟨.ACQ_SKEW_ADC, 0x105014, [(0x20000, 32)], 0, fun i => [R.ACQ_SKEW_ADC.TRIM (i.getD 0 0), R.ACQ_SKEW_ADC.CAL (i.getD 0 0)]⟩,
  ⟨.ACQ_RECMEM, 0x105018, [(0x20000, 32)], 0, fun i => [R.ACQ_RECMEM.MAX_USED (i.getD 0 0), R.ACQ_RECMEM.FREE (i.getD 0 0)]⟩,
  ⟨.FLX_OUT_STAT, 0x106000, [(0x20000, 32), (0x10, 8)], 8, fun i => [R.FLX_OUT_STAT.MON_FAULT (i.getD 0 0), R.FLX_OUT_STAT.MON_WARN (i.getD 0 0), R.FLX_OUT_STAT.DROPPED (i.getD 0 0), R.FLX_OUT_STAT.CLAMPED (i.getD 0 0), R.FLX_OUT_STAT.CLAMP_WHY (i.getD 0 0), R.FLX_OUT_STAT.RANGE (i.getD 0 0), R.FLX_OUT_STAT.GROUP (i.getD 0 0), R.FLX_OUT_STAT.CODE (i.getD 0 0)]⟩,
  ⟨.FLX_HELD, 0x106004, [(0x20000, 32), (0x10, 8)], 8, fun i => [R.FLX_HELD.HELD (i.getD 0 0), R.FLX_HELD.CODE (i.getD 0 0)]⟩]

def regTable18 : List RegSpec := [
  ⟨.FLX_MON, 0x106008, [(0x20000, 32), (0x10, 8)], 8, fun i => [R.FLX_MON.MEAS (i.getD 0 0), R.FLX_MON.EXPECT (i.getD 0 0)]⟩,
  ⟨.FLX_MON_CNT, 0x10600c, [(0x20000, 32), (0x10, 8)], 8, fun i => [R.FLX_MON_CNT.VALID (i.getD 0 0), R.FLX_MON_CNT.UNSTABLE (i.getD 0 0), R.FLX_MON_CNT.WARNS (i.getD 0 0)]⟩,
  ⟨.FLX_EVT, 0x106080, [(0x20000, 32)], 0, fun i => [R.FLX_EVT.MON_WARN (i.getD 0 0), R.FLX_EVT.MON_FAULT (i.getD 0 0), R.FLX_EVT.CLAMP_FAULT (i.getD 0 0), R.FLX_EVT.DROPPED (i.getD 0 0), R.FLX_EVT.MARK_STRETCH (i.getD 0 0)]⟩,
  ⟨.FLX_MARK, 0x106084, [(0x20000, 32)], 0, fun i => [R.FLX_MARK.LEVEL (i.getD 0 0), R.FLX_MARK.MIDLE (i.getD 0 0), R.FLX_MARK.CLAMPED (i.getD 0 0), R.FLX_MARK.CHANGES (i.getD 0 0)]⟩,
  ⟨.CAL_ADC_Q, 0x107000, [(0x20000, 32)], 0, fun i => [R.CAL_ADC_Q.IL_SPUR (i.getD 0 0), R.CAL_ADC_Q.FLAT (i.getD 0 0), R.CAL_ADC_Q.TDIFF (i.getD 0 0), R.CAL_ADC_Q.CONV (i.getD 0 0), R.CAL_ADC_Q.FLAT_VALID (i.getD 0 0)]⟩,
  ⟨.CAL_AGE, 0x107060, [(0x20000, 32)], 0, fun i => [R.CAL_AGE.ADC (i.getD 0 0), R.CAL_AGE.DAC (i.getD 0 0)]⟩,
  ⟨.CAL_DAC_Q, 0x107010, [(0x20000, 32), (0x4, 5)], 5, fun i => [R.CAL_DAC_Q.FLAT (i.getD 0 0), R.CAL_DAC_Q.PFS_ERR (i.getD 0 0), R.CAL_DAC_Q.TDIFF (i.getD 0 0), R.CAL_DAC_Q.CONV (i.getD 0 0), R.CAL_DAC_Q.FLAT_VALID (i.getD 0 0), R.CAL_DAC_Q.DELAY_VALID (i.getD 0 0)]⟩,
  ⟨.CAL_FLX_Q, 0x107040, [(0x20000, 32), (0x4, 8)], 8, fun i => [R.CAL_FLX_Q.OFFSET (i.getD 0 0), R.CAL_FLX_Q.GAIN (i.getD 0 0), R.CAL_FLX_Q.CONV (i.getD 0 0)]⟩,
  ⟨.LNK_SQ_BASE_LO, 0x1000000, [(0x40, 64)], 0, fun i => [R.LNK_SQ_BASE_LO.ADDR (i.getD 0 0)]⟩,
  ⟨.LNK_SQ_BASE_HI, 0x1000004, [(0x40, 64)], 0, fun i => [R.LNK_SQ_BASE_HI.ADDR (i.getD 0 0)]⟩,
  ⟨.LNK_CQ_BASE_LO, 0x1000008, [(0x40, 64)], 0, fun i => [R.LNK_CQ_BASE_LO.ADDR (i.getD 0 0)]⟩,
  ⟨.LNK_CQ_BASE_HI, 0x100000c, [(0x40, 64)], 0, fun i => [R.LNK_CQ_BASE_HI.ADDR (i.getD 0 0)]⟩]

def regTable19 : List RegSpec := [
  ⟨.LNK_Q_CFG, 0x1000010, [(0x40, 64)], 0, fun i => [R.LNK_Q_CFG.CQ_LOG (i.getD 0 0), R.LNK_Q_CFG.SQ_LOG (i.getD 0 0)]⟩,
  ⟨.LNK_Q_CTL, 0x1000014, [(0x40, 64)], 0, fun i => [R.LNK_Q_CTL.IEN (i.getD 0 0), R.LNK_Q_CTL.EN (i.getD 0 0)]⟩,
  ⟨.LNK_Q_STAT, 0x1000018, [(0x40, 64)], 0, fun i => [R.LNK_Q_STAT.DB_RANGE (i.getD 0 0), R.LNK_Q_STAT.CQ_FULL (i.getD 0 0), R.LNK_Q_STAT.BUSY (i.getD 0 0), R.LNK_Q_STAT.CQ_TAIL (i.getD 0 0), R.LNK_Q_STAT.SQ_HEAD (i.getD 0 0)]⟩,
  ⟨.MSIX, 0x1010000, [(0x10, 2048), (0x4, 4)], 0, fun i => [R.MSIX.WORD (i.getD 0 0) (i.getD 1 0)]⟩,
  ⟨.LNK_SQ_TAIL, 0x1002000, [(0x8, 64)], 0, fun i => [R.LNK_SQ_TAIL.INDEX (i.getD 0 0)]⟩,
  ⟨.LNK_CQ_HEAD, 0x1002004, [(0x8, 64)], 0, fun i => [R.LNK_CQ_HEAD.INDEX (i.getD 0 0)]⟩]

/-- The register map (R696 and the tables of chapter 23): BAR0, and BAR4 from offset 0x1000000 on. -/
def regTable : List RegSpec :=
  regTable0 ++ regTable1 ++ regTable2 ++ regTable3 ++ regTable4 ++ regTable5 ++ regTable6 ++ regTable7 ++ regTable8 ++ regTable9 ++ regTable10 ++ regTable11 ++ regTable12 ++ regTable13 ++ regTable14 ++ regTable15 ++ regTable16 ++ regTable17 ++ regTable18 ++ regTable19

/-- The replica numbers at distance `x` from a row's first offset, outermost first; none where no replica starts there. -/
def matchDims : List (Nat × Nat) → Nat → Option (List Nat)
  | [], 0 => some []
  | [], _ + 1 => none
  | (st, n) :: r, x => if x / st < n then (matchDims r (x % st)).map (fun is => (x / st) :: is) else none

/-- The indices by which the spec numbers a replica: local replicas of a tile are numbered through the device. -/
def flatIdx (per : Nat) : List Nat → List Nat
  | t :: l :: r => if per = 0 then t :: l :: r else (t * per + l) :: r
  | is => is

/-- A register found at an offset: its name, its indices and its fields. -/
structure RegAt where
  reg : Reg
  idx : List Nat
  flds : List Fld

/-- The row of the map that holds a register at `off`, if any. -/
def RegSpec.at? (s : RegSpec) (off : Nat) : Option RegAt :=
  if off < s.base then none
  else match matchDims s.dims (off - s.base) with
    | none => none
    | some is => some ⟨s.reg, flatIdx s.per is, s.flds (flatIdx s.per is)⟩

/-- The register at an offset (R697: none where no table lists one). -/
def regAt (off : Nat) : Option RegAt := regTable.findSome? (fun s => s.at? off)

/-- The power domain of a register offset (R696, R657). -/
def domainOf (off : Nat) : Nat :=
  if off < 0x1000 then (if off = 0 || off = 4 || off = 8 then 1 else 4)
  else if off < 0x20000 then 0
  else if off < 0x30000 then 4
  else if off < 0x30100 then 1
  else if off < 0x31000 then 2
  else if off < 0x40000 then 3
  else if off < 0x80000 then 4
  else if off < 0x100000 then 0
  else if off < 0x500000 then 8 + (off - 0x100000) / 0x40000
  else if off < 0x1000000 then 6
  else 1

end Sys2Proof.Machine
end

