-- ==== Sys2Proof/Machine/Device.lean ====
section
/-! DEFINITION. The state of the block but for its queue of commands, as plain data: the register file and the pieces of
state the chapters name beside it (timebase, power, host port, queues, image, engines, frames, mixers, demodulators,
capture units, fabric, memories, the Keep and the rest). -/
namespace Sys2Proof.Machine

/-- What a command sends out of the block; the list is emptied when the next command starts. -/
inductive Out where
  /-- the word a register read returns -/
  | read (v : Nat)
  /-- the bytes a BAR2 read returns; `poison`: a poisoned completion (R562) -/
  | bytes (bs : List Byte) (poison : Bool)
  /-- an MSI-X message: vector, address, data (R576) -/
  | msix (vector addr data : Nat)
  /-- a write to host memory; `poison`: the poisoned-data bit (R567) -/
  | hostWrite (addr : Nat) (bs : List Byte) (poison : Bool)
  /-- a cell sent on a port and lane (R312) -/
  | cell (port lane : Nat) (bits : Nat)
  /-- the levels of the symbols of a cell on a lane (R586, R587) -/
  | symbols (port lane : Nat) (levels : List Int)
  /-- an answer of the service port (R547) -/
  | svc (bs : List Byte)
  /-- an answer of the SPDM responder (R578): response code and payload -/
  | spdm (code : Nat) (bs : List Byte)
  /-- a CXL.mem read issued for a line or block: address and length -/
  | cxlRead (addr len : Nat)
  deriving DecidableEq, Repr

/-- A sync that has been taken and waits for its load edge (R97). -/
structure SyncTaken where
  load : Epoch
  left : Nat
  deriving DecidableEq, Repr

/-- The timebase (chapter 03): the two counters, REFCLK, SYNC_IN and SYNC_OUT. -/
structure Timebase where
  fine : Epoch := 0
  coarse : Epoch := 0
  /-- rising REFCLK edges arrive -/
  refclk : Bool := false
  /-- REFCLK has been declared lost and no rising edge has come since: the coarse epoch stands still (R107, R108) -/
  held : Bool := false
  /-- good REFCLK periods since it came or returned, up to 1,000 -/
  good : Nat := 0
  /-- SYNC_IN as sampled at the last edge -/
  syncIn : Bool := false
  /-- the last edge was a sampling edge whose pulse is still to be judged -/
  syncRise : Bool := false
  /-- syncs taken that wait for their load edges, oldest first -/
  sync : List SyncTaken := []
  /-- SYNC_OUT is driven high -/
  sout : Bool := false
  /-- a SYNC_OUT pulse starts at the next edge -/
  soutNext : Bool := false
  /-- REFCLK periods left of the pulse on SYNC_OUT -/
  soutLeft : Nat := 0
  /-- the epoch before a sync loaded it on this tick (R94) -/
  before : Option Epoch := none
  /-- ticks that have passed since power-on as REFCLK and the core PLL count them; no sync moves it -/
  ticks : Nat := 0
  deriving DecidableEq, Repr

/-- Power, clocks and resets beside the PWR_ registers (chapter 21). -/
structure Power where
  /-- the internal power-on reset is held (R662) -/
  por : Bool := false
  /-- VDD_SVC, and VDD_AON, are present (R709, R716) -/
  svc : Bool := true
  aon : Bool := true
  /-- steps of the power-up table done since P0, 5 when the sequence is complete -/
  upStep : Nat := 5
  /-- a fundamental or device reset in progress: its lowest domain and whether PERST_N is low -/
  reset : Option (Nat × Bool) := none
  /-- PERST_N reads high -/
  perstHigh : Bool := true
  /-- PWRFAIL_N reads high -/
  pwrfailN : Bool := true
  /-- PWRFAIL_N has been high for 10 ms -/
  pwrfailOk : Bool := true
  /-- a wake is requested and has not started -/
  wakeReq : Bool := false
  /-- REFCLK edges since W0 of the wake in progress -/
  wakeEdges : Nat := 0
  /-- tile clock groups enabled, bit 8 for the lane, monitor, fabric and scrubber clocks -/
  clocks : Nat := 0
  /-- the last event was a REFCLK edge: the tick that begins at it has just begun -/
  atEdge : Bool := false
  /-- ages (`Device.age`) at which the PLL locked, and at which the last clock group was enabled: a sync may move the epoch meanwhile (R97) -/
  lockAt : Nat := 0
  clkAt : Nat := 0
  /-- ticks for which the conditions of R670 have held without a break -/
  idle : Nat := 0
  /-- AWAKE ticks since power-on (R475) -/
  awakeTicks : Nat := 0
  /-- tile pairs that power up, in the order in which they complete (R660) -/
  ups : List Nat := []
  deriving DecidableEq, Repr

/-- An entry of a submission queue in progress (R570): its bytes, the bytes moved so far, and whether poisoned data has been read. -/
structure Entry where
  bytes : List Byte
  done : Nat := 0
  /-- RING: the span taken at the start -/
  span : Nat := 0
  poison : Bool := false
  deriving DecidableEq, Repr

/-- What a queue latches when it is enabled and what it has in progress (R573). -/
structure Queue where
  sqBase : Nat := 0
  cqBase : Nat := 0
  sqLog : Nat := 4
  cqLog : Nat := 4
  phase : Bool := true
  cur : Option Entry := none
  deriving DecidableEq, Repr

/-- The host port beside its registers (chapter 17). -/
structure HostPort where
  /-- the queue served last (R570) -/
  served : Nat := 63
  /-- the host link went down and is not back (R555) -/
  wasDown : Bool := false
  /-- a CXL device was in use when the CXL link was lost (R583) -/
  cxlLost : Bool := false
  /-- entries that wait for a ring or for CXL memory, with their queues, in the order in which they were reached (R569, R583) -/
  waits : List (Nat × List Byte) := []
  /-- MSI-X Enable and Function Mask of Message Control (R577) -/
  msixEn : Bool := false
  funcMask : Bool := false
  /-- the function is in D3hot, and the link in L1 (R551) -/
  d3hot : Bool := false
  l1 : Bool := false
  /-- Max Payload Size and Max Read Request Size, as 128 bytes doubled so many times (R551) -/
  payload : Nat := 0
  request : Nat := 2
  /-- the uncorrectable error status of AER (R551) -/
  aer : Nat := 0
  deriving DecidableEq, Repr

/-- A fork-input port of a tile (R164). -/
structure Port where
  val : Bool := false
  present : Bool := false
  lost : Bool := false
  stamp : Epoch := 0
  deriving DecidableEq, Repr

/-- What an engine keeps of its last safe point for a repeat (R193, R199): boundary tick, first segment, loop registers,
frame words, and the jump entries taken in the attempt by (number of the boundary in it, terminator index, entry). -/
structure Snapshot where
  b0 : Epoch := 0
  dom : Nat := 0
  res : Nat := 0
  ptr : Nat := 0
  active : Nat := 0
  left : List Nat := [0, 0, 0, 0]
  frames : List (Nat × Nat × Nat) := []
  jumps : List (Nat × Nat × Nat) := []
  deriving DecidableEq, Repr

/-- A safe point an engine is waiting to pass (R185, R186): the candidate tick, hold domain, residency record, the segment that
follows, the engine's own vote for this candidate, and the failed candidates so far. `rep`: the repeat of a voided attempt. -/
structure SafePoint where
  cand : Epoch
  dom : Nat
  res : Nat
  ptr : Nat
  vote : Option Bool := none
  fails : Nat := 0
  rep : Bool := false
  deriving DecidableEq, Repr

/-- A WAIT that holds its engine (R177): boundary, operand, operation index, and the resume tick and segment once known. -/
structure Waiting where
  b : Epoch
  operand : Nat
  idx : Nat
  resume : Option (Epoch × Nat) := none
  deriving DecidableEq, Repr

/-- What a fork latched at its deadline (R166): boundary and operand, whether every named port was present, the outcome value, whether
a port was absent with and without a LOST mark, the jump that had arrived, whether it repeats one of a voided attempt, the number of the
entry it takes once that is formed, and the entry's POINTER once it is read (R209). -/
structure ForkLatch where
  b : Epoch
  operand : Nat := 0
  ok : Bool := true
  v : Nat := 0
  late : Bool := false
  lost : Bool := false
  jump : Option (Nat × Epoch) := none
  retake : Bool := false
  entry : Option Nat := none
  ptr : Option Nat := none
  deriving DecidableEq, Repr

/-- A fork of Anise mode that waits for bits of other devices (R345): its operation, the boundary it left, the ports awaited,
the jump that had arrived at its deadline though its boundary must refuse it (R181), and the tick at which the last of them became present. -/
structure AniseWait where
  idx : Nat
  operand : Nat
  b : Nat
  await : List Nat
  since : Epoch
  jump : Bool := false
  ready : Option Epoch := none
  deriving DecidableEq, Repr

/-- An operation in the pending queue (R206): its index, its 128 bits, the tick it takes effect on, the safe points to be passed before that tick is
known, which counts from the last of them (R208), and whether LINE_FILL has marked it invalid (R212). -/
structure QOp where
  idx : Nat
  bits : Nat
  due : Nat
  wait : Nat
  bad : Bool := false
  deriving DecidableEq, Repr

/-- Where the issue unit fetches (R206 to R209): next operation, start tick of its segment, the safe points to be passed before that tick is known,
which counts from the last of them, the fetch copies of the loop registers, whether fetching has stopped, and the tick from which it may fetch. -/
structure Fetch where
  ptr : Nat := 0
  base : Nat := 0
  wait : Nat := 0
  active : Nat := 0
  left : List Nat := [0, 0, 0, 0]
  stop : Bool := true
  start : Nat := 0
  /-- the line last read, plus one -/
  line : Nat := 0
  deriving DecidableEq, Repr

/-- A schedule engine beside its SCH_ and ENG_ registers (chapter 05). -/
structure Engine where
  /-- the stream is running in the current run and has not reached END or a fault -/
  live : Bool := false
  segStart : Epoch := 0
  queue : List QOp := []
  fetch : Fetch := {}
  /-- LEFT counts of the loop registers -/
  left : List Nat := [0, 0, 0, 0]
  safe : Option SafePoint := none
  waiting : Option Waiting := none
  latch : Option ForkLatch := none
  anise : Option AniseWait := none
  /-- a host jump pending: its J and the tick from which it is pending -/
  jump : Option (Nat × Epoch) := none
  snap : Snapshot := {}
  curRec : Nat := 0xFFFFFFFF
  /-- voids in a row of the current shot -/
  voids : Nat := 0
  /-- a test or a substitution on this tick voids the shot (R194) -/
  voidDue : Option Epoch := none
  /-- a void of the domain learnt from a VOTE cell (R334): its safe-point tick -/
  notice : Bool := false
  /-- frames whose F a SETF changed on the tick given (R115) -/
  setTick : List (Nat × Epoch) := []
  /-- strobe groups fired, with their tick (R360) -/
  strobed : List (Nat × Nat) := []
  /-- STOP_RUN: the next safe point is treated as END -/
  stopAtSafe : Bool := false
  /-- segments of the attempt entered so far: numbers its boundaries (R199) -/
  segs : Nat := 0
  /-- it has executed END in this run, and belongs to no hold domain (R192) -/
  ended : Bool := false
  /-- PLAYs whose first envelope line has been tested (R728): tick and local mixer -/
  tested : List (Nat × Nat) := []
  deriving DecidableEq, Repr

/-- An event waiting for the micro-sequencer (R213, R214): its code, its argument, how often in a row its routine has
been abandoned, and whether it has been counted as raised to priority 3 (R238). -/
structure SeqEvent where
  code : Nat
  arg : Nat
  tries : Nat := 0
  esc : Bool := false
  deriving DecidableEq, Repr

/-- A visible effect waiting in the shadow (R232): bus operation or cause, address or cause code, data. -/
structure Shadow where
  op : Nat
  addr : Nat
  data : Nat
  deriving DecidableEq, Repr

/-- A routine under way in a micro-sequencer (chapter 06). -/
structure Routine where
  ev : SeqEvent
  prio : Nat
  stack : List Nat := []
  shadow : List Shadow := []
  committed : Bool := false
  /-- micro-cycles executed, since the last sampling point, and from COMMIT on -/
  cycles : Nat := 0
  gap : Nat := 0
  post : Nat := 0
  deriving DecidableEq, Repr

/-- A micro-sequencer beside its ENG_ registers: waiting events in order of arrival, the routine under way, scratch
registers, micro-counter, flags Z N C V, operation register (index, bits), the next operation it takes, the outcome of the last bus
access, and the SCHED blocks that have arrived and wait for their LINE_FILL, with their slots of the schedule cache. -/
structure Seq where
  events : List SeqEvent := []
  fills : List (Nat × Nat) := []
  routine : Option Routine := none
  upc : Nat := 0
  xs : List Nat := List.replicate 32 0
  mcnt : Nat := 0
  flagZ : Bool := false
  flagN : Bool := false
  flagC : Bool := false
  flagV : Bool := false
  opIdx : Nat := 0
  opBits : Nat := 0
  opNext : Nat := 0
  busErr : Bool := false
  busPoison : Bool := false
  /-- a VOID event has been raised and its routine has not reached DONE (R217) -/
  voidOpen : Bool := false
  deriving DecidableEq, Repr

/-- A mixer while a PLAY occupies it (R120): start tick, length, gain, local frame, first WAVE block of the envelope, and
the lines for which zeros are substituted; the safe point that started the attempt (R728); and, of blocks that are fetched again while it plays, the
SRAM line that holds each envelope line as stored (R140). -/
structure Mixer where
  start : Epoch := 0
  len : Nat := 0
  gain : Int := 0
  frame : Nat := 0
  first : Nat := 0
  zero : List Nat := []
  base : Epoch := 0
  kept : List (Nat × Nat) := []
  deriving DecidableEq, Repr

/-- The marker of a tile beside FLX_MARK: the sample instant of its last change, changes still to come as (sample instant,
level), the MARKs of one tick with what the marker held before them: tick, requests, last change, changes still to come; and whether a change they
make is delayed. Ticks are ages, and sample instants eight to an age. -/
structure Marker where
  last : Option Nat := none
  queue : List (Nat × Bool) := []
  tick : Nat := 0
  reqs : List (Nat × Bool) := []
  last0 : Option Nat := none
  queue0 : List (Nat × Bool) := []
  late : Bool := false
  deriving DecidableEq, Repr

/-- An integration window (R253): start tick, length, its weight-set record, weight-set number, local frame, the shot and
attempt its DISC belongs to, the weight words taken so far, and, once it is closed before its end, the result flags that says so (R271): such a window gives no code. -/
structure Win where
  start : Nat := 0
  len : Nat := 0
  wrec : List Byte := []
  wset : Nat := 0
  frame : Nat := 16
  shot : Nat := 0
  attempt : Nat := 0
  ws : List Nat := []
  cut : Bool := false
  flags : Nat := 0
  deriving DecidableEq, Repr

/-- A capture segment of a shot: its header as written, its samples as stored bytes, its line within the shot's reservation,
and its line of the header store. -/
structure Seg where
  header : List Byte
  samples : List Byte
  line : Nat
  hs : Nat
  deriving DecidableEq, Repr

/-- A shot record in record memory (R295 to R299): shot number, attempt, tick of its safe point, its lines in the ring, the
next line of them to use, the lines that hold header and results, results and segments as written, flags of the shot as a
whole, results and segments still to come, whether the shot is over, its header-store line, the tick on which it became
ready to drain, and whether its lines are free again. -/
structure Shot where
  /-- the shot number in bits [63:0], the tile's count of shots above them (the model's own) -/
  id : Nat := 0
  attempt : Nat := 0
  b0 : Nat := 0
  base : Nat := 0
  lines : Nat := 0
  used : Nat := 1
  resLines : List Nat := [0]
  results : List (List Byte) := []
  segs : List Seg := []
  flags : Nat := 0
  hflags : Nat := 0
  owed : Nat := 0
  closed : Bool := false
  hs : Nat := 0
  ready : Option Nat := none
  freed : Bool := false
  deriving DecidableEq, Repr

/-- A capture under way (R287 to R291): record, arm or re-arm tick, stage (1 ARMED, 2 CAPTURING, 3 REARM), segments
done, and of the segment in progress: number of its first sample, samples wanted, event tick, stamp byte, flags and SFLAGS;
the tick of its last sample; the shot and attempt it belongs to. -/
structure Capture where
  crec : List Byte
  arm : Nat
  stage : Nat := 1
  segs : Nat := 0
  first : Int := 0
  count : Nat := 0
  tick : Nat := 0
  stamp : Nat := 0
  flags : Nat := 0
  sflags : Nat := 0
  last : Nat := 0
  shot : Nat := 0
  attempt : Nat := 0
  deriving DecidableEq, Repr

/-- What a tile holds of its read-out, capture and records beside its registers (chapters 07 and 08). -/
structure Tile where
  shots : List Shot := []
  alloc : Nat := 0
  hs : Nat := 0
  /-- record write queue: shot, attempt, result -/
  wq : List (Nat × Nat × List Byte) := []
  /-- tick on which results last entered the queue, and how many at its end did (R268) -/
  wqAt : Nat := 0
  wqN : Nat := 0
  /-- condition, event tick and end of the last time the capture unit was busy with a segment or waited to re-arm (R290) -/
  busy : Option (Nat × Nat × Nat) := none
  cap : Option Capture := none
  /-- segments whose last sample is taken or fixed and whose header is still to come (R291) -/
  segQ : List Capture := []
  /-- changes of the tile's frame words: local frame, tick, and the words F, Θ and E that it replaced (R257) -/
  hist : List (Nat × Nat × Nat × Nat × Nat) := []
  /-- lines engine B has reserved for the shot to come (R295) -/
  resv : Option Nat := none
  /-- demodulators whose next code a SEND releases, and the tick of that SEND (R148) -/
  sends : List (Nat × Nat) := []
  /-- windows closed at their integration end whose code is still to come -/
  closing : List (Nat × Win) := []
  /-- age from which the ADC history holds samples (R289) -/
  adcFrom : Nat := 0
  /-- ADC samples that the comb of a step over or cut replaced, each as the first and one past the last (R413) -/
  combs : List (Nat × Nat) := []
  /-- shots started so far; tells apart shots of one number in different runs (the model's own) -/
  serial : Nat := 0
  deriving DecidableEq, Repr

/-- An outcome bit on its way to a fork-input port (R265, R311, R323): the tick on which it is present, the port (64 per
tile), value and stamp. -/
structure Delivery where
  due : Nat
  port : Nat
  value : Bool
  stamp : Nat
  deriving DecidableEq, Repr

/-- A message of an RX or RELAY slot (R322): its start tick and the good copies so far, as (lane, cell). -/
structure RxMsg where
  start : Nat
  copies : List (Nat × Nat) := []
  deriving DecidableEq, Repr

/-- The latest good VOTE cell of a port (R331): candidate, READY, VOID, PREV_PASS, VBASE, PREV_CAND, its start tick, and the copy taken: its lane and
bits. -/
structure VoteIn where
  cand : Nat
  ready : Bool
  void : Bool
  pass : Bool
  vbase : Nat
  prev : Nat
  start : Nat
  copy : Nat × Nat
  deriving DecidableEq, Repr

/-- What the STATUS cells of a port have told so far (R329): the latest good ones, newest first, each as its start tick and the lane and bits of the
copy taken; and the neighbour's PLAN_ID once 8 in a row have given it whole. -/
structure StatIn where
  cells : List (Nat × Nat × Nat) := []
  whole : Option Nat := none
  deriving DecidableEq, Repr

/-- An outstanding handshake of Anise mode (R345, R347): engine, tag, fork-input port (64 per tile), the tick it began,
whether its REQUEST has been queued, and the smallest stamp it accepts. -/
structure Shake where
  e : Nat
  tag : Nat
  port : Nat
  since : Nat
  asked : Bool
  stamp : Nat := 0
  deriving DecidableEq, Repr

/-- Anise mode beside FAB_ANISE: handshakes, cells waiting for a credit as (port, first lane, cell), requests that wait for the next code
as (arrival port, first lane, cell), the cells taken of the last 512 ticks as (port, first lane, start tick), and the next tag. -/
structure Anise where
  shakes : List Shake := []
  out : List (Nat × Nat × Nat) := []
  asked : List (Nat × Nat × Nat) := []
  seen : List (Nat × Nat × Nat) := []
  tag : Nat := 0
  deriving DecidableEq, Repr

/-- A ring of CXL memory as latched at its enable (R301, R308). -/
structure Ring where
  base : Nat := 0
  size : Nat := 0
  deriving DecidableEq, Repr

/-- A stream under way on a slot (R306 to R308). -/
structure Stream where
  active : Bool := false
  tile : Nat := 0
  start : Nat := 0
  len : Nat := 0
  seq : Nat := 0
  buffer : List (List Byte) := []
  gap : Bool := false
  /-- the newest block of the buffer was formed on this tick of a run, which may yet end with it (R307) -/
  fresh : Bool := false
  deriving DecidableEq, Repr

/-- A trigger input (R279): the level it has held, and a transition whose new level has still to hold for 2 ticks, as its instant in ADC-sample
sixteenths and that level. -/
structure TinSt where
  level : Bool := false
  cand : Option (Nat × Bool) := none
  deriving DecidableEq, Repr

/-- What a range of a memory holds where it was written as a whole: nothing since its power came on; zeros; bytes the spec leaves open, of
use number `n`; what the writes of a self-test leave (DATA, background, the unit's byte address, and whether of the inverse); or a copy of the image tables, or of the coefficient data, each byte at a place the spec leaves open. -/
inductive Holds where
  | lost
  | zero
  | free (n : Nat)
  | test (data bg base : Nat) (inv : Bool)
  | copy (bs : List Byte)
  | coef (bs : List Byte)
  deriving DecidableEq, Repr

/-- A range of byte addresses written as a whole. -/
structure Fill where
  lo : Nat
  hi : Nat
  what : Holds
  deriving DecidableEq, Repr

/-- A byte memory: the bytes listed, and under them the ranges written as a whole, newest first. -/
structure Store where
  cells : Bank Byte := []
  fills : List Fill := []
  deriving DecidableEq, Repr

/-- The installed image, as far as the part keeps it outside the SRAM tables: parsed STRUCT, ROUTE, ACQ, FABRIC and
CALGAP records, the directory of streams, the residency records, the directory of envelopes (first block and length of each, none where the
entry is not valid), the header fields (R78), and the levels at which STRUCT places this device and its quadrants (R27). Records are kept as the
bytes the image holds them in. -/
structure Image where
  base : Nat := 0
  len : Nat := 0
  id : Nat := 0
  plan : Nat := 0
  dev : Nat := 0
  flags : Nat := 0
  header : List Byte := []
  structs : List (List Byte) := []
  routes : List (List Byte) := []
  fabric : List (List Byte) := []
  acq : List (List Byte) := []
  gaps : List (List Byte) := []
  dir : List (List Byte) := []
  resid : List (List Byte) := []
  envs : List (Option (Nat × Nat)) := []
  schedOff : Nat := 0
  schedCnt : Nat := 0
  waveOff : Nat := 0
  waveCnt : Nat := 0
  forkOff : Nat := 0
  forkLen : Nat := 0
  /-- offset and length of the sections whose tables the state SRAM holds (R456): STRUCT, ROUTE, FABRIC, ACQ, CALGAP -/
  tabs : List (Nat × Nat) := []
  selfLevel : Nat := 3
  quadLevels : List Nat := [2, 2, 2, 2]
  deriving DecidableEq, Repr

/-- Image loading beside the GLB_IMG_ registers (chapter 02): the base and length latched at LOAD, the image that passed
its check, and the committed image. -/
structure ImageSt where
  latBase : Nat := 0
  latLen : Nat := 0
  pend : Option Image := none
  act : Option Image := none
  deriving DecidableEq, Repr

/-- The run in progress or the last one (chapter 23). -/
structure RunSt where
  /-- first tick of the run in progress or of the last run -/
  first : Epoch := 0
  /-- TRIM values latched at the first tick: trigger inputs, then ADC paths (R278) -/
  trims : List Nat := []
  /-- tick up to which each condition is in holdoff (R280) -/
  hold : List Nat := []
  /-- per condition, the tick after that of its last event (R177) -/
  evs : List Nat := []
  /-- events whose tick is not past: condition, tick, corrected instant, and the trigger sample where the source fixes it (R288) -/
  known : List (Nat × Nat × Int × Option Int) := []
  /-- the LEVEL detectors, rising by condition and then falling: armed, and number and value of the last sample (R277) -/
  dets : List (Bool × Option (Nat × Int)) := []
  /-- the run-end tick of the last run (R201) -/
  ended : Epoch := 0
  /-- the last tick on which an engine's stream stopped (R201) -/
  quiet : Epoch := 0
  /-- tick of the run start request (R336) -/
  asked : Epoch := 0
  /-- what the checks of R701 found of the pending start as the last tick ended; none where none was pending then -/
  found : Option Nat := none
  /-- the run has ended and the tick after it, on which ports may train again (R606), is still to come -/
  afterEnd : Bool := false
  /-- on the first tick of a run, what summaries were formed of before it: states of the engines, flags of the tiles, summaries received (R52) -/
  before : Option (List Nat × Bank Nat × Bank (Option (Nat × Nat))) := none
  deriving DecidableEq, Repr

/-- An entry of ECC_LOG (R489): its two words and the epoch of detection. -/
structure EccEntry where
  w0 : Nat
  w1 : Nat
  epoch : Nat
  deriving DecidableEq, Repr

/-- A record of the Keep (R497): class, key, sequence number, body, whether its CHECK holds and whether its COMMIT
follows it directly. `fill` is how many of its bytes have been programmed, page by page (R500), all of them unless it is given. After those,
`torn` bytes (use number of their open value, and how many) were left by a program that was aborted, or by a read-back that failed; `comTorn` says
the same of the 16 bytes of its COMMIT. -/
structure KRec where
  cls : Nat
  key : Nat
  seq : Nat
  body : List Byte
  fill : Nat := 16 + body.length
  good : Bool := true
  committed : Bool := false
  torn : Option (Nat × Nat) := none
  comTorn : Option Nat := none
  deriving DecidableEq, Repr

/-- An erase unit of the Keep (R493): role code, logical number, erase count, generation, records in order, read-back
failures, and whether it was the target of a program or erase that was cut (R510). `hrole` is the role over which HCRC was made, where ROLE has been
programmed since (R494); `torn` is the use number of the open bytes that an aborted erase left, a header that fails HCRC among them. -/
structure KUnit where
  role : Nat
  logical : Nat
  erases : Nat := 1
  gen : Nat := 0
  recs : List KRec := []
  fails : Nat := 0
  suspect : Bool := false
  hrole : Option Nat := none
  torn : Option Nat := none
  deriving DecidableEq, Repr

/-- A staged commit (R506): class, key, body, its sequence number once phase 1 has begun, and its phase: 0 staged,
1 its record, 2 its COMMIT is programmed. `born` is one more than the age at which a FAULT record was asked for. `slot`: the place of the staging
region that holds it, once the Watch has written it there (R456, R500). -/
structure KReq where
  cls : Nat
  key : Nat
  body : List Byte
  seq : Option Nat := none
  phase : Nat := 0
  retries : Nat := 0
  born : Nat := 0
  slot : Option Nat := none
  deriving DecidableEq, Repr

/-- What a program or erase of the Keep is made for: the erase of a unit that has been reclaimed (R508); the page up to byte `upTo` of the record in
front, or its COMMIT (R503); the erase of a firmware unit, `cmd` where the command that asked for it is still in progress, or page `k` of block `j` of
one, with the data that it takes (R531); the erase of a spare that is to replace unit
`old` (R515); the ROLE byte of a unit that is retired (R494). -/
inductive KWork where
  | erase
  | record (upTo : Nat)
  | com
  | fwErase (cmd : Bool)
  | fwPage (j k : Nat) (data : List Byte)
  | spare (old : Nat)
  | role
  deriving DecidableEq, Repr

/-- The program or erase of the Keep in flight: what for, its physical unit, and whether an erase will verify (R491, R514). -/
structure KFlight where
  what : KWork
  unit : Nat
  ok : Bool := true
  deriving DecidableEq, Repr

/-- A page program, not an erase. -/
def KFlight.program (f : KFlight) : Bool :=
  match f.what with
  | .record _ | .com | .fwPage _ _ _ | .role => true
  | .erase | .fwErase _ | .spare _ => false

/-- The Keep and what the Watch holds of it (chapter 15). -/
structure Keep where
  /-- units that differ from their role at manufacture, by physical number -/
  units : List (Nat × KUnit) := []
  queue : List KReq := []
  flight : Option KFlight := none
  /-- units to retire in turn: (true, unit) by its ROLE byte, (false, unit) by a spare first (R514, R515) -/
  todo : List (Bool × Nat) := []
  /-- physical number of the unit that holds the log head -/
  head : Nat := 0
  /-- 0 normal, 1 worn, 2 failed (R516, R517) -/
  wear : Nat := 0
  /-- the unit for whose retirement no spare was left (R516, R550) -/
  wornBy : Option Nat := none
  /-- ring commits in a row that failed their read-back -/
  ringFails : Nat := 0
  /-- ticks of runs beyond RUN_HOURS, the age up to which the run in progress is counted, and the age at the last whole hour -/
  runAcc : Nat := 0
  runMark : Nat := 0
  hourMark : Nat := 0
  nextSeq : Nat := 1
  /-- counts of the LIFE record (R501): hours, boots, run hours, shutdowns, power failures, erases, five band hours,
  minutes, gaps -/
  life : List Nat := [0, 0, 0, 0, 0, 0, 0, 0, 0, 0, 0, 0, 0]
  /-- FAULT records requested in the minute given -/
  faultMin : Nat × Nat := (0, 0)
  /-- a power-down LIFE record was committed since the last boot (R512) -/
  downOk : Bool := false
  /-- commits of the Keep are held: shutdown, or PWRFAIL_N low (R512, R450) -/
  held : Bool := false
  /-- blocks of firmware units that differ from what they held at manufacture, by 16 per physical unit + place in it: the block's bytes -/
  blocks : List (Nat × List Byte) := []
  deriving DecidableEq, Repr

/-- Settings of an RF output in force (R392, R393), as (DLY, FS_TRIM, MODE), the age (`Device.age`) at which its settling began, and whether the
run that a held value waited for is over. -/
structure OutCfg where
  force : Nat × Nat × Nat := (0, 30, 0)
  since : Nat := 0
  ripe : Bool := false
  deriving DecidableEq, Repr

/-- A monitor ADC (R375): the next output of its quadrant, visits made in the lap under way, and laps since it last checked itself (R409). -/
structure Mon where
  next : Nat := 0
  visits : Nat := 0
  laps : Nat := 0
  deriving DecidableEq, Repr

/-- Calibration beside the CAL_ registers (chapter 12): the steps that run, as (class, path, age at their start); the body of the coefficient
set the part holds (R427), empty before the first load; the blocks of it that have not reached their path (R406); the classes of
the foreground request, those of them that have completed on some path, and whether it waits for AWAKE; the bands of which a class has completed since their last commit (bit b); ticks of runs
so far (R417); the AWAKE ticks at the last reset of its domain, before which no window began, and at the end of the last LOOP_CONV (R688); and the ages at the last commits of each band, of its coefficients and of its lane presets. -/
structure Calib where
  steps : List (Nat × Nat × Nat) := []
  body : List Byte := []
  due : List Nat := []
  req : Nat := 0
  done : Nat := 0
  wait : Bool := false
  changed : Nat := 0
  runTicks : Nat := 0
  bgFrom : Nat := 0
  loopEnd : Nat := 0
  commits : List (Option Nat) := [none, none, none, none, none]
  presets : List (Option Nat) := [none, none, none, none, none]
  deriving DecidableEq, Repr

/-- A class on a path (R410 to R426): pending; to start afresh when the step under way ends (R432); asked for by the foreground request; steps
done; rejections in a row of the step or update; stopped (STALE), and the triggers it stopped for that still hold, by temperature and by MAXINT;
TREF; age at the last completion; run ticks from which it has been pending with no gap. A background class: the last estimate; awake ticks at the
end of the last window; the coefficients at the path, none before they are known, and what they move to (R408); compared visits in the window
of a flux output, with the lowest and the highest code among them. -/
structure CalPath where
  pend : Bool := false
  again : Bool := false
  fg : Bool := false
  step : Nat := 0
  rej : Nat := 0
  stale : Bool := false
  stopT : Bool := false
  stopM : Bool := false
  tref : Option Int := none
  last : Option Nat := none
  since : Nat := 0
  est : Option (List Int) := none
  win : Nat := 0
  have' : Option (List Int) := none
  goal : Option (List Int) := none
  visits : Nat := 0
  low : Int := 0
  high : Int := 0
  deriving DecidableEq, Repr

/-- Temperature sensing beside the THM_ registers (chapter 13): whether a first sample has been taken since power-on, the latest
readings by sensor (newest first, up to 64), samples in a row that deviate by sensor, the last target band, samples in a row at
the band in force, samples in a row with the rate below WARN, samples since power-on or since the end of shutdown (up to 64), and the ages at a rate clamp whose run is to end, at a shutdown, and at the end of
its last Keep program. -/
structure Thermal where
  first : Bool := false
  hist : List (List Int) := [[], [], [], [], [], [], [], [], [], [], [], []]
  dev : List Nat := [0, 0, 0, 0, 0, 0, 0, 0, 0, 0, 0, 0]
  target : Nat := 0
  home : Nat := 0
  below : Nat := 0
  fresh : Nat := 0
  rateT0 : Option Nat := none
  shutT0 : Option Nat := none
  ended : Option Nat := none
  deriving DecidableEq, Repr

/-- Self-test beside the GLB_ST_ registers (chapter 22): whether a test is under way, the tests still to run, the latched ALGO, DATA,
STOP_FIRST, background and CXL window (base, length in bytes); a request that waits for AWAKE; a deferred request (tests, ALGO, DATA,
STOP_FIRST); and the LOAD (0) and ring enables (1 + ring) held through the CXL test. -/
structure SelfTest where
  begun : Bool := false
  tests : Nat := 0
  algo : Nat := 0
  data : Nat := 0
  stop : Bool := false
  bg : Nat := 0
  win : Nat × Nat := (0, 0)
  wait : Bool := false
  later : Option (Nat × Nat × Nat × Bool) := none
  held : List Nat := []
  deriving DecidableEq, Repr

/-- What a lane preset holds of a lane (R596): CTLE code, gain, the three cursors, the precode request, and the twelve DFE taps. -/
structure LaneSet where
  ctle : Nat := 0
  gain : Nat := 0
  cursors : List Int := [0, 0, 0]
  precode : Bool := false
  taps : List Int := [0, 0, 0, 0, 0, 0, 0, 0, 0, 0, 0, 0]
  deriving DecidableEq, Repr

/-- A receiver and transmitter of a serial lane (chapter 18): its settings, those it had when it last left service, and those its bring-up
loaded; whether it runs or retries at
56 Gb/s; the interval of 2^16 symbols in which it last adapted, plus one; good TRAIN cells of the phase in a row, the last latency result and how often
it came in a row, T_TX and own arrival tick of the latest good TRAIN cell, whether a DONE cell has come and its seed; whether
the peer requests precoding; eye measurements below EYE_MIN in
a row; the scrambler state and last precoded symbol of the transmitter; of the receiver (R588, R589) the scrambler state for the cell that comes next, the
last symbol of the cell before it, the age at which the last bit of the peer's last TRAIN cell came, and the last symbol of a cell that came on this
tick; the cell sent on this tick, and T_TX of the first and the last of the TRAIN cells it has sent in unbroken succession. -/
structure Lane where
  set : LaneSet := {}
  kept : LaneSet := {}
  preset : LaneSet := {}
  slow : Bool := false
  adapt : Nat := 0
  good : Nat := 0
  lat : Nat × Nat := (0, 0)
  echo : Option (Nat × Nat) := none
  doneRx : Bool := false
  seedRx : Nat := 0
  pre : Bool := false
  low : Nat := 0
  scr : Nat := 0
  prev : Nat := 0
  sent : Option Nat := none
  rxScr : Nat := 0
  rxPrev : Nat := 0
  rxFrom : Nat := 0
  rxHeard : Option Nat := none
  trains : Option (Nat × Nat) := none
  deriving DecidableEq, Repr

/-- Bring-up of a port (R595 to R606): the tick its phase began, whether SEND is retried at 56 Gb/s,
the band in which it last left service, DONE cells sent on its lanes, and whether a FACTORY bring-up has completed whose record is still to be
committed. -/
structure PortUp where
  since : Nat := 0
  slow : Bool := false
  warm : Option Nat := none
  doneSent : Nat := 0
  factory : Bool := false
  deriving DecidableEq, Repr

/-- Twin pairing beside the TWIN_ registers (chapter 19): the tick ATTACHING began, the peer's role and IMAGE pieces, whether its
cells show that it is attaching, the tick on which the FOLLOW saw the LEAD's lines all high, the start tick of the last good
MIRROR cell, cells received that act at S + 180, entries that wait to be sent, digests of both members that wait for a partner
as (tile, shot, digest, tick), host requests with their apply tick, the state codes of this
tick by demodulator, quadrants handed over, quadrants no longer compared, a CLAIM that waits for SOLO, whether the twin port counts as absent (R621), and whether a timebase fault
has fallen into MIRROR (R629). -/
structure Twin where
  began : Nat := 0
  peerRole : Nat := 0
  pieces : List (Option Nat) := [none, none, none, none]
  leadHigh : Option Nat := none
  last : Nat := 0
  cells : List (Nat × Nat) := []
  sendQ : List Nat := []
  own : List (Nat × Nat × Nat × Nat) := []
  peer : List (Nat × Nat × Nat × Nat) := []
  reqs : List (Nat × Nat) := []
  codes : List (Nat × Nat) := []
  handed : Nat := 0
  mute : Nat := 0
  claim : Option Nat := none
  absent : Bool := false
  lostTime : Bool := false
  deriving DecidableEq, Repr

/-- Firmware as the Watch holds it (chapter 16): the command in progress as (interface 1 mailbox or 2 service port, OP, arguments, block), and the
slots' descriptors once a start has read them, and the PATCH sections that the last start offered and that is in force (R579). `going`: 0 the command has
not passed its checks, 1 it programs blocks, 2 a unit is to be erased for a resumed update, 3 it has been. `pages`: pages programmed of the block
at NEXT, once its unit is ready for it. `trial`: the boot ROM has asked for the commit of TRIES + 1 and waits for it (R540). -/
structure Fw where
  cur : Option (Nat × Nat × List Nat × List Byte) := none
  going : Nat := 0
  pages : Option Nat := none
  trial : Bool := false
  descs : Option (List (List Byte)) := none
  offered : List Byte := []
  force : List Byte := []
  started : Bool := false
  deriving DecidableEq, Repr

/-- A safety limit that waits for the run to end (R646): limit, index, value. -/
structure Limit where
  limit : Nat
  index : Nat
  value : Nat
  deriving DecidableEq, Repr

/-- The service port (R547 to R549): locked, failed unlocks, and the nonce that is valid. -/
structure Svc where
  locked : Bool := true
  fails : Nat := 0
  nonce : Option (List Byte) := none
  deriving DecidableEq, Repr

/-- A scrubber (R473 to R475): the place in its order of the next line, the AWAKE tick from which it may visit, the count of
AWAKE ticks at which its lap began, and the ticks its last lap took; `laps` is 1 once it has completed its part of the lap under way. Scrubber t is tile t's; scrubber 32 covers class 3. -/
structure Scrub where
  pos : Nat := 0
  next : Nat := 0
  laps : Nat := 0
  began : Option Nat := none
  took : Nat := 0
  deriving DecidableEq, Repr

/-- Everything the spec gives the block, but for its queue of waiting commands. -/
structure Device where
  /-- the register file, one entry per field, each holding the field's difference from its reset value -/
  flds : Bank Nat := []
  /-- words latched by a read of a group's first register (R12), by offset -/
  latch : Bank (Option Nat) := []
  /-- low words held until their high word is written (R13), by offset -/
  held : Bank (Option Nat) := []
  /-- what the last command sent out -/
  out : List Out := []
  /-- the model's own: how many free values have been used -/
  freeN : Nat := 0
  time : Timebase := {}
  power : Power := {}
  host : HostPort := {}
  queues : Bank Queue := []
  /-- pending bits of the MSI-X vectors -/
  pba : Bank Bool := []
  img : ImageSt := {}
  run : RunSt := {}
  engines : Bank Engine := []
  seqs : Bank Seq := []
  /-- words microcode has written on the state bus at addresses the spec gives no name, by engine and address -/
  bus : Bank Nat := []
  /-- patch RAM, the same in every engine (R242), by word -/
  patch : Bank Nat := []
  /-- check state of a patch word of an engine (512 per engine): 1 a single-bit error, 2 an uncorrectable one (R245) -/
  patchErr : Bank Nat := []
  /-- a patch set waits for the Watch to load it (R242): identity, words, match entries, and the reason it must be refused -/
  patchWait : Option (Nat × List Nat × List Nat × Nat) := none
  ports : Bank Port := []
  mixers : Bank Mixer := []
  markers : Bank Marker := []
  /-- clamp reasons of the outputs: RF output c at c, flux output c at 1000 + c, marker t at 2000 + t -/
  clamps : Bank Nat := []
  /-- age at the last change of code in force or clamp state of a flux output (R377) -/
  steady : Bank Nat := []
  /-- the output's range has changed and no strobe has loaded it since (R373) -/
  ranged : Bank Bool := []
  /-- age at the commit tick of the range switch in progress of a flux output (R372) -/
  rangeT0 : Bank (Option Nat) := []
  outCfgs : Bank OutCfg := []
  mons : Bank Mon := []
  /-- the last compared visit of a flux output had an error above its limit (R378, R379): 1 unclamped, 2 clamped -/
  monErr : Bank Nat := []
  /-- codes and marker level a tile recorded at its last safe point (R365) -/
  recorded : Bank (List Nat) := []
  /-- open integration windows, by demodulator -/
  wins : Bank (Option Win) := []
  tiles : Bank Tile := []
  /-- outcome bits on their way to a fork-input port -/
  flight : List Delivery := []
  /-- codes pending for class-2 routes, by slot: entry, first tick it may go, value and stamp (R321) -/
  txq : Bank (List (Nat × Nat × Bool × Nat)) := []
  /-- messages of the RX and RELAY slots on their way, by slot -/
  rx : Bank (List RxMsg) := []
  votes : Bank (Option VoteIn) := []
  /-- the last candidate of domain 0b10 this device decided, and whether it passed (R331, R333) -/
  voted : Option (Nat × Bool) := none
  stats : Bank StatIn := []
  /-- summaries received (R49, R330), by port and unit name (2^24 per port): summary, and the tick it was formed in the count of `age` -/
  sums : Bank (Option (Nat × Nat)) := []
  anise : Anise := {}
  /-- Anise send balance and credits to return, by port; the return at 16 + port -/
  credit : Bank Nat := []
  /-- latest code bit of an outcome port (32 per tile): value and stamp (R346) -/
  codes : Bank (Option (Bool × Nat)) := []
  /-- trained one-way latency of a lane (4 per port), in ticks (R602) -/
  lat : Bank Nat := []
  /-- shot records ready to drain, in order: tile, shot, attempt -/
  drainQ : List (Nat × Nat × Nat) := []
  /-- enabled rings: 0 the drain ring, 1 + s stream slot s -/
  rings : Bank Ring := []
  streams : Bank Stream := []
  /-- status flags [15:9] of the tiles, by tile (R46) -/
  flags : Bank Nat := []
  /-- stored bytes of the SRAMs, at the addresses of R558 -/
  sram : Store := {}
  /-- line tags (R463), by line of the SRAM address space; where none is listed, UNINIT, or NONE in a range written as a whole -/
  tags : Bank Nat := []
  /-- syndrome and parity of a stored byte or word in error, by its address (R460) -/
  errs : Bank Nat := []
  /-- bytes of the CXL memory device -/
  cxl : Store := {}
  eccLog : List EccEntry := []
  scrubs : Bank Scrub := []
  /-- lines read with a corrected error that is still to be written back (R461) -/
  wback : List Nat := []
  keep : Keep := {}
  fw : Fw := {}
  svc : Svc := {}
  limit : Option Limit := none
  calib : Calib := {}
  /-- calibration classes by path: 512 per class -/
  calPaths : Bank CalPath := []
  /-- coefficient blocks in force at their paths (R406): ADC path t at t, RF output c at 32 + c, flux output c at 192 + c -/
  calForce : Bank (List Byte) := []
  thermal : Thermal := {}
  st : SelfTest := {}
  lanes : Bank Lane := []
  portUps : Bank PortUp := []
  twin : Twin := {}
  /-- the running record digests, by tile, before the final inversion (R624) -/
  digs : Bank (Option Nat) := []
  /-- fetches in a row of a block that were poisoned or failed their check (R469): SCHED block n of engine e at 2^25 e + n, WAVE
  block n at 2^25 e + 2^24 + n -/
  badFetch : Bank Nat := []
  /-- schedule lines resident: engine and SCHED line to cache line + 1 -/
  resS : Bank Nat := []
  /-- envelope lines resident: engine and WAVE line to waveform SRAM line + 1 -/
  resW : Bank Nat := []
  /-- blocks asked of CXL memory that have not come, WAVE or SCHED and number (R160, R583) -/
  cxlReads : List (Bool × Nat) := []
  /-- the store of check values (R478): the value copied there as the block was filled, and a parity error of it; keyed as badFetch -/
  chks : Bank (Nat × Bool) := []
  /-- parity errors of line tags (R463), by line of the SRAM address space -/
  tagBad : Bank Bool := []
  /-- lines of the CXL memory device that a read returns poisoned: the device's own, as the poison marks of earlier reads tell of it (R485) -/
  cxlBad : Bank Bool := []
  /-- what the trigger inputs last held and may be turning to (R279) -/
  tins : Bank TinSt := []
  /-- decode tags (R212, R225): engine and operation index (2^28 per engine) to the word a TAG stored, plus 2^64 where the operation is marked invalid -/
  dtags : Bank Nat := []
  /-- the byte address in the SRAM space of the byte or word that the last write of ECC_FLIP_CTL.ARM named (R486) -/
  flip : Nat := 0
  /-- keys of the W1S bits that a host write of 1 has found standing in the clock the block stands at (R23) -/
  again : List Nat := []
  /-- keys of the W1C bits that an event has set, or set again, and of the WL fields that the Watch has updated, in the clock the block stands at (R21,
  R642) -/
  evNow : List Nat := []
  deriving DecidableEq, Repr

end Sys2Proof.Machine
end

