-- ==== Sys2Proof/Machine/State.lean ====
section
/-! DEFINITION. The machine's state: the block and its queue of waiting commands, first in, first out; the reasons a step
can stop; and the state after reset. -/
namespace Sys2Proof.Machine

/-- The reasons a step can stop with a fault. There are none: the block has no command whose effect the spec leaves out
altogether, and a command whose event does not arise in the state leaves the block as it is. -/
inductive Fault where
  deriving DecidableEq, Repr

/-- The reasons a step is refused. -/
inductive Refusal where
  /-- raised by an arm of the dispatch whose command has no meaning yet; safe: the step stops -/
  | notModelled (mnemonic : String)
  deriving DecidableEq, Repr

/-- The block and its queue of waiting commands. -/
structure State where
  dev : Device
  pending : List Instr
  deriving DecidableEq, Repr

/-- The machine right after reset: the power-up sequence of R663 done, every register at its reset value, every memory
line UNINIT, no image, no run, and no command waiting. -/
def State.reset : State := { dev := {}, pending := [] }

end Sys2Proof.Machine
end

