-- ==== Sys2Proof/Machine/Store.lean ====
section
/-! DEFINITION. The operations of a byte memory (Store): a table of bytes over what its fills hold. What an unlisted address reads as is one
definition, Store.dflt; a byte equal to it is not listed. -/
namespace Sys2Proof.Machine

/-! The data of a self-test (R682) -/

/-- One step of PRBS31, x^31 + x^28 + 1: the register shifts left and takes the new bit at the bottom. -/
def prbsStep (s : Nat) : Nat := (2 * s + (if s.testBit 30 != s.testBit 27 then 1 else 0)) % 2 ^ 31

/-- A word of 64 successive output bits, the first in bit 0, and the register after it. -/
def prbsWord (s : Nat) : Nat × Nat :=
  (List.range 64).foldl (fun (w, s) i => let s := prbsStep s; (w + s % 2 * 2 ^ i, s)) (0, s)

/-- Word `n` of the PRBS sequence from a seed. -/
def prbsAt : Nat → Nat → Nat
  | 0, s => (prbsWord s).1
  | n + 1, s => prbsAt n (prbsWord s).2

/-- Inverse of a 64-bit word. -/
def inv64 (v : Nat) : Nat := v % 2 ^ 64 ^^^ (2 ^ 64 - 1)

/-- The word that the operations w0 and r0 (`inv` false), or w1 and r1, use for word `i` of a unit at a byte address (R682): D or its inverse. A seed of
0 is taken as 1. A word's D is the same in every element, so that an element may read what one of the other order wrote (DEDUCED, log 84). -/
def testWord (data bg base i : Nat) (inv : Bool) : Nat :=
  let d := match data with
    | 0 => bg % 2 ^ 64
    | 1 => if (i / 8 + i % 8) % 2 = 0 then bg % 2 ^ 64 else inv64 bg
    | 2 => base + 8 * i
    | _ => prbsAt i (if bg % 2 ^ 31 = 0 then 1 else bg % 2 ^ 31)
  if inv then inv64 d else d

/-- The byte at an address of a unit that its word's write leaves. -/
def testByte (data bg base : Nat) (inv : Bool) (a : Nat) : Byte :=
  BitVec.ofNat 8 (testWord data bg base ((a - base) / 8) inv / 2 ^ (8 * ((a - base) % 8)))

/-! Fills -/

/-- What a fill holds at an address of its range. -/
def Fill.byte (x : Fill) (a : Nat) : Byte :=
  match x.what with
  | .lost => 0
  | .zero => 0
  | .free n => Config.freeByte n a
  | .test data bg base inv => testByte data bg base inv a
  | .copy bs => bs.getD (Config.tablePlace (a - x.lo)) 0
  | .coef bs => bs.getD (Config.coefPlace a) (Config.freeByte 0 a)

/-- The newest fill that covers an address. -/
def fillAt (fills : List Fill) (a : Nat) : Option Fill := fills.find? (fun x => x.lo ≤ a && a < x.hi)

/-- What an address that no byte is listed at reads as: what its newest fill holds, and 0 where none covers it. -/
def fillByte (fills : List Fill) (a : Nat) : Byte :=
  match fillAt fills a with
  | some x => x.byte a
  | none => 0

/-- The tag of a line that none is listed for: NONE where a fill wrote it, UNINIT where nothing has since its power came on (R464). -/
def fillTag (fills : List Fill) (l : Nat) : Nat :=
  match fillAt fills (64 * l) with
  | some x => if x.what = .lost then 2 else 0
  | none => 2

/-! Reads and writes -/

/-- What an unlisted address of a memory reads as. -/
def Store.dflt (m : Store) : Nat → Byte := fillByte m.fills

/-- The byte at an address. -/
def Store.get (m : Store) (a : Nat) : Byte := bget m.dflt m.cells a

/-- A run of bytes. -/
def Store.read (m : Store) (a n : Nat) : List Byte := bread m.dflt m.cells a n

/-- Write a run of bytes. -/
def Store.put (m : Store) (a : Nat) (bs : List Byte) : Store := { m with cells := bsplice m.dflt m.cells a bs }

/-- Write a whole range at once; the fills it covers wholly are forgotten. -/
def Store.fill (m : Store) (x : Fill) : Store :=
  { cells := bdrop x.lo x.hi m.cells, fills := x :: m.fills.filter (fun y => y.lo < x.lo || x.hi < y.hi) }

/-- The bytes of a range that are not 0, by their distance from its start. -/
def Store.nonzero (m : Store) (a n : Nat) : List (Nat × Byte) :=
  if m.fills.any (fun x => decide (x.lo < a + n) && decide (a < x.hi)) then
    ((List.range n).map (fun i => (i, m.get (a + i)))).filter (fun c => c.2 != 0)
  else ((m.cells.filter (fun c => decide (a ≤ c.1) && decide (c.1 < a + n))).map (fun c => (c.1 - a, c.2))).filter (fun c => c.2 != 0)

/-- The canonical form: addresses strictly rising, and no byte listed that an unlisted address would read as. -/
def Store.wf (m : Store) : Bool := bwf m.dflt m.cells

end Sys2Proof.Machine
end

