-- ==== Sys2Proof/Machine/Ops.lean ====
section
/-! DEFINITION. The named operations every meaning is built from. A command's effect is a run of primitive updates (Upd),
each of which writes one piece of the device; a transaction (Tx) carries the device as the command has left it so far. What a step does to
the device is a run of those updates and nothing else (Reach). -/
namespace Sys2Proof.Machine

/-- The primitive updates: the one list of what can change in the device. -/
inductive Upd where
  | fld (F : Fld) (v : Nat)
  | dropRegs (lo hi : Nat)
  | latch (off : Nat) (v : Option Nat)
  | held (off : Nat) (v : Option Nat)
  | out (o : Out)
  | clearOut
  | free
  | time (x : Timebase)
  | power (x : Power)
  | host (x : HostPort)
  | queue (q : Nat) (x : Queue)
  | pba (v : Nat) (b : Bool)
  | dropQueues
  | img (x : ImageSt)
  | run (x : RunSt)
  | engine (e : Nat) (x : Engine)
  | seq (e : Nat) (x : Seq)
  | bus (k v : Nat)
  | patch (a v : Nat)
  | patchErr (a v : Nat)
  | dropPatch
  | dropPatchErr (lo hi : Nat)
  | patchWait (x : Option (Nat × List Nat × List Nat × Nat))
  | port (n : Nat) (x : Port)
  | mixer (m : Nat) (x : Mixer)
  | marker (t : Nat) (x : Marker)
  | clamp (k v : Nat)
  | steady (c : Nat) (v : Nat)
  | ranged (c : Nat) (v : Bool)
  | rangeT0 (c : Nat) (v : Option Nat)
  | monErr (c v : Nat)
  | recorded (tl : Nat) (v : List Nat)
  | win (n : Nat) (x : Option Win)
  | tile (n : Nat) (x : Tile)
  | flight (l : List Delivery)
  | txq (n : Nat) (l : List (Nat × Nat × Bool × Nat))
  | rx (n : Nat) (l : List RxMsg)
  | vote (p : Nat) (x : Option VoteIn)
  | voted (x : Option (Nat × Bool))
  | stat (p : Nat) (x : StatIn)
  | sum (n : Nat) (x : Option (Nat × Nat))
  | dropSums
  | anise (x : Anise)
  | credit (k v : Nat)
  | code (n : Nat) (x : Option (Bool × Nat))
  | lat (k v : Nat)
  | drainQ (l : List (Nat × Nat × Nat))
  | ring (n : Nat) (x : Ring)
  | stream (n : Nat) (x : Stream)
  | flags (t v : Nat)
  | sram (a : Nat) (bs : List Byte)
  | tag (l k : Nat)
  | err (a v : Nat)
  | fillLines (lo hi : Nat) (x : Holds)
  | lines (l : Nat) (bs : List Byte)
  | coef (ls : List Nat) (bs : List Byte)
  | cxl (a : Nat) (bs : List Byte)
  | cxlFill (x : Fill)
  | eccLog (l : List EccEntry)
  | keep (x : Keep)
  | fw (x : Fw)
  | svc (x : Svc)
  | limit (x : Option Limit)
  | outCfg (c : Nat) (x : OutCfg)
  | mon (q : Nat) (x : Mon)
  | calib (x : Calib)
  | calPath (n : Nat) (x : CalPath)
  | calForce (n : Nat) (bs : List Byte)
  | thermal (x : Thermal)
  | st (x : SelfTest)
  | lane (n : Nat) (x : Lane)
  | portUp (p : Nat) (x : PortUp)
  | twin (x : Twin)
  | dig (tl : Nat) (v : Option Nat)
  | dropDigs (lo hi : Nat)
  | scrub (u : Nat) (x : Scrub)
  | wback (l : List Nat)
  | badFetch (k v : Nat)
  | dropBad
  | resS (k v : Nat)
  | resW (k v : Nat)
  | evNow (x : List Nat)
  | flip (a : Nat)
  | again (x : List Nat)
  | dtag (k : Nat) (x : Nat)
  | tin (k : Nat) (x : TinSt)
  | cxlBad (k : Nat) (x : Bool)
  | tagBad (k : Nat) (x : Bool)
  | chk (k : Nat) (x : Nat × Bool)
  | cxlReads (x : List (Bool × Nat))
  | dropRes (lo hi : Nat)
  | resetBlocks
  | powerOn

/-- Reset of a clamp word: every output is clamped with reason POWERUP (R368). -/
def clampReset (_ : Nat) : Nat := 8

/-- Write field `F` in the register file: the value is cut to the field's width and held as its difference from reset. -/
def setFld (m : Bank Nat) (F : Fld) (v : Nat) : Bank Nat :=
  bset (fun _ => 0) m F.key ((v % 2 ^ F.width) ^^^ F.rst)

/-- The effect of one primitive update. -/
def applyUpd (d : Device) : Upd → Device
  | .fld F v => { d with flds := setFld d.flds F v }
  | .dropRegs lo hi => { d with
      flds := bdrop (lo * 32) (hi * 32) d.flds, latch := bdrop lo hi d.latch, held := bdrop lo hi d.held }
  | .latch off v => { d with latch := bset (fun _ => none) d.latch off v }
  | .held off v => { d with held := bset (fun _ => none) d.held off v }
  | .out o => { d with out := d.out ++ [o] }
  | .clearOut => { d with out := [] }
  | .free => { d with freeN := d.freeN + 1 }
  | .time x => { d with time := x }
  | .power x => { d with power := x }
  | .host x => { d with host := x }
  | .queue q x => { d with queues := bset (fun _ => {}) d.queues q x }
  | .pba v b => { d with pba := bset (fun _ => false) d.pba v b }
  | .dropQueues => { d with queues := [], pba := [] }
  | .img x => { d with img := x }
  | .run x => { d with run := x }
  | .engine e x => { d with engines := bset (fun _ => {}) d.engines e x }
  | .seq e x => { d with seqs := bset (fun _ => {}) d.seqs e x }
  | .bus k v => { d with bus := bset (fun _ => 0) d.bus k v }
  | .patch a v => { d with patch := bset (fun _ => 0) d.patch a v }
  | .patchErr a v => { d with patchErr := bset (fun _ => 0) d.patchErr a v }
  | .dropPatch => { d with patch := [], patchErr := [] }
  | .dropPatchErr lo hi => { d with patchErr := bdrop lo hi d.patchErr }
  | .patchWait x => { d with patchWait := x }
  | .port n x => { d with ports := bset (fun _ => {}) d.ports n x }
  | .mixer m x => { d with mixers := bset (fun _ => {}) d.mixers m x }
  | .marker t x => { d with markers := bset (fun _ => {}) d.markers t x }
  | .clamp k v => { d with clamps := bset clampReset d.clamps k v }
  | .steady c v => { d with steady := bset (fun _ => 0) d.steady c v }
  | .ranged c v => { d with ranged := bset (fun _ => false) d.ranged c v }
  | .rangeT0 c v => { d with rangeT0 := bset (fun _ => none) d.rangeT0 c v }
  | .monErr c v => { d with monErr := bset (fun _ => 0) d.monErr c v }
  | .recorded tl v => { d with recorded := bset (fun _ => []) d.recorded tl v }
  | .win n x => { d with wins := bset (fun _ => none) d.wins n x }
  | .tile n x => { d with tiles := bset (fun _ => {}) d.tiles n x }
  | .flight l => { d with flight := l }
  | .txq n l => { d with txq := bset (fun _ => []) d.txq n l }
  | .rx n l => { d with rx := bset (fun _ => []) d.rx n l }
  | .vote p x => { d with votes := bset (fun _ => none) d.votes p x }
  | .voted x => { d with voted := x }
  | .stat p x => { d with stats := bset (fun _ => {}) d.stats p x }
  | .sum n x => { d with sums := bset (fun _ => none) d.sums n x }
  | .dropSums => { d with sums := [] }
  | .anise x => { d with anise := x }
  | .credit k v => { d with credit := bset (fun _ => 0) d.credit k v }
  | .code n x => { d with codes := bset (fun _ => none) d.codes n x }
  | .lat k v => { d with lat := bset (fun _ => 0) d.lat k v }
  | .drainQ l => { d with drainQ := l }
  | .ring n x => { d with rings := bset (fun _ => {}) d.rings n x }
  | .stream n x => { d with streams := bset (fun _ => {}) d.streams n x }
  | .flags t v => { d with flags := bset (fun _ => 0) d.flags t v }
  | .sram a bs => { d with sram := d.sram.put a bs }
  | .tag l k => { d with tags := bset (fillTag d.sram.fills) d.tags l k, tagBad := bset (fun _ => false) d.tagBad l false }
  | .err a v => { d with errs := bset (fun _ => 0) d.errs a v }
  | .fillLines lo hi x => { d with
      sram := d.sram.fill ⟨lo * 64, hi * 64, x⟩, tags := bdrop lo hi d.tags, errs := bdrop (lo * 64) (hi * 64) d.errs
      tagBad := bdrop lo hi d.tagBad }
  | .lines l bs => { d with
      sram := d.sram.put (l * 64) bs, tags := bsplice (fillTag d.sram.fills) d.tags l (List.replicate (bs.length / 64) 0)
      errs := bdrop (l * 64) (l * 64 + bs.length) d.errs, tagBad := bdrop l (l + bs.length / 64) d.tagBad }
  | .coef ls bs => { d with
      sram := ls.foldl (fun m l => m.fill ⟨l * 64, (l + 1) * 64, .coef bs⟩) d.sram, tags := ls.foldl (fun m l => bdrop l (l + 1) m) d.tags
      errs := ls.foldl (fun m l => bdrop (l * 64) ((l + 1) * 64) m) d.errs, tagBad := ls.foldl (fun m l => bdrop l (l + 1) m) d.tagBad }
  | .cxl a bs => { d with cxl := d.cxl.put a bs }
  | .cxlFill x => { d with cxl := d.cxl.fill x }
  | .eccLog l => { d with eccLog := l }
  | .keep x => { d with keep := x }
  | .fw x => { d with fw := x }
  | .svc x => { d with svc := x }
  | .limit x => { d with limit := x }
  | .outCfg c x => { d with outCfgs := bset (fun _ => {}) d.outCfgs c x }
  | .mon q x => { d with mons := bset (fun _ => {}) d.mons q x }
  | .calib x => { d with calib := x }
  | .calPath n x => { d with calPaths := bset (fun _ => {}) d.calPaths n x }
  | .calForce n bs => { d with calForce := bset (fun _ => []) d.calForce n bs }
  | .thermal x => { d with thermal := x }
  | .st x => { d with st := x }
  | .lane n x => { d with lanes := bset (fun _ => {}) d.lanes n x }
  | .portUp p x => { d with portUps := bset (fun _ => {}) d.portUps p x }
  | .twin x => { d with twin := x }
  | .dig tl v => { d with digs := bset (fun _ => none) d.digs tl v }
  | .dropDigs lo hi => { d with digs := bdrop lo hi d.digs }
  | .scrub u x => { d with scrubs := bset (fun _ => {}) d.scrubs u x }
  | .wback l => { d with wback := l }
  | .badFetch k v => { d with badFetch := bset (fun _ => 0) d.badFetch k v }
  | .dropBad => { d with badFetch := [] }
  | .resS k v => { d with resS := bset (fun _ => 0) d.resS k v }
  | .resW k v => { d with resW := bset (fun _ => 0) d.resW k v }
  | .evNow x => { d with evNow := x }
  | .flip a => { d with flip := a }
  | .again x => { d with again := x }
  | .dtag k x => { d with dtags := bset (fun _ => 0) d.dtags k x }
  | .tin k x => { d with tins := bset (fun _ => {}) d.tins k x }
  | .cxlBad k x => { d with cxlBad := bset (fun _ => false) d.cxlBad k x }
  | .tagBad k x => { d with tagBad := bset (fun _ => false) d.tagBad k x }
  | .chk k x => { d with chks := bset (fun _ => (0, false)) d.chks k x }
  | .cxlReads x => { d with cxlReads := x }
  | .dropRes lo hi => { d with
      resS := bdrop (lo * 2 ^ 24) (hi * 2 ^ 24) d.resS, resW := bdrop (lo * 2 ^ 24) (hi * 2 ^ 24) d.resW
      dtags := bdrop (lo * 2 ^ 28) (hi * 2 ^ 28) d.dtags, chks := bdrop (lo * 2 ^ 25) (hi * 2 ^ 25) d.chks }
  | .resetBlocks => { d with
      img := {}, run := {}, engines := [], seqs := [], bus := [], ports := [], mixers := [], markers := []
      clamps := [], steady := [], ranged := [], rangeT0 := [], monErr := [], recorded := [], outCfgs := [], mons := []
      wins := [], tiles := [], flight := [], txq := [], rx := [], votes := [], voted := none, stats := [], sums := [], anise := {}
      credit := [], codes := [], lat := [], drainQ := [], rings := [], streams := [], flags := [], eccLog := []
      calib := { commits := d.calib.commits, presets := d.calib.presets, bgFrom := d.power.awakeTicks }, calPaths := [], calForce := [], st := {}, lanes := [], portUps := [], twin := {}, digs := []
      scrubs := [], wback := [], sram := {}, tags := [], errs := [], flip := 0, badFetch := [], resS := [], resW := [], cxlReads := [], chks := [], tagBad := [], tins := [], dtags := [] }
  | .powerOn => {
      out := d.out, freeN := d.freeN, cxl := d.cxl, cxlBad := d.cxlBad
      keep := { units := d.keep.units, head := d.keep.head, wear := d.keep.wear, downOk := d.keep.downOk, blocks := d.keep.blocks } }

/-- The devices that updates can make of one. -/
inductive Reach (d0 : Device) : Device → Prop where
  | start : Reach d0 d0
  | upd {d : Device} (u : Upd) : Reach d0 d → Reach d0 (applyUpd d u)

/-- A command under way on a device: the device as the command has left it so far, and that updates alone have made it so. -/
structure Tx (d0 : Device) where
  d : Device
  ok : Reach d0 d

variable {d0 : Device}

/-- Make one update. -/
def Tx.upd (t : Tx d0) (u : Upd) : Tx d0 := ⟨applyUpd t.d u, t.ok.upd u⟩

/-- Where a command starts: what the last command sent out is cleared first. -/
def Tx.start (d0 : Device) : Tx d0 := Tx.upd ⟨d0, .start⟩ .clearOut

/-- A command's outcome from its effect; the queue is untouched. -/
def commit (eff : {d0 : Device} → Tx d0 → Tx d0) (s : State) : Host.Outcome State Fault Refusal :=
  .next { s with dev := (eff (Tx.start s.dev)).d }

/-! Control -/

/-- Do `g` where `c` holds. -/
def Tx.when (t : Tx d0) (c : Bool) (g : Tx d0 → Tx d0) : Tx d0 := if c then g t else t

/-- Do `g` for each element of a list, in order. -/
def Tx.each {α : Type} (t : Tx d0) (l : List α) (g : α → Tx d0 → Tx d0) : Tx d0 := l.foldl (fun t a => g a t) t

/-! Register fields -/

/-- The value of a field. -/
def Device.f (d : Device) (F : Fld) : Nat := bget (fun _ => 0) d.flds F.key ^^^ F.rst

/-- A one-bit field is 1. -/
def Device.b (d : Device) (F : Fld) : Bool := d.f F == 1

def Tx.f (t : Tx d0) (F : Fld) : Nat := t.d.f F
def Tx.b (t : Tx d0) (F : Fld) : Bool := t.d.b F

/-- Write a field. -/
def Tx.w (t : Tx d0) (F : Fld) (v : Nat) : Tx d0 := t.upd (.fld F v)

/-- Write a one-bit field. -/
def Tx.wb (t : Tx d0) (F : Fld) (v : Bool) : Tx d0 := t.w F v.toNat

/-- An event counter counts `n` and saturates (R7). -/
def Tx.add (t : Tx d0) (F : Fld) (n : Nat) : Tx d0 := t.w F (satAdd F.width (t.f F) n)

/-- An event counter counts one (R7). -/
def Tx.inc (t : Tx d0) (F : Fld) : Tx d0 := t.add F 1

/-- A 64-bit value held in two word fields (R11). -/
def Device.f64 (d : Device) (L H : Fld) : Nat := d.f L + 2 ^ 32 * d.f H

def Tx.w64 (t : Tx d0) (L H : Fld) (v : Nat) : Tx d0 := (t.w L (v % 2 ^ 32)).w H (v / 2 ^ 32 % 2 ^ 32)

/-! Interrupt vectors (R575) -/

/-- The MSI-X vector that carries the W1C cause held at a field key, if any. -/
def vectorOf (key : Nat) : Option Nat :=
  let off := key / 32
  let bit := key % 32
  if off = R.GLB_ACC_ERR.MULTI.off then some 203
  else if off = R.GLB_DEV_EVT.IMG_DONE.off || off = R.TB_STAT.SLIP.off && 16 ≤ bit && bit ≤ 20
      || off = R.FW_STAT.OVERRUN.off && bit = 30 then some 192
  else if off = R.FAB_EVT.LOST.off then some 193
  else if off = R.ACQ_DRAIN_STAT.NORUN.off || 0x5C0 ≤ off && off < 0x640 && off % 0x20 = 0x18 then some 194
  else if off = R.CAL_EVT.COMMIT.off then some 195
  else if off = R.THM_EVT.SHUTDOWN.off then some 196
  else if off = R.ECC_EVT.CE.off then some (if bit = 31 then 197 else 198)
  else if off = R.KEEP_EVT.WORN.off then some (if bit = 31 then 199 else 200)
  else if off = R.LNK_HOST_EVT.DOWN.off || off = R.LNK_CXL_EVT.DOWN.off then some 201
  else if 0x1000000 ≤ off && off < 0x1001000 && off % 0x40 = 0x18 && bit = 31 then some 201
  else if off = R.WATCH_EVT.DENY.off || off = R.TWIN_EVT.ATTACHED.off then some 202
  else if 0x100000 ≤ off && off < 0x500000 then
    let t := (off - 0x100000) / 0x20000
    let x := (off - 0x100000) % 0x20000
    if x = 0x2020 || x = 0x300C then some (64 + 4 * t)
    else if x = 0x2060 || x = 0x310C then some (65 + 4 * t)
    else if 0x1400 ≤ x && x < 0x1450 && 28 ≤ bit then some (66 + 4 * t)
    else if 0x1480 ≤ x && x < 0x1494 && bit = 31 then some (66 + 4 * t)
    else if x = 0x4100 || x = 0x5004 || x = 0x6080 then some (66 + 4 * t)
    else if 0x6000 ≤ x && x < 0x6080 && x % 16 = 0 && (bit = 30 || bit = 29) then some (66 + 4 * t)
    else none
  else none

/-- A vector becomes pending (R576). -/
def Tx.pend (t : Tx d0) (v : Nat) : Tx d0 := t.upd (.pba v true)

/-- A hardware event sets a W1C bit; a change from 0 to 1 makes the vector that carries it pending (R576). Until the clock is over, a write of 1
does not clear the bit (R21). -/
def Tx.ev (t : Tx d0) (F : Fld) : Tx d0 :=
  let t := t.upd (.evNow (if t.d.evNow.contains F.key then t.d.evNow else F.key :: t.d.evNow))
  if t.f F = 1 then t
  else match vectorOf F.key with
    | some v => (t.w F 1).pend v
    | none => t.w F 1

/-- A hardware event sets bit `k` of a field of W1C bits that no vector carries; until the clock is over, a write of 1 does not clear it (R21). -/
def Tx.evBit (t : Tx d0) (F : Fld) (k : Nat) : Tx d0 :=
  (t.upd (.evNow (if t.d.evNow.contains (F.key + k) then t.d.evNow else (F.key + k) :: t.d.evNow))).w F (t.f F ||| 2 ^ k)

/-- The Watch updates a WL field; until the clock is over, a host write to it counts as a Watch-locked write whatever its bits are (R642). -/
def Tx.watchSet (t : Tx d0) (F : Fld) (v : Nat) : Tx d0 :=
  (t.upd (.evNow (if t.d.evNow.contains F.key then t.d.evNow else F.key :: t.d.evNow))).w F v

/-- The bits of a W1C field that an event has set in the clock the block stands at (R21). -/
def Device.evBits (d : Device) (F : Fld) : Nat := (List.range F.width).foldl (fun m i => if d.evNow.contains (F.key + i) then m + 2 ^ i else m) 0

/-! Access errors (R24, R698) -/

/-- An access error stands that host software has not cleared (R24). -/
def Device.errStands (d : Device) : Bool :=
  d.b R.GLB_ACC_ERR.OFF || d.b R.GLB_ACC_ERR.RSVD_ENC || d.b R.GLB_ACC_ERR.UNMAPPED || d.b R.GLB_ACC_ERR.NARROW

/-- One access has the errors named: an error before the first was cleared sets MULTI and keeps the first offset. -/
def Tx.accErr (t : Tx d0) (off : Nat) (errs : List Fld) : Tx d0 :=
  let earlier := t.d.errStands
  let t := t.each errs (fun F t => t.ev F)
  if errs.isEmpty then t
  else if earlier then t.ev R.GLB_ACC_ERR.MULTI
  else t.w R.GLB_ACC_ADDR.OFFSET off

/-! Pieces of state -/

def Tx.modTime (t : Tx d0) (g : Timebase → Timebase) : Tx d0 := t.upd (.time (g t.d.time))
def Tx.modPower (t : Tx d0) (g : Power → Power) : Tx d0 := t.upd (.power (g t.d.power))
def Tx.modHost (t : Tx d0) (g : HostPort → HostPort) : Tx d0 := t.upd (.host (g t.d.host))
def Tx.modImg (t : Tx d0) (g : ImageSt → ImageSt) : Tx d0 := t.upd (.img (g t.d.img))
def Tx.modRun (t : Tx d0) (g : RunSt → RunSt) : Tx d0 := t.upd (.run (g t.d.run))
def Tx.modCalib (t : Tx d0) (g : Calib → Calib) : Tx d0 := t.upd (.calib (g t.d.calib))
def Device.outCfg (d : Device) (c : Nat) : OutCfg := bget (fun _ => {}) d.outCfgs c
def Device.mon (d : Device) (q : Nat) : Mon := bget (fun _ => {}) d.mons q
def Device.calPath (d : Device) (n : Nat) : CalPath := bget (fun _ => {}) d.calPaths n
def Tx.modCalPath (t : Tx d0) (n : Nat) (g : CalPath → CalPath) : Tx d0 := t.upd (.calPath n (g (t.d.calPath n)))
def Tx.modThermal (t : Tx d0) (g : Thermal → Thermal) : Tx d0 := t.upd (.thermal (g t.d.thermal))
def Tx.modSt (t : Tx d0) (g : SelfTest → SelfTest) : Tx d0 := t.upd (.st (g t.d.st))
def Tx.modTwin (t : Tx d0) (g : Twin → Twin) : Tx d0 := t.upd (.twin (g t.d.twin))
def Device.lane (d : Device) (n : Nat) : Lane := bget (fun _ => {}) d.lanes n
def Tx.modLane (t : Tx d0) (n : Nat) (g : Lane → Lane) : Tx d0 := t.upd (.lane n (g (t.d.lane n)))
def Device.portUp (d : Device) (n : Nat) : PortUp := bget (fun _ => {}) d.portUps n
def Tx.modPortUp (t : Tx d0) (n : Nat) (g : PortUp → PortUp) : Tx d0 := t.upd (.portUp n (g (t.d.portUp n)))
def Tx.modFw (t : Tx d0) (g : Fw → Fw) : Tx d0 := t.upd (.fw (g t.d.fw))
def Tx.modSvc (t : Tx d0) (g : Svc → Svc) : Tx d0 := t.upd (.svc (g t.d.svc))
def Tx.modKeep (t : Tx d0) (g : Keep → Keep) : Tx d0 := t.upd (.keep (g t.d.keep))
def Device.scrub (d : Device) (u : Nat) : Scrub := bget (fun _ => {}) d.scrubs u
def Tx.modScrub (t : Tx d0) (u : Nat) (g : Scrub → Scrub) : Tx d0 := t.upd (.scrub u (g (t.d.scrub u)))
def Device.queue (d : Device) (q : Nat) : Queue := bget (fun _ => {}) d.queues q
def Tx.modQueue (t : Tx d0) (q : Nat) (g : Queue → Queue) : Tx d0 := t.upd (.queue q (g (t.d.queue q)))
def Device.eng (d : Device) (e : Nat) : Engine := bget (fun _ => {}) d.engines e
def Tx.modEng (t : Tx d0) (e : Nat) (g : Engine → Engine) : Tx d0 := t.upd (.engine e (g (t.d.eng e)))
def Device.seq (d : Device) (e : Nat) : Seq := bget (fun _ => {}) d.seqs e
def Tx.modSeq (t : Tx d0) (e : Nat) (g : Seq → Seq) : Tx d0 := t.upd (.seq e (g (t.d.seq e)))
def Device.tin (d : Device) (k : Nat) : TinSt := bget (fun _ => {}) d.tins k
def Device.port (d : Device) (n : Nat) : Port := bget (fun _ => {}) d.ports n
def Device.win (d : Device) (n : Nat) : Option Win := bget (fun _ => none) d.wins n
def Device.tile (d : Device) (n : Nat) : Tile := bget (fun _ => {}) d.tiles n
def Tx.modTile (t : Tx d0) (n : Nat) (g : Tile → Tile) : Tx d0 := t.upd (.tile n (g (t.d.tile n)))
def Device.ring (d : Device) (n : Nat) : Ring := bget (fun _ => {}) d.rings n
def Device.stream (d : Device) (n : Nat) : Stream := bget (fun _ => {}) d.streams n
def Device.mixer (d : Device) (m : Nat) : Mixer := bget (fun _ => {}) d.mixers m
def Device.marker (d : Device) (m : Nat) : Marker := bget (fun _ => {}) d.markers m
def Device.clampOf (d : Device) (k : Nat) : Nat := bget clampReset d.clamps k
def Device.flagsOf (d : Device) (t : Nat) : Nat := bget (fun _ => 0) d.flags t
/-- The tag of a line as it reads: a parity error of it makes it kind ECC (R463). -/
def Device.tagOf (d : Device) (l : Nat) : Nat := if bget (fun _ => false) d.tagBad l then 1 else bget (fillTag d.sram.fills) d.tags l

/-- A line of the CXL memory device returns poisoned data (R485). -/
def Device.cxlPoison (d : Device) (a : Nat) : Bool := bget (fun _ => false) d.cxlBad (a / 64)

/-- Send something out of the block. -/
def Tx.send (t : Tx d0) (o : Out) : Tx d0 := t.upd (.out o)

/-- A value the spec leaves open: a fresh one each time. -/
def Tx.open (t : Tx d0) : Nat × Tx d0 := (Config.freeValue t.d.freeN, t.upd .free)

/-- Reads of CXL memory at `addrs` tell which of those lines return poison (R485). -/
def Tx.notePoison (t : Tx d0) (addrs bad : List Nat) : Tx d0 :=
  t.each addrs (fun a t => let p := bad.any (fun b => b / 64 == a / 64); if t.d.cxlPoison a = p then t else t.upd (.cxlBad (a / 64) p))

/-! Time -/

/-- The tick the block stands at: the fine epoch while AWAKE, else the coarse epoch (R93). -/
def Device.now (d : Device) : Epoch := if d.b R.TB_STAT.AWAKE then d.time.fine else d.time.coarse

def Tx.now (t : Tx d0) : Epoch := t.d.now

/-- The tick the block stands at in a count that no sync moves: durations that a sync may fall into are measured by it. -/
def Device.age (d : Device) : Nat := d.time.ticks

/-- The block stands at the run-end tick: the tick after the run is still to come (R201). -/
def Device.endTick (d : Device) : Bool := d.run.afterEnd && d.now == d.run.ended

/-- A run is in progress (R704). -/
def Device.running (d : Device) : Bool := d.b R.GLB_RUN_STAT.RUNNING

def Tx.running (t : Tx d0) : Bool := t.d.running

/-! Domains (R657, R698) -/

/-- A domain is powered and not covered by a reset in progress. -/
def Device.domOn (d : Device) (k : Nat) : Bool :=
  (d.f R.PWR_DOM_STAT.ON).testBit k &&
  (match d.power.reset with
   | none => true
   | some (lo, _) => k < lo) &&
  (k < 8 || !(d.f R.PWR_TILE_STAT.UP).testBit (k - 8))

/-- A pair of tiles is on. -/
def Device.tileOn (d : Device) (t : Nat) : Bool := d.domOn (8 + t / 2)

/-- A write of one access puts a value in a field; a reserved encoding leaves it and is reported (R19). -/
def Tx.put (t : Tx d0) (F : Fld) (v : Nat) (ok : Bool) : Tx d0 := if ok then t.w F v else t.accErr F.off [R.GLB_ACC_ERR.RSVD_ENC]

/-- A tick passes: whatever comes now falls on a later clock (R21, R23, R52). -/
def Tx.newClock (t : Tx d0) : Tx d0 :=
  let t := (t.upd (.evNow [])).upd (.again [])
  if t.d.run.before.isSome then t.modRun (fun r => { r with before := none }) else t

/-- A host access that does `g`. Two accesses never fall in one clock, so W1S bits that an earlier one found standing are done with, and events up
to here fall on an earlier clock than the next access (R21, R23). -/
def Tx.access (t : Tx d0) (g : Tx d0 → Tx d0) : Tx d0 := (g (t.upd (.again []))).upd (.evNow [])

/-- A host write of 1 to a W1S bit whose action takes time (R23). -/
def Tx.setS (t : Tx d0) (F : Fld) : Tx d0 := if t.b F then t.upd (.again (F.key :: t.d.again)) else t.wb F true

/-- The action of a W1S bit is done: the bit clears, but stays set where a write of 1 falls in the same clock, and the action starts again (R23). -/
def Tx.doneS (t : Tx d0) (F : Fld) : Tx d0 := if t.d.again.contains F.key then t else t.wb F false

/-- Offset from which BAR4 stands in the register map. -/
def bar4 : Nat := 0x1000000

/-- Report the errors of an access: BAR4 has one bit for all of them (R557). -/
def Tx.report (t : Tx d0) (off : Nat) (errs : List Fld) : Tx d0 :=
  if bar4 ≤ off then (if errs.isEmpty then t else t.ev R.LNK_HOST_EVT.BAR4_ACC) else t.accErr off errs

/-- A host write of the register at an offset does `g`, where the register's domain is on (R698). -/
def Tx.hostReg (t : Tx d0) (off : Nat) (g : Tx d0 → Tx d0) : Tx d0 :=
  t.access (fun t => if t.d.domOn (domainOf off) then g t else t.report off [R.GLB_ACC_ERR.OFF])

end Sys2Proof.Machine
end

