-- ==== Sys2Proof/Machine/Mem.lean ====
section
/-! DEFINITION. The on-chip memories (chapter 14): SRAM classes and lines, the two codes, line tags, the error log, and
reads of a line by a consumer; and CRC-32C (R477). -/
namespace Sys2Proof.Machine

variable {d0 : Device}

/-! Classes and lines (R455, R558) -/

/-- The class, unit and line within the unit of a line of the SRAM address space; none in a reserved address. -/
def lineClass (l : Nat) : Option (Nat × Nat × Nat) :=
  if l < 0xC0000 then some (0, l / 24576, l % 24576)
  else if l < 0x100000 then some (1, (l - 0xC0000) / 4096, (l - 0xC0000) % 4096)
  else if l < 0x180000 then some (2, (l - 0x100000) / 16384, (l - 0x100000) % 16384)
  else if l < 0x190000 then some (3, 0, l - 0x180000)
  else if l < 0x192000 then some (4, (l - 0x190000) / 256, (l - 0x190000) % 256)
  else none

/-- The line of the SRAM address space at which a unit of a class begins. -/
def classBase (cls unit : Nat) : Nat :=
  match cls with
  | 0 => unit * 24576
  | 1 => 0xC0000 + unit * 4096
  | 2 => 0x100000 + unit * 16384
  | 3 => 0x180000
  | _ => 0x190000 + unit * 256

/-- Lines of one unit of a class. -/
def classLines (cls : Nat) : Nat :=
  match cls with
  | 0 => 24576
  | 1 => 4096
  | 2 => 16384
  | 3 => 65536
  | _ => 256

/-- Units of a class. -/
def classUnits (cls : Nat) : Nat :=
  match cls with
  | 0 => 32
  | 1 => 64
  | 2 => 32
  | 3 => 1
  | _ => 32

/-! Codes (R457 to R460) -/

/-- A position of a codeword that holds a check bit. -/
def isPow2 (n : Nat) : Bool := n == 1 || n == 2 || n == 4 || n == 8 || n == 16 || n == 32 || n == 64

/-- The codeword positions of the data bits, in ascending order, up to `last`. -/
def dataPositions (last : Nat) : List Nat := (List.range (last + 1)).filter (fun p => 3 ≤ p && !isPow2 p)

/-- The check bits a data mask flips: the XOR of the positions of its set bits. -/
def hamming (ps : List Nat) (mask : Nat) : Nat := (ps.zipIdx.foldl (fun h (p, j) => if mask.testBit j then h ^^^ p else h) 0)

/-- Parity of the set bits among the low `n`. -/
def parityOf (n v : Nat) : Bool := (List.range n).foldl (fun p j => p != v.testBit j) false

/-- The per-byte classes use the 13/8 code, the others the 72/64 code. -/
def perByte (cls : Nat) : Bool := cls == 2 || cls == 3 || cls == 4

/-- Syndrome bits below the overall parity bit: 4 for a byte, 7 for a word. -/
def synWidth (cls : Nat) : Nat := if perByte cls then 4 else 7

def lastPos (cls : Nat) : Nat := if perByte cls then 12 else 71

/-- The result of decoding a stored byte or word with syndrome `s` and parity `p` (R460): the data bit to invert, if any,
when it is corrected; `none` when it is uncorrectable. -/
def eccDecode (cls v : Nat) : Option (Option Nat) :=
  let s := v % 2 ^ synWidth cls
  let p := v / 2 ^ synWidth cls % 2
  if p = 1 then
    if s = 0 then some none
    else if s ≤ lastPos cls then some ((dataPositions (lastPos cls)).findIdx? (fun q => q == s))
    else none
  else if s = 0 then some none else none

/-- What flipping data bits `mask` and check bits `chk` adds to a syndrome and parity (R486). -/
def flipDelta (cls mask chk : Nat) : Nat :=
  let w := synWidth cls
  let n := if perByte cls then 8 else 64
  let s := hamming (dataPositions (lastPos cls)) mask ^^^ (chk % 2 ^ w)
  let p := parityOf n mask != parityOf (w + 1) chk
  s + 2 ^ w * p.toNat

/-- The check bits of stored data `v` whose syndrome and parity are `e` (R458, R459): with `e` 0, those the encoder gives. -/
def checkOf (cls v e : Nat) : Nat :=
  let w := synWidth cls
  let n := if perByte cls then 8 else 64
  let c := hamming (dataPositions (lastPos cls)) v ^^^ (e % 2 ^ w)
  c + 2 ^ w * ((parityOf n v != parityOf w c) != (e / 2 ^ w % 2 == 1)).toNat

/-- The check bits stored with a word of 64 bits: of a per-byte class, those of its eight bytes one after the other. -/
def wordChecks (cls v : Nat) (e : Nat → Nat) : Nat :=
  if perByte cls then (List.range 8).foldl (fun m i => m + checkOf cls (v / 2 ^ (8 * i) % 256) (e i) * 2 ^ (5 * i)) 0 else checkOf cls v (e 0)

/-- Errors listed in a line: (address, syndrome and parity). -/
def Device.lineErrs (d : Device) (l : Nat) : List (Nat × Nat) := d.errs.filter (fun c => l * 64 ≤ c.1 && c.1 < l * 64 + 64)

/-- The stored byte `b` at an address of the SRAM space, corrected under R461. -/
def Device.mend (d : Device) (a : Nat) (b : Byte) : Byte :=
  match lineClass (a / 64) with
  | none => 0
  | some (cls, _, _) =>
    let key := if perByte cls then a else a / 8 * 8
    match eccDecode cls (bget (fun _ => 0) d.errs key) with
    | some (some j) => if perByte cls then b ^^^ BitVec.ofNat 8 (2 ^ j) else if a % 8 = j / 8 then b ^^^ BitVec.ofNat 8 (2 ^ (j % 8)) else b
    | _ => b

/-- The corrected byte at an address. -/
def Device.sramByte (d : Device) (a : Nat) : Byte := d.mend a (d.sram.get a)

/-- A run of corrected bytes. -/
def Device.sramBytes (d : Device) (a n : Nat) : List Byte := (d.sram.read a n).zipIdx.map (fun (b, i) => d.mend (a + i) b)

/-- A little-endian word of corrected bytes. -/
def Device.sramLe (d : Device) (a n : Nat) : Nat := leNat (d.sramBytes a n)

/-! The log (R489) -/

/-- Show the head of the log in its registers. -/
def Tx.showLog (t : Tx d0) : Tx d0 :=
  let t := t.w R.ECC_LOG_STAT.COUNT t.d.eccLog.length
  let h := t.d.eccLog.head?
  let w0 := (h.map EccEntry.w0).getD 0
  let w1 := (h.map EccEntry.w1).getD 0
  let ep := (h.map EccEntry.epoch).getD 0
  ((((((((((t.wb R.ECC_LOG_W0.VALID h.isSome).w R.ECC_LOG_W0.KIND (bitsOf w0 30 28)).w R.ECC_LOG_W0.SOURCE (bitsOf w0 27 25)).w
    R.ECC_LOG_W0.CLASS (bitsOf w0 24 22)).w R.ECC_LOG_W0.UNIT (bitsOf w0 21 16)).w R.ECC_LOG_W0.LINE (bitsOf w0 15 0)).w
    R.ECC_LOG_W1.SYNDROME (bitsOf w1 31 24)).w R.ECC_LOG_W1.POS (bitsOf w1 21 16)).w R.ECC_LOG_W1.ACTION (bitsOf w1 15 8)).w64
    R.ECC_LOG_EPOCH_LO.EPOCH R.ECC_LOG_EPOCH_HI.EPOCH ep)

/-- Log an event of a line: kind, source, line of the SRAM space, syndrome, byte or word, action. A full log drops it. -/
def Tx.logEcc (t : Tx d0) (kind src l syn pos act : Nat) : Tx d0 :=
  match lineClass l with
  | none => t
  | some (cls, unit, line) =>
    if 16 ≤ t.d.eccLog.length then t.ev R.ECC_EVT.LOG_OVF
    else
      let w0 := 2 ^ 31 + kind * 2 ^ 28 + src * 2 ^ 25 + cls * 2 ^ 22 + unit * 2 ^ 16 + line
      let w1 := syn * 2 ^ 24 + pos * 2 ^ 16 + act * 2 ^ 8
      (t.upd (.eccLog (t.d.eccLog ++ [⟨w0, w1, t.now.toNat⟩]))).showLog

/-! Tags and reads -/

/-- Set the tag of a line unless it already carries one (R467). -/
def Tx.tagLine (t : Tx d0) (l kind : Nat) : Tx d0 := if t.d.tagOf l = 0 then t.upd (.tag l kind) else t

/-- The first uncorrectable byte or word of a line: its address and syndrome. -/
def Device.lineUe (d : Device) (cls l : Nat) : Option (Nat × Nat) := (d.lineErrs l).find? (fun c => (eccDecode cls c.2).isNone)

/-- The number of a byte or word within its line, as ECC_LOG.POS gives it. -/
def posOf (cls a : Nat) : Nat := if perByte cls then a % 64 else a % 64 / 8

/-- Bytes or words of a line that the decoder corrects. -/
def Device.lineCes (d : Device) (cls l : Nat) : Nat := ((d.lineErrs l).filter (fun c => (eccDecode cls c.2).isSome)).length

/-- The corrected bytes or words of a line that is read are counted, each as one, and reported, and their write-back is due (R461). -/
def Tx.corrected (t : Tx d0) (cls l : Nat) : Tx d0 :=
  match t.d.lineCes cls l with
  | 0 => t
  | n => ((t.add (R.ECC_CNT.CE cls) n).ev R.ECC_EVT.CE).upd (.wback (if t.d.wback.contains l then t.d.wback else t.d.wback ++ [l]))

/-- An uncorrectable error found in a line is counted and logged, and tags the line where it carries no tag (R462, R467). -/
def Tx.uncorrectable (t : Tx d0) (cls l src act : Nat) (ue : Nat × Nat) : Tx d0 :=
  ((t.tagLine l 1).inc (R.ECC_CNT.UE cls)).logEcc 1 src l ue.2 (posOf cls ue.1) act

/-- A consumer reads a line (R460 to R462, R465, R468): corrected errors are counted; a new uncorrectable error tags the
line and is logged; a line already tagged is logged again, but for UNINIT, and an uncorrectable error under a tag of another kind beside it (R467). The
tag the consumer meets stands afterwards. -/
def Tx.readLine (t : Tx d0) (l src act : Nat) : Tx d0 :=
  match lineClass l with
  | none => t
  | some (cls, _, _) =>
    let k := t.d.tagOf l
    if k = 2 then t.ev R.ECC_EVT.UE_READ
    else
      let t := t.corrected cls l
      match t.d.lineUe cls l with
      | none => if k = 0 then t else (t.logEcc k src l 0 0 act).ev R.ECC_EVT.UE_READ
      | some ue =>
        let t := if k = 0 then t.uncorrectable cls l src act ue
          else if k = 1 then t.logEcc 1 src l ue.2 (posOf cls ue.1) act
          else (t.logEcc k src l 0 0 act).uncorrectable cls l src act ue
        t.ev R.ECC_EVT.UE_READ

/-- The tag a consumer meets on a line: the line's own, or ECC where its stored bits are uncorrectable. -/
def Device.lineKind (d : Device) (l : Nat) : Nat :=
  match lineClass l with
  | none => 0
  | some (cls, _, _) => if d.tagOf l ≠ 0 then d.tagOf l else if (d.lineUe cls l).isSome then 1 else 0

/-- The first line of a range of the state SRAM that carries a tag or holds an uncorrectable error. -/
def Device.badLine (d : Device) (lo hi : Nat) : Option Nat :=
  let mine := fun (l : Nat) => decide (lo ≤ l) && decide (l < hi)
  match (d.tags.map Prod.fst ++ d.tagBad.map Prod.fst).find? (fun l => mine l && d.tagOf l != 0) with
  | some l => some l
  | none => (d.errs.find? (fun c => mine (c.1 / 64) && (eccDecode 3 c.2).isNone)).map (fun c => c.1 / 64)

/-- A whole line is written on the very tick on which a visit has found an uncorrectable error in it: the write wins, and the visit's entry of the log
says so (R488). -/
def Tx.overwritten (t : Tx d0) (l : Nat) : Tx d0 :=
  match lineClass l with
  | none => t
  | some (cls, unit, line) =>
    let w0 := 2 ^ 31 + 2 ^ 28 + 2 ^ 25 + cls * 2 ^ 22 + unit * 2 ^ 16 + line
    let hit := fun (x : EccEntry) => x.w0 == w0 && x.epoch == t.now.toNat
    if t.d.eccLog.any hit then
      (t.upd (.eccLog (t.d.eccLog.map (fun x => if hit x then { x with w1 := x.w1 / 2 ^ 16 * 2 ^ 16 + 6 * 2 ^ 8 } else x)))).showLog
    else t

/-- A functional write reaches a line: a write-back of a correction that is due there is dropped (R461, R488). -/
def Tx.wrote (t : Tx d0) (l : Nat) : Tx d0 := if t.d.wback.contains l then t.upd (.wback (t.d.wback.filter (fun x => x != l))) else t

/-- A whole-line write: new check bits, tag cleared of any kind (R466). -/
def Tx.writeLine (t : Tx d0) (l : Nat) (bs : List Byte) : Tx d0 :=
  ((t.overwritten l).wrote l).upd (.lines l ((bs ++ List.replicate 64 0).take 64))

/-- A write of a few bytes of one line of a per-byte class (R466). -/
def Tx.writeIn (t : Tx d0) (a : Nat) (bs : List Byte) : Tx d0 :=
  let l := a / 64
  let t := t.wrote l
  let t := if t.d.tagOf l = 2 then t.upd (.lines l (List.replicate 64 0)) else t
  let t := t.each (List.range bs.length) (fun i t => t.upd (.err (a + i) 0))
  t.upd (.sram a bs)

/-- A write within one line: of the whole line, or of a few bytes of it. -/
def Tx.writePart (t : Tx d0) (a : Nat) (bs : List Byte) : Tx d0 :=
  if bs.isEmpty then t else if bs.length = 64 then t.writeLine (a / 64) bs else t.writeIn a bs

/-- A write of any run of bytes to a per-byte class, line by line. -/
def Tx.writeBytes (t : Tx d0) (a : Nat) (bs : List Byte) : Tx d0 :=
  let first := 64 - a % 64
  let t := t.writePart a (bs.take first)
  let rest := bs.drop first
  t.each (List.range ((rest.length + 63) / 64)) (fun i t => t.writePart (a + first + 64 * i) ((rest.drop (64 * i)).take 64))

/-- The lines of a range lose power: contents gone, every tag UNINIT (R464, R658). -/
def Tx.losePower (t : Tx d0) (lo hi : Nat) : Tx d0 := t.upd (.fillLines lo hi .lost)

/-- A range of lines takes bytes the spec gives no layout for: each a free value. -/
def Tx.openFill (t : Tx d0) (l n : Nat) : Tx d0 := (t.upd (.fillLines l (l + n) (.free t.d.freeN))).upd .free

/-! Residency (R160): the SCHED blocks and WAVE lines of the image that a tile holds -/

/-- Slot of SCHED block `n` in the schedule cache of engine `e`, where it is resident. A schedule line of R205 is such a
block of 256 bytes. -/
def Device.schedSlot (d : Device) (e n : Nat) : Option Nat :=
  match bget (fun _ => 0) d.resS (e * 2 ^ 24 + n) with
  | 0 => none
  | s + 1 => some s

/-- Line of the SRAM space that holds operation `i` of the SCHED data area for engine `e`. -/
def Device.opLine (d : Device) (e i : Nat) : Option Nat := (d.schedSlot e (i / 16)).map (fun s => classBase 1 e + 4 * s + i % 16 / 4)

/-- Waveform SRAM line of WAVE line `n` held for engine `e`, in the SRAM space, where it is resident. -/
def Device.waveLine (d : Device) (e n : Nat) : Option Nat :=
  match bget (fun _ => 0) d.resW (e * 2 ^ 24 + n) with
  | 0 => none
  | s + 1 => some (classBase 0 (e / 2) + s)

/-- Clear the residency and the decode tags of a SCHED block of an engine. -/
def Tx.dropSched (t : Tx d0) (e n : Nat) : Tx d0 :=
  (t.upd (.resS (e * 2 ^ 24 + n) 0)).each (List.range 16) (fun i t => t.upd (.dtag (e * 2 ^ 28 + 16 * n + i) 0))

/-- Invalidate a WAVE line of an engine. -/
def Tx.dropWave (t : Tx d0) (e n : Nat) : Tx d0 := t.upd (.resW (e * 2 ^ 24 + n) 0)

/-- WAVE blocks that an engine may hold at most (R159). -/
def waveQuota (e : Nat) : Nat := if e % 2 = 0 then 5120 else 1024

/-- A read of a block of the committed image goes out on the CXL port, where the device is there (R583). -/
def Tx.askBlock (t : Tx d0) (wave : Bool) (block : Nat) : Tx d0 :=
  match t.d.img.act with
  | some im => if t.b R.ECC_CXL_STAT.PRESENT then t.send (.cxlRead (im.base + (if wave then im.waveOff else im.schedOff) + 256 * block) 256) else t
  | none => t

/-- A block of the committed image is asked for (R160); until it comes, a lost CXL link has it asked for again (R583). -/
def Tx.fetchBlock (t : Tx d0) (wave : Bool) (block : Nat) : Tx d0 :=
  if t.d.img.act.isNone then t
  else (t.upd (.cxlReads (if t.d.cxlReads.contains (wave, block) then t.d.cxlReads else t.d.cxlReads ++ [(wave, block)]))).askBlock wave block

end Sys2Proof.Machine
end

