-- ==== Sys2Proof/Machine/KeepOps.lean ====
section
/-! DEFINITION. What every chapter uses of the Keep (chapter 15): unit roles and contents, the live record of an item,
requests for a commit, FAULT and LIFE bodies. -/
namespace Sys2Proof.Machine

variable {d0 : Device}

/-! Units (R492, R493) -/

/-- A unit as at manufacture, in ascending physical order: 2,876 LOG, 512 FW_A, 512 FW_B, 188 SPARE, 8 RING. The units of the log, and those of the ring,
are opened in logical order, as their GEN says. -/
def unitMade (u : Nat) : KUnit :=
  if u < 2876 then { role := 1, logical := u, gen := u }
  else if u < 3388 then { role := 2, logical := u - 2876 }
  else if u < 3900 then { role := 3, logical := u - 3388 }
  else if u < 4088 then { role := 5, logical := u - 3900 }
  else { role := 4, logical := u - 4088, gen := u - 4088 }

def Device.unit (d : Device) (u : Nat) : KUnit := bget unitMade d.keep.units u

def Tx.modUnit (t : Tx d0) (u : Nat) (g : KUnit → KUnit) : Tx d0 :=
  t.modKeep (fun k => { k with units := bset unitMade k.units u (g (t.d.unit u)) })

/-- The unit that holds a role and logical number: the one with the highest generation (R495). -/
def Device.unitOf (d : Device) (role logical : Nat) : Option Nat :=
  let made := if role = 1 then logical else if role = 2 then 2876 + logical else if role = 3 then 3388 + logical
    else if role = 5 then 3900 + logical else 4088 + logical
  let cands := (made :: d.keep.units.map Prod.fst).filter (fun u => (d.unit u).role == role && (d.unit u).logical == logical)
  cands.foldl (fun b u => match b with
    | none => some u
    | some v => if (d.unit v).gen < (d.unit u).gen then some u else some v) none

/-- Bytes of a record's header and body. -/
def KRec.total (r : KRec) : Nat := 16 + r.body.length

/-- Bytes a record and its COMMIT take in a unit (R497, R499): both start on 16-byte boundaries. -/
def KRec.size (r : KRec) : Nat := (r.total + 15) / 16 * 16 + (if r.committed || r.comTorn.isSome then 16 else 0)

/-- Offset in a unit at which the next record starts. -/
def KUnit.used (u : KUnit) : Nat := u.recs.foldl (fun n r => n + r.size) 64

/-- The record's header (R497): class, key, sequence number, length, check. -/
def KRec.header (r : KRec) : List Byte :=
  let h := [BitVec.ofNat 8 r.cls, BitVec.ofNat 8 r.key, 0, 0] ++ leBytes 4 r.seq ++ leBytes 4 r.body.length
  h ++ leBytes 4 (crc32c (h ++ r.body))

/-- The COMMIT record of a record (R498, R503). -/
def KRec.commitRec (r : KRec) : List Byte :=
  let h := [0x10, BitVec.ofNat 8 r.cls, 0, 0] ++ leBytes 4 r.seq ++ leBytes 4 0
  h ++ leBytes 4 (crc32c h)

/-- What programming data over bytes leaves: bits change only from 1 to 0 (R490). -/
def programOver (old data : List Byte) : List Byte := List.zipWith (fun a b => a &&& b) old data

/-- What a program of data into erased bytes leaves where it is aborted: some of the bits that were to change have. -/
def tornBytes (n at' : Nat) (data : List Byte) : List Byte := data.zipIdx.map (fun (b, i) => b ||| Config.freeByte n (at' + i))

/-- Bytes of an erased unit. -/
def erasedBytes (n : Nat) : List Byte := List.replicate n 0xFF

/-- A record's bytes as they lie in its unit; slots not written read all ones. -/
def KRec.bytes (r : KRec) : List Byte :=
  let all := r.header ++ r.body
  let torn := match r.torn with
    | some (n, k) => tornBytes n 0 ((all.drop r.fill).take k)
    | none => []
  let body := all.take r.fill ++ torn
  let com := match r.comTorn with
    | some n => tornBytes n 0 r.commitRec
    | none => if r.committed then r.commitRec else []
  body ++ erasedBytes ((r.total + 15) / 16 * 16 - body.length) ++ com

/-- The unit header (R493). A ROLE byte programmed since leaves HCRC as it was made (R494). -/
def KUnit.header (u : KUnit) : List Byte :=
  let h := fun (role : Nat) => leBytes 4 0x5045454B ++ [BitVec.ofNat 8 role, 0, 0, 0] ++ leBytes 2 u.logical ++ leBytes 2 0 ++ leBytes 4 u.erases
    ++ leBytes 4 u.gen ++ List.replicate 40 0
  h u.role ++ leBytes 4 (crc32c (h (u.hrole.getD u.role)))

/-- The ROLE byte of a unit is programmed to 0x00: it is retired, and the rest of it stays as it is (R494). -/
def KUnit.retired (u : KUnit) : KUnit := { u with role := 0, hrole := some (u.hrole.getD u.role) }

/-- The physical units that hold log records. -/
def Device.recUnits (d : Device) : List Nat :=
  (d.keep.units.filter (fun c => (c.2.role = 1 || c.2.role = 4) && c.2.recs ≠ [])).map Prod.fst

/-- The live record of a class and key (R504): the committed record with the highest sequence number whose check holds. -/
def Device.live (d : Device) (cls key : Nat) : Option KRec :=
  (d.recUnits.flatMap (fun u => (d.unit u).recs)).foldl (fun b r =>
    if r.cls = cls && r.key = key && r.committed && r.good then
      match b with
      | none => some r
      | some x => if x.seq < r.seq then some r else some x
    else b) none

/-- The live FAULT records, latest first (R498: the latest 4,096; 256 in the worn state). -/
def Device.faults (d : Device) : List KRec :=
  let rs := (d.recUnits.flatMap (fun u => (d.unit u).recs)).filter (fun r => r.cls == 7 && r.committed && r.good)
  ((rs.mergeSort (fun a b => b.seq ≤ a.seq)).eraseDups).take (if d.keep.wear = 0 then 4096 else 256)

/-- A committed record that would be live fails its CHECK (R504). -/
def Device.checkLost (d : Device) (cls key : Nat) : Bool :=
  (d.recUnits.flatMap (fun u => (d.unit u).recs)).any (fun r => r.cls == cls && r.key == key && r.committed && !r.good &&
    (match d.live cls key with | some x => decide (x.seq < r.seq) | none => true))

/-- The last record of a unit is changed. -/
def Tx.modLast (t : Tx d0) (u : Nat) (g : KRec → KRec) : Tx d0 :=
  t.modUnit u (fun x => { x with recs := x.recs.dropLast ++ (x.recs.getLast?.map g).toList })

/-! Requests (R506) -/

/-- Show the number of staged commits. -/
def Tx.showQueue (t : Tx d0) : Tx d0 := if t.b R.KEEP_STAT.READY then t.w R.KEEP_STAT.QUEUE t.d.keep.queue.length else t

/-- Stage a commit. A request for a class and key that has a staged commit whose phases have not begun, but for FAULT, replaces that; the answer says
whether a place was found. -/
def Tx.stage (t : Tx d0) (cls key : Nat) (body : List Byte) : Bool × Tx d0 :=
  let q := t.d.keep.queue
  if t.d.keep.wear = 2 then (false, t)
  else if cls ≠ 7 && q.any (fun r => r.cls == cls && r.key == key && r.phase == 0) then
    (true, t.modKeep (fun k => { k with queue := k.queue.map (fun r =>
      if r.cls == cls && r.key == key && r.phase == 0 then { cls := cls, key := key, body := body } else r) }))
  else if 16 ≤ q.length then (false, t)
  else (true, (t.modKeep (fun k => { k with queue := k.queue ++ [{ cls := cls, key := key, body := body }] })).showQueue)

/-- Stage a commit and pass over a refusal. -/
def Tx.stageAny (t : Tx d0) (cls key : Nat) (body : List Byte) : Tx d0 := (t.stage cls key body).2

/-- The minute since power-on, by which the rate of R506 is counted. -/
def Device.minute (d : Device) : Nat := d.age / 120000000000

/-- The body of a FAULT record (R502). -/
def Device.faultBody (d : Device) (code detail : Nat) : List Byte :=
  leBytes 2 code ++ leBytes 2 detail ++ leBytes 4 (d.keep.life.getD 1 0) ++ leBytes 8 d.now.toNat ++ List.replicate 16 0

/-- FAULT records requested in the minute that runs. -/
def Device.faultsNow (d : Device) : Nat := if d.keep.faultMin.1 = d.minute then d.keep.faultMin.2 else 0

/-- A FAULT record finds a place in the queue, within the rate (R506). -/
def Device.faultRoom (d : Device) : Bool := decide (d.faultsNow < 16) && decide (d.keep.queue.length < 16) && d.keep.wear != 2

/-- A staged FAULT record of this tick with a code above `code`, which comes after it (R654). -/
def Device.faultAfter (d : Device) (code : Nat) (q : KReq) : Bool :=
  q.cls == 7 && q.phase == 0 && q.seq.isNone && q.born == d.age + 1 && decide (code < leNat (q.body.take 2))

/-- The Watch commits a FAULT record (R502, R506, R652): at most 16 a minute; one beyond the rate or a full queue is
dropped and counted. Records of one tick stand in ascending order of CODE, and the last of them is the one dropped (R654). -/
def Tx.fault (t : Tx d0) (code detail : Nat) : Tx d0 :=
  let r : KReq := { cls := 7, key := 0, body := t.d.faultBody code detail, born := t.d.age + 1 }
  let after := t.d.faultAfter code
  let put := fun (l : List KReq) => l.takeWhile (fun q => !after q) ++ [r] ++ l.dropWhile (fun q => !after q)
  let m := t.d.minute
  let n := t.d.faultsNow
  if t.d.faultRoom then (t.modKeep (fun k => { k with queue := put k.queue, faultMin := (m, n + 1) })).showQueue
  else
    let t := match (t.d.keep.queue.filter after).getLast? with
      | some last => t.modKeep (fun k => { k with queue := put (k.queue.erase last) })
      | none => t
    (t.inc R.KEEP_CNT.FAULT_DROPPED).ev R.KEEP_EVT.FAULT_DROP

/-! Answers of the request mailbox and safety limits (R644, R646, R647, R649) -/

/-- A request is answered. -/
def Tx.watchDone (t : Tx d0) (r : Nat) : Tx d0 := ((t.w R.WATCH_RESP.RESULT r).wb R.WATCH_RESP.BUSY false).ev R.WATCH_EVT.REQ_DONE

/-- The fields a limit names; none for an index it does not have. -/
def limitFlds (limit index : Nat) : Option (List Fld) :=
  if limit = 1 then
    (if index < 4 then some [R.MON_WIN.FAULT index] else if index = 0xFF then some ((List.range 4).map R.MON_WIN.FAULT) else none)
  else if index ≠ 0 then none
  else if limit = 2 then some [R.THM_RATE_LIM.CLAMP]
  else if limit = 3 then some [R.LNK_SER_CTL.EYE_MIN]
  else if limit = 4 then some [R.TWIN_CFG.HB_LIMIT]
  else none

/-- A value lies in the limit's range. -/
def Device.limitOk (d : Device) (limit index v : Nat) : Bool :=
  if limit = 1 then ((List.range 4).filter (fun q => index == q || index == 0xFF)).all (fun q => d.f (R.MON_WIN.WARN q) < v) && v ≤ 2621
  else if limit = 2 then d.f R.THM_RATE_LIM.WARN < v && v ≤ 160
  else if limit = 3 then 8 ≤ v && v ≤ d.f R.LNK_SER_CTL.EYE_WARN
  else 256 ≤ v && v ≤ 16384

/-- The limit is set. -/
def Tx.limitSet (t : Tx d0) (limit index v : Nat) : Tx d0 := t.each ((limitFlds limit index).getD []) (fun F t => t.watchSet F v)

/-- A limit that waits is set on the first tick without a run, where its value still lies in the range; else the answer is RANGE. -/
def Tx.limitDue (t : Tx d0) : Tx d0 :=
  match t.d.limit with
  | none => t
  | some x =>
    if t.running then t
    else
      let t := t.upd (.limit none)
      if t.d.limitOk x.limit x.index x.value then (t.limitSet x.limit x.index x.value).watchDone 1 else t.watchDone 4

/-- One count of the LIFE record goes up and saturates (R501). -/
def Tx.lifeInc (t : Tx d0) (i : Nat) : Tx d0 :=
  t.modKeep (fun k => { k with life := k.life.set i (satInc 32 (k.life.getD i 0)) })

/-- The counts of the LIFE record as they stand now: the minutes since the last whole hour, and the hours they make with those counted before. -/
def Device.lifeNow (d : Device) : List Nat :=
  let l := d.keep.life
  let m := l.getD 11 0 + (d.age - d.keep.hourMark) / 120000000000
  (l.set 0 (satAdd 32 (l.getD 0 0) (m / 60))).set 11 (m % 60)

/-- The body of a LIFE record (R501). -/
def Device.lifeBody (d : Device) : List Byte :=
  d.lifeNow.flatMap (fun v => leBytes 4 v) ++ List.replicate 12 0

/-- The Watch reads a live record: one above it that fails CHECK is reported (R504). DETAIL holds CLASS in its low byte and KEY in the high one (DESIGN
CHOICE, log 178). In the failed state it reads none (R518). -/
def Tx.checkLive (t : Tx d0) (cls key : Nat) : Tx d0 :=
  if t.d.checkLost cls key && t.d.keep.wear != 2 then (t.ev R.KEEP_EVT.CHECK_FAIL).fault 0x0F04 (cls + 256 * key) else t

/-! Programs and erases (R490, R491, R510, R515) -/

/-- A firmware unit holds its blocks' bytes at 16 times its physical number. Slot A's are the part's own at manufacture; every other unit is erased. -/
def fwMade (k : Nat) : List Byte :=
  let u := k / 16
  if 2876 ≤ u && u < 3388 then (List.range 4096).map (fun j => Config.firmware (4096 * (15 * (u - 2876) + k % 16) + j)) else erasedBytes 4096

/-- The bytes of a block change. -/
def Tx.putBytes (t : Tx d0) (u j : Nat) (bs : List Byte) : Tx d0 := t.modKeep (fun k => { k with blocks := bset fwMade k.blocks (16 * u + j) bs })

def Device.blockBytes (d : Device) (u j : Nat) : List Byte := bget fwMade d.keep.blocks (16 * u + j)

/-- A program or erase starts. -/
def Tx.keepStart (t : Tx d0) (f : KFlight) : Tx d0 := (t.modKeep (fun k => { k with flight := some f })).wb R.KEEP_STAT.BUSY true

/-- Whether an erase that no command's operand tells of verifies: open. -/
def Tx.verifies (t : Tx d0) : Bool × Tx d0 := let (v, t) := t.open; (v % 2 == 1, t)

/-- The commit in front, where its phases have begun, is to start again from phase 1 with the same sequence number (R513, R640). -/
def Tx.restage (t : Tx d0) : Tx d0 :=
  t.modKeep (fun k => { k with queue := match k.queue with | [] => [] | q :: rest => { q with phase := 0 } :: rest })

/-- What is in flight for a firmware command that is dropped runs on for no command. -/
def KFlight.dropped (f : KFlight) : KFlight :=
  match f.what with
  | .fwErase _ => { f with what := .fwErase false }
  | _ => f

/-- A firmware command in progress is dropped (R536, R640): what the Keep has in flight for it runs on for no command. -/
def Tx.dropFw (t : Tx d0) : Tx d0 :=
  (t.modFw (fun x => { x with cur := none, going := 0, pages := none })).modKeep (fun k =>
    { k with flight := k.flight.map KFlight.dropped })

/-- The staged commits are to be written to the staging region anew (R640). -/
def Tx.unstage (t : Tx d0) : Tx d0 := t.modKeep (fun k => { k with queue := k.queue.map (fun q => { q with slot := none }) })

/-- A program or erase of the Keep in flight is aborted, and its unit is suspect (R450, R510, R512). -/
def Tx.keepCut (t : Tx d0) : Tx d0 :=
  match t.d.keep.flight with
  | none => t
  | some f =>
    let n := t.d.freeN
    let t := ((t.modUnit f.unit (fun u => { u with suspect := true })).modKeep (fun k => { k with flight := none })).wb R.KEEP_STAT.BUSY false
    let lost := fun (t : Tx d0) => (t.modUnit f.unit (fun u => { u with recs := [], torn := some n })).upd .free
    match f.what with
    | .record m => ((t.modLast f.unit (fun r => { r with torn := some (n, m - r.fill), good := false })).restage).upd .free
    | .com => ((t.modLast f.unit (fun r => { r with comTorn := some n })).restage).upd .free
    | .erase | .spare _ => lost t
    | .fwErase _ => lost (t.each (List.range 15) (fun j t => t.putBytes f.unit j ((List.range 4096).map (fun i => Config.freeByte n (4096 * j + i)))))
    | .fwPage j k _ =>
      let bs := t.d.blockBytes f.unit j
      ((t.putBytes f.unit j (bs.take (256 * k) ++ (List.range 256).map (fun i => Config.freeByte n i) ++ bs.drop (256 * k + 256))).modFw (fun x =>
        { x with pages := none })).upd .free
    | .role => t

end Sys2Proof.Machine
end

