-- ==== Sys2Proof/Machine/Outputs.lean ====
section
/-! DEFINITION. Outputs and their clamps (chapter 10), shared by the commands: RF outputs, flux outputs and markers; clamp
reasons, first loads, idle levels, and what a void, a run end and a safe point do to them. -/
namespace Sys2Proof.Machine

variable {d0 : Device}

/-! Clamp words: bit 0 DISCONNECT, 1 FAULT, 2 MONITOR, 3 POWERUP, 4 RANGE, 5 mute of a voided shot (R194), 6 a commit has
passed since the FAULT reason was set, 7 since the MONITOR reason was (R369, R378). RF output c at c, flux c at 1000 + c, marker t at 2000 + t. -/

def fluxKey (c : Nat) : Nat := 1000 + c
def markKey (t : Nat) : Nat := 2000 + t

/-- A reason of R367 holds: the output is clamped. -/
def clamped (w : Nat) : Bool := w % 32 ≠ 0

/-- CLAMP_WHY: the first reason in the order DISCONNECT, FAULT, MONITOR, POWERUP, RANGE. -/
def clampWhy (w : Nat) : Nat :=
  if w.testBit 0 then 5 else if w.testBit 1 then 1 else if w.testBit 2 then 2 else if w.testBit 3 then 3
  else if w.testBit 4 then 4 else 0

/-- Put a clamp word in force and show it in the output's registers. -/
def Tx.setClamp (t : Tx d0) (k w : Nat) : Tx d0 :=
  let was := clamped (t.d.clampOf k)
  let t := t.upd (.clamp k w)
  if k < 1000 then t
  else if k < 2000 then
    let t := if was = clamped w then t else t.upd (.steady (k - 1000) t.d.age)
    ((t.wb (R.FLX_OUT_STAT.CLAMPED (k - 1000)) (clamped w)).w (R.FLX_OUT_STAT.CLAMP_WHY (k - 1000)) (clampWhy w)).wb
      (R.FLX_OUT_STAT.MON_FAULT (k - 1000)) (w.testBit 2 && !w.testBit 7)
  else t.wb (R.FLX_MARK.CLAMPED (k - 2000)) (clamped w)

/-- The level that a marker output drives (R718): the scheduled one, and 0 while clamped (R382). -/
def Device.markerOut (d : Device) (tl : Nat) : Bool := d.b (R.FLX_MARK.LEVEL tl) && !d.b (R.FLX_MARK.CLAMPED tl)

/-- Add a clamp reason (as a mask). A new FAULT or MONITOR reason waits for the next commit. -/
def Tx.clampAdd (t : Tx d0) (k mask : Nat) : Tx d0 :=
  let w := t.d.clampOf k ||| mask
  t.setClamp k (w &&& (0xFF - 32 * (mask &&& 6)))

/-- Take away clamp reasons (as a mask). -/
def Tx.clampDrop (t : Tx d0) (k mask : Nat) : Tx d0 := t.setClamp k (t.d.clampOf k &&& (0xFF - mask))

/-- The first load of an output (R367 to R371, R378): it releases POWERUP and a void's mute, and FAULT and MONITOR once a
commit has passed. -/
def Tx.firstLoad (t : Tx d0) (k : Nat) : Tx d0 :=
  let w := t.d.clampOf k
  let w := w &&& (0xFF - 0x28)
  let w := if w.testBit 6 then w &&& (0xFF - 0x42) else w
  t.setClamp k (if w.testBit 7 then w &&& (0xFF - 0x84) else w)

/-- Every output of a tile, by clamp key: five RF outputs, eight flux outputs, the marker. -/
def tileOutputs (tl : Nat) : List Nat :=
  (List.range 5).map (fun i => 5 * tl + i) ++ (List.range 8).map (fun i => fluxKey (8 * tl + i)) ++ [markKey tl]

/-- The outputs an engine owns (R64): A the RF outputs and the marker, B the flux outputs. -/
def engineOutputs (e : Nat) : List Nat :=
  if e % 2 = 0 then (List.range 5).map (fun i => 5 * (e / 2) + i) ++ [markKey (e / 2)]
  else (List.range 8).map (fun i => fluxKey (8 * (e / 2) + i))

/-- Clamp every output of the part with a reason. -/
def Tx.clampAll (t : Tx d0) (mask : Nat) : Tx d0 := t.each ((List.range 32).flatMap tileOutputs) (fun k t => t.clampAdd k mask)

/-! Flux outputs -/

/-- The FLUXCFG record of a tile under the committed image (R356), if it has one. -/
def Device.fluxCfg (d : Device) (tl : Nat) : Option (List Byte) :=
  match d.img.act with
  | none => none
  | some im => im.acq.find? (fun r => (r.getD 0 0).toNat == 5 && (r.getD 1 0).toNat == tl)

/-- The idle code of a flux output (R356, R357), as a 16-bit pattern. -/
def Device.idleCode (d : Device) (c : Nat) : Nat :=
  match d.fluxCfg (c / 8) with
  | none => 0
  | some r => leNat ((r.drop (8 + 2 * (c % 8))).take 2)

/-- The range the committed image gives a flux output. -/
def Device.rangeOf (d : Device) (c : Nat) : Bool :=
  match d.fluxCfg (c / 8) with
  | none => false
  | some r => (r.getD 2 0).toNat.testBit (c % 8)

/-- The strobe group the committed image gives a flux output. -/
def Device.groupOf (d : Device) (c : Nat) : Nat :=
  match d.fluxCfg (c / 8) with
  | none => c % 8
  | some r => leNat ((r.drop 4).take 3) / 8 ^ (c % 8) % 8

/-- The idle level of a tile's marker. -/
def Device.midle (d : Device) (tl : Nat) : Bool :=
  match d.fluxCfg tl with
  | none => false
  | some r => (r.getD 3 0).toNat.testBit 0

/-- The age from which an output's code in force and clamp state have stood still (R377). -/
def Tx.touch (t : Tx d0) (c : Nat) : Tx d0 := t.upd (.steady c t.d.age)

/-- Put a code in force on a flux output. -/
def Tx.loadCode (t : Tx d0) (c code : Nat) : Tx d0 :=
  let t := if t.f (R.FLX_OUT_STAT.CODE c) = code then t else t.touch c
  t.w (R.FLX_OUT_STAT.CODE c) code

/-- Empty a holding register. -/
def Tx.emptyHeld (t : Tx d0) (c : Nat) : Tx d0 := (t.w (R.FLX_HELD.HELD c) 0).w (R.FLX_HELD.CODE c) 0

/-- Discard the held code of an output and report it (R362). -/
def Tx.dropHeld (t : Tx d0) (c : Nat) : Tx d0 :=
  if t.b (R.FLX_HELD.HELD c) then ((t.emptyHeld c).ev (R.FLX_OUT_STAT.DROPPED c)).ev (R.FLX_EVT.DROPPED (c / 8)) else t

/-- A strobe of a group of a tile: every held code of the group loads (R360). -/
def Tx.strobe (t : Tx d0) (tl g : Nat) : Tx d0 :=
  t.each (List.range 8) (fun i t =>
    let c := 8 * tl + i
    if t.d.groupOf c = g && t.b (R.FLX_HELD.HELD c) then
      (((t.loadCode c (t.f (R.FLX_HELD.CODE c))).emptyHeld c).firstLoad (fluxKey c)).upd (.ranged c false)
    else t)

/-! Markers -/

/-- The level a marker ends at once the changes still to come have been made. -/
def Device.markLast (d : Device) (tl : Nat) : Bool :=
  match (d.marker tl).queue.getLast? with
  | some (_, v) => v
  | none => d.b (R.FLX_MARK.LEVEL tl)

/-- Bring a marker up to a DAC sample instant: the queued changes not after it are made. -/
def Tx.markTo (t : Tx d0) (tl instant : Nat) : Tx d0 :=
  let m := t.d.marker tl
  let due := m.queue.filter (fun c => c.1 ≤ instant)
  let t := t.each due (fun c t => (t.wb (R.FLX_MARK.LEVEL tl) c.2).inc (R.FLX_MARK.CHANGES tl))
  if due.isEmpty then t else t.upd (.marker tl { m with queue := m.queue.filter (fun c => instant < c.1) })

/-- Set a marker to a level at sample 0 of this tick (R363 to R365), behind the delayed changes of earlier ticks and at least 4 samples after the last
change (R381); what MARKs of this very tick would change is dropped (DEDUCED, log 209). A change outside a run is not one of those that CHANGES
counts. -/
def Tx.markNow (t : Tx d0) (tl : Nat) (v : Bool) : Tx d0 :=
  let now := 8 * t.d.age
  let m := t.d.marker tl
  let m := if m.tick = t.d.age && !m.reqs.isEmpty then { m with queue := m.queue0, last := m.last0, reqs := [], late := false } else m
  let level := match m.queue.getLast? with
    | some (_, v) => v
    | none => t.b (R.FLX_MARK.LEVEL tl)
  let at' := match m.last with
    | some l => max now (l + 4)
    | none => now
  if level = v then t.upd (.marker tl m)
  else if at' = now then
    ((t.wb (R.FLX_MARK.LEVEL tl) v).when (t.running || t.d.run.afterEnd) (fun t => t.inc (R.FLX_MARK.CHANGES tl))).upd (.marker tl { m with last := some now })
  else (t.ev (R.FLX_EVT.MARK_STRETCH tl)).upd (.marker tl { m with last := some at', queue := m.queue ++ [(at', v)] })

/-! What a tile's outputs do together -/

/-- Flux outputs of a tile take their idle code (R363, R364); an output whose range has just changed stays at code 0 (R373). -/
def Tx.idleFlux (t : Tx d0) (tl : Nat) : Tx d0 :=
  t.each (List.range 8) (fun i t =>
    let c := 8 * tl + i
    if bget (fun _ => false) t.d.ranged c then t else t.loadCode c (t.d.idleCode c))

/-- Flux outputs and marker of a tile take their idle code and level (R363, R364). -/
def Tx.idleTile (t : Tx d0) (tl : Nat) : Tx d0 := (t.idleFlux tl).markNow tl (t.d.midle tl)

/-- Held codes of a tile are discarded (R362). -/
def Tx.dropTileHeld (t : Tx d0) (tl : Nat) : Tx d0 := t.each (List.range 8) (fun i t => t.dropHeld (8 * tl + i))

/-- Release a mixer (R122, R126). -/
def Tx.freeMixer (t : Tx d0) (m : Nat) : Tx d0 :=
  let fr := 32 * (m / 20) + (t.d.mixer m).frame
  if t.b (R.NCO_MIX_STAT.BUSY m) then
    let t := (t.wb (R.NCO_MIX_STAT.BUSY m) false).upd (.mixer m {})
    t.w (R.NCO_STAT.OCC fr) (t.f (R.NCO_STAT.OCC fr) &&& (0xFFFFF ^^^ 2 ^ (m % 20)))
  else t

/-- The outputs of an engine go idle (R177): its mixers are released and its marker takes its idle level, or its flux outputs take their idle codes
(DEDUCED, log 58). -/
def Tx.idleOuts (t : Tx d0) (e : Nat) : Tx d0 :=
  if e % 2 = 1 then t.idleFlux (e / 2)
  else (t.each (List.range 20) (fun i t => t.freeMixer (20 * (e / 2) + i))).markNow (e / 2) (t.d.midle (e / 2))

/-- The RF outputs of a tile are muted by a void (R194), and its mixers give 0. -/
def Tx.muteTile (t : Tx d0) (tl : Nat) : Tx d0 :=
  let t := t.each (List.range 5) (fun i t => t.clampAdd (5 * tl + i) 0x20)
  t.each (List.range 20) (fun i t => t.freeMixer (20 * tl + i))

/-! Settings of an RF output (R392, R393) -/

/-- An output begins to settle. -/
def Tx.settle (t : Tx d0) (c : Nat) : Tx d0 :=
  (t.upd (.outCfg c { t.d.outCfg c with since := t.d.age })).wb (R.NCO_OUT_CFG.SETTLING c) true

/-- The value last written takes effect, and the output settles where it changes. -/
def Tx.outApply (t : Tx d0) (c : Nat) : Tx d0 :=
  let v := (t.f (R.NCO_OUT_CFG.DLY c), t.f (R.NCO_OUT_CFG.FS_TRIM c), t.f (R.NCO_OUT_CFG.MODE c))
  let t := t.wb (R.NCO_OUT_CFG.PENDING c) false
  let t := if (t.d.outCfg c).ripe then t.upd (.outCfg c { t.d.outCfg c with ripe := false }) else t
  if v = (t.d.outCfg c).force then t
  else (t.upd (.outCfg c { t.d.outCfg c with force := v })).settle c

/-- The run that held settings waited for is over, or will not come: they take effect on the tick after (R393). -/
def Tx.ripenHeld (t : Tx d0) : Tx d0 :=
  t.each (List.range 160) (fun c t => if t.b (R.NCO_OUT_CFG.PENDING c) then t.upd (.outCfg c { t.d.outCfg c with ripe := true }) else t)

end Sys2Proof.Machine
end

