-- ==== Sys2Proof/Machine/CalOps.lean ====
section
/-! DEFINITION. Coefficients (chapter 12), shared by the commands: factory items and Keep records, the set the part holds, the blocks in force at
their paths (R406), and which classes are pending or stale on which paths (R403, R410 to R431). -/
namespace Sys2Proof.Machine

variable {d0 : Device}

/-! Factory items (R496) -/

/-- The factory CAL body of a band: its first good copy. -/
def otpCal (band : Nat) : Option (List Byte) := (otpRecord (0x2000 + band * 0x4000) 0x4000).or (otpRecord (0x16000 + band * 0x4000) 0x4000)

/-- The factory set a band uses (R519): its own, or that of the nearest band with a good copy, the lower one on a tie. -/
def factoryCal (band : Nat) : List Byte :=
  let near := ((List.range 5).flatMap (fun k => (if k ≤ band then [band - k] else []) ++ (if band + k < 5 then [band + k] else []))).filterMap otpCal
  (near.head?).getD []

/-! Lane presets (R595 to R597) -/

/-- The lanes of a port. -/
def portLanes (p : Nat) : List Nat := if p = 8 then [0, 1, 2, 3] else [0, 1]

/-- Settings a lane block holds (R596). -/
def laneSetOf (b : List Byte) : LaneSet :=
  let s := fun (i : Nat) => signedOf 8 (b.getD i 0).toNat
  { ctle := (b.getD 0 0).toNat, gain := (b.getD 1 0).toNat, cursors := [s 2, s 3, s 4], precode := (b.getD 5 0).toNat != 0
    taps := (List.range 12).map (fun k => s (6 + k)) }

/-- The lane block of a lane (R596). -/
def LaneSet.block (x : LaneSet) (eye : Nat) : List Byte :=
  let s : Int → Byte := fun v => BitVec.ofNat 8 (patternOf 8 v)
  [BitVec.ofNat 8 x.ctle, BitVec.ofNat 8 x.gain] ++ (List.range 3).map (fun i => s (x.cursors.getD i 0)) ++ [BitVec.ofNat 8 x.precode.toNat] ++
    (List.range 12).map (fun i => s (x.taps.getD i 0)) ++ [BitVec.ofNat 8 eye] ++ List.replicate 13 (0 : Byte)

/-- Port and lane of a lane block. -/
def blockLane (i : Nat) : Nat × Nat := if i < 16 then (i / 2, i % 2) else (8, i - 16)

/-- The lane-preset body of the present band. -/
def Device.laneBody (d : Device) : List Byte :=
  let inServ := fun (i : Nat) => d.b (R.FAB_PORT_STAT.IN_SERVICE (blockLane i).1)
  let valid := (List.range 20).foldl (fun v i => if inServ i then v + 2 ^ i else v) 0
  [1, BitVec.ofNat 8 (d.f R.THM_STAT.BAND), 20, 0] ++ leBytes 4 valid ++ List.replicate 8 (0 : Byte) ++
    (List.range 20).flatMap (fun i =>
      let (p, l) := blockLane i
      (d.lane (4 * p + l)).set.block (d.f (R.LNK_LANE_STAT.EYE_W p l)))

/-- The Watch commits the band's lane presets, 600 s or more after it last did (R597). -/
def Tx.lanePresets (t : Tx d0) : Tx d0 :=
  let band := t.f R.THM_STAT.BAND
  let now := t.d.age
  let old := match t.d.calib.presets.getD band none with
    | some c => decide (c + 1200000000000 ≤ now)
    | none => true
  if !old then t
  else match t.stage 1 (0x10 + band) t.d.laneBody with
    | (true, t) =>
      let t := t.modCalib (fun c => { c with presets := c.presets.set band (some now) })
      t.each (List.range 9) (fun p t => if (t.d.portUp p).factory then t.modPortUp p (fun x => { x with factory := false }) else t)
    | (false, t) => t

/-- The factory lane-preset record of all bands: its first good copy, or copy A's bytes where neither is good. -/
def factoryLanes : List Byte := ((otpRecord 0x2A000 0x1000).or (otpRecord 0x2B000 0x1000)).getD (otpBytes 0x2A010 3280)

/-- What FACTORY loads into lane block `i` in the present band (R595): transmit equaliser and CTLE of the factory record, gain at mid-scale, which is
128, and no taps. -/
def Device.factoryLane (d : Device) (i : Nat) : LaneSet :=
  let x := laneSetOf ((factoryLanes.drop (656 * d.f R.THM_STAT.BAND + 16 + 32 * i)).take 32)
  { x with gain := 128, precode := false, taps := List.replicate 12 0 }

/-- What a bring-up loads into a lane, and the code of its source (R595): 3 WARM, 1 KEEP, 2 FACTORY. -/
def Device.lanePreset (d : Device) (p l : Nat) : LaneSet × Nat :=
  let band := d.f R.THM_STAT.BAND
  let ext := d.b (R.LNK_PORT_CTL.EXTENDED p)
  let i := if p = 8 then 16 + l else 2 * p + l
  let live := if d.keep.wear = 2 then none else (d.live 1 (0x10 + band)).filter (fun r => (leNat ((r.body.drop 4).take 4)).testBit i)
  if !ext && (d.portUp p).warm = some band then ((d.lane (4 * p + l)).kept, 3)
  else match ext, live with
    | false, some r => (laneSetOf ((r.body.drop (16 + 32 * i)).take 32), 1)
    | _, _ => (d.factoryLane i, 2)

/-! Records and blocks (R427, R428) -/

/-- A CAL body is valid for a band. -/
def calValid (band : Nat) (b : List Byte) : Bool :=
  (b.getD 0 0).toNat == 1 && (b.getD 1 0).toNat == band && (b.getD 2 0).toNat % 128 == 127

/-- The valid CAL record of the Keep for a band, if there is one; none is used in the failed state (R518). -/
def Device.keepCal (d : Device) (band : Nat) : Option KRec :=
  if d.keep.wear = 2 then none else (d.live 1 band).filter (fun r => calValid band r.body)

/-- Show the bands for which the Keep holds a valid record. -/
def Tx.showCalSrc (t : Tx d0) : Tx d0 :=
  t.w R.CAL_SRC.VALID ((List.range 5).foldl (fun v b => if (t.d.keepCal b).isSome then v + 2 ^ b else v) 0)

/-- Offset and length of a block in a CAL body: ADC path t at t, RF output c at 32 + c, flux output c at 192 + c, CAL of trigger input k at
448 + k and of ADC path t at 456 + t. -/
def calBlock (k : Nat) : Nat × Nat :=
  if k < 32 then (64 + 64 * k, 64) else if k < 192 then (2112 + 64 * (k - 32), 64)
  else if k < 448 then (12352 + 8 * (k - 192), 8) else (14464 + 2 * (k - 448), 2)

/-- The blocks that an engine's safe points apply (R406): A the RF outputs of its tile, B its ADC path with its CAL and its flux outputs. -/
def engineBlocks (e : Nat) : List Nat :=
  if e % 2 = 0 then (List.range 5).map (fun i => 32 + 5 * (e / 2) + i)
  else e / 2 :: (456 + e / 2) :: (List.range 8).map (fun i => 192 + 8 * (e / 2) + i)

/-- Every block. -/
def allBlocks : List Nat := List.range 488

/-! Classes and paths -/

def calKey (cls path : Nat) : Nat := 512 * cls + path

/-- Paths of a class: ADC inputs, RF outputs, flux outputs, or the device as one. -/
def calPathsOf (cls : Nat) : Nat := if cls = 0 || cls = 3 then 32 else if cls = 1 || cls = 4 || cls = 5 then 160 else if cls = 2 then 256 else 1

/-- Tile of a path. -/
def calTile (cls path : Nat) : Nat := if cls = 0 || cls = 3 then path else if cls = 2 then path / 8 else if cls = 1 || cls = 4 || cls = 5 then path / 5 else 0

/-- A path of a class is powered; TIN_SKEW is the device's as one. -/
def Device.pathOn (d : Device) (cls path : Nat) : Bool := cls == 6 || d.tileOn (calTile cls path)

/-- Bytes of a CAL body that a class corrects on a path, as offset and length (R403, R427). -/
def classBytes (cls path : Nat) : Nat × Nat :=
  match cls with
  | 0 => (64 + 64 * path, 24)
  | 1 => (2112 + 64 * path, 16)
  | 2 => (12352 + 8 * path, 8)
  | 3 => (88 + 64 * path, 32)
  | 4 => (2128 + 64 * path, 34)
  | _ => (2162 + 64 * path, 2)

/-- The block that holds them. -/
def classBlock (cls path : Nat) : Nat := if cls = 0 || cls = 3 then path else if cls = 2 then 192 + path else 32 + path

/-- Show which classes are pending, and which are stopped, on at least one path. -/
def Tx.showCal (t : Tx d0) : Tx d0 :=
  let mask := fun (g : CalPath → Bool) => (List.range 8).foldl (fun v c => if t.d.calPaths.any (fun x => x.1 / 512 == c && g x.2) then v + 2 ^ c else v) 0
  (t.w R.CAL_STAT.PEND_TEMP (mask CalPath.pend)).w R.CAL_STAT.STALE (mask CalPath.stale)

/-- A temperature-triggered class becomes pending on a path (R410). -/
def Tx.calPend (t : Tx d0) (cls path : Nat) : Tx d0 :=
  let now := t.d.calib.runTicks
  t.modCalPath (calKey cls path) (fun x => if x.pend then x else { x with pend := true, since := now, step := 0, rej := 0 })

/-- A class becomes pending on a path anew: it starts from its first step, once a step of it under way has ended (R432). -/
def Tx.calRenew (t : Tx d0) (cls path : Nat) : Tx d0 :=
  if t.d.calib.steps.any (fun s => s.1 == cls && s.2.1 == path) then
    t.modCalPath (calKey cls path) (fun x => { x with again := true })
  else (t.modCalPath (calKey cls path) (fun x => { x with step := 0, rej := 0 })).calPend cls path

/-- Every temperature-triggered class becomes pending on every path (R416, R431). -/
def Tx.calPendAll (t : Tx d0) : Tx d0 :=
  (t.each [3, 4, 5] (fun cls t => t.each (List.range (calPathsOf cls)) (fun p t => t.calRenew cls p))).showCal

/-! Steps under way (R412 to R415) -/

/-- Duration of a step of a class, in ticks. -/
def calDuration (cls : Nat) : Nat := if cls = 3 then 1800 else if cls = 4 then 1600 else if cls = 5 then 800 else 4000000

/-- Steps of a class on one path. -/
def calSteps (cls : Nat) : Nat := if cls = 3 || cls = 4 then 8 else 1

/-- A step still runs: its path is switched to its stimulus, up to the tick after its duration (R413). -/
def Device.stepOn (d : Device) (s : Nat × Nat × Nat) : Bool := d.age < s.2.2 + calDuration s.1

/-- An RF output that a step mutes (R413). -/
def Device.stepMuted (d : Device) (c : Nat) : Bool := d.calib.steps.any (fun s => (s.1 == 4 || s.1 == 5) && s.2.1 == c && d.stepOn s)

/-- The ADC samples that the comb of a step replaces, the first and one past the last. -/
def Device.stepSamples (d : Device) (s : Nat × Nat × Nat) : Nat × Nat :=
  let from' := d.now.toNat - (d.age - s.2.2)
  (4 * from', 4 * (from' + calDuration s.1))

/-- Steps go: those of an ADC path leave behind which samples the comb replaced, as far as a capture or a window can reach back; a class that was to
start afresh does. -/
def Tx.dropSteps (t : Tx d0) (p : Nat × Nat × Nat → Bool) : Tx d0 :=
  let now := 4 * t.now.toNat
  let gone := t.d.calib.steps.filter p
  let t := t.modCalib (fun c => { c with steps := c.steps.filter (fun s => !p s) })
  t.each gone (fun s t =>
    let (a, b) := t.d.stepSamples s
    let t := if s.1 = 3 then t.modTile s.2.1 (fun x => { x with combs := x.combs.filter (fun c => now < c.2 + 2 ^ 27) ++ [(a, min b now)] }) else t
    let k := calKey s.1 s.2.1
    if (t.d.calPath k).again then
      (t.modCalPath k (fun x => { x with again := false, step := 0, rej := 0 })).calPend s.1 s.2.1
    else t)

/-- Samples of a tile's ADC may have been replaced by a comb. -/
def Device.combed (d : Device) (tl : Nat) : Bool := !(d.tile tl).combs.isEmpty || d.calib.steps.any (fun s => s.1 == 3 && s.2.1 == tl)

/-- An ADC sample of a tile is one of the comb. -/
def Device.combAt (d : Device) (tl n : Nat) : Bool :=
  ((d.tile tl).combs ++ (d.calib.steps.filter (fun s => s.1 == 3 && s.2.1 == tl)).map d.stepSamples).any (fun c => c.1 ≤ n && n < c.2)

/-- What the units of a tile see of the ADC samples from sample `first` on (R413): those of a comb, whose codes are open, in place of the input's. -/
def Tx.seen (t : Tx d0) (tl first : Nat) (xs : List Int) : List Int × Tx d0 :=
  if t.d.combed tl then
    let (v, t) := t.open
    (xs.zipIdx.map (fun (x, k) => if t.d.combAt tl (first + k) then signedOf 12 (v / 4096 ^ k % 4096) else x), t)
  else (xs, t)

/-- A gap that permits a class begins for the paths of an engine: they are not starved of gaps (R417). -/
def Tx.gapBegins (t : Tx d0) (e : Nat) (mask : Nat) : Tx d0 :=
  let now := t.d.calib.runTicks
  t.each (if e % 2 = 1 then [3] else [4, 5]) (fun cls t =>
    if mask.testBit cls then
      t.each (if cls = 3 then [e / 2] else (List.range 5).map (fun i => 5 * (e / 2) + i)) (fun p t =>
        if (t.d.calPath (calKey cls p)).pend then t.modCalPath (calKey cls p) (fun x => { x with since := now }) else t)
    else t)

/-! The set and its application points (R406, R408, R416, R422, R431) -/

/-- What the coefficient lines of the state SRAM hold (R456): the set held for the present band, and after its 14,592 bytes the coefficients in force at
the paths, at the same places of a second body. -/
def Device.coefData (d : Device) : List Byte :=
  let put := fun (l : List Byte) (a : Nat) (bs : List Byte) => l.take a ++ bs ++ l.drop (a + bs.length)
  (d.calib.body ++ List.replicate 14592 0).take 14592 ++
    d.calForce.foldl (fun l c => put l (calBlock c.1).1 c.2) (List.replicate 14592 0)

/-- Coefficient lines that hold a part of bytes `a` to `a + n` of those data: a layout of the part's own decides (DESIGN CHOICE, log 245). -/
def coefLines (a n : Nat) : List Nat :=
  ((List.range 8192).map (fun l => classBase 3 0 + 40960 + l)).filter (fun l =>
    (List.range 64).any (fun i => let p := Config.coefPlace (64 * l + i); decide (a ≤ p) && decide (p < a + n)))

/-- Bytes of the coefficient data have changed: the lines that hold them are written. -/
def Tx.writeCoef (t : Tx d0) (a n : Nat) : Tx d0 :=
  let ls := coefLines a n
  (t.upd (.coef ls t.d.coefData)).upd (.wback (t.d.wback.filter (fun l => !ls.contains l)))

/-- Background estimates counted from the factory values of the band before are no longer compared with those to come (R425). -/
def Tx.dropEstimates (t : Tx d0) : Tx d0 :=
  t.each (t.d.calPaths.map Prod.fst) (fun n t =>
    if n / 512 < 3 then t.modCalPath n (fun x => { x with est := none, have' := none, goal := none }) else t)

/-- The set of a band comes to be held: every block is to reach its path, nothing has been applied or completed since, and no estimate counted
from the former factory values stands. Every coefficient line is written. -/
def Tx.loadSet (t : Tx d0) (body : List Byte) : Tx d0 :=
  let t := (t.modCalib (fun c => { c with body := body, due := allBlocks })).dropEstimates
  let lo := classBase 3 0 + 40960
  let t := t.upd (.fillLines lo (lo + 8192) (.coef t.d.coefData))
  let t := t.each (List.range 32) (fun tl t =>
    let t := (t.wb (R.CAL_ADC_Q.CONV tl) false).wb (R.CAL_ADC_Q.FLAT_VALID tl) false
    let t := t.each (List.range 5) (fun i t =>
      let c := 5 * tl + i
      ((t.wb (R.CAL_DAC_Q.CONV c) false).wb (R.CAL_DAC_Q.FLAT_VALID c) false).wb (R.CAL_DAC_Q.DELAY_VALID c) false)
    t.each (List.range 8) (fun i t => t.wb (R.CAL_FLX_Q.CONV (8 * tl + i)) false))
  t

/-- The factory set of a band is used: where both its copies are bad that is reported (R519, R521). -/
def Tx.useFactory (t : Tx d0) (band : Nat) : Tx d0 :=
  if (otpCal band).isSome then t else (t.ev R.KEEP_EVT.OTP_BAD).fault 0x0F06 band

/-- The Watch reloads the coefficients: the valid Keep record of the present band, or the factory set (R431). -/
def Tx.reloadCal (t : Tx d0) : Tx d0 :=
  let band := t.f R.CAL_STAT.BAND
  let t := t.checkLive 1 band
  let t := match t.d.keepCal band with
    | some r => t.loadSet r.body
    | none => (t.useFactory band).loadSet (factoryCal band)
  (t.calPendAll).ev R.CAL_EVT.RELOAD

/-- A coefficient line with poison or an uncorrectable error. -/
def Device.coeffBad (d : Device) : Option Nat :=
  d.badLine (classBase 3 0 + 40960) (classBase 3 0 + 49152)

/-- A block reaches its path. -/
def Tx.forceBlock (t : Tx d0) (k : Nat) : Tx d0 :=
  let bs := (t.d.calib.body.drop (calBlock k).1).take (calBlock k).2
  let t := (t.upd (.calForce k bs)).writeCoef (14592 + (calBlock k).1) (calBlock k).2
  if k < 448 then t
  else if k < 456 then t.w (R.ACQ_TIN_SKEW.CAL (k - 448)) (leNat bs)
  else t.w (R.ACQ_SKEW_ADC.CAL (k - 456)) (leNat bs)

/-- An application point of some blocks: those that wait reach their paths. Coefficient lines are read for it; which line holds which block is open, so
a poisoned one among them is met, the Watch reloads the set, and it reaches the paths at the next application point (R431; DESIGN CHOICE, log 171). -/
def Tx.applyCal (t : Tx d0) (ks : List Nat) : Tx d0 :=
  let here := t.d.calib.due.filter ks.contains
  if here.isEmpty then t
  else match t.d.coeffBad with
    | some l => (t.readLine l 0 3).reloadCal
    | none => (t.each here (fun k t => t.forceBlock k)).modCalib (fun c => { c with due := c.due.filter (fun k => !ks.contains k) })

/-- A tick without a run is an application point of every path. -/
def Tx.applyIdle (t : Tx d0) : Tx d0 := if t.running then t else t.applyCal allBlocks

/-- The set of a band is loaded. -/
def Tx.loadCal (t : Tx d0) (body : List Byte) : Tx d0 := (t.loadSet body).applyIdle

/-- Bytes of the set change, which reach their path at the next application point. How the part forms coefficients from what it measures is open:
the bytes are free values. -/
def Tx.newBytes (t : Tx d0) (k a n : Nat) : Tx d0 :=
  let (v, t) := t.open
  (t.modCalib (fun c => { c with
    body := c.body.take a ++ leBytes n v ++ c.body.drop (a + n), due := if c.due.contains k then c.due else c.due ++ [k] })).writeCoef a n

/-- The coefficients of a class on a path change. -/
def Tx.newBlock (t : Tx d0) (cls path : Nat) : Tx d0 :=
  (t.newBytes (classBlock cls path) (classBytes cls path).1 (classBytes cls path).2).applyIdle

/-- How far an application point moves a quantity of a background class at most (R408), in the units of the class's quantities: ADC_IL 0.05 code,
0.002 dB and 10 fs; DAC_MATCH 0.002 dB; FLUX_TRIM 2 µV and 0.001 %. -/
def stepLimit (cls i : Nat) : Nat :=
  match cls with
  | 0 => if i % 3 = 0 then 5 else if i % 3 = 1 then 2 else 10
  | 1 => 2
  | _ => if i = 0 then 20 else 1

/-- A quantity moves towards its goal by no more than a limit. -/
def moveTo (lim : Nat) (x goal : Int) : Int := if x ≤ goal then min goal (x + lim) else max goal (x - lim)

/-- Where the coefficients of a path stand before any is known: the set's own, in units the spec does not relate to its bytes. -/
def Tx.standing (t : Tx d0) (n : Nat) : List Int × Tx d0 :=
  let (v, t) := t.open
  ((List.range n).map (fun i => signedOf 16 (v / 65536 ^ i % 65536)), t)

/-- An application point of a background class's path: its coefficients move a step towards the estimates that agreed (R408). Residuals are
estimates the spec gives no arithmetic for. -/
def Tx.bgMove (t : Tx d0) (cls path : Nat) : Tx d0 :=
  let k := calKey cls path
  match (t.d.calPath k).goal with
  | none => t
  | some g =>
    let (h, t) := match (t.d.calPath k).have' with
      | some h => (h, t)
      | none => t.standing (if cls = 0 then 12 else if cls = 1 then 1 else 2)
    let h' := h.zipIdx.map (fun (x, i) => match g[i]? with
      | some v => moveTo (stepLimit cls i) x v
      | none => x)
    let t := t.modCalPath k (fun x => { x with have' := some h', goal := if h'.take g.length == g then none else some g })
    let (v, t) := t.open
    let t := match cls with
      | 0 => t.wb (R.CAL_ADC_Q.CONV path) true
      | 1 => t.wb (R.CAL_DAC_Q.CONV path) true
      | _ => ((t.w (R.CAL_FLX_Q.OFFSET path) v).w (R.CAL_FLX_Q.GAIN path) (v / 65536)).wb (R.CAL_FLX_Q.CONV path) true
    if h' == h then t
    else t.newBytes (classBlock cls path) (classBytes cls path).1 (if cls = 2 && g.length = 1 then 4 else (classBytes cls path).2)

/-- The background paths that wait to move. -/
def Device.bgWaits (d : Device) : List Nat := (d.calPaths.filter (fun x => x.1 / 512 < 3 && x.2.goal.isSome && d.pathOn (x.1 / 512) (x.1 % 512))).map Prod.fst

/-- The background paths whose coefficients an engine's safe points apply. -/
def bgOf (e key : Nat) : Bool := calTile (key / 512) (key % 512) == e / 2 && (if e % 2 = 0 then key / 512 == 1 else key / 512 != 1)

/-- A safe point passed by an engine is an application point of its paths (R406). -/
def Tx.applySafe (t : Tx d0) (e : Nat) : Tx d0 :=
  let t := t.each (t.d.bgWaits.filter (bgOf e)) (fun k t => t.bgMove (k / 512) (k % 512))
  t.applyCal (engineBlocks e)

/-- A tick without a run: an application point of every path. -/
def Tx.applyTick (t : Tx d0) : Tx d0 :=
  if t.running then t
  else (t.each t.d.bgWaits (fun k t => t.bgMove (k / 512) (k % 512))).applyCal allBlocks

/-- Coefficients not yet applied are discarded: the set goes back to what is in force at the paths. -/
def Tx.dropDue (t : Tx d0) : Tx d0 :=
  (t.each t.d.calib.due (fun k t =>
    let (a, n) := calBlock k
    match t.d.calForce.find? (fun c => c.1 == k) with
    | some c => (t.modCalib (fun x => { x with body := x.body.take a ++ c.2 ++ x.body.drop (a + n) })).writeCoef a n
    | none => t)).modCalib (fun c => { c with due := [] })

/-- A foreground calibration ends before its time (R432, R446, R450). -/
def Tx.fgAbort (t : Tx d0) : Tx d0 :=
  if t.b R.CAL_STAT.FG_BUSY || t.b R.CAL_STAT.INITIAL then
    let t := if t.b R.CAL_STAT.FG_BUSY then t.w R.CAL_REQ_STAT.RESULT 4 else t
    let t := (t.wb R.CAL_STAT.FG_BUSY false).wb R.CAL_STAT.INITIAL false
    let t := t.dropSteps (fun _ => true)
    let t := t.each (t.d.calPaths.map Prod.fst) (fun n t => t.modCalPath n (fun x => { x with fg := false }))
    (t.dropDue).modCalib (fun c => { c with req := 0, wait := false })
  else t

/-- Readings a sensor has given, newest first. -/
def Device.readings (d : Device) (i : Nat) : List Int := d.thermal.hist.getD i []

/-- A reading lies outside −40 °C to 150 °C. -/
def outOfRange (v : Int) : Bool := v < -640 || 2400 < v

/-- A sensor must be faulted (R436): a reading out of range, or 16 samples in a row more than 25 °C off the others. -/
def Device.sensorBad (d : Device) (i : Nat) : Bool := ((d.readings i).head?).any outOfRange || 16 ≤ d.thermal.dev.getD i 0

/-- The sensor that serves a tile (R434, R436). -/
def Device.tileSensor (d : Device) (tl : Nat) : Nat :=
  let s := 2 * (tl / 8) + tl % 8 / 4
  if d.b (R.THM_SENS.FAULT s) || d.sensorBad s then s / 2 * 2 + (1 - s % 2) else s

/-- A reading of a sensor, in sixteenths of a degree. -/
def Device.sensorTemp (d : Device) (i : Nat) : Int := signedOf 16 (d.f (R.THM_SENS.TEMP i))

/-- Tj of a path's tile sensor. -/
def Device.pathTemp (d : Device) (cls path : Nat) : Int := d.sensorTemp (d.tileSensor (calTile cls path))

/-- TDIFF of a path's class (R411): 0 while TREF is not valid; a quarter degree per step, rounded down, and held within eight bits. -/
def Device.tdiff (d : Device) (cls path : Nat) : Nat :=
  match (d.calPath (calKey cls path)).tref with
  | none => 0
  | some r => patternOf 8 (max (-128) (min 127 ((d.pathTemp cls path - r) / 4)))

/-- Show TDIFF of a tile's paths. -/
def Tx.showTdiff (t : Tx d0) (tl : Nat) : Tx d0 :=
  let t := t.w (R.CAL_ADC_Q.TDIFF tl) (t.d.tdiff 3 tl)
  t.each (List.range 5) (fun i t => t.w (R.CAL_DAC_Q.TDIFF (5 * tl + i)) (t.d.tdiff 4 (5 * tl + i)))

/-- Show how long ago the classes of a tile last completed: ADC_FLAT, and of DAC_FLAT the oldest completion. -/
def Tx.showAge (t : Tx d0) (tl : Nat) : Tx d0 :=
  let age := t.d.age
  let secs := fun (l : Option Nat) => match l with
    | some l => min 0xFFFF ((age - l) / 2000000000)
    | none => 0
  let t := t.w (R.CAL_AGE.ADC tl) (secs (t.d.calPath (calKey 3 tl)).last)
  t.w (R.CAL_AGE.DAC tl) ((List.range 5).foldl (fun m i => max m (secs (t.d.calPath (calKey 4 (5 * tl + i))).last)) 0)

/-! The record (R427 to R429) -/

/-- The body the Watch commits for the present band (R427). -/
def Device.calBody (d : Device) : List Byte :=
  let band := d.f R.CAL_STAT.BAND
  let ts := d.calPaths.filterMap (fun x => if x.2.last.isSome then x.2.tref else none)
  let tj : Int := if ts.isEmpty then 0 else ts.foldl (· + ·) 0 / (ts.length : Int)
  [1, BitVec.ofNat 8 band, 0x7F, 0] ++ leBytes 2 (patternOf 16 tj) ++ [0, 0] ++ leBytes 4 (d.keep.life.getD 0 0) ++
    leBytes 4 (((d.keepCal band).map KRec.seq).getD 0) ++ List.replicate 48 0 ++ (d.calib.body.drop 64).take 14528

/-- The Watch stages the band's record, and with it the lane presets (R597); the answer says whether the Keep took it. -/
def Tx.calStage (t : Tx d0) : Bool × Tx d0 :=
  let band := t.f R.CAL_STAT.BAND
  let now := t.d.age
  match t.stage 1 band t.d.calBody with
  | (true, t) => (true, (t.modCalib (fun c => { c with changed := c.changed &&& (31 ^^^ 2 ^ band), commits := c.commits.set band (some now) })).lanePresets)
  | (false, t) => (false, t)

/-- The band's record is due: a class of the band has completed since its last commit, which lies 600 s back, and no run is in progress (R429). -/
def Device.calDue (d : Device) : Bool :=
  d.calib.changed.testBit (d.f R.CAL_STAT.BAND) && !d.running &&
  (match d.calib.commits.getD (d.f R.CAL_STAT.BAND) none with
   | some c => decide (c + 1200000000000 ≤ d.age)
   | none => true)

/-- The Watch commits the band's record on the first tick on which it is due. -/
def Tx.calCommit (t : Tx d0) : Tx d0 := if t.d.calDue then t.calStage.2 else t

end Sys2Proof.Machine
end

