-- ==== Sys2Proof/Machine/Seq.lean ====
section
/-! DEFINITION. Events of the micro-sequencers (chapter 06): raising one, and which one a sequencer takes next. -/
namespace Sys2Proof.Machine

variable {d0 : Device}

/-- Priority of an event kind (R213). -/
def evPrio (code : Nat) : Nat :=
  if code = 1 || code = 2 then 3 else if 3 ≤ code && code ≤ 6 then 2 else if code = 7 then 1 else 0

/-- Entry point of an event's routine (R213). -/
def evEntry (code : Nat) : Nat :=
  match code with
  | 1 => 0x0A80
  | 2 => 0x0800
  | 3 => 0x0900
  | 4 => 0x0880
  | 5 => 0x0A00
  | 6 => 0x0980
  | 7 => 0x0100
  | 8 => 0x0B80
  | _ => 0x0B00

/-- A sequencer is halted (R218). -/
def Device.seqHalted (d : Device) (e : Nat) : Bool := d.f (R.ENG_STAT.SEQ_STATE e) == 2

/-- Priority at which an event's next attempt runs, and is chosen when its turn comes (R215, R238). -/
def SeqEvent.prio (x : SeqEvent) : Nat := if 4 ≤ x.tries then 3 else evPrio x.code

/-- An event of higher priority than the routine under way waits (R235): an event raised for its next attempt interrupts with its own priority only. -/
def Device.interrupted (d : Device) (e : Nat) (r : Routine) : Bool := (d.seq e).events.any (fun x => r.prio < evPrio x.code)

/-- Raise an event (R213). A halted sequencer discards it (R218), and after a VOID it discards the engine votes not ready, as its VOID routine does not
run (R217). 16 events of one priority wait at most, but for LINE_FILL, whose further lines the fill unit holds (R216): another event that finds
16 of its priority waiting is lost (DESIGN CHOICE, log 201). -/
def Tx.raise (t : Tx d0) (e code arg : Nat) : Tx d0 :=
  let q := (t.d.seq e).events
  if t.d.seqHalted e then (if code = 2 then t.modSeq e (fun s => { s with voidOpen := true }) else t)
  else if code ≠ 7 && 16 ≤ (q.filter (fun x => evPrio x.code == evPrio code)).length then t
  else t.modSeq e (fun s => { s with
    events := s.events ++ [{ code := code, arg := arg }], voidOpen := s.voidOpen || code == 2 })

/-- The Watch clamps every output, and each engine raises STOP (R213) where no STOP of it waits. -/
def Tx.watchClamp (t : Tx d0) (mask : Nat) : Tx d0 :=
  (t.clampAll mask).each (List.range 64) (fun e t =>
    if t.d.tileOn (e / 2) && !(t.d.seq e).events.any (fun x => x.code == 1) then t.raise e 1 t.now.toNat else t)

/-- The first event by R215: highest priority, then lowest code, then first to arrive. -/
def firstEvent (prio : SeqEvent → Nat) (q : List SeqEvent) : Option SeqEvent :=
  q.foldl (fun b x => match b with
    | none => some x
    | some y => if prio y < prio x || (prio y = prio x && x.code < y.code) then some x else some y) none

/-- The event a sequencer takes next (R215). -/
def nextEvent (q : List SeqEvent) : Option SeqEvent := firstEvent SeqEvent.prio q

/-- Cancel the LINE_FILL events of a SCHED block that still wait (R216). -/
def Tx.cancelFill (t : Tx d0) (e block : Nat) : Tx d0 :=
  t.modSeq e (fun s => { s with events := s.events.filter (fun x => !(x.code == 7 && x.arg == block)), fills := s.fills.filter (fun x => x.1 != block) })

/-- Show the routine under way in ENG_STAT. While the sequencer is idle SPACE and UPC stay as the last MICROWORD left them, and a routine that runs as a
whole does not move them (DESIGN CHOICE, log 205). -/
def Tx.showSeq (t : Tx d0) (e : Nat) : Tx d0 :=
  let s := t.d.seq e
  match s.routine with
  | none =>
    let t := if t.d.seqHalted e then t else t.w (R.ENG_STAT.SEQ_STATE e) 0
    (((t.w (R.ENG_STAT.PRIO e) 0).w (R.ENG_STAT.COMMITTED e) 0).w (R.ENG_STAT.EVENT e) 0).w (R.ENG_STAT.SHADOW e) 0
  | some r =>
    ((((((t.w (R.ENG_STAT.SEQ_STATE e) 1).w (R.ENG_STAT.PRIO e) r.prio).wb (R.ENG_STAT.COMMITTED e) r.committed).w
      (R.ENG_STAT.EVENT e) r.ev.code).w (R.ENG_STAT.SHADOW e) r.shadow.length).w (R.ENG_STAT.SPACE e) (s.upc / 2 ^ 14 % 2)).w
      (R.ENG_STAT.UPC e) (s.upc % 2 ^ 14)

/-! The patch set (R242 to R246) -/

/-- The match registers of every engine are cleared and the patch RAM is empty. -/
def Tx.dropPatches (t : Tx d0) : Tx d0 :=
  let t := t.each (List.range 64) (fun e t => t.each (List.range 32) (fun i t =>
    ((t.watchSet (R.ENG_MATCH.EN e i) 0).watchSet (R.ENG_MATCH.PADDR e i) 0).watchSet (R.ENG_MATCH.ROM_ADDR e i) 0))
  (((t.upd .dropPatch).watchSet R.ENG_PATCH_ID.ID 0).watchSet R.ENG_PATCH_STAT.WORDS 0).watchSet R.ENG_PATCH_STAT.LOADED 0

/-- The reason to refuse a patch set (R243): 1 two entries match one address, 2 a reserved bit, 3 too long; 0 none. Of several cases a failed check of the
section comes first, and then they come in this order (DESIGN CHOICE, log 204). -/
def patchRefuse (words matches' : List Nat) : Nat :=
  let on := (matches'.filter (fun m => m.testBit 31)).map (fun m => m % 2 ^ 14)
  if on.eraseDups.length ≠ on.length then 1
  else if words.any (fun w => bitsOf w 95 64 != 0) then 2
  else if 512 < words.length || 32 < matches'.length then 3
  else 0

/-- The patch set is put in force in all 64 engines. -/
def Tx.loadPatch (t : Tx d0) (id : Nat) (words matches' : List Nat) : Tx d0 :=
  let t := t.dropPatches
  let t := t.each words.zipIdx (fun (w, i) t => t.upd (.patch i w))
  let t := t.each (List.range 64) (fun e t => t.each matches'.zipIdx (fun (m, i) t =>
    ((t.watchSet (R.ENG_MATCH.EN e i) (m / 2 ^ 31)).watchSet (R.ENG_MATCH.PADDR e i) (bitsOf m 22 14)).watchSet (R.ENG_MATCH.ROM_ADDR e i) (m % 2 ^ 14)))
  ((t.watchSet R.ENG_PATCH_ID.ID id).watchSet R.ENG_PATCH_STAT.WORDS words.length).watchSet R.ENG_PATCH_STAT.LOADED 1

/-- The set that waits holds nothing: the slot has no patch set. -/
def noPatch (x : Nat × List Nat × List Nat × Nat) : Bool := x == (0, [], [], 0)

/-- The set that waits is loaded or refused where no run is in progress and every micro-sequencer is idle; a set that waits for a run to end is
PENDING (R242, R243). -/
def Tx.patchNow (t : Tx d0) : Tx d0 :=
  match t.d.patchWait with
  | none => t
  | some x =>
    if t.running || (List.range 64).any (fun e => (t.d.seq e).routine.isSome || t.d.seqHalted e) then
      t.watchSet R.ENG_PATCH_STAT.PENDING (t.running && !noPatch x).toNat
    else
      let (id, words, matches', why) := x
      let t := (t.upd (.patchWait none)).watchSet R.ENG_PATCH_STAT.PENDING 0
      let why := if why ≠ 0 then why else patchRefuse words matches'
      let bytes := if noPatch x || why ≠ 0 then [] else t.d.fw.offered
      let t := t.modFw (fun y => { y with force := bytes })
      if noPatch x then t.dropPatches
      else if why ≠ 0 then ((t.dropPatches).watchSet R.ENG_PATCH_STAT.REFUSED 1).watchSet R.ENG_PATCH_STAT.REASON why
      else ((t.loadPatch id words matches').watchSet R.ENG_PATCH_STAT.REFUSED 0).watchSet R.ENG_PATCH_STAT.REASON 0

/-! The pending queue (R206 to R209) -/

/-- The tick of a queued operation is known. -/
def QOp.fixed (q : QOp) : Bool := q.wait == 0

/-- The start tick of the segment being fetched is known. -/
def Fetch.fixed (f : Fetch) : Bool := f.wait == 0


/-- Put a list of operations in the pending queue of an engine and show its depth. -/
def Tx.setQueue (t : Tx d0) (e : Nat) (q : List QOp) : Tx d0 :=
  let t := (t.modEng e (fun x => { x with queue := q })).w (R.ENG_QUEUE.DEPTH e) q.length
  if t.f (R.ENG_QUEUE.MAX e) < q.length then t.w (R.ENG_QUEUE.MAX e) q.length else t

/-- The issue unit fetches from an operation on, whose segment starts on tick `base` (`fixed`), or at the safe point to come;
it begins on tick `start`, with fetch copies of the loop registers as they stand. -/
def Tx.fetchFrom (t : Tx d0) (e ptr base start : Nat) (fixed : Bool) : Tx d0 :=
  t.modEng e (fun x => { x with fetch := { ptr := ptr, base := base, wait := if fixed then 0 else 1, active := t.f (R.SCH_STAT.LOOP_ACTIVE e), left := x.left, stop := false, start := start } })

/-- A WAIT has met its event (R177): what was fetched for its timeout is dropped, and the segment at `ptr` starts on tick `b`. -/
def Tx.waitEnds (t : Tx d0) (e ptr b : Nat) : Tx d0 :=
  let t := t.modEng e (fun x => { x with waiting := x.waiting.map (fun w => { w with resume := some (BitVec.ofNat 64 b, ptr) }) })
  (t.setQueue e []).fetchFrom e ptr b t.now.toNat true

end Sys2Proof.Machine
end

