-- ==== Sys2Proof/Machine/Recs.lean ====
section
/-! DEFINITION. Records of the committed image: fields of a record, the records of the ACQ section, the WAVE directory, and a
consumer's read of a WAVE line with its end-to-end check (R129, R130, R259, R275, R284, R285, R305, R468, R478). -/
namespace Sys2Proof.Machine

variable {d0 : Device}

/-- Byte `i` of a record. -/
def rb (r : List Byte) (i : Nat) : Nat := (r.getD i 0).toNat

/-- The `n`-byte field at byte `i` of a record. -/
def rn (r : List Byte) (i n : Nat) : Nat := leNat ((r.drop i).take n)

/-- The same field as a signed value (R6). -/
def ri (r : List Byte) (i n : Nat) : Int := signedOf (8 * n) (rn r i n)

/-- A record with byte `i` replaced. -/
def setByte (r : List Byte) (i v : Nat) : List Byte := r.set i (BitVec.ofNat 8 v)

/-- Bytes of CXL memory. -/
def Device.cxlBytes (d : Device) (a n : Nat) : List Byte := d.cxl.read a n

def Device.cxlLe (d : Device) (a n : Nat) : Nat := leNat (d.cxlBytes a n)

/-! What the state SRAM copies of the committed image (R456, R468, R476) -/

/-- The bytes of the image tables, section after section. -/
def Device.tableBytes (d : Device) (im : Image) : List Byte := im.tabs.flatMap (fun s => d.cxlBytes (im.base + s.1) s.2)

/-- The address in CXL memory of the byte that the part keeps at byte `o` of the image-table region; none where the tables end before it. -/
def Image.tableAt (im : Image) (o : Nat) : Option Nat :=
  (im.tabs.foldl (fun (x : Option Nat × Nat) s =>
    if x.1.isSome then x else if x.2 < s.2 then (some (im.base + s.1 + x.2), 0) else (none, x.2 - s.2)) (none, Config.tablePlace o)).1

/-- Lines filled from poisoned lines of CXL memory are tagged CXL (R485). -/
def Tx.poisonLines (t : Tx d0) (ls : List Nat) : Tx d0 :=
  if ls.isEmpty then t else (t.each ls (fun l t => t.upd (.tag l 4))).ev R.ECC_EVT.CXL_POISON

/-- The image tables are copied from the image in force; in the lines a layout of the part's own decides where each byte stands. -/
def Tx.loadTables (t : Tx d0) (im : Image) : Tx d0 :=
  let lo := classBase 3 0 + 16384
  let t := t.upd (.fillLines lo (lo + 24576) (.copy (t.d.tableBytes im)))
  if (t.d.cxlBad.filter (fun c => im.base ≤ 64 * c.1 && 64 * c.1 < im.base + im.len)).isEmpty then t
  else t.poisonLines ((List.range 24576).filterMap (fun l =>
    if (List.range 64).any (fun i => (im.tableAt (64 * l + i)).any t.d.cxlPoison) then some (lo + l) else none))

/-- A line of the image tables is reloaded from the committed image. -/
def Tx.reloadTable (t : Tx d0) (l : Nat) : Tx d0 :=
  match t.d.img.act with
  | none => t.openFill l 1
  | some im =>
    let as := (List.range 64).map (fun i => im.tableAt (64 * (l - (classBase 3 0 + 16384)) + i))
    let bad := as.any (fun a => a.any t.d.cxlPoison)
    let t := (t.wrote l).upd (.lines l (as.map (fun a => (a.map t.d.cxl.get).getD 0)))
    t.poisonLines (if bad then [l] else [])

/-- A line of the image tables that carries a tag or holds an uncorrectable error is read, and reloaded from the committed image (R468). Which line holds
which table is open: a read meets any that is bad (DESIGN CHOICE, log 177). -/
def Tx.badTable (t : Tx d0) : Bool × Tx d0 :=
  match t.d.badLine (classBase 3 0 + 16384) (classBase 3 0 + 40960) with
  | none => (false, t)
  | some l => (true, (t.readLine l 0 4).reloadTable l)

/-- A tile reads the installed image tables (R456): where a line of them is poisoned its shot is voided (R468). -/
def Tx.readTables (t : Tx d0) (tl : Nat) : Tx d0 :=
  match t.badTable with
  | (false, t) => t
  | (true, t) => t.modEng (2 * tl + 1) (fun x => { x with voidDue := some t.now })

/-- The first ACQ record with a property. -/
def Device.acqRec (d : Device) (p : List Byte → Bool) : Option (List Byte) := d.img.act.bind (fun im => im.acq.find? p)

/-- The weight-set record of a tile, weight set and demodulator (R259). -/
def Device.weightRec (d : Device) (tl wset dm : Nat) : Option (List Byte) :=
  d.acqRec (fun r => rb r 0 == 0x10 && rb r 1 == tl && rn r 2 2 == wset && rb r 4 == dm)

/-- The TRIGGER record of a condition (R275). -/
def Device.trigRec (d : Device) (c : Nat) : Option (List Byte) := d.acqRec (fun r => rb r 0 == 3 && rb r 1 == c)

/-- The TILECFG record of a tile (R285). -/
def Device.tileCfg (d : Device) (tl : Nat) : Option (List Byte) := d.acqRec (fun r => rb r 0 == 4 && rb r 1 == tl)

/-- The CAPTURE or STREAM record that an ACQ names (R284, R305). -/
def Device.acqNamed (d : Device) (tl idx : Nat) : Option (List Byte) :=
  d.acqRec (fun r => (rb r 0 == 1 || rb r 0 == 2) && rb r 1 == tl && rn r 2 2 == idx)

/-- A directory entry of the WAVE section as an engine reads it: from the line it holds of it, else from the committed image. -/
def Device.waveEntry (d : Device) (im : Image) (e n : Nat) : List Byte :=
  match d.waveLine e (4 + n / 4) with
  | some l => d.sramBytes (64 * l + 16 * (n % 4)) 16
  | none => d.cxlBytes (im.base + im.waveOff + 256 + 16 * n) 16

/-- The directory entry of an envelope: its first block and its length; none where the number is not below N or the entry, as it stands now,
reaches beyond the data area (R130, R131). An entry altered to a length of 0, of which R131 does not speak, counts with them (DESIGN CHOICE, log 40). -/
def Device.envelope (d : Device) (e n : Nat) : Option (Nat × Nat) :=
  match d.img.act with
  | none => none
  | some im =>
    if im.envs.length ≤ n then none
    else
      let r := d.waveEntry im e n
      if rn r 4 4 = 0 || im.waveCnt < rn r 0 4 + (rn r 4 4 + 63) / 64 then none else some (rn r 0 4, rn r 4 4)

/-- The stored check value of a block of the committed image (R61). -/
def Device.checkValue (d : Device) (wave : Bool) (block : Nat) : Nat :=
  match d.img.act with
  | none => 0
  | some im =>
    if wave then d.cxlLe (im.base + im.waveOff + 256 * im.waveCnt + 4 * block) 4
    else d.cxlLe (im.base + im.schedOff + 256 * im.schedCnt + 4 * block) 4

/-- Key of a block of an engine in the counts of bad fetches and in the store of check values. -/
def blockKey (e : Nat) (wave : Bool) (b : Nat) : Nat := 2 ^ 25 * e + (if wave then 2 ^ 24 else 0) + b

/-- The check value of a block that is filled is copied into the store beside its memory (R478). -/
def Tx.keepCheck (t : Tx d0) (e : Nat) (wave : Bool) (b : Nat) : Tx d0 := t.upd (.chk (blockKey e wave b) (t.d.checkValue wave b, false))

/-- A block's bytes disagree with the check value copied at its fill, or that value's parity is in error (R478). -/
def Device.checkFails (d : Device) (e : Nat) (wave : Bool) (b : Nat) (bs : List Byte) : Bool :=
  let c := bget (fun _ => (0, false)) d.chks (blockKey e wave b)
  c.2 || crc32c bs != c.1

/-- The lines of a WAVE block that are resident for an engine, all four or none. -/
def Device.waveBlock (d : Device) (e b : Nat) : Option (List Nat) := (List.range 4).mapM (fun i => d.waveLine e (4 * b + i))

/-- A resident WAVE block agrees with its check value. A block with a tagged line is not compared. -/
def Device.waveGood (d : Device) (e b : Nat) : Bool :=
  match d.waveBlock e b with
  | none => true
  | some ls => ls.any (fun l => d.lineKind l ≠ 0) || !d.checkFails e true b (ls.flatMap (fun l => d.sramBytes (64 * l) 64))

/-- The check of a WAVE block is made: none of its lines carries a tag. -/
def Device.waveCompared (d : Device) (e b : Nat) : Bool := (d.waveBlock e b).any (fun ls => ls.all (fun l => d.lineKind l == 0))

/-- The mixers of engine A's PLAYs in progress keep where the lines of a block stand that is to be fetched again: what is not substituted plays as
stored (R140). -/
def Tx.keepLines (t : Tx d0) (e b : Nat) : Tx d0 :=
  if e % 2 = 1 then t
  else t.each (List.range 20) (fun k t =>
    let m := 20 * (e / 2) + k
    let x := t.d.mixer m
    if t.b (R.NCO_MIX_STAT.BUSY m) && x.first ≤ b && b < x.first + (x.len + 63) / 64 then
      let new := (List.range 4).filterMap (fun i => (t.d.waveLine e (4 * b + i)).map (fun l => (4 * (b - x.first) + i, l)))
      t.upd (.mixer m { x with kept := x.kept.filter (fun c => !new.any (fun n => n.1 == c.1)) ++ new })
    else t)

/-- Drop a WAVE block of an engine and fetch it again. -/
def Tx.refetchWave (t : Tx d0) (e b : Nat) : Tx d0 := ((t.keepLines e b).each (List.range 4) (fun i t => t.dropWave e (4 * b + i))).fetchBlock true b

/-- A block has been fetched or checked: poisoned and failed fetches in a row are counted; the answer says that this is the fourth (R469). -/
def Tx.countBad (t : Tx d0) (e : Nat) (wave : Bool) (b : Nat) (bad : Bool) : Bool × Tx d0 :=
  let k := blockKey e wave b
  let n := bget (fun _ => 0) t.d.badFetch k + 1
  if !bad then (false, t.upd (.badFetch k 0)) else if 4 ≤ n then (true, t.upd (.badFetch k 0)) else (false, t.upd (.badFetch k n))

/-- Tag a block that fails its check (R478): every line E2E, or CXL at the fourth failure in a row (R469); the mismatch is counted and logged. -/
def Tx.tagBlock (t : Tx d0) (ls : List Nat) (kind act : Nat) : Tx d0 :=
  let t := t.each ls (fun l t => t.tagLine l kind)
  match ls.head? with
  | none => t
  | some l =>
    let cls := match lineClass l with | some (c, _, _) => c | none => 0
    ((t.ev R.ECC_EVT.E2E_FAIL).inc (R.ECC_CNT.UE cls)).logEcc 3 0 l 0 0 act

/-- A consumer's read of a resident WAVE line (R468, R478): the kind it meets, 0 for none. The block's check is made at its
first line; a line of kind ECC and a block of kind E2E are invalidated and fetched again. -/
def Tx.readWave (t : Tx d0) (e n : Nat) : Nat × Tx d0 :=
  match t.d.waveLine e n with
  | none => (0, t)
  | some l =>
    let bad := n % 4 = 0 && !t.d.waveGood e (n / 4)
    let (fourth, t) := if n % 4 = 0 && t.d.waveCompared e (n / 4) then t.countBad e true (n / 4) bad else (false, t)
    let t := if bad then t.tagBlock ((t.d.waveBlock e (n / 4)).getD []) (if fourth then 4 else 3) 7 else t
    let k := t.d.lineKind l
    let t := if bad then t.ev R.ECC_EVT.UE_READ else t.readLine l 0 7
    (k, if k = 1 || k = 3 then t.refetchWave e (n / 4) else t)

/-- A consumer reads the line that holds directory entry `n` of the WAVE section, where it is resident: the kind it meets, 0 for none (R130, R468). -/
def Tx.readDir (t : Tx d0) (e n : Nat) : Nat × Tx d0 :=
  match t.d.img.act with
  | none => (0, t)
  | some im => if im.envs.length ≤ n then (0, t) else t.readWave e (4 + n / 4)

/-- The kind that a consumer meets on that line. -/
def Device.dirKind (d : Device) (e n : Nat) : Nat :=
  match d.img.act, d.waveLine e (4 + n / 4) with
  | some im, some l =>
    if im.envs.length ≤ n then 0 else if (4 + n / 4) % 4 = 0 && !d.waveGood e ((4 + n / 4) / 4) then 3 else d.lineKind l
  | _, _ => 0

/-- Word `i` of a resident WAVE line (16 words of 32 bits). -/
def Device.waveWord (d : Device) (e n i : Nat) : Nat :=
  match d.waveLine e n with
  | none => 0
  | some l => d.sramLe (64 * l + 4 * i) 4

/-! Status flags of a tile (R46), in the order of a result's FLAGS -/

def Tx.flagTile (t : Tx d0) (tl mask : Nat) : Tx d0 := if mask = 0 then t else t.upd (.flags tl (t.d.flagsOf tl ||| mask))

end Sys2Proof.Machine
end

