-- ==== Sys2Proof/Machine/Shots.lean ====
section
/-! DEFINITION. Shot records in record memory (R295 to R300): reservation, header, results and segments as they are written,
and when a record is ready to drain. -/
namespace Sys2Proof.Machine

variable {d0 : Device}

/-- The shot a tile is building. -/
def Device.curShot (d : Device) (tl : Nat) : Option Shot := (d.tile tl).shots.find? (fun s => !s.closed)

def Device.shotOf (d : Device) (tl id att : Nat) : Option Shot := (d.tile tl).shots.find? (fun s => s.id == id && s.attempt == att && !s.freed)

def Tx.modShot (t : Tx d0) (tl id att : Nat) (g : Shot → Shot) : Tx d0 :=
  t.modTile tl (fun x => { x with shots := x.shots.map (fun s => if s.id == id && s.attempt == att && !s.freed then g s else s) })

/-- Address in the SRAM space of a byte of a line of a tile's record memory, which is one ring of 16,384 lines. -/
def recAddr (tl line off : Nat) : Nat := (classBase 2 tl + line % 16384) * 64 + off

/-- Address of a line of a tile's header store. -/
def hsAddr (tl line : Nat) : Nat := (classBase 4 tl + line % 256) * 64

/-- Lines in use: from the oldest record not yet freed to the newest. -/
def Tile.usedLines (x : Tile) : Nat := x.shots.foldl (fun n s => n + s.lines) 0 + x.resv.getD 0

/-- Show the record memory's use (R310). -/
def Tx.showRec (t : Tx d0) (tl : Nat) : Tx d0 :=
  let u := (t.d.tile tl).usedLines
  let t := t.w (R.ACQ_RECMEM.FREE tl) (16384 - u)
  if t.f (R.ACQ_RECMEM.MAX_USED tl) < u then t.w (R.ACQ_RECMEM.MAX_USED tl) u else t

/-- Engine B of a tile reserves lines for the shot that starts at the safe point it votes on (R295); the answer says whether
it holds them. A tile with no TILECFG record needs none. -/
def Tx.reserve (t : Tx d0) (tl : Nat) : Bool × Tx d0 :=
  match t.d.tileCfg tl with
  | none => (true, t)
  | some r =>
    let n := rn r 4 4
    let t := t.readTables tl
    if (t.d.tile tl).resv.isSome then (true, t)
    else if 16384 < (t.d.tile tl).usedLines + n then (false, t.ev (R.ACQ_EVT.REC_FULL tl))
    else (true, (t.modTile tl (fun x => { x with resv := some n })).showRec tl)

/-- Lines a record takes with `n` results and `seg` segment lines in the layout of R297. -/
def recordLines (n seg : Nat) : Nat := ((32 + 16 * n + 63) / 64 + seg + 3) / 4 * 4

def Seg.lines (g : Seg) : Nat := 1 + (g.samples.length + 63) / 64

def Shot.segLines (s : Shot) : Nat := s.segs.foldl (fun n g => n + g.lines) 0

/-- Length in bytes of the record as it drains. -/
def Shot.length (s : Shot) : Nat := 64 * recordLines s.results.length s.segLines

/-- Flags that a fork or a void sets for the shot as a whole, and that each of its results then carries (R168, R195). -/
def shotWide : Nat := 0x58

/-- The shot header (R298). -/
def Shot.header (s : Shot) (tl : Nat) : List Byte :=
  [1, BitVec.ofNat 8 tl] ++ leBytes 2 s.results.length ++ leBytes 2 s.segs.length ++
  [BitVec.ofNat 8 s.flags, BitVec.ofNat 8 s.hflags] ++ leBytes 8 s.b0 ++ leBytes 8 s.id ++ leBytes 4 s.length ++
  [BitVec.ofNat 8 s.attempt, 0, 0, 0]

/-- Write a shot's header to record memory and to the header store. -/
def Tx.putHeader (t : Tx d0) (tl id att : Nat) : Tx d0 :=
  match t.d.shotOf tl id att with
  | none => t
  | some s => (t.writeBytes (recAddr tl s.base 0) (s.header tl)).writeBytes (hsAddr tl s.hs) (s.header tl)

/-- A tile starts a shot on its reserved lines (R186, R298); where engine B has reserved none, on the lines of a record that is its header alone. -/
def Tx.startShot (t : Tx d0) (tl num att : Nat) : Tx d0 :=
  let x := t.d.tile tl
  let id := num % 2 ^ 64 + 2 ^ 64 * x.serial
  let n := x.resv.getD (recordLines 0 0)
  let forced := (t.f (R.ACQ_FORCE.EN tl))
  let s : Shot := { id := id, attempt := att, b0 := t.now.toNat, base := x.alloc, lines := n, hs := x.hs, hflags := forced }
  let t := t.modTile tl (fun x => { x with
    shots := x.shots ++ [s], alloc := (x.alloc + n) % 16384, hs := (x.hs + 1) % 256, resv := none, serial := x.serial + 1 })
  ((t.writeLine (recAddr tl s.base 0 / 64) (List.replicate 64 0)).putHeader tl id att).showRec tl

/-- Put flags on the header and the written results of a shot; VOID also on its segments (R168, R195, R300). -/
def Tx.flagShot (t : Tx d0) (tl id att mask : Nat) : Tx d0 :=
  match t.d.shotOf tl id att with
  | none => t
  | some s =>
    let or8 := fun (r : List Byte) (i : Nat) => setByte r i (rb r i ||| mask)
    let t := t.modShot tl id att (fun s => { s with
      flags := s.flags ||| mask
      results := s.results.map (fun r => or8 r 10)
      segs := if mask &&& 0x40 = 0 then s.segs else s.segs.map (fun g => { g with header := or8 g.header 6 }) })
    let t := t.each s.results.zipIdx (fun (r, i) t =>
      t.writeBytes (recAddr tl (s.base + s.resLines.getD ((32 + 16 * i) / 64) 0) ((32 + 16 * i) % 64 + 10)) [BitVec.ofNat 8 (rb r 10 ||| mask)])
    let t := if mask &&& 0x40 = 0 then t else t.each s.segs (fun g t =>
      let b := [BitVec.ofNat 8 (rb g.header 6 ||| mask)]
      (t.writeBytes (recAddr tl (s.base + g.line) 6) b).writeBytes (hsAddr tl g.hs + 6) b)
    (t.putHeader tl id att).flagTile tl mask

/-- HFLAGS of the shot a tile is building. -/
def Tx.hflag (t : Tx d0) (tl mask : Nat) : Tx d0 :=
  match t.d.curShot tl with
  | none => t
  | some s => (t.modShot tl s.id s.attempt (fun s => { s with hflags := s.hflags ||| mask })).putHeader tl s.id s.attempt

/-- While ACQ_FORCE has EN 1 the header of the shot a tile is building carries FORCED (R292). -/
def Tx.noteForce (t : Tx d0) (tl : Nat) : Tx d0 := if t.b (R.ACQ_FORCE.EN tl) then t.hflag tl 1 else t

/-- The reservation would be exceeded (R296). -/
def Tx.resvOvf (t : Tx d0) (tl id att : Nat) : Tx d0 :=
  ((t.modShot tl id att (fun s => { s with hflags := s.hflags ||| 4 })).putHeader tl id att).ev (R.ACQ_EVT.RESV_OVF tl)

/-- Write one result to its shot's record (R296, R297). -/
def Tx.writeResult (t : Tx d0) (tl id att : Nat) (r : List Byte) : Tx d0 :=
  match t.d.shotOf tl id att with
  | none => t
  | some s =>
    let n := s.results.length
    let t := t.modShot tl id att (fun s => { s with owed := s.owed - 1 })
    if s.lines < recordLines (n + 1) s.segLines then t.resvOvf tl id att
    else
      let pos := 32 + 16 * n
      let r := setByte r 10 (rb r 10 ||| (s.flags &&& shotWide))
      let fresh := pos % 64 = 0
      let line := if fresh then s.used else s.resLines.getD (pos / 64) 0
      let t := t.modShot tl id att (fun s => { s with
        results := s.results ++ [r], flags := s.flags ||| rb r 10
        used := if fresh then s.used + 1 else s.used
        resLines := if fresh then s.resLines ++ [s.used] else s.resLines })
      let t := if fresh then t.writeLine (recAddr tl (s.base + line) 0 / 64) (List.replicate 64 0) else t
      ((t.writeBytes (recAddr tl (s.base + line) (pos % 64)) r).putHeader tl id att).flagTile tl (rb r 10 &&& 0x7F)

/-- Write one capture segment to its shot's record; the answer says whether it was written (R291, R296, R299). -/
def Tx.writeSeg (t : Tx d0) (tl id att : Nat) (header samples : List Byte) : Bool × Tx d0 :=
  match t.d.shotOf tl id att with
  | none => (false, t)
  | some s =>
    let pad := List.replicate ((64 - samples.length % 64) % 64) (0 : Byte)
    let g : Seg := { header := setByte header 6 (rb header 6 ||| (s.flags &&& 0x40)), samples := samples ++ pad, line := s.used, hs := (t.d.tile tl).hs }
    let t := t.modShot tl id att (fun s => { s with owed := s.owed - 1 })
    if s.lines < recordLines s.results.length (s.segLines + g.lines) then (false, t.resvOvf tl id att)
    else
      let t := t.modTile tl (fun x => { x with hs := (x.hs + 1) % 256 })
      let t := t.modShot tl id att (fun s => { s with
        segs := s.segs ++ [g], used := s.used + g.lines, flags := s.flags ||| rb g.header 6 })
      let t := (t.writeBytes (recAddr tl (s.base + g.line) 0) g.header).writeBytes (hsAddr tl g.hs) g.header
      let t := t.each (List.range (g.lines - 1)) (fun i t =>
        t.writeLine (recAddr tl (s.base + g.line + 1 + i) 0 / 64) ((g.samples.drop (64 * i)).take 64))
      (true, (t.putHeader tl id att).flagTile tl (rb g.header 6 &&& 0x7F))

/-- Put into the drain the closed shots of a tile of which nothing is still to come (R169, R256, R291, R302): in the order
in which they become ready, those of one tick by ascending tile. -/
def Tx.tryReady (t : Tx d0) (tl : Nat) : Tx d0 :=
  let x := t.d.tile tl
  let done := x.shots.filter (fun s => s.closed && s.ready.isNone && s.owed = 0 && !s.freed &&
    !x.wq.any (fun q => q.1 == s.id && q.2.1 == s.attempt))
  t.each done (fun s t =>
    let now := t.now.toNat
    let t := t.modShot tl s.id s.attempt (fun s => { s with ready := some now })
    let later := fun (q : Nat × Nat × Nat) => (t.d.shotOf q.1 q.2.1 q.2.2).any (fun r => r.ready == some now) && tl < q.1
    let q := t.d.drainQ
    t.upd (.drainQ (q.filter (fun c => !later c) ++ [(tl, s.id, s.attempt)] ++ q.filter later)))

/-- The shot of a tile is over (R169). -/
def Tx.closeShot (t : Tx d0) (tl : Nat) : Tx d0 :=
  match t.d.curShot tl with
  | none => t
  | some s => (t.modShot tl s.id s.attempt (fun s => { s with closed := true })).tryReady tl

/-- Free the lines of a shot (R301): those at the old end of the ring become free again. -/
def Tx.freeShot (t : Tx d0) (tl id att : Nat) : Tx d0 :=
  let t := t.modShot tl id att (fun s => { s with freed := true })
  (t.modTile tl (fun x => { x with shots := x.shots.dropWhile (fun s => s.freed) })).showRec tl

end Sys2Proof.Machine
end

