-- ==== Sys2Proof/Machine/Tree.lean ====
section
/-! DEFINITION. The tree of units (chapter 01): names and levels (R25 to R36), parents and children under a STRUCT section, and the ports
that a port of a unit stands for (R26). A tree names this device and its quadrants with the LEVEL that R27 gives them. -/
namespace Sys2Proof.Machine

/-! Names -/

def nameLevel (n : Nat) : Nat := n / 2 ^ 13 % 8
def nameDev (n : Nat) : Nat := n / 2 ^ 16
def nameIndex (n : Nat) : Nat := n % 2 ^ 13

/-- "No unit" (R30). -/
def noUnit : Nat := 0xFFFF

def tileName (dev tl : Nat) : Nat := dev * 2 ^ 16 + 0x2000 + tl
/-- The name of a unit of a device, by level and index. -/
def unitName (dev level idx : Nat) : Nat := dev * 2 ^ 16 + level * 2 ^ 13 + idx
def quadName (dev q : Nat) : Nat := unitName dev 2 q
def devName (dev : Nat) : Nat := unitName dev 3 dev

/-- Unit name of a channel slot of a tile. -/
def chanName (dev tl slot : Nat) : Nat := dev * 2 ^ 16 + tl * 32 + slot

/-- A unit name is a reserved encoding (R30, R31). -/
def nameReserved (n : Nat) : Bool :=
  (64 ≤ nameDev n && nameDev n ≤ 254) ||
    (n % 2 ^ 16 != 0xFFFF && (nameLevel n == 7 || (nameLevel n == 0 && (1024 ≤ nameIndex n || 15 ≤ n % 32))))

/-- A name that names a unit: no reserved encoding and not "no unit". -/
def nameOk (n : Nat) : Bool := !nameReserved n && n % 2 ^ 16 != 0xFFFF

/-- A STRUCT section with the number of its device, the name of its Cupola, the twin that the Cupola holds beside this device where no record names
one (`noUnit`: none), and the names that its device and its quadrants have in it (R27). -/
structure Tree where
  recs : List (List Byte) := []
  dev : Nat := 0
  cup : Nat := noUnit
  peer : Nat := noUnit
  self : Nat := devName dev
  quads : List Nat := (List.range 4).map (quadName dev)
  deriving DecidableEq, Repr

/-- The device that the PORT record of the twin link names, with the LEVEL of its twin, for a Cupola that SELF alone names (R33, R634; DESIGN CHOICE,
log 194). -/
def twinName (recs fabric : List (List Byte)) (cup level : Nat) : Nat :=
  match fabric.find? (fun r => rb r 0 == 1 && rb r 1 == 1) with
  | none => noUnit
  | some r => if cup = noUnit || recs.any (fun x => rb x 0 == 1 && rn x 2 3 == cup) || 63 < rb r 3 then noUnit else unitName (rb r 3) level (rb r 3)

/-- The tree of a STRUCT section whose device stands at one level and whose quadrants stand at others. Where the device has the name that a quadrant
would have, the quadrant goes by none: it must be empty. -/
def Tree.ofLevels (recs fabric : List (List Byte)) (dev cup level : Nat) (qs : List Nat) : Tree :=
  let self := unitName dev level dev
  { recs := recs, dev := dev, cup := cup, peer := twinName recs fabric cup level, self := self
    quads := (List.range 4).map (fun q => let n := unitName dev (qs.getD q 2) q; if n = self then 2 ^ 24 + n else n) }

/-- The name of quadrant `q` of this device. -/
def Tree.quad (t : Tree) (q : Nat) : Nat := t.quads.getD q noUnit

def Tree.groups (t : Tree) : List (List Byte) := t.recs.filter (fun r => rb r 0 == 1)
def Tree.memberRecs (t : Tree) : List (List Byte) := t.recs.filter (fun r => rb r 0 == 2)

/-! Kinds of units -/

def Tree.isTile (t : Tree) (n : Nat) : Bool := nameDev n == t.dev && nameLevel n == 1 && nameIndex n < 32
def Tree.isQuad (t : Tree) (n : Nat) : Bool := t.quads.contains n
def Tree.isDev (t : Tree) (n : Nat) : Bool := n == t.self
def Tree.known (t : Tree) (n : Nat) : Bool := t.isDev n || t.isQuad n

/-- A group that a GROUP record defines. -/
def Tree.isGroup (t : Tree) (n : Nat) : Bool := !t.known n && t.groups.any (fun r => rn r 2 3 == n)

/-- A whole device other than this one, of the LEVEL that its name carries (R27). -/
def Tree.isOther (t : Tree) (n : Nat) : Bool :=
  nameDev n < 64 && nameDev n != t.dev && 2 ≤ nameLevel n && nameLevel n ≤ 6 && nameIndex n == nameDev n && !t.isGroup n

/-- A unit that this tree describes: a group, a quadrant, this device, or the Cupola that SELF names. -/
def Tree.described (t : Tree) (n : Nat) : Bool := t.known n || t.isGroup n || (n == t.cup && t.cup != noUnit)

/-! Parents and children -/

/-- The parent of a unit: as a MEMBER or GROUP record gives it, else that of the default tree (R41). -/
def Tree.parent (t : Tree) (n : Nat) : Option Nat :=
  match t.memberRecs.find? (fun r => rn r 6 3 == n) with
  | some r => some (rn r 2 3)
  | none =>
    match t.groups.find? (fun r => rn r 2 3 == n) with
    | some r => if rn r 6 3 = noUnit then none else some (rn r 6 3)
    | none =>
      if t.isQuad n then some t.self
      else if nameDev n ≠ t.dev then (if n = t.peer && t.peer ≠ noUnit then some t.cup else none)
      else if nameLevel n = 0 then some (tileName t.dev (n / 32 % 32))
      else if nameLevel n = 1 then some (t.quad (nameIndex n / 8))
      else if t.isDev n && t.cup ≠ noUnit then some t.cup
      else none

/-- Every unit but the channels that the tree names. -/
def Tree.units (t : Tree) : List Nat :=
  ((List.range 32).map (tileName t.dev) ++ t.quads ++ [t.self] ++
    (if t.cup = noUnit then [] else [t.cup]) ++ (if t.peer = noUnit then [] else [t.peer]) ++ t.groups.map (fun r => rn r 2 3) ++ t.memberRecs.map (fun r => rn r 6 3)).eraseDups

/-- A quadrant of the default tree that STRUCT has emptied is no unit. -/
def Tree.emptied (t : Tree) (n : Nat) : Bool :=
  t.isQuad n && !(t.groups.any (fun r => rn r 2 3 == n)) && !(t.units.any (fun u => t.parent u == some n))

/-- The direct children of a unit; the channels of a tile. -/
def Tree.children (t : Tree) (n : Nat) : List Nat :=
  if nameLevel n = 0 then []
  else if nameLevel n = 1 then (if nameDev n = t.dev then (List.range 15).map (chanName t.dev (nameIndex n)) else [])
  else t.units.filter (fun u => t.parent u == some n && !t.emptied u)

/-- The units above a unit, nearest first, at most `fuel` of them. -/
def Tree.above (t : Tree) : Nat → Nat → List Nat
  | 0, _ => []
  | k + 1, n =>
    match t.parent n with
    | none => []
    | some p => p :: t.above k p

/-- Steps on the longest way down from a unit to a channel; a unit of another device counts with the LEVEL it carries (R27). A way longer than
the fuel counts as more than a tree may have. -/
def Tree.height (t : Tree) : Nat → Nat → Nat
  | 0, _ => 8
  | k + 1, n =>
    if nameLevel n < 2 || t.isOther n then nameLevel n
    else match t.children n with
      | [] => nameLevel n
      | cs => 1 + cs.foldl (fun m c => max m (t.height k c)) 0

/-- Tiles of this device at or below a unit. -/
def Tree.tiles (t : Tree) : Nat → Nat → List Nat
  | 0, _ => []
  | k + 1, n =>
    if t.isTile n then [nameIndex n]
    else if nameLevel n = 0 then []
    else (t.children n).flatMap (fun c => t.tiles k c)

/-- Devices at or below a unit. -/
def Tree.devices (t : Tree) : Nat → Nat → List Nat
  | 0, _ => []
  | k + 1, n => if t.described n && !t.known n then (t.children n).flatMap (fun c => t.devices k c) else [nameDev n]

/-- A whole device lies at or below a unit. -/
def Tree.holdsDev (t : Tree) : Nat → Nat → Bool
  | 0, _ => false
  | k + 1, n => t.isDev n || t.isOther n || ((t.isGroup n || n == t.cup) && (t.children n).any (fun c => t.holdsDev k c))

/-- A unit stands above this device. -/
def Tree.overDev (t : Tree) (n : Nat) : Bool := (t.above 8 t.self).contains n

/-- The tree holds a unit: one of this device, or above it. -/
def Tree.holds (t : Tree) (n : Nat) : Bool :=
  nameOk n && (t.overDev n || t.isDev n || (nameDev n == t.dev && (nameLevel n == 0 || (t.units.contains n && !t.emptied n))))

/-- The unit held that goes by a name (R27, R51). -/
def Tree.unitOf (t : Tree) (n : Nat) : Option Nat := if t.holds n then some n else none

/-! Ports -/

/-- The ports that a port of a unit stands for, of channels and tiles, or of units of other devices (R26). -/
def Tree.leaves (t : Tree) (kind : Nat) : Nat → Nat → Nat → List (Nat × Nat)
  | 0, n, port => [(n, port)]
  | k + 1, n, port =>
    if nameLevel n < 2 || !t.described n then [(n, port)]
    else (t.recs.filter (fun r => rb r 0 == 3 && rn r 2 3 == n && rb r 5 == kind && rn r 6 2 == port)).flatMap
      (fun r => t.leaves kind k (rn r 8 3) (rn r 12 2))

/-- Tile of a channel or tile. -/
def tileOfName (name : Nat) : Nat := if nameLevel name = 0 then name / 32 % 32 else name % 32

/-! The tree in force -/

/-- The Cupola that the SELF record names. -/
def selfCupola (structs : List (List Byte)) : Nat :=
  match structs.find? (fun r => rb r 0 == 6) with
  | some r => rn r 4 3
  | none => noUnit

def Device.tree (d : Device) : Tree :=
  match d.img.act with
  | none => {}
  | some im => Tree.ofLevels im.structs im.fabric im.dev (selfCupola im.structs) im.selfLevel im.quadLevels

end Sys2Proof.Machine
end

