-- ==== Sys2Proof/Machine/Readout.lean ====
section
/-! DEFINITION. Read-out windows (chapter 07): opening, weighing, closing, the result and the state code at E + 84, and the
routes of class 0 and 1 that carry the code (R251 to R274, R311). -/
namespace Sys2Proof.Machine

variable {d0 : Device}

/-- The three words of a frame: F, Θ and E. -/
def Device.frame (d : Device) (f : Nat) : Nat × Nat × Nat :=
  (d.f (R.NCO_FREQ_LO.F_LO f) + 2 ^ 32 * d.f (R.NCO_FREQ_HI.F_HI f), d.f (R.NCO_PHASE.THETA f),
    d.f64 (R.NCO_REF_LO.REF f) (R.NCO_REF_HI.REF f))

/-- The weight of the window's tick `n` (R261): read for engine B of the tile, with what the read meets; `none` where the
line is not resident. On the window's first tick the directory line of the weights is read too (R130). -/
def Tx.weight (t : Tx d0) (tl : Nat) (w : Win) (n : Nat) : Option (Nat × Nat) × Tx d0 :=
  if (rb w.wrec 6).testBit 0 then (some (0, 0x4000), t)
  else match (if n = 0 then t.readDir (2 * tl + 1) (rn w.wrec 8 4) else (0, t)), t.d.envelope (2 * tl + 1) (rn w.wrec 8 4) with
    | (k + 1, t), _ => (some (k + 1, 0), t)
    | (0, t), none => (some (0, 0), t)
    | (0, t), some (first, len) =>
      if len ≤ n then (some (0, 0), t)
      else
        let e := 2 * tl + 1
        let line := 4 * first + n / 16
        if (t.d.waveLine e line).isNone then (none, t)
        else
          let word := t.d.waveWord e line (n % 16)
          let (k, t) := if n % 16 = 0 then t.readWave e line else (0, t)
          (some (k, word), t)

/-- The weight of the window's tick `n` is missing: its line is not resident, poisoned, or the first of a block that fails its check (R271). -/
def Device.weightBad (d : Device) (tl : Nat) (w : Win) (n : Nat) : Bool :=
  let e := 2 * tl + 1
  if (rb w.wrec 6).testBit 0 then false
  else if n = 0 && d.dirKind e (rn w.wrec 8 4) != 0 then true
  else match d.envelope e (rn w.wrec 8 4) with
    | none => false
    | some (first, len) =>
      let line := 4 * first + n / 16
      if len ≤ n then false
      else match d.waveLine e line with
        | none => true
        | some l => n % 16 = 0 && (d.lineKind l != 0 || (line % 4 = 0 && !d.waveGood e (line / 4)))

/-- A window open on this tick, whose weight of it has not been taken, misses it. -/
def Device.weightDue (d : Device) (tl : Nat) : Bool :=
  let now := d.now.toNat
  (List.range 16).any (fun i => match d.win (16 * tl + i) with
    | none => false
    | some w => decide (w.ws.length ≤ now - w.start) && d.weightBad tl w (now - w.start))

/-- Take the weight of the present tick into an open window (R262), once: at the tick's end, so that a window which a DISC or a safe point closes on
this tick takes none, or before a void that it causes. A line that is not resident, or that is poisoned or fails its check, voids the shot on this tick
(R271). -/
def Tx.weigh (t : Tx d0) (n : Nat) : Tx d0 :=
  match t.d.win n with
  | none => t
  | some w =>
    if t.now.toNat - w.start < w.ws.length then t
    else
    let tl := n / 16
    let due := fun (t : Tx d0) => t.modEng (2 * tl + 1) (fun x => { x with voidDue := some t.now })
    match t.weight tl w (t.now.toNat - w.start) with
    | (none, t) => (due t).upd (.win n (some { w with ws := w.ws ++ [0] }))
    | (some (0, v), t) => t.upd (.win n (some { w with ws := w.ws ++ [v] }))
    | (some (_, _), t) =>
      ((due t).ev (R.RD_EVT.WPOISON tl)).upd (.win n (some { w with ws := w.ws ++ [0] }))

/-- Close the open window of a demodulator on tick `E`: its frame is released and it awaits its result (R253, R255). -/
def Tx.closeWin (t : Tx d0) (n E : Nat) (cut : Bool) (flags : Nat) : Tx d0 :=
  match t.d.win n with
  | none => t
  | some w =>
    let f := 32 * (n / 16) + w.frame
    let t := ((t.upd (.win n none)).wb (R.RD_DSTAT.OPEN n) false).w (R.NCO_STAT.OCC f) (t.f (R.NCO_STAT.OCC f) &&& (0xFFFFF - 2 ^ (n % 16)))
    t.modTile (n / 16) (fun x => { x with closing := x.closing ++ [(n % 16, { w with len := E - w.start, cut := cut, flags := flags })] })

/-- Open a window on a demodulator for a DISC placed now (R253, R271): a window already open closes on this tick with code 3
and no code; one opened on this very tick writes no result. -/
def Tx.openWin (t : Tx d0) (n wset len : Nat) : Tx d0 :=
  let tl := n / 16
  let now := t.now.toNat
  match t.d.weightRec tl wset (n % 16) with
  | none => t
  | some r =>
    let norec := (rb r 6).testBit 2
    let sh := t.d.curShot tl
    let id := (sh.map Shot.id).getD 0
    let att := (sh.map Shot.attempt).getD 0
    let t := match t.d.win n with
      | none => t
      | some w =>
        let t := t.ev (R.RD_EVT.OVERLAP tl)
        if w.start = now then
          let f := 32 * tl + w.frame
          let t := (t.upd (.win n none)).w (R.NCO_STAT.OCC f) (t.f (R.NCO_STAT.OCC f) &&& (0xFFFFF - 2 ^ (n % 16)))
          if (rb w.wrec 6).testBit 2 then t else t.modShot tl w.shot w.attempt (fun s => { s with owed := s.owed - 1 })
        else t.closeWin n now true 4
    let f := 32 * tl + rb r 5
    let w : Win := { start := now, len := len, wrec := r, wset := wset, frame := rb r 5, shot := id, attempt := att }
    let t := if norec then t else t.modShot tl id att (fun s => { s with owed := s.owed + 1 })
    let t := (t.upd (.win n (some w))).w (R.NCO_STAT.OCC f) (t.f (R.NCO_STAT.OCC f) ||| 2 ^ (n % 16))
    ((t.wb (R.RD_DSTAT.OPEN n) true).w (R.RD_DSTAT.FRAME n) (rb r 5 - 16)).w (R.RD_DSTAT.WSET n) wset

/-- Note the words of a frame before they change on this tick (R114, R257); entries older than any window are dropped. -/
def Tx.noteFrame (t : Tx d0) (f : Nat) : Tx d0 :=
  let now := t.now.toNat
  let (F, th, e) := t.d.frame f
  t.modTile (f / 32) (fun x => { x with hist := x.hist.filter (fun h => now < h.2.1 + 2 ^ 25) ++ [(f % 32, now, F, th, e)] })

/-- The epoch jumps: no frame's words are looked up by the ticks before it (R114, R116). -/
def Tx.dropHist (t : Tx d0) : Tx d0 :=
  t.each (t.d.tiles.map Prod.fst) (fun tl t => if (t.d.tile tl).hist.isEmpty then t else t.modTile tl (fun x => { x with hist := [] }))

/-- The words of a frame on a tick: those that the first later change replaced, or the present ones. -/
def Device.wordsAt (d : Device) (f tick : Nat) : Nat × Nat × Nat :=
  match (d.tile (f / 32)).hist.find? (fun h => h.1 == f % 32 && tick < h.2.1) with
  | some (_, _, w) => w
  | none => d.frame f

/-- Signed halves of a weight word (R261). -/
def halves (v : Nat) : Int × Int := (signedOf 16 v, signedOf 16 (v / 65536))

/-- Cosine and sine that a demodulation frame gives for ADC sample `j` of a tick (R257). -/
def Device.adcPhase (d : Device) (f tick j : Nat) : Int × Int :=
  let (F, th, e) := d.wordsAt f tick
  cossin (phaseOf F th (BitVec.ofNat 64 e) (BitVec.ofNat 64 tick) (2 * j))

/-- The accumulators after the ticks whose weights are listed, from tick `tick` on, in frame `f` (R262). -/
def Device.integrate (d : Device) (f : Nat) : Nat → List Nat → List Int → Int × Int → Int × Int
  | _, [], _, acc => acc
  | tick, v :: r, adc, acc =>
    let (wI, wQ) := halves v
    let one := fun (acc : Int × Int) (j : Nat) =>
      let (c, s) := d.adcPhase f tick j
      integStep acc (adc.getD j 0) c s wI wQ
    d.integrate f (tick + 1) r (adc.drop 4) ([0, 1, 2, 3].foldl one acc)

/-- Centroid `k` of a weight-set record. -/
def centroid (r : List Byte) (k : Nat) : Int × Int := (ri r (16 + 8 * k) 4, ri r (20 + 8 * k) 4)

/-- The outcome of a closed window on the samples it took (R262 to R264, R271): I, Q, code, clipped, saturated. -/
def Device.winResult (d : Device) (tl : Nat) (w : Win) (adc : List Int) : Int × Int × Nat × Bool × Bool :=
  let xs := adc.take (4 * w.len)
  let (aI, aQ) := d.integrate (32 * tl + w.frame) w.start (w.ws.take w.len) xs (0, 0)
  let osh := rb w.wrec 7
  let i := sat32 (integScale aI osh)
  let q := sat32 (integScale aQ osh)
  let osat := i ≠ integScale aI osh || q ≠ integScale aQ osh
  let clip := xs.any (fun x => x == -2048 || x == 2047)
  let fl := rb w.wrec 6
  let code := if w.cut then 3
    else discriminate i q (centroid w.wrec 0) (centroid w.wrec 1) (centroid w.wrec 2) (fl.testBit 1) (rn w.wrec 12 4) (fl.testBit 3) clip
  (i, q, code, clip, osat)

/-- The 16 bytes of a result (R267). -/
def resultBytes (dm : Nat) (i q : Int) (code : Nat) (sent clip osat : Bool) (flags id : Nat) : List Byte :=
  leBytes 4 (patternOf 32 i) ++ leBytes 4 (patternOf 32 q) ++
  [BitVec.ofNat 8 dm, BitVec.ofNat 8 (code + 4 * sent.toNat + 8 * clip.toNat + 16 * osat.toNat), BitVec.ofNat 8 flags, 0] ++ leBytes 4 id

/-- Show the record write queue of a tile. -/
def Tx.showWq (t : Tx d0) (tl : Nat) : Tx d0 :=
  let n := (t.d.tile tl).wq.length
  let t := t.w (R.RD_RECQ.DEPTH tl) n
  if t.f (R.RD_RECQ.MAX tl) < n then t.w (R.RD_RECQ.MAX tl) n else t

/-- A result among those that entered the record write queue on one tick: behind those of demodulators up to its own (R268). -/
def insertResult (c : Nat × Nat × List Byte) (l : List (Nat × Nat × List Byte)) : List (Nat × Nat × List Byte) :=
  let dm := fun (c : Nat × Nat × List Byte) => rb c.2.2 8 % 16
  l.takeWhile (fun x => decide (dm x ≤ dm c)) ++ [c] ++ l.dropWhile (fun x => decide (dm x ≤ dm c))

/-- A result of this tick enters the record write queue of its tile in the order of R268; where the queue is full, the last of them is not
written (R269). -/
def Tx.queueResult (t : Tx d0) (tl id att : Nat) (r : List Byte) : Tx d0 :=
  let x := t.d.tile tl
  let now := t.now.toNat
  let new := if x.wqAt = now then x.wqN else 0
  let q := x.wq.take (x.wq.length - new) ++ insertResult (id, att, r) (x.wq.drop (x.wq.length - new))
  if 64 ≤ x.wq.length then
    let lost := q.getD 64 (id, att, r)
    let t := t.modTile tl (fun x => { x with wq := q.take 64 })
    ((t.ev (R.RD_EVT.REC_OVF tl)).modShot tl lost.1 lost.2.1 (fun s => { s with owed := s.owed - 1 })).tryReady tl
  else (t.modTile tl (fun x => { x with wq := q, wqAt := now, wqN := new + 1 })).showWq tl

/-- Up to four results leave the queue for record memory on one tick (R268). -/
def Tx.drainWq (t : Tx d0) (tl : Nat) : Tx d0 :=
  let q := (t.d.tile tl).wq
  if q.isEmpty then t
  else
    let t := t.modTile tl (fun x => { x with wq := q.drop 4, wqN := 0 })
    let t := t.each (q.take 4) (fun (id, att, r) t => t.writeResult tl id att r)
    (t.showWq tl).tryReady tl

/-! Routes -/

/-- The ROUTE records of the committed image. -/
def Device.routes (d : Device) : List (List Byte) := (d.img.act.map Image.routes).getD []

/-- A route leaves this outcome port of a tile of this device. -/
def Device.routeFrom (d : Device) (r : List Byte) (tl port : Nat) : Bool :=
  (d.tree.leaves 0 8 (rn r 0 3) (rb r 3)).any (fun (n, p) =>
    nameDev n == d.f R.GLB_UNIT_SELF.DEV && tileOfName n == tl && p == port && (nameLevel n == 1 || nameLevel n == 0 && n % 32 == 5))

/-- The fork-input ports of this device that a route drives: 64 per tile. -/
def Device.routeTo (d : Device) (r : List Byte) : List Nat :=
  ((d.tree.leaves 1 8 (rn r 4 3) (rb r 7)).filter (fun (n, _) => nameDev n == d.f R.GLB_UNIT_SELF.DEV && nameLevel n == 1)).map
    (fun (n, p) => 64 * tileOfName n + p % 64)

/-- Send a code's bit on its way over the routes of class 0, and of class 1 where it is released (R265, R270, R311). -/
def Tx.deliverBit (t : Tx d0) (tl port : Nat) (v sent : Bool) (E : Nat) : Tx d0 :=
  let rs := t.d.routes.filter (fun r => (rb r 8 = 0 || (rb r 8 = 1 && sent)) && t.d.routeFrom r tl port)
  let ds := rs.flatMap (fun r => (t.d.routeTo r).map (fun p => ({ due := if rb r 8 = 0 then E + 100 else E + 164, port := p, value := v, stamp := E } : Delivery)))
  if t.running then t.upd (.flight (t.d.flight ++ ds)) else t

/-- A delivery sets value, stamp and PRESENT of a fork-input port and clears its LOST mark (R164, R165, R324). -/
def Tx.deliver (t : Tx d0) (p : Nat) (v : Bool) (stamp : Nat) : Tx d0 :=
  let e := 2 * (p / 64) + p % 64 / 32
  let t := if (t.d.port p).present then t.ev (R.SCH_EVT.PORT_OVERRUN e) else t
  let t := t.upd (.port p { val := v, present := true, lost := false, stamp := BitVec.ofNat 64 stamp })
  t.w (R.SCH_PORT_PRES.PRESENT e) (t.f (R.SCH_PORT_PRES.PRESENT e) ||| 2 ^ (p % 32))

/-- Clear PRESENT and LOST of a fork-input port; its value and stamp stay (R166, R196). -/
def Tx.clearPort (t : Tx d0) (p : Nat) : Tx d0 :=
  let e := 2 * (p / 64) + p % 64 / 32
  let t := t.upd (.port p { t.d.port p with present := false, lost := false })
  t.w (R.SCH_PORT_PRES.PRESENT e) (t.f (R.SCH_PORT_PRES.PRESENT e) &&& (0xFFFFFFFF - 2 ^ (p % 32)))

end Sys2Proof.Machine
end

