-- ==== Sys2Proof/Machine/Synth.lean ====
section
/-! DEFINITION. What the RF outputs play on a tick (R120 to R138) and the digests that a Cupola's members form of it (R626, R627). -/
namespace Sys2Proof.Machine

variable {d0 : Device}

/-! Samples -/

/-- Envelope sample `j` of the PLAY on a mixer, I and Q (R129, R134, R140): 0 outside the envelope and on substituted or absent lines; a line
whose block is being fetched again plays as stored. -/
def Device.envSample (d : Device) (m : Nat) (x : Mixer) (j : Int) : Int × Int :=
  if j < 0 || (x.len : Int) ≤ j then (0, 0)
  else
    let n := j.toNat
    if x.zero.contains (n / 16) then (0, 0)
    else match x.kept.find? (fun c => c.1 == n / 16) with
      | some (_, l) => halves (d.sramLe (64 * l + 4 * (n % 16)) 4)
      | none => halves (d.waveWord (2 * (m / 20)) (4 * x.first + n / 16) (n % 16))

/-- A mixer's contributions to the 8 samples of a tick, and whether the saturation of each acts (R122, R132 to R136). An engine A that holds
gives 0. The interpolator reaches 5 envelope samples back and 6 ahead. -/
def Device.mixTick (d : Device) (m tick : Nat) : List (Int × Bool) :=
  let x := d.mixer m
  if !d.b (R.NCO_MIX_STAT.BUSY m) || tick < x.start.toNat || x.start.toNat + x.len ≤ tick || d.f (R.SCH_STAT.STATE (2 * (m / 20))) = 2 then
    List.replicate 8 (0, false)
  else
    let j : Int := (tick - x.start.toNat : Nat)
    let w := (List.range 17).map (fun (i : Nat) => d.envSample m x (j - 8 + i))
    let (F, th, e) := d.frame (32 * (m / 20) + x.frame)
    (List.range 8).map (fun (k : Nat) =>
      let eI := interpolate (fun i => (w.getD (i - (j - 8)).toNat (0, 0)).1) (8 * j + k)
      let eQ := interpolate (fun i => (w.getD (i - (j - 8)).toNat (0, 0)).2) (8 * j + k)
      let (c, s) := cossin (phaseOf F th (BitVec.ofNat 64 e) (BitVec.ofNat 64 tick) k)
      (mixOut eI eQ c s x.gain, mixOut eI eQ c s x.gain ≠ mixRaw eI eQ c s x.gain))

/-- Mixers of RF output `c` (5 per tile, 4 each). -/
def outMixers (c : Nat) : List Nat := (List.range 4).map (fun i => 20 * (c / 5) + 4 * (c % 5) + i)

/-- The codes of an RF output for the 8 samples of a tick, and whether a saturation acts in each (R137, R138). -/
def Device.rfTick (d : Device) (c tick : Nat) : List (Int × Bool) :=
  let ys := (outMixers c).map (fun m => d.mixTick m tick)
  (List.range 8).map (fun k =>
    let y := ys.map (fun l => l.getD k (0, false))
    let acc := y.foldl (fun a z => a + z.1) 0
    (dacCode acc, y.any Prod.snd || dacCode acc ≠ dacRaw acc))

/-- A mixer of an RF output is occupied. -/
def Device.rfBusy (d : Device) (c : Nat) : Bool := (outMixers c).any (fun m => d.b (R.NCO_MIX_STAT.BUSY m))

/-- Samples of the tick that ends are counted where they saturate (R138). Only an output with a mixer in use can. -/
def Tx.countSat (t : Tx d0) (tick : Nat) : Tx d0 :=
  t.each (t.d.mixers.map (fun x => x.1 / 4)).eraseDups (fun c t =>
    if t.d.rfBusy c then
      let n := ((t.d.rfTick c tick).filter Prod.snd).length
      if n = 0 then t else (t.add (R.NCO_OUT_STAT.SAT_CNT c) n).ev (R.NCO_OUT_STAT.SAT c)
    else t)

/-! Digests -/

/-- A state code is produced on this tick. -/
def Tx.noteCode (t : Tx d0) (n code : Nat) : Tx d0 :=
  if t.f R.TWIN_STAT.STATE = 2 then t.modTwin (fun x => { x with codes := x.codes ++ [(n, code)] }) else t

/-- The 104 bytes of a tile's tick word (R626). -/
def Device.tickWord (d : Device) (tl tick : Nat) : List Byte :=
  let rf := (List.range 5).flatMap (fun i =>
    if d.rfBusy (5 * tl + i) then (d.rfTick (5 * tl + i) tick).flatMap (fun y => leBytes 2 (patternOf 16 y.1)) else List.replicate 16 0)
  let fx := (List.range 8).flatMap (fun i => leBytes 2 (d.f (R.FLX_OUT_STAT.CODE (8 * tl + i))))
  let mine := d.twin.codes.filter (fun c => c.1 / 16 == tl)
  let cs := mine.foldl (fun v c => v + c.2 * 4 ^ (c.1 % 16)) 0
  let ms := mine.foldl (fun v c => v + 2 ^ (c.1 % 16)) 0
  rf ++ fx ++ leBytes 4 cs ++ leBytes 2 ms ++ [if d.b (R.FLX_MARK.LEVEL tl) then 1 else 0, 0]

/-- The running digest of a tile. -/
def Device.digOf (d : Device) (tl : Nat) : Option Nat := bget (fun _ => none) d.digs tl

def Tx.setDig (t : Tx d0) (tl : Nat) (v : Option Nat) : Tx d0 := t.upd (.dig tl v)

/-- The tick that ends enters the digests of the tiles (R627). -/
def Tx.digestTick (t : Tx d0) (tick : Nat) : Tx d0 :=
  if t.f R.TWIN_STAT.STATE ≠ 2 || !t.running then t
  else
    let t := t.each (List.range 32) (fun tl t =>
      match t.d.digOf tl with
      | none => t
      | some c => t.setDig tl (some ((t.d.tickWord tl tick).foldl crcByte c)))
    t.modTwin (fun x => { x with codes := [] })

/-- Put an entry in the queue of mirror cells (R624): host requests go ahead of digests and IMAGE pieces; a full queue drops it. -/
def Tx.mirrorSend (t : Tx d0) (entry : Nat) : Tx d0 :=
  let q := t.d.twin.sendQ
  let urgent := fun (e : Nat) => e / 2 ^ 55 == 2 || e / 2 ^ 55 == 3
  if 64 ≤ q.length then t
  else if urgent entry then t.modTwin (fun x => { x with sendQ := q.filter urgent ++ [entry] ++ q.filter (fun e => !urgent e) })
  else t.modTwin (fun x => { x with sendQ := q ++ [entry] })

/-- A tile's quadrant and mismatch reports (R628): `missing` says that a digest found no partner. -/
def Tx.diverge (t : Tx d0) (tl shot : Nat) (missing : Bool) : Tx d0 :=
  let q := tl / 8
  let t := t.w R.TWIN_STAT.DIVERGED (t.f R.TWIN_STAT.DIVERGED ||| 2 ^ q)
  let t := if t.f R.TWIN_STAT.ROLE = 2 then t.w R.TWIN_STAT.QOK (t.f R.TWIN_STAT.QOK &&& (15 - 2 ^ q)) else t
  let t := if missing then (t.ev R.TWIN_EVT.DIGEST_MISSING).inc R.TWIN_CNT.MISSING else (t.ev R.TWIN_EVT.MISMATCH).inc R.TWIN_CNT.MISMATCHES
  let t := (((t.wb R.TWIN_LAST.VALID true).wb R.TWIN_LAST.MISSING missing).w R.TWIN_LAST.TILE tl).w R.TWIN_LAST.SHOT shot
  if t.b R.TWIN_CTL.ON_MISMATCH then t.each (List.range 64) (fun e t => if (t.d.eng e).live then t.modEng e (fun x => { x with stopAtSafe := true }) else t) else t

/-- Digests of both members that carry the same tile and shot bits are compared (R628). -/
def Tx.matchDigest (t : Tx d0) (tl shot : Nat) : Tx d0 :=
  let here := fun (c : Nat × Nat × Nat × Nat) => c.1 == tl && c.2.1 == shot
  match t.d.twin.own.find? here, t.d.twin.peer.find? here with
  | some a, some b =>
    let t := t.modTwin (fun x => { x with own := x.own.erase a, peer := x.peer.erase b })
    if a.2.2.1 = b.2.2.1 then t else t.diverge tl shot false
  | _, _ => t

/-- A tile passes a safe point on this tick (R627): the digest of the shot that ends is made and sent, and that of the new attempt begins. -/
def Tx.digestPass (t : Tx d0) (tl shot : Nat) : Tx d0 :=
  if t.f R.TWIN_STAT.STATE ≠ 2 || t.d.twin.mute.testBit (tl / 8) then t.setDig tl none
  else
    let now := t.now.toNat
    let age := t.d.age
    let t := match t.d.digOf tl with
      | none => t
      | some c =>
        let v := c ^^^ 0xFFFFFFFF
        let s := shot % 2 ^ 18
        let t := t.modTwin (fun x => { x with own := x.own ++ [(tl, s, v, age)] })
        (t.mirrorSend (2 ^ 55 + tl * 2 ^ 50 + s * 2 ^ 32 + v)).matchDigest tl s
    t.setDig tl (some ((leBytes 8 now).foldl crcByte 0xFFFFFFFF))

end Sys2Proof.Machine
end

