-- ==== Sys2Proof/Machine/Acq.lean ====
section
/-! DEFINITION. Triggers, capture, measurements, streams and the drain (chapter 08): the operations the rows share
(R275 to R310, R470, R471, R478 to R480). -/
namespace Sys2Proof.Machine

variable {d0 : Device}

/-! Trigger events (R276 to R282, R288, R290) -/

/-- The waits that a trigger event ends (R177, R178): those for its condition whose boundary is not after it and whose
timeout it does not pass. -/
def Tx.trigWaits (t : Tx d0) (c tick : Nat) : Tx d0 :=
  t.each (List.range 64) (fun e t =>
    match (t.d.eng e).waiting with
    | none => t
    | some w =>
      let tmo := w.operand % 2 ^ 32
      if bitsOf w.operand 63 62 = 0 && bitsOf w.operand 61 59 = c && w.resume.isNone && w.b.toNat ≤ tick &&
          (tmo = 0 || tick ≤ w.b.toNat + tmo) then
        t.waitEnds e (w.idx + 1) (tick + bitsOf w.operand 42 32)
      else t)

/-- Show the capture unit of a tile. From the last sample of its last segment until that is written it reads REARM; the spec names no value for
that time (DESIGN CHOICE, log 162). -/
def Tx.showCap (t : Tx d0) (tl : Nat) : Tx d0 :=
  match (t.d.tile tl).cap with
  | none => t.w (R.ACQ_STAT.STATE tl) 0
  | some c => (t.w (R.ACQ_STAT.STATE tl) c.stage).w (R.ACQ_STAT.INDEX tl) (rn c.crec 2 2)

/-- The tick from which a capture unit that takes a segment no longer misses events (R290): it re-arms then, or its last segment is complete. -/
def Capture.freeAt (c : Capture) : Nat := if (if c.stage = 2 then c.segs + 1 else c.segs) < rn c.crec 6 2 then c.last + 48 else c.last + 1

/-- The capture unit stops being busy with a segment or waiting to re-arm: events of the time from the event it took until now, made known later,
are still counted as missed (R281, R290). -/
def Tx.noteBusy (t : Tx d0) (tl : Nat) : Tx d0 :=
  match (t.d.tile tl).cap with
  | none => t
  | some c => if 2 ≤ c.stage then t.modTile tl (fun x => { x with busy := some (rb c.crec 4, c.tick, min t.now.toNat c.freeAt) }) else t

/-- The capture of a tile ends (R291). -/
def Tx.capOver (t : Tx d0) (tl : Nat) : Tx d0 := ((t.noteBusy tl).modTile tl (fun x => { x with cap := none })).showCap tl

/-- Board trim of a path as latched at the run's first tick (R278): inputs 0 to 7, then ADC paths. -/
def Device.trim (d : Device) (i : Nat) : Int := signedOf 16 (d.run.trims.getD i 0)

/-- The tick, as the epoch counts now, from which the ADC history of a tile holds samples (R289). -/
def Device.adcStart (d : Device) (tl : Nat) : Int := (d.now.toNat : Int) - d.age + (d.tile tl).adcFrom

/-- An armed capture takes a trigger at corrected instant `u` (R288, R289, R292): `at?` is the trigger sample where the
source fixes it. -/
def Tx.capTake (t : Tx d0) (tl : Nat) (c : Capture) (u : Int) (at? : Option Int) : Tx d0 :=
  let skew := signedOf 16 (t.f (R.ACQ_SKEW_ADC.CAL tl)) + t.d.trim (8 + tl)
  let trg : Int := match at? with
    | some n => n
    | none => (u + skew + 15) / 16
  let pre := rn c.crec 8 4
  let post := if t.b (R.ACQ_FORCE.EN tl) then t.f (R.ACQ_FORCE.POST tl) else rn c.crec 12 4
  let cap := rn c.crec 16 4
  let cut := cap < pre + post
  let n := if cut then cap else pre + post
  let first : Int := trg - pre
  let short := first < 4 * t.d.adcStart tl
  let t := if short then t.ev (R.ACQ_EVT.PRE_SHORT tl) else t
  let c := { c with
    stage := 2, first := first, count := n, tick := (u / 64).toNat, stamp := (u / 16 % 4).toNat + 4 * (u % 16).toNat
    flags := if cut then 4 else 0, sflags := (if rb c.crec 4 = 8 then 1 else 0) + (if short then 4 else 0)
    last := ((first + n - 1) / 4).toNat }
  let t := t.modShot tl c.shot c.attempt (fun s => { s with owed := s.owed + 1 })
  (t.modTile tl (fun x => { x with cap := some c })).showCap tl

/-- A capture unit was busy with a segment of a condition, or waiting to re-arm after it, on a tick (R290). -/
def Device.capBusy (d : Device) (tl c tick : Nat) : Bool :=
  (match (d.tile tl).cap with
   | some x => rb x.crec 4 == c && decide (2 ≤ x.stage) && decide (x.tick ≤ tick) && decide (tick < x.freeAt)
   | none => false) ||
  (match (d.tile tl).busy with
   | some (k, from', until') => k == c && decide (from' ≤ tick) && decide (tick < until')
   | none => false)

/-- The capture units meet an event of a condition: a unit armed for it by its event tick takes it; one that was busy on that tick counts it as
missed (R288, R290). -/
def Tx.capEvent (t : Tx d0) (c tick : Nat) (u : Int) (at? : Option Int) : Tx d0 :=
  t.each (List.range 32) (fun tl t =>
    match (t.d.tile tl).cap.filter (fun x => rb x.crec 4 == c && x.stage == 1 && decide (x.arm ≤ tick)) with
    | some x => t.capTake tl x u at?
    | none => if t.d.capBusy tl c tick then (t.inc (R.ACQ_CNT.MISSED tl)).ev (R.ACQ_EVT.MISSED tl) else t)

/-- A condition produces an event at a corrected instant, unless it is in holdoff (R280 to R282). -/
def Tx.trigEvent (t : Tx d0) (c : Nat) (u : Int) (at? : Option Int) : Tx d0 :=
  match t.d.trigRec c with
  | none => t
  | some r =>
    let tick := (u / 64).toNat
    if !t.running || tick < t.d.run.hold.getD c 0 then t
    else
      let eight := fun (l : List Nat) => l ++ List.replicate (8 - l.length) 0
      let t := (t.modRun (fun x => { x with hold := (eight x.hold).set c (tick + rn r 12 4), evs := (eight x.evs).set c (tick + 1),
                                            known := x.known.filter (fun k => decide (t.now.toNat ≤ k.2.1)) ++ [(c, tick, u, at?)] })).inc
        (R.ACQ_TRIG_CNT.EVENTS c)
      (t.trigWaits c tick).capEvent c tick u at?

/-- A host write of ACQ_SWTRIG (R276): the HOST conditions named have an event at sample 0 of this tick. -/
def Tx.swtrig (t : Tx d0) (mask : Nat) : Tx d0 :=
  t.each (List.range 8) (fun c t =>
    match t.d.trigRec c with
    | none => t
    | some r => if mask.testBit c && rb r 2 = 3 then t.trigEvent c (64 * (t.now.toNat : Int)) none else t)

/-- The CODE conditions that a demodulator's code meets (R276). -/
def Tx.codeTriggers (t : Tx d0) (tl dm code E : Nat) : Tx d0 :=
  t.each (List.range 8) (fun c t =>
    match t.d.trigRec c with
    | none => t
    | some r =>
      if rb r 2 = 2 && rb r 3 = tl && rb r 5 = dm && (rb r 4).testBit code then t.trigEvent c (64 * (E + 84 : Nat)) none else t)

/-- One sample of a rising LEVEL detector (R277): armed state and last sample, and the raw instant if it fires. -/
def detStep (lvl hyst : Int) (s : Bool × Option (Nat × Int)) (n : Nat) (x : Int) : (Bool × Option (Nat × Int)) × Option Int :=
  let prev := match s.2 with
    | some (m, v) => if m + 1 = n then some v else none
    | none => none
  match prev with
  | some p =>
    if s.1 && decide (p < lvl) && decide (lvl ≤ x) then
      ((false, some (n, x)), some (16 * ((n : Int) - 1) + 16 * (lvl - p) / (x - p)))
    else ((s.1 || decide (x ≤ lvl - hyst), some (n, x)), none)
  | none => ((s.1 || decide (x ≤ lvl - hyst), some (n, x)), none)

/-- An ADC sample reaches the LEVEL detector `i` (0–7 rising, 8–15 falling) of a condition. -/
def Tx.levelStep (t : Tx d0) (c i : Nat) (r : List Byte) (n : Nat) (x : Int) : Tx d0 :=
  let sgn : Int := if i < 8 then 1 else -1
  let skew := signedOf 16 (t.f (R.ACQ_SKEW_ADC.CAL (rb r 3))) + t.d.trim (8 + rb r 3)
  let s := t.d.run.dets.getD i (false, none)
  let seen : Bool := match s.2 with
    | some (m, _) => decide (n ≤ m)
    | none => false
  if seen then t
  else
    let (s, hit) := detStep (sgn * ri r 6 2) (rn r 8 2) s n (sgn * x)
    let t := t.modRun (fun y => { y with dets := (y.dets ++ List.replicate (16 - y.dets.length) (false, none)).set i s })
    match hit with
    | none => t
    | some u => t.trigEvent c (u - skew) (some n)

/-- A transition of a trigger input is watched: AWAKE is 1, a run is in progress, and the instant is not before its first tick (R279). -/
def Device.tinWatched (d : Device) (raw : Int) : Bool :=
  d.b R.TB_STAT.AWAKE && d.running && decide (64 * (d.run.first.toNat : Int) ≤ raw)

/-- A transition of a trigger input at an instant counts as an edge (R276, R278, R279). -/
def Tx.tinEdge (t : Tx d0) (k raw : Nat) (rising : Bool) : Tx d0 :=
  let t := t.upd (.tin k { level := rising })
  let t := if rising then t.evBit R.ACQ_TIN_STAT.RISE k else t.evBit R.ACQ_TIN_STAT.FALL k
  let u := (raw : Int) - signedOf 16 (t.f (R.ACQ_TIN_SKEW.CAL k)) - t.d.trim k
  t.each (List.range 8) (fun c t =>
    match t.d.trigRec c with
    | none => t
    | some r => if rb r 2 = 0 && rb r 3 = k && (rb r 4).testBit (if rising then 0 else 1) then t.trigEvent c u none else t)

/-- Transitions whose new level has held for 2 ticks by the start of this tick are edges (R279). -/
def Tx.runTins (t : Tx d0) : Tx d0 :=
  t.each (List.range 8) (fun k t =>
    match (t.d.tin k).cand with
    | none => t
    | some (u, l) => if u + 128 ≤ 64 * t.now.toNat then t.tinEdge k u l else t)

/-! Capture -/

/-- A refused arm (R293). -/
def Tx.armRefuse (t : Tx d0) (tl code idx : Nat) : Tx d0 :=
  (((t.w (R.ACQ_ARM_ERR.CODE tl) code).w (R.ACQ_ARM_ERR.INDEX tl) idx).ev (R.ACQ_EVT.ARM_REFUSED tl)).hflag tl 2

/-- A re-armed or newly armed IMMEDIATE capture triggers at sample 0 of this tick (R284). -/
def Tx.capImmediate (t : Tx d0) (tl : Nat) : Tx d0 :=
  match (t.d.tile tl).cap with
  | none => t
  | some c => if c.stage = 1 && rb c.crec 4 = 8 then t.capTake tl c (64 * (t.now.toNat : Int)) none else t

/-- A unit that is armed takes the first of the events known by now whose tick is not before the arm or re-arm tick (R288, R309). -/
def Tx.capKnown (t : Tx d0) (tl : Nat) : Tx d0 :=
  match (t.d.tile tl).cap with
  | none => t
  | some x =>
    let evs := t.d.run.known.filter (fun k => k.1 == rb x.crec 4 && decide (x.arm ≤ k.2.1))
    match evs.find? (fun k => evs.all (fun j => decide (k.2.1 ≤ j.2.1))) with
    | some (_, _, u, at?) => if x.stage = 1 then t.capTake tl x u at? else t
    | none => t

/-- Forced POST at the run's first tick exceeds the capacity of some CAPTURE record of the tile: every arm of the tile is refused (R292). -/
def Device.lengthRefused (d : Device) (tl : Nat) : Bool :=
  let forced := d.run.trims.getD (40 + tl) 0
  forced.testBit 20 && (d.acqRec (fun r => rb r 0 == 1 && rb r 1 == tl && decide (rn r 16 4 < rn r 8 4 + forced % 2 ^ 20))).isSome

/-- Arm the capture unit for a CAPTURE record (R287, R293). -/
def Tx.arm (t : Tx d0) (tl : Nat) (r : List Byte) : Tx d0 :=
  let idx := rn r 2 2
  if t.d.lengthRefused tl then t.armRefuse tl 1 idx
  else if (t.d.tile tl).cap.isSome then t.armRefuse tl 2 idx
  else
    let sh := t.d.curShot tl
    let c : Capture := { crec := r, arm := t.now.toNat, shot := (sh.map Shot.id).getD 0, attempt := (sh.map Shot.attempt).getD 0 }
    ((((t.modTile tl (fun x => { x with cap := some c })).showCap tl).w (R.ACQ_STAT.SEGDONE tl) 0).capImmediate tl).capKnown tl

/-- Start the stream unit for a STREAM record (R293, R306). Blocks of an earlier stream of the slot that still wait for room in the ring stay in
the buffer (R308). -/
def Tx.startStream (t : Tx d0) (tl : Nat) (r : List Byte) : Tx d0 :=
  let s := rb r 4 % 4
  if (t.d.stream s).active then t.armRefuse tl 3 (rn r 2 2)
  else if !t.b (R.ACQ_STRM_CTL.EN s) then t.armRefuse tl 4 (rn r 2 2)
  else
    let old := t.d.stream s
    let t := t.upd (.stream s { active := true, tile := tl, start := t.now.toNat, len := rn r 8 8, buffer := old.buffer, gap := old.gap })
    ((((t.wb (R.ACQ_STRM_STAT.ACTIVE s) true).w (R.ACQ_STRM_STAT.TILE s) tl).wb (R.ACQ_STAT.STREAM tl) true).w (R.ACQ_STAT.SLOT tl) s).hflag tl 8

/-- The segment in progress ends with its last sample, or is cut where its shot ends (R288, R291). -/
def Tx.segDone (t : Tx d0) (tl : Nat) : Tx d0 :=
  match (t.d.tile tl).cap with
  | none => t
  | some c => t.modTile tl (fun x => { x with segQ := x.segQ ++ [c] })

/-- The shot of a tile's capture ends on this tick (R291): a segment in progress is closed with the samples taken so far; one whose last sample is past
is whole. -/
def Tx.capShotEnd (t : Tx d0) (tl : Nat) : Tx d0 :=
  match (t.d.tile tl).cap with
  | none => t
  | some c =>
    let n := 4 * (t.now.toNat : Int) - c.first
    let t := if c.stage = 2 && decide ((c.count : Int) ≤ n) then t.segDone tl
      else if c.stage = 2 then
        let c := { c with count := min n.toNat c.count, flags := c.flags ||| 4, last := t.now.toNat - 1 }
        t.modTile tl (fun x => { x with segQ := x.segQ ++ [c] })
      else t
    t.capOver tl

/-! Measurements (R294) -/

/-- Zero crossings of a window: how many, the first and the last, in sixteenths. -/
def crossings (lvl hyst : Int) (xs : List Int) : Nat × Int × Int :=
  let r := xs.zipIdx.foldl (fun (b : (Bool × Option (Nat × Int)) × List Int) (x, n) =>
    let (s, h) := detStep lvl hyst b.1 n x
    (s, match h with | some u => b.2 ++ [u] | none => b.2)) ((false, none), [])
  (r.2.length, r.2.headD 0, r.2.getLastD 0)

/-- The segment header (R299) of a segment with the samples stored. -/
def Tx.segHeader (t : Tx d0) (tl : Nat) (c : Capture) (xs : List Int) : List Byte × Tx d0 :=
  let r := c.crec
  let ms := rn r 20 4
  let ml := rn r 24 4
  let win := if ml = 0 then xs.zipIdx else (xs.zipIdx.drop ms).take ml
  let f := 32 * tl + rb r 5
  let sums := win.foldl (fun (a : Int × Int) (x, k) =>
    let n := (c.first + k).toNat
    let (co, si) := t.d.adcPhase f (n / 4) (n % 4)
    (a.1 + x * co, a.2 - x * si)) (0, 0)
  let i := sat32 ((sums.1 + 2 ^ 16) / 2 ^ 17)
  let q := sat32 ((sums.2 + 2 ^ 16) / 2 ^ 17)
  let vs := win.map Prod.fst
  let sq := vs.foldl (fun a x => a + x * x) 0
  let (free1, t) := if vs.isEmpty then t.open else (0, t)
  let (free2, t) := if vs.isEmpty then t.open else (0, t)
  let peak := if vs.isEmpty then free1 else vs.foldl (fun a x => max a x.natAbs) 0
  let rms := if vs.isEmpty then free2 else isqrt (256 * sq / (vs.length : Int)).toNat
  let (zn, z0, z1) := crossings (ri r 28 2) (rn r 30 2) vs
  let zp := if zn < 2 then 0 else ((z1 - z0) / ((zn : Int) - 1)).toNat
  let tot := (vs.filter (fun x => decide (ri r 32 2 ≤ x))).length
  let clip := xs.any (fun x => x == -2048 || x == 2047)
  let hdr : List Byte := [2, BitVec.ofNat 8 tl] ++ leBytes 2 (rn r 2 2) ++ leBytes 2 c.segs ++
    [BitVec.ofNat 8 c.flags, BitVec.ofNat 8 (c.sflags ||| (if clip && !(rb r 34).testBit 0 then 2 else 0))] ++ leBytes 8 c.tick ++
    [BitVec.ofNat 8 c.stamp, 0, 0, 0] ++ leBytes 4 (if (rb r 34).testBit 0 then 0 else xs.length) ++ leBytes 4 (patternOf 32 i) ++ leBytes 4 (patternOf 32 q) ++
    leBytes 4 (isqrt (i * i + q * q).toNat) ++ leBytes 2 (phase16 i q) ++ leBytes 2 peak ++ leBytes 4 rms ++ leBytes 4 zp ++
    leBytes 4 tot ++ leBytes 2 (min zn 0xFFFF) ++ [0, 0] ++ leBytes 4 c.shot ++ leBytes 4 0
  (hdr, t)

/-- Samples as they are stored: 16-bit values (R297). -/
def sampleBytes (xs : List Int) : List Byte := xs.flatMap (fun x => leBytes 2 (patternOf 16 x))

/-! Streams (R306 to R308) -/

/-- The 256 bytes of a stream block (R307). -/
def streamBytes (epoch tl seq : Nat) (gap last : Bool) (xs : List Int) : List Byte :=
  let clip := (xs.take 160).any (fun x => x == -2048 || x == 2047)
  let bits := ((xs.take 160).zipIdx).foldl (fun b (x, i) => b + patternOf 12 x * 2 ^ (12 * i)) 0
  leBytes 8 epoch ++ [BitVec.ofNat 8 tl, BitVec.ofNat 8 (gap.toNat + 2 * clip.toNat + 8 * last.toNat), 0, 0] ++ leBytes 4 seq ++ leBytes 240 bits

/-- A CXL memory device is in use. -/
def Device.cxlUp (d : Device) : Bool := d.b R.ECC_CXL_STAT.PRESENT

/-- Write whole 256-byte blocks to a ring at an offset, with their check values (R301, R480). -/
def Tx.ringWrite (t : Tx d0) (n off : Nat) (bs : List Byte) : Tx d0 :=
  let g := t.d.ring n
  let t := t.upd (.cxl (g.base + off) bs)
  t.each (List.range (bs.length / 256)) (fun i t =>
    t.upd (.cxl (g.base + g.size + 4 * (off / 256 + i)) (leBytes 4 (crc32c ((bs.drop (256 * i)).take 256)))))

/-- Stream blocks leave a slot's buffer for its ring while there is room (R303, R308): one block. A block formed on this tick waits for the next,
because the run may yet end on this tick and make it the last (R307). -/
def Tx.streamOut1 (t : Tx d0) (s : Nat) : Tx d0 :=
  let x := t.d.stream s
  let size := (t.d.ring (1 + s)).size
  let w := 256 * t.f (R.ACQ_STRM_WPTR.OFF s)
  let r := 256 * t.f (R.ACQ_STRM_RPTR.OFF s)
  match x.buffer with
  | [] => t
  | b :: rest =>
    if !(x.fresh && rest.isEmpty) && t.b (R.ACQ_STRM_CTL.EN s) && t.d.cxlUp && size ≠ 0 && 256 ≤ (r + 2 * size - w - 256) % size then
      ((t.ringWrite (1 + s) w b).w (R.ACQ_STRM_WPTR.OFF s) ((w + 256) % size / 256)).upd (.stream s { x with buffer := rest })
    else t

/-- All the blocks of a slot's buffer that its ring has room for. -/
def Tx.streamOut (t : Tx d0) (s : Nat) : Tx d0 := t.each (List.range 256) (fun _ t => t.streamOut1 s)

/-- A stream forms its next block (R307), or drops it when its buffer is full (R308). The 32-bit SEQ is the block number modulo 2^32: the spec
does not say what becomes of it beyond (DESIGN CHOICE, log 163). -/
def Tx.streamBlock (t : Tx d0) (s : Nat) (last : Bool) (xs : List Int) : Tx d0 :=
  let t := t.streamOut s
  let x := t.d.stream s
  let (xs, t) := t.seen x.tile (4 * (x.start + 40 * x.seq)) xs
  let t := if x.buffer.length < 256 then
      t.upd (.stream s { x with seq := x.seq + 1, gap := false, fresh := !last
                                buffer := x.buffer ++ [streamBytes (x.start + 40 * x.seq) x.tile (x.seq % 2 ^ 32) x.gap last xs] })
    else
      ((t.upd (.stream s { x with seq := x.seq + 1, gap := true })).inc (R.ACQ_STRM_STAT.GAPS s)).ev (R.ACQ_STRM_STAT.GAP s)
  t.streamOut s

/-- A new tick begins: blocks formed before it may leave (R308). -/
def Tx.runStreams (t : Tx d0) : Tx d0 :=
  t.each (List.range 4) (fun s t =>
    let x := t.d.stream s
    if x.buffer.isEmpty then t else (t.upd (.stream s { x with fresh := false })).streamOut s)

/-- The run ends on this tick: a block that a stream formed on it, the stream's 40-tick boundary, is its last (R307). -/
def Tx.streamsAtEnd (t : Tx d0) : Tx d0 :=
  t.each (List.range 4) (fun s t =>
    let x := t.d.stream s
    match x.buffer.getLast? with
    | some b =>
      if x.active && x.fresh && x.start + 40 * x.seq = t.now.toNat then
        t.upd (.stream s { x with buffer := x.buffer.dropLast ++ [setByte b 9 (rb b 9 ||| 8)], fresh := false })
      else t
    | none => t)

/-- A stream is over; a stream of the tile on another slot goes on, and SLOT then names that slot. -/
def Tx.streamStop (t : Tx d0) (s : Nat) : Tx d0 :=
  let x := t.d.stream s
  let t := (t.upd (.stream s { x with active := false })).wb (R.ACQ_STRM_STAT.ACTIVE s) false
  match (List.range 4).find? (fun k => k != s && (t.d.stream k).active && (t.d.stream k).tile == x.tile) with
  | none => t.wb (R.ACQ_STAT.STREAM x.tile) false
  | some k => if t.f (R.ACQ_STAT.SLOT x.tile) = s then t.w (R.ACQ_STAT.SLOT x.tile) k else t

/-! The drain (R301 to R303, R470, R471, R479) -/

/-- Show whether the drain ring holds THRESH or more; ABOVE coming up is an interrupt cause (R310). -/
def Tx.showAbove (t : Tx d0) : Tx d0 :=
  let size := (t.d.ring 0).size
  let used := (256 * t.f R.ACQ_DRAIN_WPTR.OFF + size - 256 * t.f R.ACQ_DRAIN_RPTR.OFF % max size 1) % max size 1
  let up := t.b R.ACQ_DRAIN_CTL.EN && decide (t.f R.ACQ_DRAIN_CTL.THRESH * 4096 ≤ used)
  let t := if up && !t.b R.ACQ_DRAIN_STAT.ABOVE then t.pend 194 else t
  t.wb R.ACQ_DRAIN_STAT.ABOVE up

/-- The lines of a shot record in the order of R297: SRAM line, and the record's own idea of its bytes. -/
def Shot.layout (s : Shot) (tl : Nat) : List (Nat × List Byte) :=
  let area := s.header tl ++ s.results.flatten
  let area := area ++ List.replicate ((64 - area.length % 64) % 64) (0 : Byte)
  (s.resLines.zipIdx.map (fun (l, i) => (recAddr tl (s.base + l) 0 / 64, (area.drop (64 * i)).take 64))) ++
  s.segs.flatMap (fun g => (List.range g.lines).map (fun i =>
    (recAddr tl (s.base + g.line + i) 0 / 64, if i = 0 then g.header else (g.samples.drop (64 * (i - 1))).take 64)))

/-- The check value of block `k` of a record (R478, R479): the CRC-32C of the bytes its writer wrote there. The writer forms it a contribution at a
time, as it writes; here it is formed of what it has written. -/
def Shot.blockCheck (s : Shot) (tl k : Nat) : Nat := crc32c ((((s.layout tl).drop (4 * k)).take 4).flatMap Prod.snd)

/-- A record to drain is bad in the header store (R471). -/
def Device.hsBad (d : Device) (s : Shot) (tl : Nat) : Option Nat :=
  ((s.hs :: s.segs.map Seg.hs).map (fun h => hsAddr tl h / 64)).find? (fun l => d.lineKind l ≠ 0)

/-- The bytes of a record as it drains (R470, R479), and the transaction with the events logged. -/
def Tx.drainBytes (t : Tx d0) (tl : Nat) (s : Shot) : List Byte × Tx d0 :=
  let lay := s.layout tl
  let bad := lay.map (fun (l, _) => t.d.lineKind l ≠ 0)
  let read := lay.map (fun (l, _) => if t.d.lineKind l ≠ 0 then List.replicate 64 (0 : Byte) else t.d.sramBytes (64 * l) 64)
  let t := t.each (((s.hs :: s.segs.map Seg.hs).map (fun h => hsAddr tl h / 64)) ++ lay.map Prod.fst) (fun l t => t.readLine l 3 2)
  let nblk := (lay.length + 3) / 4
  let e2e := (List.range nblk).filter (fun k =>
    let idx := (List.range 4).map (fun i => 4 * k + i)
    !idx.any (fun i => bad.getD i false) && crc32c (((read.drop (4 * k)).take 4).flatten) != s.blockCheck tl k)
  let t := t.each e2e (fun k t =>
    match lay[4 * k]? with
    | none => t
    | some (l, _) => ((t.ev R.ECC_EVT.E2E_FAIL).inc (R.ECC_CNT.UE 2)).logEcc 3 3 l 0 0 0x0B)
  let poison := bad.any id
  let hdr := t.d.sramBytes (hsAddr tl s.hs) 32
  let hdr := setByte hdr 6 (rb hdr 6 ||| (if poison then 0x20 else 0) ||| (if e2e.isEmpty then 0 else 1))
  let nres := s.resLines.length
  let area := hdr ++ ((read.take nres).flatten.drop 32)
  let area := (List.range s.results.length).foldl (fun a i =>
    let p := 32 + 16 * i
    if bad.getD (p / 64) false then setByte a (p + 10) 0x20
    else if e2e.contains (p / 256) then setByte a (p + 10) (rb a (p + 10) ||| 1) else a) area
  let (segs, _) := s.segs.foldl (fun (acc : List Byte × Nat) g =>
    let h := t.d.sramBytes (hsAddr tl g.hs) 64
    let pz := (List.range g.lines).any (fun i => bad.getD (acc.2 + i) false)
    let h := setByte h 6 (rb h 6 ||| (if pz then 0x20 else 0) ||| (if e2e.contains (acc.2 / 4) then 1 else 0))
    (acc.1 ++ h ++ ((read.drop (acc.2 + 1)).take (g.lines - 1)).flatten, acc.2 + g.lines)) ([], nres)
  let bs := area ++ segs
  (bs ++ List.replicate (s.length - bs.length) (0 : Byte),
    t.flagTile tl ((if poison then 0x20 else 0) ||| (if e2e.isEmpty then 0 else 1)))

/-- A PAD record that fills a ring to its end (R302). -/
def padRecord (n : Nat) : List Byte := List.replicate 24 0 ++ leBytes 4 n ++ List.replicate (n - 28) 0

/-- The first record that is ready drains, where it can (R302, R303, R471). -/
def Tx.drainOne (t : Tx d0) : Tx d0 :=
  match t.d.drainQ with
  | [] => t.wb R.ACQ_DRAIN_STAT.WAITING false
  | (tl, id, att) :: rest =>
    match t.d.shotOf tl id att with
    | none => t.upd (.drainQ rest)
    | some s =>
      match t.d.hsBad s tl with
      | some l =>
        let t := (t.readLine l 3 0x0A).ev R.ECC_EVT.REC_LOST
        (t.upd (.drainQ rest)).freeShot tl id att
      | none =>
        let size := (t.d.ring 0).size
        let w := 256 * t.f R.ACQ_DRAIN_WPTR.OFF
        let r := 256 * t.f R.ACQ_DRAIN_RPTR.OFF
        let len := s.length
        let pad := if size < w + len then size - w else 0
        if !t.b R.ACQ_DRAIN_CTL.EN || !t.d.cxlUp || size = 0 || (r % size + 2 * size - w - 256) % size < pad + len then
          t.wb R.ACQ_DRAIN_STAT.WAITING true
        else
          let (bs, t) := t.drainBytes tl s
          let t := if pad = 0 then t else t.ringWrite 0 w (padRecord pad)
          let at' := if pad = 0 then w else 0
          let t := (t.ringWrite 0 at' bs).w R.ACQ_DRAIN_WPTR.OFF ((at' + len) % size / 256)
          let t := ((t.upd (.drainQ rest)).freeShot tl id att).showAbove
          t.wb R.ACQ_DRAIN_STAT.WAITING false

end Sys2Proof.Machine
end

