-- ==== Sys2Proof/Machine/Coding.lean ====
section
/-! DEFINITION. The coding of a serial lane (R586 to R590): bit pairs, Gray symbols, precoding and the additive scrambler. -/
namespace Sys2Proof.Machine

/-- The Gray symbol of a bit pair (R587). -/
def graySym (pair : Nat) : Nat := [0, 1, 3, 2].getD pair 0

/-- The bit pair of a Gray symbol. -/
def grayPair (g : Nat) : Nat := [0, 1, 3, 2].getD g 0

/-- The nominal level of a symbol, in thirds of the outer one (R587). -/
def pamLevel (g : Nat) : Int := 2 * (g : Int) - 3

/-- The bit pairs of a cell in the order they are sent: symbol `k` carries bits [223 − 2k : 222 − 2k] (R586). -/
def cellPairs (bits : Nat) : List Nat := (List.range 112).map (fun k => bits / 2 ^ (222 - 2 * k) % 4)

/-- The cell whose bit pairs came in this order. -/
def pairsCell (l : List Nat) : Nat := l.foldl (fun v p => 4 * v + p) 0

/-- The transmitter's precoder from last symbol `p` (R588). -/
def precode : Nat → List Nat → List Nat
  | _, [] => []
  | p, g :: r => let q := (g + 4 - p % 4) % 4; q :: precode q r

/-- The receiver's inverse (R588). -/
def unprecode : Nat → List Nat → List Nat
  | _, [] => []
  | p, q :: r => ((q + p) % 4) :: unprecode q r

/-- One position of the scrambler (R589): the bit it gives and its next state of 31 bits. -/
def scrStep (s : Nat) : Bool × Nat :=
  let b := s.testBit 30 != s.testBit 27
  (b, (2 * s + b.toNat) % 2 ^ 31)

/-- Scramble or descramble bit pairs, the higher bit of a pair first. -/
def scramble : Nat → List Nat → List Nat × Nat
  | s, [] => ([], s)
  | s, p :: r =>
    let (a, s1) := scrStep s
    let (b, s2) := scrStep s1
    let (l, s3) := scramble s2 r
    ((p ^^^ (2 * a.toNat + b.toNat)) :: l, s3)

/-- The symbols a lane in service sends for a cell, and its scrambler and last symbol after it. -/
def codeCell (scr prev : Nat) (pre : Bool) (bits : Nat) : List Nat × Nat × Nat :=
  let (ps, scr) := scramble scr (cellPairs bits)
  let gs := ps.map graySym
  let out := if pre then precode prev gs else gs
  (out, scr, out.getLastD prev)

/-- The scrambler's state a cell later: it takes 224 positions, whatever the bits are. -/
def scrCell (s : Nat) : Nat := (scramble s (List.replicate 112 0)).2

/-- The symbols of a cell as a number of 224 bits, the first in its top bits. -/
def packSyms (syms : List Nat) : Nat := pairsCell syms

/-- The cell a receiver reads from the symbols of a lane in service. -/
def readCell (scr prev : Nat) (pre : Bool) (syms : List Nat) : Nat :=
  let gs := if pre then unprecode prev syms else syms
  pairsCell (scramble scr (gs.map grayPair)).1

end Sys2Proof.Machine
end

