-- ==== Sys2Proof/Machine/Fabric.lean ====
section
/-! DEFINITION. The decision fabric (chapter 09): cells and their CRC, the slot plan, what a port receives, the votes of
domain 0b10, and the handshakes of Anise mode. -/
namespace Sys2Proof.Machine

variable {d0 : Device}

/-! Cells (R312 to R316) -/

/-- One bit step of CRC-16 with polynomial 0x1021. -/
def crc16Bit (c : Nat) (b : Bool) : Nat :=
  let x := (c.testBit 15) != b
  (c * 2 % 65536) ^^^ (if x then 0x1021 else 0)

/-- CRC-16 over cell bytes 2 to 27, each byte most significant bit first (R314). -/
def cellCrc (bits : Nat) : Nat :=
  (List.range 26).foldl (fun c i =>
    (List.range 8).foldl (fun c j => crc16Bit c (bits.testBit (8 * (i + 2) + 7 - j))) c) 0xFFFF

/-- A cell with its CRC put in bits [15:0]. -/
def sealCell (bits : Nat) : Nat := bits / 65536 * 65536 + cellCrc bits

/-- The CRC of a cell agrees. -/
def cellGood (bits : Nat) : Bool := bits % 65536 == cellCrc bits

/-- Position and cycle of the cell that starts on tick `S` (R312). -/
def posAt (S : Nat) : Nat := S / 4 % 16
def cycAt (S : Nat) : Nat := S / 64

/-- The start tick of a cell whose last bit arrives now on a lane (R603): the nearest multiple of 4, midway rounded up. -/
def Device.startTick (d : Device) (p l : Nat) : Nat := (d.now.toNat - bget (fun _ => 0) d.lat (4 * p + l) + 2) / 4 * 4

/-- Cells travel on the lanes of ports in service, of a block that is awake (R312, R350). -/
def Device.hears (d : Device) (p : Nat) : Bool := d.b R.TB_STAT.AWAKE && d.b (R.FAB_PORT_STAT.IN_SERVICE p)

/-- The cell that a receiver reads from the symbols of a lane, given as `packSyms` packs them: precoding undone where its direction has it, then descrambled
(R588, R589). -/
def Device.readLine (d : Device) (p l line : Nat) : Nat :=
  let x := d.lane (4 * p + l)
  readCell x.rxScr x.rxPrev (d.b (R.LNK_LANE_STAT.PRECODE_RX p l)) (cellPairs line)

/-- A cell comes on a lane of a port in service: it is read from its symbols, whose last one the receiver keeps, and goes to what takes it. -/
def Tx.hear (t : Tx d0) (p l line : Nat) (g : Nat → Tx d0 → Tx d0) : Tx d0 :=
  if t.d.hears p then g (t.d.readLine p l line) (t.modLane (4 * p + l) (fun x => { x with rxHeard := some (line % 4) })) else t

/-! The slot plan (R317 to R319) -/

def Device.fabric (d : Device) : List (List Byte) := (d.img.act.map Image.fabric).getD []

/-- Port index of a LINK and PORT pair: 8 is the twin link. -/
def linkPort (link port : Nat) : Nat := if link = 1 then 8 else port

/-- The PORT record of a port. -/
def Device.portRec (d : Device) (p : Nat) : Option (List Byte) :=
  d.fabric.find? (fun r => rb r 0 == 1 && linkPort (rb r 1) (rb r 2) == p)

/-- Ports with a PORT record; in ALONE the twin port counts as absent until the next commit (R621). -/
def Device.usedPorts (d : Device) : List Nat :=
  (List.range 9).filter (fun p => (d.portRec p).isSome && !(p == 8 && d.twin.absent))

def Device.slotRec (d : Device) (s : Nat) : Option (List Byte) := d.fabric.find? (fun r => rb r 0 == 2 && rn r 2 2 == s)

/-- The lanes of a slot's two copies on a port. -/
def copyLanes (p lane : Nat) : List Nat := if p = 8 then [lane % 4, (lane + 2) % 4] else [0, 1]

/-- The class-2 routes that name a slot, in section order (R319). -/
def Device.slotRoutes (d : Device) (s : Nat) : List (List Byte) := d.routes.filter (fun r => rb r 8 == 2 && rn r 10 2 == s)

/-- The image runs in Anise mode. -/
def Device.aniseMode (d : Device) : Bool := (d.img.act.map (fun im => im.flags.testBit 1)).getD false

/-! Sending (R321, R325) -/

/-- A released code bit becomes pending for the class-2 routes that leave its outcome port (R321). -/
def Tx.pendCode (t : Tx d0) (tl port : Nat) (v : Bool) (E : Nat) : Tx d0 :=
  if !t.running || t.d.aniseMode then t
  else t.each (t.d.routes.filter (fun r => rb r 8 == 2 && t.d.routeFrom r tl port)) (fun r t =>
    let s := rn r 10 2
    let i := (t.d.slotRoutes s).findIdx (fun x => x == r)
    let q := bget (fun _ => []) t.d.txq s
    let t := if q.any (fun c => c.1 == i) then (t.ev R.FAB_EVT.TX_OVERRUN).inc R.FAB_CNT.OVERRUN else t
    t.upd (.txq s (q.filter (fun c => c.1 != i) ++ [(i, E + 96, v, E)])))

/-- Send a cell on both lanes of a slot's port. -/
def Tx.sendCopies (t : Tx d0) (p lane bits : Nat) : Tx d0 := t.each (copyLanes p lane) (fun l t =>
  (t.modLane (4 * p + l) (fun x => { x with sent := some bits })).send (.cell p l bits))

/-- The DECISION cell of a TX slot on this tick (R315, R316, R321), if a pending code may go. While its port is out of service the lanes carry no
cell (R312), and the code stays pending (DESIGN CHOICE, log 195). -/
def Tx.decisionSend (t : Tx d0) (s : Nat) : Tx d0 :=
  match t.d.slotRec s with
  | none => t
  | some r =>
    let S := t.now.toNat
    let q := bget (fun _ => []) t.d.txq s
    let go := q.filter (fun c => c.2.1 ≤ S)
    if rb r 1 ≠ 0 || !t.running || S % 4 ≠ 0 || posAt S ≠ rb r 8 || go.isEmpty || !t.b (R.FAB_PORT_STAT.IN_SERVICE (linkPort (rb r 6) (rb r 7))) then t
    else
      let ents := go.foldl (fun b (i, _, v, E) => b + (2 ^ 13 + v.toNat * 2 ^ 12 + E % 4096) * 2 ^ (32 + 14 * i)) 0
      let cell := 2 ^ 220 + posAt S * 2 ^ 216 + rb r 12 % 64 * 2 ^ 210 + cycAt S % 256 * 2 ^ 200 + ents
      let t := t.badTable.2.upd (.txq s (q.filter (fun c => S < c.2.1)))
      t.sendCopies (linkPort (rb r 6) (rb r 7)) (rb r 9) (sealCell cell)

/-! Receiving (R322 to R324) -/

/-- A bad copy on a lane of a port (R322). -/
def Tx.badCopy (t : Tx d0) (p l : Nat) : Tx d0 :=
  let F := if l = 0 then R.FAB_PORT_ERR.LANE0 p else if l = 1 then R.FAB_PORT_ERR.LANE1 p else if l = 2 then R.FAB_PORT_ERR.LANE2 p
    else R.FAB_PORT_ERR.LANE3 p
  (t.inc F).ev R.FAB_EVT.COPY_ERR

/-- The RX or RELAY slot whose message stands at this position of a lane. -/
def Device.slotAt (d : Device) (p l pos : Nat) : Option (List Byte) :=
  d.fabric.find? (fun r => rb r 0 == 2 && rb r 1 != 0 && linkPort (rb r 4) (rb r 5) == p && rb r 8 == pos && (copyLanes p (rb r 9)).contains l)

/-- Note a message of a slot, with a good copy or with a bad one. -/
def Tx.noteCopy (t : Tx d0) (s S : Nat) (copy : Option (Nat × Nat)) : Tx d0 :=
  let q := bget (fun _ => []) t.d.rx s
  let m : RxMsg := (q.find? (fun m => m.start == S)).getD { start := S }
  let m := match copy with
    | some c => { m with copies := m.copies ++ [c] }
    | none => m
  t.upd (.rx s (q.filter (fun m => m.start != S && decide (t.now.toNat < m.start + 1024)) ++ [m]))

/-- A DECISION copy arrives on a lane (R322). -/
def Tx.decisionCell (t : Tx d0) (p l bits : Nat) : Tx d0 :=
  let S := t.d.startTick p l
  let pos := posAt S
  let slot := t.d.slotAt p l pos
  let typed := bits / 2 ^ 220 = 1
  let placed := bitsOf bits 219 216 = pos && bitsOf bits 207 200 = cycAt S % 256
  let late := S + 160 < t.now.toNat
  let src : Bool := match slot with
    | some r => bitsOf bits 215 210 == rb r 12 % 64
    | none => true
  let ok := cellGood bits && typed && pos ≤ 13 && placed && src
  let t := if cellGood bits && typed && !placed then t.ev R.FAB_EVT.CYC_ERR else t
  let t := if ok && late then (t.inc (R.FAB_PORT_LOST.LATE_COPY p)).ev R.FAB_EVT.LATE_COPY else t
  let t := if ok && !late then t else t.badCopy p l
  match slot with
  | none => t
  | some r =>
    let s := rn r 2 2
    if ok && !late then
      let old := ((bget (fun _ => []) t.d.rx s).find? (fun m => m.start == S)).bind (fun m => m.copies.head?)
      let t := match old with
        | some (l0, b0) => if b0 = bits then t else t.badCopy p (max l0 l)
        | none => t
      t.noteCopy s S (some (l, bits))
    else t.noteCopy s S none

/-- The copy a receiver takes of a message: the first good one, or the lower lane's where contents differ; none where
neither is good. -/
def RxMsg.taken (m : RxMsg) : Option Nat :=
  match m.copies with
  | [] => none
  | (l, b) :: r => some (r.foldl (fun (x : Nat × Nat) c => if c.2 ≠ x.2 && c.1 < x.1 then c else x) (l, b)).2

/-- A slot's message that started on tick `S`: `none` where none came though the port is in service; else the cell taken, or
none of both copies. A port out of service loses every message (R350). -/
def Device.message (d : Device) (r : List Byte) (S : Nat) : Option (Option Nat) :=
  if S % 4 ≠ 0 || posAt S ≠ rb r 8 then none
  else match (bget (fun _ => []) d.rx (rn r 2 2)).find? (fun m => m.start == S) with
    | some m => some m.taken
    | none => if d.b (R.FAB_PORT_STAT.IN_SERVICE (linkPort (rb r 4) (rb r 5))) then none else some none

/-- The tick whose low 12 bits are STAMP and that is the latest not after `now` (R316). -/
def fullStamp (now stamp : Nat) : Nat := now - (now + 4096 - stamp % 4096) % 4096

/-- An RX slot delivers its entries on tick S + 180, or marks their ports LOST (R323, R324). -/
def Tx.slotDelivery (t : Tx d0) (s : Nat) : Tx d0 :=
  match t.d.slotRec s with
  | none => t
  | some r =>
    let now := t.now.toNat
    if rb r 1 ≠ 2 || now < 180 || !t.running then t
    else match t.d.message r (now - 180) with
      | none => t
      | some m =>
        let p := linkPort (rb r 4) (rb r 5)
        let t := t.badTable.2.upd (.rx s ((bget (fun _ => []) t.d.rx s).filter (fun m => m.start != now - 180)))
        let ports := (t.d.slotRoutes s).map (fun r => t.d.routeTo r)
        let lost := fun (t : Tx d0) =>
          let t := t.each ports.flatten (fun n t => t.upd (.port n { t.d.port n with lost := true }))
          ((t.inc R.FAB_CNT.LOST).ev R.FAB_EVT.LOST).inc (R.FAB_PORT_LOST.LOST p)
        match m with
        | none => lost t
        | some bits =>
          if bits.testBit 31 then lost t
          else t.each ports.zipIdx (fun (ps, i) t =>
            let ent := bits / 2 ^ (32 + 14 * i) % 2 ^ 14
            if ent.testBit 13 then t.each ps (fun n t => t.deliver n (ent.testBit 12) (fullStamp now ent)) else t)

/-- A RELAY slot sends its message on with HOPS one higher on tick S + 184, or sends LOSTUP (R325), where its port is in service (R312). -/
def Tx.relaySend (t : Tx d0) (s : Nat) : Tx d0 :=
  match t.d.slotRec s with
  | none => t
  | some r =>
    let S := t.now.toNat
    if rb r 1 ≠ 1 || S < 184 || !t.running then t
    else match t.d.message r (S - 184) with
      | none => t
      | some m =>
        let t := t.badTable.2.upd (.rx s ((bget (fun _ => []) t.d.rx s).filter (fun m => m.start != S - 184)))
        let head := fun (hops : Nat) => 2 ^ 220 + posAt S * 2 ^ 216 + rb r 12 % 64 * 2 ^ 210 + hops % 4 * 2 ^ 208 + cycAt S % 256 * 2 ^ 200
        let (cell, t) := match m with
          | some bits => (head (bitsOf bits 209 208 + 1) + bits % 2 ^ 200, t)
          | none => let (h, t) := t.open; (head h + 2 ^ 31, t)
        let p := linkPort (rb r 6) (rb r 7)
        t.when (t.b (R.FAB_PORT_STAT.IN_SERVICE p)) (fun t => t.sendCopies p (rb r 9) (sealCell cell))

/-! STATUS (R104, R105, R328 to R330) -/

def Device.statIn (d : Device) (p : Nat) : StatIn := bget (fun _ => {}) d.stats p

/-- PLAN_ID of the committed image. -/
def Device.planId (d : Device) : Nat := (d.img.act.map Image.plan).getD 0

/-- Bring TB_STAT.SYNC_OK, PLAN_MISMATCH and FAB_STAT.PORTS_OK up to date (R83, R105, R329). -/
def Tx.showPorts (t : Tx d0) : Tx d0 :=
  let used := t.d.usedPorts
  let okAll := used.all (fun p => t.b (R.FAB_PORT_STAT.EPOCH_OK p))
  let solo := t.d.planId = 0 && !used.contains 8
  let t := t.wb R.TB_STAT.SYNC_OK (t.b R.TB_STAT.SYNCED && (solo || okAll))
  let t := t.wb R.FAB_STAT.PORTS_OK (t.d.img.act.isSome && used.all (fun p => t.b (R.FAB_PORT_STAT.IN_SERVICE p) && t.b (R.FAB_PORT_STAT.NBR_OK p)))
  t.wb R.GLB_IMG_STAT.PLAN_MISMATCH (used.any (fun p => (t.d.statIn p).whole.any (fun x => x != t.d.planId)))

/-- A summary of a unit comes by a port in a cell that started on tick `S`, aged `age` then (R49, R330). During a run it tells nothing of flags
where it was formed before the run's first tick (R46). -/
def Tx.hearSum (t : Tx d0) (p n sum S age : Nat) : Tx d0 :=
  let word := if t.running && S - age < t.d.run.first.toNat then dropFlags sum else sum
  if n < 2 ^ 24 && nameOk n then t.upd (.sum (p * 2 ^ 24 + n) (some (word, t.d.age - (t.now.toNat - S) - age))) else t

/-- A STATUS copy is good: CRC, type and position. -/
def Device.statusGood (d : Device) (p l bits : Nat) : Bool :=
  cellGood bits && bits / 2 ^ 220 == 2 && posAt (d.startTick p l) == 14 && bitsOf bits 219 216 == 14 && (p < 8 || l % 2 == 0)

/-- A copy of a cell of fixed position is bad; one whose POS is not the position at which it stands sets CYC_ERR (R350). -/
def Tx.badFixed (t : Tx d0) (p l bits kind : Nat) : Tx d0 :=
  let off := cellGood bits && bits / 2 ^ 220 == kind && bitsOf bits 219 216 != posAt (t.d.startTick p l)
  (if off then t.ev R.FAB_EVT.CYC_ERR else t).badCopy p l

/-- The copy held of a cell that another good copy differs from, by their lanes: the higher lane's is bad (R350). -/
def Tx.otherCopy (t : Tx d0) (p l bits : Nat) (held : Option (Nat × Nat)) : Tx d0 :=
  match held with
  | some (l0, b0) => if b0 = bits then t else t.badCopy p (max l0 l)
  | none => t

/-- The copy held of the cell that starts on tick `S`. -/
def StatIn.copy (x : StatIn) (S : Nat) : Option (Nat × Nat) := (x.cells.find? (fun c => c.1 == S)).map Prod.snd

/-- The good STATUS cells of a port with a copy of the one that starts on tick `S` taken in: of two copies that differ the lower lane's. A cell is good
where one of its copies is. Cells from beyond 512 ticks ahead belong to an epoch that a sync has replaced. -/
def StatIn.note (x : StatIn) (S l bits : Nat) : List (Nat × Nat × Nat) :=
  if x.cells.any (fun c => decide (S + 512 < c.1)) then [(S, l, bits)]
  else match x.copy S with
    | some (l0, b0) => if l < l0 && bits ≠ b0 then x.cells.map (fun c => if c.1 = S then (S, l, bits) else c) else x.cells
    | none => (x.cells.filter (fun c => decide (S < c.1)) ++ (S, l, bits) :: x.cells.filter (fun c => decide (c.1 < S))).take 8

/-- The PLAN_ID that 8 good cells in a row, each 64 ticks after the last, carry between them. -/
def planOf (cells : List (Nat × Nat × Nat)) : Option Nat :=
  let first := (cells.headD (0, 0, 0)).1
  if cells.length = 8 && cells.zipIdx.all (fun c => c.1.1 + 64 * c.2 == first) then
    some (cells.foldl (fun n c => n + bitsOf c.2.2 36 29 * 2 ^ (8 * bitsOf c.2.2 39 37)) 0)
  else none

/-- What a good copy of a STATUS cell that started on tick `S` adds to what its port's cells have told. -/
def StatIn.next (x : StatIn) (S l bits : Nat) : StatIn :=
  let cells := x.note S l bits
  { cells := cells, whole := (planOf cells).or x.whole }

/-- A STATUS copy arrives on a lane (R329, R344): it tells what it tells where it is the copy taken of the latest good cell. -/
def Tx.statusCell (t : Tx d0) (p l bits : Nat) : Tx d0 :=
  let S := t.d.startTick p l
  let x := t.d.statIn p
  if !t.d.statusGood p l bits then t.badFixed p l bits 2
  else
    let y := x.next S l bits
    let src := bitsOf bits 215 210
    let t := (t.otherCopy p l bits (x.copy S)).upd (.stat p y)
    let t := if y.whole.isSome then t.wb (R.FAB_PORT_STAT.PLAN_OK p) (y.whole == some t.d.planId) else t
    let t := if y.cells.head? = x.cells.head? || y.cells.head? ≠ some (S, l, bits) then t
      else
        let t := (t.w (R.FAB_PORT_STAT.NBR_DEV p) src).wb (R.FAB_PORT_STAT.NBR_OK p) ((t.d.portRec p).map (fun r => rb r 3) == some src)
        let t := t.wb (R.FAB_PORT_STAT.EPOCH_OK p) (bitsOf bits 207 144 == S % 2 ^ 64)
        let t := t.w (R.FAB_PORT_STAT.CREDITS p) (bitsOf bits 19 16)
        (t.hearSum p (devName src) (bitsOf bits 143 112) S 0).hearSum p (bitsOf bits 111 88) (bitsOf bits 87 56) S (bitsOf bits 55 40)
    t.showPorts

/-! Anise mode (R341 to R349) -/

/-- An ANISE cell without its CRC and credits (R341). -/
def aniseCell (kind src hops tag source oport dest fport stamp : Nat) (v : Bool) : Nat :=
  4 * 2 ^ 220 + kind * 2 ^ 216 + src % 64 * 2 ^ 210 + hops % 4 * 2 ^ 208 + tag % 256 * 2 ^ 200 + source % 2 ^ 24 * 2 ^ 176 +
    oport % 256 * 2 ^ 168 + dest % 2 ^ 24 * 2 ^ 144 + fport % 256 * 2 ^ 136 + stamp % 2 ^ 64 * 2 ^ 72 + v.toNat * 2 ^ 71

def Tx.modAnise (t : Tx d0) (g : Anise → Anise) : Tx d0 := t.upd (.anise (g t.d.anise))

def Device.dev (d : Device) : Nat := d.f R.GLB_UNIT_SELF.DEV

/-- The class-2 route that feeds a fork-input port of this device, if any. -/
def Device.routeInto (d : Device) (port : Nat) : Option (List Byte) := d.routes.find? (fun r => rb r 8 == 2 && (d.routeTo r).contains port)

/-- The outcome port that a unit's port stands for, as the read-out channel that owns it (R54, R251, R341). -/
def Device.outcomeLeaves (d : Device) (n port : Nat) : List (Nat × Nat) :=
  (d.tree.leaves 0 8 n port).map (fun (u, p) => if nameLevel u = 1 then (chanName (nameDev u) (nameIndex u) 5, p) else (u, p))

/-- The read-out channel and outcome port that a route leaves (R341); a unit of another device that this image does not describe stands for itself. -/
def Device.routeSource (d : Device) (r : List Byte) : Nat × Nat := (d.outcomeLeaves (rn r 0 3) (rb r 3)).headD (rn r 0 3, rb r 3)

/-- Begin the handshakes that wait, while the engine has fewer than 16 asked (R345, R347): each sends its REQUEST. -/
def Tx.askMore (t : Tx d0) (e : Nat) : Tx d0 :=
  t.each t.d.anise.shakes (fun h t =>
    let out := (t.d.anise.shakes.filter (fun x => x.e == e && x.asked)).length
    if h.e = e && !h.asked && out < 16 then
      match t.d.routeInto h.port with
      | none => t
      | some r =>
        match t.d.slotRec (rn r 10 2) with
        | none => t
        | some s =>
          let (source, oport) := t.d.routeSource r
          let cell := aniseCell 1 t.d.dev 0 h.tag source oport (tileName t.d.dev (h.port / 64)) (h.port % 64) h.stamp false
          let t := t.modAnise (fun a => { a with
            shakes := a.shakes.map (fun x => if x == h then { x with asked := true, since := t.now.toNat } else x)
            out := a.out ++ [(linkPort (rb s 4) (rb s 5), rb s 9, cell)] })
          if t.f R.FAB_ANISE.MAX_OUT < out + 1 then t.w R.FAB_ANISE.MAX_OUT (out + 1) else t
    else t)

/-- The tag of the next handshake: the next one that no outstanding handshake has, else the next one (DESIGN CHOICE, log 196). -/
def Anise.nextTag (a : Anise) : Nat :=
  (((List.range 256).map (fun k => (a.tag + k) % 256)).find? (fun k => !a.shakes.any (fun h => h.tag == k))).getD a.tag

/-- Start handshakes for the ports named (R345). -/
def Tx.askPorts (t : Tx d0) (e stamp : Nat) (ports : List Nat) : Tx d0 :=
  let t := t.each ports (fun p t => t.modAnise (fun a => { a with
    shakes := a.shakes ++ [{ e := e, tag := a.nextTag, port := p, since := t.now.toNat, asked := false, stamp := stamp }], tag := (a.nextTag + 1) % 256 }))
  t.askMore e

/-- The outstanding handshake that a GRANT answers: that of its TAG, for its fork-input port (R347; log 196). -/
def Device.granted (d : Device) (bits : Nat) : Option Shake :=
  d.anise.shakes.find? (fun h => h.asked && h.tag == bitsOf bits 207 200 && h.port == 64 * (bitsOf bits 167 144 % 32) + bitsOf bits 143 136 % 64)

/-- The handshakes of an engine are cancelled (R347). -/
def Tx.dropShakes (t : Tx d0) (e : Nat) : Tx d0 := t.modAnise (fun a => { a with shakes := a.shakes.filter (fun h => h.e != e) })

/-- A port that a waiting fork awaits has been answered or given up: the fork is ready on this tick once none is left. -/
def Tx.shakeEnd (t : Tx d0) (e port : Nat) : Tx d0 :=
  match (t.d.eng e).anise with
  | none => t
  | some w =>
    let left := w.await.filter (fun q => q != port)
    t.modEng e (fun x => { x with anise := some { w with await := left, ready := if left.isEmpty then some t.now else none } })

/-- The GRANT that answers a REQUEST cell, put in the queue of the port and lanes it came by (R346). -/
def Tx.grant (t : Tx d0) (p l req : Nat) (v : Bool) (stamp : Nat) : Tx d0 :=
  let cell := aniseCell 2 t.d.dev 0 (bitsOf req 207 200) (bitsOf req 199 176) (bitsOf req 175 168) (bitsOf req 167 144) (bitsOf req 143 136) stamp v
  t.modAnise (fun a => { a with out := a.out ++ [(p, l, cell)] })

/-- The outcome port of this device, 32 per tile, that a REQUEST names: that of a read-out channel, by the boundary tables where it names a group
(R54). -/
def Device.reqPort (d : Device) (req : Nat) : Option Nat :=
  ((d.outcomeLeaves (bitsOf req 199 176) (bitsOf req 175 168)).find? (fun (n, p) =>
    nameDev n == d.f R.GLB_UNIT_SELF.DEV && nameLevel n == 0 && n % 32 == 5 && decide (p < 32))).map (fun (n, p) => 32 * tileOfName n + p)

/-- A new code bit answers the REQUESTs that wait for it (R346). -/
def Tx.answerAsked (t : Tx d0) (n : Nat) (v : Bool) (E : Nat) : Tx d0 :=
  let t := t.upd (.code n (some (v, E)))
  let mine := fun (c : Nat × Nat × Nat) => t.d.reqPort c.2.2 == some n && decide (bitsOf c.2.2 135 72 ≤ E)
  let go := t.d.anise.asked.filter mine
  let t := t.modAnise (fun a => { a with asked := a.asked.filter (fun c => !mine c) })
  t.each go (fun c t => t.grant c.1 c.2.1 c.2.2 v E)

/-- The first of the two lanes on which the copies of a cell travel, of either of them (R321). -/
def laneHead (p l : Nat) : Nat := if p = 8 then l % 2 else 0

/-- What every ANISE cell received does: the copy is judged (R343), its credits come back (R344), its place in the buffer
is returned, and the other copy is discarded. The answer says whether to act on it. -/
def Tx.aniseIn (t : Tx d0) (p l bits kind : Nat) : Bool × Tx d0 :=
  let S := t.d.startTick p l
  let k := bitsOf bits 219 216
  let nbr := (t.d.portRec p).map (fun r => rb r 3)
  let good := cellGood bits && bits / 2 ^ 220 = 4 && 1 ≤ k && k ≤ 3 && posAt S ≤ 13 && nbr == some (bitsOf bits 215 210)
  if !t.d.hears p || !(portLanes p).contains l then (false, t)
  else if !good then (false, t.badCopy p l)
  else if t.d.anise.seen.contains (p, laneHead p l, S) || k ≠ kind then (false, t)
  else
    let t := t.modAnise (fun a => { a with seen := a.seen.filter (fun x => x.2.2 ≤ S + 512 && S ≤ x.2.2 + 512) ++ [(p, laneHead p l, S)] })
    let bal := bget (fun _ => 0) t.d.credit p
    let t := t.upd (.credit p (min (t.f (R.FAB_PORT_STAT.CREDITS p)) (bal + bitsOf bits 70 68)))
    let owe := bget (fun _ => 0) t.d.credit (16 + p)
    (true, t.upd (.credit (16 + p) (min 8 (owe + 1))))

/-- Forward an ANISE cell that is not for this device (R342): a REQUEST against the direction of its slot, a GRANT with it. -/
def Tx.aniseRelay (t : Tx d0) (p bits : Nat) (back : Bool) : Tx d0 :=
  let from' := bitsOf bits 199 192 % 64
  let to' := bitsOf bits 167 160 % 64
  let r := t.d.fabric.find? (fun r => rb r 0 == 2 && rb r 1 == 1 && (rb r 12 == from' || bitsOf bits 199 192 == 0xFF) && rb r 13 == to' &&
    (if back then linkPort (rb r 6) (rb r 7) else linkPort (rb r 4) (rb r 5)) == p)
  match r with
  | none => t
  | some r =>
    let out := if back then linkPort (rb r 4) (rb r 5) else linkPort (rb r 6) (rb r 7)
    let hops := (bitsOf bits 209 208 + 1) % 4
    let cell := bits / 2 ^ 216 * 2 ^ 216 + t.d.dev % 64 * 2 ^ 210 + hops * 2 ^ 208 + bits % 2 ^ 208 / 2 ^ 71 * 2 ^ 71
    t.modAnise (fun a => { a with out := a.out ++ [(out, rb r 9, cell)] })

/-- The position that begins on this tick is free on the two lanes of a cell (R342). -/
def Device.laneFree (d : Device) (p lane : Nat) : Bool := (copyLanes p lane).all (fun l => (d.lane (4 * p + l)).sent.isNone)

/-- The first lane of the two that a CREDIT cell takes on a port: that of a slot that uses the port (R342; DESIGN CHOICE, log 166). -/
def Device.aniseLane (d : Device) (p : Nat) : Nat :=
  match d.fabric.find? (fun r => rb r 0 == 2 && (linkPort (rb r 4) (rb r 5) == p || linkPort (rb r 6) (rb r 7) == p)) with
  | some r => rb r 9
  | none => 0

end Sys2Proof.Machine
end

