-- ==== Sys2Proof/Machine/TwinMode.lean ====
section
/-! DEFINITION. The modes of a Cupola's member (chapter 19): the lines TWIN_SEL, QOK, the live TWIN record, roles, and the attach and the detach that are
asked for (R615 to R620, R630, R635). -/
namespace Sys2Proof.Machine

variable {d0 : Device}

/-! TWIN_SEL (R615, R618) -/

/-- Drive the TWIN_SEL lines. While VDD_SVC or VDD_AON is absent a pull-down holds each low (R716). -/
def Tx.drive (t : Tx d0) (sel : Nat) : Tx d0 := t.w R.TWIN_STAT.SEL (if t.d.power.svc && t.d.power.aon then sel else 0)

/-- The Watch drives every TWIN_SEL low (R615). -/
def Tx.dropSel (t : Tx d0) : Tx d0 := t.drive 0

/-- A quadrant has an engine in STATE FAULT. -/
def Device.quadFaulted (d : Device) (q : Nat) : Bool := (List.range 16).any (fun i => d.f (R.SCH_STAT.STATE (16 * q + i)) == 3)

/-- Own QOK (R630). -/
def Tx.showQok (t : Tx d0) : Tx d0 :=
  let ok := fun (q : Nat) => t.f R.TWIN_STAT.STATE = 2 && !(t.f R.TWIN_STAT.DIVERGED).testBit q && !t.d.quadFaulted q &&
    !(t.f R.TWIN_STAT.ROLE = 1 && t.d.twin.handed.testBit q)
  t.w R.TWIN_STAT.QOK ((List.range 4).foldl (fun v q => if ok q then v + 2 ^ q else v) 0)

/-- The member enters SOLO: a CLAIM that was held applies (R618, R636). The absence of the twin port outlasts it, but for a detach (R621). -/
def Tx.toSolo (t : Tx d0) : Tx d0 :=
  let t := t.each t.d.twin.claim.toList (fun c t => t.w R.TWIN_CTL.CLAIM c)
  let t := (t.modTwin (fun x => { absent := x.absent })).w R.TWIN_STAT.STATE 0
  ((t.w R.TWIN_STAT.ROLE 0).drive (t.f R.TWIN_CTL.CLAIM)).showQok

/-! The live TWIN record (R617, R635) -/

/-- Name of this device's Cupola under the committed image; 0x00_FFFF, which names no unit, where it has none. -/
def Device.cupola (d : Device) : Nat :=
  match d.img.act.bind (fun im => im.structs.find? (fun r => rb r 0 == 6)) with
  | some r => rn r 4 3
  | none => 0xFFFF

/-- Device number of the twin, as the PORT record of the twin link gives it. -/
def Device.peerDev (d : Device) : Nat := match d.portRec 8 with | some r => rb r 3 | none => 0

/-- The live TWIN record; the failed state uses none (R518). -/
def Device.keepTwin (d : Device) : Option KRec := if d.keep.wear = 2 then none else d.live 5 0

/-- Body of the live TWIN record; zeros where there is none. -/
def Device.twinRec (d : Device) : List Byte := (d.keepTwin.map KRec.body).getD (List.replicate 64 0)

/-- Body of the TWIN record as it was asked for last: a commit that is still staged stands for the record it will be (R506, R635). -/
def Device.twinLast (d : Device) : List Byte :=
  ((d.keep.queue.filter (fun q => q.cls == 5 && q.key == 0)).getLast?.map KReq.body).getD d.twinRec

/-! Roles and modes (R617 to R620) -/

/-- The live TWIN record names this device's Cupola and records LEAD. -/
def Device.recordsLead (d : Device) : Bool := d.keepTwin.isSome && rn d.twinRec 0 3 == d.cupola && rb d.twinRec 4 == 1

/-- The role of an attaching member once the peer has shown its own (R617): 1 LEAD, 2 FOLLOW. -/
def Device.myRole (d : Device) : Nat :=
  if d.recordsLead && d.twin.peerRole ≠ 1 then 1
  else if !d.recordsLead && d.twin.peerRole = 1 then 2
  else if d.dev < d.peerDev then 1 else 2

/-- An attaching member sees the role of its peer and takes its own: a LEAD drives its lines, and one that becomes FOLLOW drops them (R617, R618). -/
def Tx.seeRole (t : Tx d0) (peer : Nat) : Tx d0 :=
  let t := t.modTwin (fun x => { x with peerRole := peer })
  let was := t.f R.TWIN_STAT.ROLE
  let t := t.w R.TWIN_STAT.ROLE t.d.myRole
  if t.f R.TWIN_STAT.ROLE = 1 then t.drive 15 else if was ≠ 2 then t.drive 0 else t

/-- ATTACHING begins (R618, R619): until the peer has shown its role, ROLE shows LEAD where the record does. The lines of a member that may become LEAD, by
its record or by its device number, are high from the start of the mode (DESIGN CHOICE, log 127). -/
def Tx.attachStart (t : Tx d0) : Tx d0 :=
  let now := t.d.age
  let lead := t.d.recordsLead
  let t := t.modTwin (fun x => { began := now, claim := x.claim, absent := x.absent })
  let t := ((t.doneS R.TWIN_CTL.ATTACH).w R.TWIN_STAT.STATE 1).w R.TWIN_STAT.ROLE lead.toNat
  (t.drive (if lead || decide (t.d.dev < t.d.peerDev) then 15 else 0)).showQok

/-- A detach (R620): the FOLLOW drops its lines; the LEAD, and a member in ALONE, keep theirs as CLAIM. -/
def Tx.detach (t : Tx d0) : Tx d0 :=
  let t := ((t.doneS R.TWIN_CTL.DETACH).modTwin (fun x => { x with absent := false })).showPorts
  if t.f R.TWIN_STAT.STATE = 0 then t
  else
    let follow := t.f R.TWIN_STAT.ROLE = 2 && t.f R.TWIN_STAT.STATE ≠ 3
    let t := if follow then (t.drive 0).w R.TWIN_CTL.CLAIM 0 else t.w R.TWIN_CTL.CLAIM (t.f R.TWIN_STAT.SEL)
    ((t.toSolo).ev R.TWIN_EVT.DETACHED).showPorts

/-- A detach and an attach that have been asked for take effect on a tick with no run. -/
def Tx.twinAsked (t : Tx d0) : Tx d0 :=
  if t.running then t
  else
    let t := if t.b R.TWIN_CTL.DETACH then t.detach else t
    if t.b R.TWIN_CTL.ATTACH then t.attachStart else t

end Sys2Proof.Machine
end

