-- ==== Sys2Proof/Machine/Run.lean ====
section
/-! DEFINITION. A run as a whole: the directory of streams, the checks of a start (R700 to R704), its first tick, its end
(R201), an engine's halt (R369, R652), a void (R194 to R196), and a run that the part stops (R109). -/
namespace Sys2Proof.Machine

variable {d0 : Device}

/-! Streams of the committed image (R155, R156) -/

/-- The directory entry of an engine: first operation, operation count, start record and start domain. -/
def Device.stream? (d : Device) (e : Nat) : Option (Nat × Nat × Nat × Nat) :=
  match d.img.act with
  | none => none
  | some im =>
    let r := im.dir.getD e []
    if rn r 4 4 = 0 then none else some (rn r 0 4, rn r 4 4, rn r 8 4, rb r 12)

/-- Engines with a stream. -/
def Device.streams64 (d : Device) : List Nat := (List.range 64).filter (fun e => (d.stream? e).isSome)

/-- Vote lead of a hold domain (R184). -/
def leadOf (dom : Nat) : Nat := if dom = 0 then 64 else if dom = 1 then 192 else 1024

/-- The other engines of this device that share a hold domain with an engine: those whose stream is live (R184, R192). -/
def Device.fellows (d : Device) (e dom : Nat) : List Nat :=
  if dom = 0 then [e / 2 * 2, e / 2 * 2 + 1] else d.streams64

/-! Wakes (R666, R667) -/

/-- The conditions of R667 that are missing, as PWR_STAT.WAIT shows them. -/
def Device.wakeMiss (d : Device) : Nat :=
  (!d.b R.TB_STAT.REF_OK).toNat + 2 * (!d.b R.KEEP_STAT.READY).toNat + 4 * (d.f R.WATCH_STAT.STATE != 1).toNat +
  8 * (!d.power.pwrfailN || !d.power.pwrfailOk).toNat + 16 * (d.b R.THM_STAT.SHUTDOWN).toNat + 32 * (d.f R.PWR_TILE_STAT.UP != 0).toNat

/-- Show what a held wake waits for. -/
def Tx.showWait (t : Tx d0) : Tx d0 := t.w R.PWR_STAT.WAIT (if t.d.power.wakeReq && t.f R.PWR_STAT.STATE = 0 then t.d.wakeMiss else 0)

/-- A wake is requested, where the fast clocks sleep or are about to; one under way serves the request (R666). -/
def Tx.wakeUp (t : Tx d0) : Tx d0 :=
  if t.f R.PWR_STAT.STATE = 0 || t.f R.PWR_STAT.STATE = 3 then (t.modPower (fun p => { p with wakeReq := true })).showWait else t

/-! The checks of a start (R701, R702) -/

/-- A hold of R702 is in force: a commit in progress, a range switch, a pair powering up, a wake, or a sync between its sampling edge and its load
edge; and, without a FABRIC plan, settling, or settings of the last run that have still to take effect (R393, R394). -/
def Device.startHeld (d : Device) : Bool :=
  d.f R.GLB_IMG_STAT.LOAD_STATE == 3 ||
  d.rangeT0.any (fun c => c.2.isSome) ||
  (d.fabric.isEmpty && ((List.range 160).any (fun c => d.b (R.NCO_OUT_CFG.SETTLING c)) || d.outCfgs.any (fun c => c.2.ripe))) ||
  d.f R.PWR_TILE_STAT.UP != 0 ||
  !d.b R.TB_STAT.AWAKE ||
  !d.time.sync.isEmpty

/-- The FABRIC plan's reason to refuse a start (R336, R348): 0 none. -/
def Device.fabricRefuse (d : Device) : Nat :=
  if d.fabric.isEmpty then 0
  else
    let start := d.f64 R.FAB_START_LO.START R.FAB_START_HI.START
    if start % 2048 ≠ 0 then 1
    else if start < d.run.asked.toNat + 4096 then 2
    else if d.usedPorts.any (fun p => !d.b (R.FAB_PORT_STAT.IN_SERVICE p) || !d.b (R.FAB_PORT_STAT.NBR_OK p)) then 3
    else if d.aniseMode && d.usedPorts.any (fun p => d.f (R.FAB_PORT_STAT.CREDITS p) < 4) then 4
    else 0

/-- A tile with a stream lies in a pair that is off; a pair that is powering up holds the start instead (R660, R661). -/
def Device.streamOff (d : Device) : Bool :=
  d.streams64.any (fun e => !d.tileOn (e / 2) && !(d.f R.PWR_TILE_STAT.UP).testBit (e / 4))

/-- No run is in progress and no start is pending. -/
def Device.idle (d : Device) : Bool := !d.running && !d.b R.GLB_RUN_STAT.PENDING

/-- Deferred classes are to start before a new run does (R419). -/
def Device.calNext (d : Device) : Bool := d.f R.CAL_REQ_STAT.PENDING != 0 && d.idle

/-- A deferred self-test is to start before a new run does (R687). -/
def Device.testNext (d : Device) : Bool := d.st.later.isSome && d.idle

/-- The first check of R701 that fails, in table order; 0 for none. `cal` and `test`: deferred classes, or a deferred self-test, are to start first. -/
def Device.startRefuseFor (d : Device) (cal test : Bool) : Nat :=
  let mirror := (d.img.act.map (fun im => im.flags.testBit 0)).getD false
  let plan := (d.img.act.map Image.plan).getD 0
  let twin := d.f R.TWIN_STAT.STATE
  if !d.b R.GLB_IMG_STAT.ACTIVE && d.f R.GLB_IMG_STAT.LOAD_STATE != 3 then 1
  else if d.b R.GLB_IMG_STAT.PLAN_MISMATCH then 2
  else if (plan ≠ 0 || mirror) && !d.b R.TB_STAT.SYNC_OK then 3
  else if d.b R.FW_STAT.RECOVERY then 4
  else if d.b R.THM_STAT.SHUTDOWN || d.b R.THM_STAT.RATE_CLAMP then 5
  else if d.streamOff || !d.power.pwrfailOk then 6
  else if !d.b R.ACQ_DRAIN_CTL.EN then 7
  else if d.b R.CAL_STAT.FG_BUSY || d.b R.CAL_STAT.INITIAL || cal then 8
  else if d.b R.GLB_ST_STAT.BUSY || test then 9
  else if mirror && twin ≠ 2 && twin ≠ 3 then 10
  else if d.fabricRefuse ≠ 0 then 11
  else 0

/-- The check of a start that is pending. -/
def Device.startRefuse (d : Device) : Nat := d.startRefuseFor false false

/-- Refuse a start with a code of R701 and the report of the owning block. -/
def Tx.refuseRun (t : Tx d0) (code : Nat) : Tx d0 :=
  let t := (((t.wb R.GLB_RUN_STAT.PENDING false).ev R.GLB_RUN_STAT.REFUSED).w R.GLB_RUN_STAT.REFUSE code).ripenHeld
  match code with
  | 3 => t.ev R.TB_STAT.NOSYNC_RUN
  | 5 => t.ev R.THM_EVT.RUN_REFUSED
  | 6 => (t.ev R.PWR_EVT.RUN_REFUSED).w R.PWR_STAT.REFUSE (if t.d.streamOff then 1 else 2)
  | 7 => t.ev R.ACQ_DRAIN_STAT.NORUN
  | 8 => t.ev R.CAL_EVT.RUN_REFUSED
  | 9 => t.ev R.GLB_ST_STAT.RUN_REFUSED
  | 10 => (t.ev R.TWIN_EVT.RUN_REFUSED).w R.TWIN_STAT.WHY 8
  | 11 => (t.ev R.FAB_EVT.START_REFUSED).w R.FAB_STAT.REFUSE t.d.fabricRefuse
  | _ => t

/-- A run start is requested (R666, R700, R701). -/
def Tx.startRequest (t : Tx d0) : Tx d0 :=
  if t.running || t.b R.GLB_RUN_STAT.PENDING then t.ev R.GLB_RUN_STAT.DUP
  else
    let (cal, test) := (t.d.calNext, t.d.testNext)
    let t := (t.modRun (fun r => { r with asked := t.now })).wb R.GLB_RUN_STAT.PENDING true
    let code := t.d.startRefuseFor cal test
    if code ≠ 0 then t.refuseRun code
    else if t.d.fabric.isEmpty then t.wakeUp else t

/-- FAB_START (R335). -/
def Device.fabStart (d : Device) : Nat := d.f64 R.FAB_START_LO.START R.FAB_START_HI.START

/-- The next tick is the first tick of the pending start, unless a hold comes on it (R702). -/
def Device.startsNext (d : Device) : Bool := if d.fabric.isEmpty then !d.startHeld else d.now.toNat + 1 == d.fabStart

/-- The checks of R701 as a tick ends: the next may be the first. A failure refuses the start at once where no hold stands, and else with the hold's
end (DEDUCED, log 243). -/
def Tx.startCheck (t : Tx d0) : Tx d0 :=
  let note := fun (v : Option Nat) (t : Tx d0) => if t.d.run.found = v then t else t.modRun (fun r => { r with found := v })
  if !t.b R.GLB_RUN_STAT.PENDING || t.running then note none t
  else if t.d.startRefuse ≠ 0 && t.d.startsNext then (note none t).refuseRun t.d.startRefuse
  else note (some t.d.startRefuse) t

/-- The present tick may be the first of the pending start: no hold is in force, and with a FABRIC section it is FAB_START (R335, R702). -/
def Device.firstTickNow (d : Device) : Bool := !d.startHeld && (d.fabric.isEmpty || d.now.toNat == d.fabStart)

/-- The pending start runs from this tick: the tick before has passed its checks. -/
def Device.firstIsNow (d : Device) : Bool := d.b R.GLB_RUN_STAT.PENDING && !d.running && d.run.found == some 0 && d.firstTickNow

/-! The first tick -/

/-- Counters of a tile that the first tick of a run clears (R46, R143, R203, R249, R273, R310, R384), and what it latches. -/
def Tx.clearTile (t : Tx d0) (tl : Nat) : Tx d0 :=
  let t := t.upd (.flags tl 0)
  let t := t.each (List.range 20) (fun i t => t.w (R.NCO_MIX_STAT.PLAYS (20 * tl + i)) 0)
  let t := t.each (List.range 5) (fun i t => t.w (R.NCO_OUT_STAT.SAT_CNT (5 * tl + i)) 0)
  let t := t.each [2 * tl, 2 * tl + 1] (fun e t =>
    ((((((t.w (R.SCH_CNT.VOIDS e) 0).w (R.SCH_CNT.LATE e) 0).w (R.SCH_HOLD.QUANTA e) 0).w (R.SCH_SHOT_LO.SHOT e) 0).w
      (R.SCH_SHOT_HI.SHOT e) 0).w (R.ENG_QUEUE.MAX e) 0).w (R.SCH_STAT.LOOP_ACTIVE e) 0)
  let t := t.each (List.range 16) (fun i t => (t.w (R.RD_CNT.LEAK (16 * tl + i)) 0).w (R.RD_CNT.INVALID (16 * tl + i)) 0)
  let t := ((((t.w (R.RD_RECQ.MAX tl) 0).w (R.ACQ_CNT.SEGMENTS tl) 0).w (R.ACQ_CNT.MISSED tl) 0).w (R.ACQ_RECMEM.MAX_USED tl) 0)
  let t := t.modTile tl (fun x => { x with busy := none })
  ((t.w (R.ACQ_ARM_ERR.CODE tl) 0).w (R.ACQ_ARM_ERR.INDEX tl) 0).w (R.FLX_MARK.CHANGES tl) 0

/-- A stream starts: its first safe point is a candidate from r + lead on (R157, R187, R193, R175). Until that candidate is held or passed, STATE
reads RUN; the spec names no value for it (DESIGN CHOICE, log 154). -/
def Tx.startStream64 (t : Tx d0) (e : Nat) : Tx d0 :=
  let jump := (t.d.eng e).jump
  match t.d.stream? e with
  | none => t.upd (.engine e { jump := jump })
  | some (first, _, res, dom) =>
    if t.f (R.SCH_STAT.STATE e) = 3 then t.upd (.engine e { jump := jump })
    else
      let sp : SafePoint := { cand := t.now + BitVec.ofNat 64 (leadOf dom), dom := dom, res := res, ptr := first }
      let t := t.upd (.engine e { live := true, jump := jump, safe := some sp, segStart := t.now })
      let t := ((t.w (R.SCH_STAT.STATE e) 1).w (R.SCH_STAT.WAITING e) 0).w (R.SCH_STAT.VOIDED e) 0
      t.w (R.SCH_SEG.POINTER e) first

/-- The first tick of a run (R46, R52, R175, R187, R203, R278, R280, R292, R344, R351, R415, R637, R704). -/
def Tx.firstTick (t : Tx d0) : Tx d0 :=
  let trims := (List.range 8).map (fun k => t.f (R.ACQ_TIN_SKEW.TRIM k)) ++ (List.range 32).map (fun k => t.f (R.ACQ_SKEW_ADC.TRIM k)) ++
    (List.range 32).map (fun k => t.f (R.ACQ_FORCE.EN k) * 2 ^ 20 + t.f (R.ACQ_FORCE.POST k))
  let states := (List.range 64).map (fun e => t.f (R.SCH_STAT.STATE e))
  let t := t.upd (.run { first := t.now, asked := t.d.run.asked, quiet := t.now, trims := trims, before := some (states, t.d.flags, t.d.sums) })
  let t := t.each t.d.sums (fun c t => t.upd (.sum c.1 (c.2.map (fun x => (dropFlags x.1, x.2)))))
  let t := t.modKeep (fun k => { k with runMark := t.d.age })
  let t := t.each (List.range 8) (fun k t => t.upd (.tin k { level := (t.f R.ACQ_TIN_STAT.LEVEL).testBit k }))
  let t := ((t.wb R.GLB_RUN_STAT.PENDING false).wb R.GLB_RUN_STAT.RUNNING true).inc R.GLB_RUN_STAT.RUNS
  let t := t.each (List.range 32) (fun tl t => t.clearTile tl)
  let t := t.each (List.range 8) (fun c t => t.w (R.ACQ_TRIG_CNT.EVENTS c) 0)
  let t := (((t.w R.FAB_CNT.LOST 0).w R.FAB_CNT.OVERRUN 0).w R.FAB_ANISE.MAX_OUT 0).w R.FAB_ANISE.TIMEOUTS 0
  let t := t.each (List.range 9) (fun p t =>
    let t := (((t.w (R.FAB_PORT_ERR.LANE0 p) 0).w (R.FAB_PORT_ERR.LANE1 p) 0).w (R.FAB_PORT_ERR.LANE2 p) 0).w (R.FAB_PORT_ERR.LANE3 p) 0
    let t := (t.w (R.FAB_PORT_LOST.LOST p) 0).w (R.FAB_PORT_LOST.LATE_COPY p) 0
    if t.d.aniseMode then (t.upd (.credit p (t.f (R.FAB_PORT_STAT.CREDITS p)))).upd (.credit (16 + p) 0) else t)
  let t := (t.modAnise (fun a => { tag := a.tag })).upd (.voted none)
  let t := t.each (List.range 9) (fun p t => t.upd (.vote p none))
  let t := ((t.w R.TWIN_CNT.MISMATCHES 0).w R.TWIN_CNT.MISSING 0).w R.TWIN_STAT.DIVERGED 0
  let t := t.each (List.range 64) (fun e t => t.startStream64 e)
  t.each (List.range 64) (fun e t => t.raise e 3 t.now.toNat)

/-! Halts -/

/-- A quadrant of a twin member in MIRROR has a fault: it no longer vouches for it (R629). -/
def Tx.quadFault (t : Tx d0) (q : Nat) : Tx d0 :=
  if t.f R.TWIN_STAT.STATE = 2 then t.w R.TWIN_STAT.QOK (t.f R.TWIN_STAT.QOK &&& (15 - 2 ^ (q % 4))) else t

/-- An engine enters STATE FAULT with a code (R150, R369, R652): it issues nothing more, the Watch clamps its outputs, and the
STOP event is raised. Where it stops a stream, the run may end on the next tick (R201). -/
def Tx.haltEngine (t : Tx d0) (e code : Nat) : Tx d0 :=
  if t.f (R.SCH_STAT.STATE e) = 3 then t
  else
    let t := (((t.w (R.SCH_STAT.STATE e) 3).w (R.SCH_STAT.FAULT e) code).w (R.SCH_STAT.WAITING e) 0).w (R.SCH_STAT.VOIDED e) 0
    let t := if (t.d.eng e).live then t.modRun (fun r => { r with quiet := t.now }) else t
    let t := t.modEng e (fun x => { x with live := false, queue := [], fetch := {}, safe := none, waiting := none, latch := none, anise := none })
    let t := (t.dropShakes e).w (R.ENG_QUEUE.DEPTH e) 0
    let t := t.each (engineOutputs e) (fun k t => t.clampAdd k 2)
    let t := (t.pend (64 + 4 * (e / 2) + e % 2)).fault 0x0101 e
    let t := if code = 15 then t else t.raise e 1 t.now.toNat
    t.quadFault (e / 16)

/-- Every engine of a hold domain halts with a code (R189, R198, R333). -/
def Tx.haltDomain (t : Tx d0) (e dom code : Nat) : Tx d0 :=
  t.each (t.d.fellows e dom) (fun x t => if (t.d.eng x).live then t.haltEngine x code else t)

/-! The end of a run -/

/-- Every engine with a stream has stopped: this is the last tick of the run (R201), and a window still open closes on it without its weight. -/
def Device.runOver (d : Device) : Bool := d.running && !d.streams64.any (fun e => (d.eng e).live)

/-- The image enters COMMITTING (R77). -/
def Tx.toCommitting (t : Tx d0) : Tx d0 := (t.wb R.GLB_IMG_STAT.COMMIT_HELD false).w R.GLB_IMG_STAT.LOAD_STATE 3

/-- A commit held for a pending image goes on where no run is in progress (R77, R84). -/
def Tx.heldCommit (t : Tx d0) : Tx d0 :=
  if t.f R.GLB_IMG_STAT.LOAD_STATE = 2 && t.b R.GLB_IMG_STAT.COMMIT_HELD && !t.running then t.toCommitting else t

/-- The run ends on this tick, the first without one (R77, R126, R201, R271, R291, R321, R350, R362, R363, R619, R620). -/
def Tx.endRun (t : Tx d0) : Tx d0 :=
  let now := t.now
  let t := (t.wb R.GLB_RUN_STAT.RUNNING false).modRun (fun r => { r with ended := now, afterEnd := true })
  let age := t.d.age
  let t := t.modKeep (fun k => { k with runAcc := k.runAcc + (age - k.runMark) })
  let t := t.each (List.range 512) (fun n t =>
    if (t.d.win n).isSome then (t.ev (R.RD_EVT.TRUNC (n / 16))).closeWin n (now.toNat - 1) true 4 else t)
  let t := t.each (List.range 32) (fun tl t =>
    let t := ((t.capShotEnd tl).closeShot tl).dropTileHeld tl
    let t := t.each (List.range 20) (fun i t => t.freeMixer (20 * tl + i))
    ((t.when (t.d.tileOn tl) (fun t => t.idleTile tl)).modTile tl (fun x => { x with sends := [], resv := none })))
  let t := t.each (List.range 64) (fun e t =>
    let t := t.upd (.engine e { jump := (t.d.eng e).jump, ended := (t.d.eng e).ended })
    let t := ((t.w (R.SCH_STAT.WAITING e) 0).w (R.SCH_STAT.VOIDED e) 0).w (R.ENG_QUEUE.DEPTH e) 0
    let t := if t.f (R.SCH_STAT.STATE e) = 3 then t else t.w (R.SCH_STAT.STATE e) 0
    t.raise e 6 now.toNat)
  let t := t.each (List.range 8) (fun k t => t.upd (.tin k { level := (t.f R.ACQ_TIN_STAT.LEVEL).testBit k }))
  let t := ((t.streamsAtEnd).upd (.flight [])).modAnise (fun a => { tag := a.tag })
  let t := (t.upd (.dropDigs 0 32)).modTwin (fun x => { x with codes := [] })
  let t := t.each (t.d.txq.map Prod.fst) (fun s t => t.upd (.txq s []))
  ((((t.each (t.d.rx.map Prod.fst) (fun s t => t.upd (.rx s []))).applyTick).ripenHeld).heldCommit).twinAsked

/-- Every shot in progress carries VOID (R109). -/
def Tx.voidShots (t : Tx d0) : Tx d0 :=
  t.each (List.range 32) (fun tl t =>
    match t.d.curShot tl with
    | none => t
    | some s => t.flagShot tl s.id s.attempt 0x40)

/-- A run is stopped as R109 states (R109, R201): every shot in progress is voided, every output is clamped, every engine of a tile that is on
enters STATE FAULT, and the run ends on this tick. -/
def Tx.stopRun (t : Tx d0) : Tx d0 :=
  if t.running then
    let t := t.voidShots
    let t := t.each (t.d.wins.map Prod.fst) (fun n t => t.closeWin n t.now.toNat true 0x40)
    let t := t.each ((List.range 64).filter (fun e => t.d.tileOn (e / 2))) (fun e t => t.haltEngine e 8)
    (t.clampAll 2).endRun
  else t

/-! Voids (R194 to R197) -/

/-- The first repeat candidate of an attempt that started at `b0` whose vote tick lies after the void tick (R196). -/
def repeatCand (b0 lead now : Nat) : Nat := b0 + 2048 * ((now + lead + 1 - b0 + 2047) / 2048)

/-- No engine of a tile is still in the attempt: each has voided, or is over. -/
def Device.tileHeld (d : Device) (tl : Nat) : Bool :=
  [2 * tl, 2 * tl + 1].all (fun e => !(d.eng e).live || (d.eng e).safe.any SafePoint.rep)

/-- An engine voids the current shot on this tick (R194, R195, R196, R271, R291, R300, R347, R362, R364). Engine B's windows and capture close with it;
those that B has left open at its END close with engine A. -/
def Tx.voidEngine (t : Tx d0) (e : Nat) : Tx d0 :=
  let x := t.d.eng e
  if !x.live || (match x.safe with | some s => s.rep | none => false) then t
  else
    let tl := e / 2
    let now := t.now.toNat
    let s := x.snap
    let sp : SafePoint := { cand := BitVec.ofNat 64 (repeatCand s.b0.toNat (leadOf s.dom) now), dom := s.dom, res := s.res, ptr := s.ptr, rep := true }
    let t := t.modEng e (fun x => { x with
      queue := [], fetch := {}, safe := some sp, waiting := none, anise := none, notice := false, voids := x.voids + 1, voidDue := none
      latch := none })
    let t := (t.dropShakes e).w (R.ENG_QUEUE.DEPTH e) 0
    let t := ((t.w (R.SCH_STAT.STATE e) 2).w (R.SCH_STAT.WAITING e) 0).w (R.SCH_STAT.VOIDED e) 1
    let t := ((t.inc (R.SCH_CNT.VOIDS e)).ev (R.SCH_EVT.VOID e)).raise e 2 now
    let t := match t.d.curShot tl with
      | none => t
      | some sh => t.flagShot tl sh.id sh.attempt 0x40
    let t := t.setDig tl none
    let t := if e % 2 = 0 then t.muteTile tl else t.modTile tl (fun y => { y with sends := [], resv := none })
    let t := if e % 2 = 0 && (t.d.eng (e + 1)).live then t
      else (t.each (List.range 16) (fun i t => t.closeWin (16 * tl + i) now true 0x40)).capShotEnd tl
    let t := if t.d.tileHeld tl then ((t.capShotEnd tl).closeShot tl).showRec tl else t
    let t := (t.dropTileHeld tl).idleTile tl
    t.each (t.d.fellows e s.dom) (fun y t =>
      let z := t.d.eng y
      if y ≠ e && z.live && z.snap.b0 = s.b0 && z.snap.dom = s.dom && !(match z.safe with | some q => q.rep | none => false) then
        t.modEng y (fun z => { z with notice := true })
      else t)

/-- The void snapshot is restored and the engine's fork-input ports are cleared (R193, R196, R247): the VOID routine. -/
def Tx.voidRestore (t : Tx d0) (e : Nat) : Tx d0 :=
  let s := (t.d.eng e).snap
  let base := 32 * (e / 2) + 16 * (e % 2)
  let t := t.each s.frames.zipIdx (fun (w, i) t =>
    let f := base + i
    if t.d.frame f = w then t
    else
      let t := t.noteFrame f
      ((t.w64 (R.NCO_FREQ_LO.F_LO f) (R.NCO_FREQ_HI.F_HI f) w.1).w (R.NCO_PHASE.THETA f) w.2.1).w64 (R.NCO_REF_LO.REF f) (R.NCO_REF_HI.REF f) w.2.2)
  let t := (t.modEng e (fun x => { x with left := s.left })).w (R.SCH_STAT.LOOP_ACTIVE e) s.active
  let t := t.each (List.range 32) (fun i t => t.clearPort (64 * (e / 2) + 32 * (e % 2) + i))
  t.wb (R.SCH_STAT.VOIDED e) (t.d.eng e).live

end Sys2Proof.Machine
end

