-- ==== Sys2Proof/Machine/Issue.lean ====
section
/-! DEFINITION. The issue unit (chapters 05 and 06): fields of an operation, what makes one invalid (R147, R149), fetching into the
pending queue with the checks of a schedule line (R161, R206 to R212, R478), and the release of the operation at its head. -/
namespace Sys2Proof.Machine

variable {d0 : Device}

/-! Fields of an operation (R145) -/

def opCode (bits : Nat) : Nat := bitsOf bits 127 120
def opTarget (bits : Nat) : Nat := bitsOf bits 119 96
def opOffset (bits : Nat) : Nat := bitsOf bits 95 64
def opOperand (bits : Nat) : Nat := bits % 2 ^ 64

/-- Opcodes that end a segment. -/
def isTerm (c : Nat) : Bool := c == 0x10 || c == 0x11 || c == 0x12 || c == 0x13 || c == 0x1F

/-- The mixer mask that FRAMEMAP records give a frame of a tile (R63, R65). -/
def frameMask (structs : List (List Byte)) (tl f : Nat) : Nat :=
  match structs.find? (fun r => rb r 0 == 5 && rb r 2 == tl && rb r 3 == f) with
  | some r => rn r 4 4
  | none => 0

/-- A FORK operand has a reserved encoding or a bit that must be 0 (R162, R163). -/
def forkBad (o : Nat) : Bool :=
  if o.testBit 63 then bitsOf o 62 32 != 0
  else
    let nb := bitsOf o 57 55
    nb == 7 || (List.range 6).any (fun i => nb ≤ i && bitsOf o (5 * i + 4) (5 * i) != 0)

/-- A WAIT operand has a reserved encoding (R176). -/
def waitBad (o : Nat) : Bool :=
  let m := bitsOf o 63 62
  2 ≤ m || (m == 0 && bitsOf o 58 43 != 0) || (m == 1 && bitsOf o 61 59 != 0) || bitsOf o 42 32 < 48

/-- An operation is invalid for the engine that issues it (R147, R149, R121): a reserved opcode, an engine that may not issue it, a
target it does not own, a non-zero reserved bit or a reserved encoding. -/
def opBad (structs : List (List Byte)) (dev e bits : Nat) : Bool :=
  let tl := e / 2
  let isA := e % 2 == 0
  let g := opTarget bits
  let o := opOperand bits
  let frameOk : Bool := g < 256 && (if isA then decide (g < 16) else decide (16 ≤ g && g < 32))
  match opCode bits with
  | 0x01 => !isA || 20 ≤ g / 256 || 16 ≤ g % 256 || bitsOf o 47 16 != 0 || !(frameMask structs tl (g % 256)).testBit (g / 256)
  | 0x02 => !frameOk || bitsOf o 62 48 != 0
  | 0x03 => !frameOk || 2 ^ 32 ≤ o
  | 0x04 => isA || !((List.range 8).any (fun i => g == chanName dev tl (6 + i))) || 2 ^ 17 ≤ o
  | 0x05 => !isA || g != chanName dev tl 14 || 16 ≤ o
  | 0x06 => isA || g != chanName dev tl 5 || 2 ^ 16 ≤ o
  | 0x07 => isA || g != chanName dev tl 5 || 2 ^ 56 ≤ o || bitsOf o 39 16 == 0
  | 0x08 => isA || g != chanName dev tl 5 || 2 ^ 16 ≤ o
  | 0x10 => g != 0 || forkBad o
  | 0x11 => g != 0 || waitBad o
  | 0x12 => 4 ≤ g
  | 0x13 => g != 0 || bitsOf o 63 62 == 3 || bitsOf o 61 32 != 0
  | 0x1F => g != 0 || o != 0
  | _ => true

def Device.opBad (d : Device) (e bits : Nat) : Bool := Sys2Proof.Machine.opBad ((d.img.act.map Image.structs).getD []) d.dev e bits

/-- The bits of a SHIFTP operand that the check of the mask ROM tests: those of the word fetched at ROM address 0x0281 (chapter 06, the example), or of
the patch word that replaces it. Bit 63 is left out by release 0x0001_0000. -/
def Device.shiftpMask (d : Device) (e : Nat) : Nat :=
  match (List.range 32).find? (fun i => d.b (R.ENG_MATCH.EN e i) && d.f (R.ENG_MATCH.ROM_ADDR e i) == 0x0281) with
  | some i => bget (fun _ => 0) d.patch (d.f (R.ENG_MATCH.PADDR e i)) % 2 ^ 64
  | none => 0x7FFFFFFF00000000

/-- LINE_FILL finds an operation invalid (R150, R212, R247). -/
def Device.checkBad (d : Device) (e bits : Nat) : Bool :=
  if opCode bits = 0x03 then d.opBad e (bits / 2 ^ 64 * 2 ^ 64 + bits % 2 ^ 32) || opOperand bits &&& d.shiftpMask e != 0 else d.opBad e bits

/-- Key of the decode tag of operation `i` of an engine. -/
def tagKey (e i : Nat) : Nat := e * 2 ^ 28 + i

/-- LINE_FILL has marked an operation invalid. -/
def Device.markedBad (d : Device) (e i : Nat) : Bool := (bget (fun _ => 0) d.dtags (tagKey e i)).testBit 64

/-! Reading the schedule cache -/

/-- The bits of operation `i` in the schedule cache of an engine. -/
def Device.opBits (d : Device) (e i : Nat) : Nat :=
  match d.opLine e i with
  | none => 0
  | some l => d.sramLe (64 * l + 16 * (i % 4)) 16

/-- The bits of operation `i` as the committed image holds them in CXL memory. -/
def Device.opImage (d : Device) (i : Nat) : Nat :=
  match d.img.act with
  | none => 0
  | some im => d.cxlLe (im.base + im.schedOff + 16 * i) 16

/-- The four lines of a SCHED block resident for an engine. -/
def Device.schedLines (d : Device) (e b : Nat) : List Nat :=
  match d.schedSlot e b with
  | none => []
  | some s => (List.range 4).map (fun i => classBase 1 e + 4 * s + i)

/-- An INVALIDATE of a SCHED block waits, or its routine has not committed. -/
def Device.invalidating (d : Device) (e b : Nat) : Bool :=
  (d.seq e).events.any (fun x => x.code == 5 && x.arg == b) ||
  (d.seq e).routine.any (fun r => r.ev.code == 5 && r.ev.arg == b && !r.committed)

/-- Invalidate a SCHED block, fetch it again, and tell the micro-sequencer (R161, R213, R216). A line whose LINE_FILL has committed stays resident until
INVALIDATE commits (R240); its tag keeps the issue unit from using it. -/
def Tx.refetchSched (t : Tx d0) (e b : Nat) : Tx d0 :=
  if t.d.invalidating e b then t else ((t.cancelFill e b).raise e 5 b).fetchBlock false b

/-- The engine reads the line that holds operation `i` (R161, R468, R478): the answer says whether it may use it. The check of the
block is made when its first line is read. -/
def Tx.readSched (t : Tx d0) (e i : Nat) : Bool × Tx d0 :=
  match t.d.opLine e i with
  | none => (false, t)
  | some l =>
    let ls := t.d.schedLines e (i / 16)
    let new := (t.d.eng e).fetch.line = 0 || ((t.d.eng e).fetch.line - 1) / 4 ≠ i / 16
    let made := new && ls.all (fun l => t.d.lineKind l == 0)
    let bad := made && t.d.checkFails e false (i / 16) (ls.flatMap (fun l => t.d.sramBytes (64 * l) 64))
    let (fourth, t) := if made then t.countBad e false (i / 16) bad else (false, t)
    let t := if bad then t.tagBlock ls (if fourth then 4 else 3) (if fourth then 8 else 1) else t
    let k := t.d.lineKind l
    let t := if bad then t.ev R.ECC_EVT.UE_READ
      else if (t.d.eng e).fetch.line = i / 4 + 1 then t
      else t.readLine l 0 (if k = 2 || k = 4 then 8 else 1)
    if k = 0 then (true, t.modEng e (fun x => { x with fetch := { x.fetch with line := i / 4 + 1 } }))
    else if k = 1 || k = 3 then (false, t.refetchSched e (i / 16))
    else (false, t.haltEngine e 2)

/-! Fork tables (R171) -/

/-- Address in the SRAM space of entry `i` of a tile's fork table. -/
def forkAddr (tl i : Nat) : Nat := classBase 3 0 * 64 + tl * 32768 + 8 * i

def Device.forkEntry (d : Device) (tl i : Nat) : Nat := d.sramLe (forkAddr tl i) 8

/-- The entry that a latched FORK selects (R167, R180): its index. R167 names no entry for DEFAULT, which R172 makes the same in every entry the FORK
uses: it is taken from entry BASE as that stands when the index is formed (DEDUCED, log 153). -/
def Device.forkIndex (d : Device) (tl o : Nat) (l : ForkLatch) : Nat :=
  let nb := bitsOf o 57 55
  let base := bitsOf o 54 43
  match l.jump with
  | some (j, _) =>
    if j < bitsOf o 61 58 then base + 2 ^ nb + j
    else if l.ok then base + l.v else base + d.forkEntry tl base % 64
  | none => if l.ok then base + l.v else base + d.forkEntry tl base % 64

/-- The index of a latched FORK's entry is BASE + DEFAULT. -/
def forkDefault (o : Nat) (l : ForkLatch) : Bool := !l.ok && l.jump.all (fun c => decide (bitsOf o 61 58 ≤ c.1))

/-! Fetching (R206 to R212) -/

/-- The fetch copies of the loop registers at a LOOP (R174, R207): whether it branches, and the copies. -/
def loopCopy (f : Fetch) (r count : Nat) : Bool × Fetch :=
  if count = 0 then (true, f)
  else
    let f := if f.active.testBit r then f else { f with left := f.left.set r count, active := f.active ||| 2 ^ r }
    let n := f.left.getD r 0 - 1
    let f := { f with left := f.left.set r n }
    if 0 < n then (true, f) else (false, { f with active := f.active &&& (15 - 2 ^ r) })

/-- Where fetching goes on after an operation. -/
def Device.fetchNext (d : Device) (e : Nat) (f : Fetch) (bits : Nat) : Fetch :=
  let o := opOperand bits
  let due := f.base + opOffset bits
  match opCode bits with
  | 0x12 =>
    let (br, f) := loopCopy f (opTarget bits % 4) (o % 2 ^ 32)
    { f with ptr := if br then o / 2 ^ 32 else f.ptr + 1, base := due }
  | 0x10 =>
    if o.testBit 63 then { f with ptr := o % 2 ^ 32, base := due }
    else match (d.eng e).latch with
      | some { ptr := some p, b := b, .. } => if b.toNat = due && f.fixed then { f with ptr := p, base := due } else { f with stop := true }
      | _ => { f with stop := true }
  | 0x11 => { f with stop := true }
  | 0x1F => { f with stop := true }
  | 0x13 => { f with ptr := f.ptr + 1, base := 0, wait := f.wait + 1 }
  | _ => { f with ptr := f.ptr + 1 }

/-- The issue unit's work of one tick (R206): at most one operation moves to the pending queue. An operation whose tick has come is
late and is not queued (R211). -/
def Tx.fetchOp (t : Tx d0) (e : Nat) : Tx d0 :=
  let x := t.d.eng e
  let f := x.fetch
  if !x.live || f.stop || t.now.toNat < f.start || 32 ≤ x.queue.length then t
  else match t.readSched e f.ptr with
    | (false, t) => t
    | (true, t) =>
      let bits := t.d.opBits e f.ptr
      let due := f.base + opOffset bits
      if f.fixed && decide (due ≤ t.now.toNat) then t
      else
        let t := t.setQueue e (x.queue ++ [{ idx := f.ptr, bits := bits, due := due, wait := f.wait, bad := t.d.markedBad e f.ptr }])
        let line := (t.d.eng e).fetch.line
        t.modEng e (fun x => { x with fetch := { t.d.fetchNext e f bits with line := line } })

/-- The operation that ends the segment being fetched, looked for from operation `i` on in resident blocks. -/
def Device.peekTerm (d : Device) (e : Nat) : Nat → Nat → Option (Nat × Nat)
  | 0, _ => none
  | n + 1, i =>
    if (d.opLine e i).isNone then none
    else if isTerm (opCode (d.opBits e i)) then some (i, d.opBits e i)
    else d.peekTerm e n (i + 1)

/-! Release -/

/-- A queued operation halts its engine on its tick (R150, R212): LINE_FILL has marked it, or its opcode is reserved. -/
def QOp.invalid (q : QOp) : Bool := q.bad || !((1 ≤ opCode q.bits && opCode q.bits ≤ 8) || isTerm (opCode q.bits))

/-- The operation at the head of an engine's queue, where it takes effect on this tick. -/
def Device.headOp (d : Device) (e : Nat) : Option (QOp × List QOp) :=
  match (d.eng e).queue with
  | [] => none
  | q :: rest => if d.running && (d.eng e).live && q.fixed && q.due = d.now.toNat then some (q, rest) else none

/-- Release the operation at the head of the queue where it has this opcode (R150, R206, R212): `go` gets its index, target and
operand, and the transaction with the operation taken from the queue. An invalid one halts its engine. -/
def Tx.issue (t : Tx d0) (e code : Nat) (go : QOp → Tx d0 → Tx d0) : Tx d0 :=
  match t.d.headOp e with
  | none => t
  | some (q, rest) =>
    if q.invalid then t.haltEngine e 1
    else if opCode q.bits = code then go q (t.setQueue e rest)
    else t

/-- The segment at `ptr` starts on this tick. -/
def Tx.enterSeg (t : Tx d0) (e ptr : Nat) : Tx d0 :=
  let now := t.now
  (((t.modEng e (fun x => { x with segStart := now, segs := x.segs + 1 })).w (R.SCH_SEG.POINTER e) ptr).w (R.SCH_STAT.STATE e) 1).w (R.SCH_STAT.WAITING e) 0

/-- Cut the calibration steps that run on a path (R414): the path is restored on this tick. -/
def Tx.cutSteps (t : Tx d0) (p : Nat × Nat × Nat → Bool) : Tx d0 :=
  let d := t.d
  if d.calib.steps.any (fun s => p s && d.stepOn s) then (t.dropSteps (fun s => p s && d.stepOn s)).ev R.CAL_EVT.STEP_CUT else t

/-- An operation reaches the ADC path of a tile, or an RF output. -/
def Tx.cutAdc (t : Tx d0) (tl : Nat) : Tx d0 := t.cutSteps (fun s => s.1 == 3 && s.2.1 == tl)
def Tx.cutRf (t : Tx d0) (c : Nat) : Tx d0 := t.cutSteps (fun s => (s.1 == 4 || s.1 == 5) && s.2.1 == c)

/-! Calibration gaps (R69, R412) -/

/-- Number of the segment an engine is in, within its stream (R69). -/
def Device.segNo (d : Device) (e : Nat) : Nat :=
  match d.img.act, d.stream? e with
  | some im, some (first, _, _, _) =>
    ((List.range (d.f (R.SCH_SEG.POINTER e) - first)).filter (fun i => isTerm (opCode (d.cxlLe (im.base + im.schedOff + 16 * (first + i)) 16)))).length
  | _, _ => 0

/-- The CALGAP records of the gap an engine is in on this tick, with the ticks left of it. -/
def Device.gapsNow (d : Device) (e : Nat) : List (List Byte × Nat) :=
  let x := d.eng e
  if !d.running || !x.live || d.f (R.SCH_STAT.STATE e) ≠ 1 || d.f (R.SCH_STAT.WAITING e) ≠ 0 then []
  else
    let at' := d.now.toNat - x.segStart.toNat
    let n := d.segNo e
    ((d.img.act.map Image.gaps).getD []).filterMap (fun r =>
      if rb r 0 = e / 2 && rb r 1 = e % 2 && rn r 2 2 = n && rn r 4 4 ≤ at' && at' < rn r 4 4 + rn r 8 4 then some (r, rn r 4 4 + rn r 8 4 - at') else none)

/-- The gaps that begin on this tick (R417). -/
def Tx.gapStarts (t : Tx d0) : Tx d0 :=
  if ((t.d.img.act.map Image.gaps).getD []).isEmpty then t
  else t.each t.d.streams64 (fun e t => t.each (t.d.gapsNow e) (fun g t => if rn g.1 8 4 = g.2 then (t.readTables (e / 2)).gapBegins e (rn g.1 12 2) else t))

end Sys2Proof.Machine
end

