-- ==== Sys2Proof/Machine/Sched.lean ====
section
/-! DEFINITION. The schedule operations (chapters 04, 05, 07, 08 and 10): PLAY, SETF, SHIFTP, FLUX, MARK, ACQ, DISC, SEND and LOOP, with the end
of a PLAY and the test of an envelope line. Each acts where the operation stands at the head of its engine's queue on its tick. -/
namespace Sys2Proof.Machine

variable {d0 : Device}

/-! The test of an envelope line (R728, R194, R140) -/

/-- Test tick of line `i` of an envelope whose PLAY is placed at tick `p`, in an attempt that started at `b0`. -/
def testTick (p b0 i : Nat) : Nat := max (p + 16 * i - 6) b0

/-- The operations that an engine has still to fetch, as far as it knows its way (R207 to R209): bits and tick of each, as the schedule has them whether
or not their lines are resident yet. -/
def Device.aheadOps (d : Device) (e : Nat) : Nat → Fetch → List (Nat × Nat)
  | 0, _ => []
  | k + 1, f =>
    if f.stop || !f.fixed then []
    else
      let bits := if (d.opLine e f.ptr).isSome then d.opBits e f.ptr else d.opImage f.ptr
      (bits, f.base + opOffset bits) :: d.aheadOps e k (d.fetchNext e f bits)

/-- The PLAYs of a mixer that play or are to come: tick, first block, length, the safe point that started its attempt, and whether it already plays. -/
def Device.playsOf (d : Device) (m : Nat) : List (Nat × Nat × Nat × Nat × Bool) :=
  let e := 2 * (m / 20)
  let x := d.mixer m
  let ops := ((d.eng e).queue.filter QOp.fixed).map (fun q => (q.bits, q.due)) ++ d.aheadOps e 64 (d.eng e).fetch
  (if d.b (R.NCO_MIX_STAT.BUSY m) then [(x.start.toNat, x.first, x.len, x.base.toNat, true)] else []) ++
  (ops.filter (fun q => opCode q.1 == 1 && opTarget q.1 / 256 == m % 20)).filterMap (fun q =>
    (d.envelope e (opOperand q.1 % 2 ^ 16)).map (fun v => (q.2, v.1, v.2, (d.eng e).snap.b0.toNat, false)))

/-- The PLAYs on a mixer whose envelope line `i` is tested on this tick: the tick of each, its first block, and whether it already plays. -/
def Device.testedPlays (d : Device) (m i : Nat) : List (Nat × Nat × Bool) :=
  ((d.playsOf m).filter (fun p => i < (p.2.2.1 + 15) / 16 && testTick p.1 p.2.2.2.1 i == d.now.toNat)).map (fun p => (p.1, p.2.1, p.2.2.2.2))

/-- Zeros stand in for lines of a PLAY in progress, or for the one that is about to start, and the shot is void: for the line alone, or for its block
on kind E2E, which the records of the shot show (R140, R468). -/
def Tx.substitute (t : Tx d0) (m i k : Nat) (plays : Bool) : Tx d0 :=
  let t := t.ev (R.NCO_MIX_STAT.ZERO_SUB m)
  let ls := if k = 3 then (List.range 4).map (fun j => i / 4 * 4 + j) else [i]
  let t := if plays then t.upd (.mixer m { t.d.mixer m with zero := (t.d.mixer m).zero ++ ls }) else t
  let t := if k = 3 then
      match t.d.curShot (m / 20) with
      | some s => t.flagShot (m / 20) s.id s.attempt 1
      | none => t.flagTile (m / 20) 1
    else t
  t.voidEngine (2 * (m / 20))

/-- Line `i` of a PLAY's envelope is tested: absent, it voids the shot; with poison, or where its block fails its check, zeros stand in for it and
the shot is void too. An engine whose stream is over voids nothing (R192), but its PLAYs still get zeros. A line of a block that is fetched again while
the PLAY is in progress is tested as stored (DEDUCED, log 234). -/
def Tx.testLine (t : Tx d0) (m i : Nat) (p : Nat × Bool) : Tx d0 :=
  let e := 2 * (m / 20)
  let line := 4 * p.1 + i
  match (if p.2 then (t.d.mixer m).kept.find? (fun c => c.1 == i) else none) with
  | some (_, l) =>
    let k := t.d.lineKind l
    let t := t.readLine l 0 7
    if k = 0 || (t.d.mixer m).zero.contains i then t else t.substitute m i k true
  | none =>
    if (t.d.waveLine e line).isNone then t.voidEngine e
    else match t.readWave e line with
      | (0, t) => t
      | (k, t) => t.substitute m i k p.2

/-- The first line of a PLAY of local mixer `m` placed at a tick is tested. -/
def Tx.noteTested (t : Tx d0) (e tick m : Nat) : Tx d0 :=
  let now := t.now.toNat
  t.modEng e (fun x => { x with tested := x.tested.filter (fun c => decide (now ≤ c.1)) ++ [(tick, m)] })

def effEnvLineTest (m i : Nat) (t : Tx d0) : Tx d0 :=
  if !t.running then t
  else t.each (t.d.testedPlays m i) (fun p t =>
    (t.when (i == 0) (fun t => t.noteTested (2 * (m / 20)) p.1 (m % 20))).testLine m i p.2)

def execEnvLineTest (m : Fin 640) (line : Fin 16384) (s : State) : Host.Outcome State Fault Refusal := commit (effEnvLineTest m line) s

/-! PLAY (R120 to R126, R131) -/

/-- A PLAY takes its mixer, frame, envelope and gain. The first line of one that the engine did not know of on its test tick, as behind a WAIT whose
TIMEOUT is short, is tested as it starts (DEDUCED, log 200). The line of the directory that holds the envelope's entry is read too: with poison, no
sample of the envelope is known, and the PLAY counts as substituted throughout (DEDUCED, log 235). -/
def Tx.playOn (t : Tx d0) (e : Nat) (q : QOp) : Tx d0 :=
  let tl := e / 2
  let g := opTarget q.bits
  let o := opOperand q.bits
  let m := 20 * tl + g / 256
  let fr := g % 256
  let c := 5 * tl + min 4 (g / 256 / 4)
  match t.readDir e (o % 2 ^ 16), t.d.envelope e (o % 2 ^ 16) with
  | (k + 1, t), _ => t.substitute m 0 (k + 1) false
  | (0, t), none => (t.ev (R.NCO_MIX_STAT.ENV_RANGE m)).haltEngine e 7
  | (0, t), some (first, len) =>
    let was := t.d.mixer m
    let t := if t.b (R.NCO_MIX_STAT.BUSY m) && t.now.toNat < was.start.toNat + was.len then t.ev (R.NCO_MIX_STAT.OVERLAP m) else t
    let t := t.freeMixer m
    let t := t.upd (.mixer m { start := t.now, len := len, gain := signedOf 16 (o / 2 ^ 48), frame := fr, first := first, base := (t.d.eng e).snap.b0 })
    let t := (((t.wb (R.NCO_MIX_STAT.BUSY m) true).wb (R.NCO_MIX_STAT.BOUND m) true).w (R.NCO_MIX_STAT.FRAME m) fr).inc (R.NCO_MIX_STAT.PLAYS m)
    let t := t.w (R.NCO_STAT.OCC (32 * tl + fr)) (t.f (R.NCO_STAT.OCC (32 * tl + fr)) ||| 2 ^ (g / 256))
    let t := (t.firstLoad c).cutRf c
    if (t.d.eng e).tested.contains (t.now.toNat, g / 256) then t else t.testLine m 0 (first, true)

def effPlay (e : Nat) (t : Tx d0) : Tx d0 := t.issue e 0x01 (fun q t => t.playOn e q)

def execPlay (e : Fin 64) (s : State) : Host.Outcome State Fault Refusal := commit (effPlay e) s

/-- A mixer is released after the last tick of its envelope (R120, R124). -/
def effPlayEnd (m : Nat) (t : Tx d0) : Tx d0 :=
  let x := t.d.mixer m
  if t.b (R.NCO_MIX_STAT.BUSY m) && x.start.toNat + x.len ≤ t.now.toNat then t.freeMixer m else t

def execPlayEnd (m : Fin 640) (s : State) : Host.Outcome State Fault Refusal := commit (effPlayEnd m) s

/-! Frames (R113 to R115) -/

/-- SETF: the frame's F, and with REBASE its E; a second SETF of the frame on one tick collides. -/
def Tx.setFrame (t : Tx d0) (e : Nat) (q : QOp) : Tx d0 :=
  let lf := opTarget q.bits
  let f := 32 * (e / 2) + lf
  let o := opOperand q.bits
  let now := t.now
  let t := t.noteFrame f
  let t := if (t.d.eng e).setTick.any (fun c => c.1 == lf && c.2 == now) then t.ev (R.NCO_STAT.COLLIDE f) else t
  let t := t.modEng e (fun x => { x with setTick := x.setTick.filter (fun c => c.2 == now && c.1 != lf) ++ [(lf, now)] })
  let t := t.w64 (R.NCO_FREQ_LO.F_LO f) (R.NCO_FREQ_HI.F_HI f) (o % 2 ^ 48)
  if o.testBit 63 then t.w64 (R.NCO_REF_LO.REF f) (R.NCO_REF_HI.REF f) now.toNat else t

def effSetf (e : Nat) (t : Tx d0) : Tx d0 := t.issue e 0x02 (fun q t => t.setFrame e q)

def execSetf (e : Fin 64) (s : State) : Host.Outcome State Fault Refusal := commit (effSetf e) s

/-- SHIFTP: Θ grows by DELTA modulo 2^32. -/
def Tx.shiftFrame (t : Tx d0) (e : Nat) (q : QOp) : Tx d0 :=
  let f := 32 * (e / 2) + opTarget q.bits
  let t := t.noteFrame f
  t.w (R.NCO_PHASE.THETA f) (t.f (R.NCO_PHASE.THETA f) + opOperand q.bits % 2 ^ 32)

def effShiftp (e : Nat) (t : Tx d0) : Tx d0 := t.issue e 0x03 (fun q t => t.shiftFrame e q)

def execShiftp (e : Fin 64) (s : State) : Host.Outcome State Fault Refusal := commit (effShiftp e) s

/-! FLUX and MARK (R359 to R361, R380, R381) -/

/-- FLUX: the code is held; a strobe of its group on this tick, from this FLUX or an earlier one, loads every held code. -/
def Tx.fluxHold (t : Tx d0) (e : Nat) (q : QOp) : Tx d0 :=
  let tl := e / 2
  let c := 8 * tl + (opTarget q.bits % 32 - 6)
  let o := opOperand q.bits
  let g := t.d.groupOf c
  let now := t.now.toNat
  let t := ((t.readTables tl).wb (R.FLX_HELD.HELD c) true).w (R.FLX_HELD.CODE c) (o % 2 ^ 16)
  let fire := o.testBit 16 || (t.d.eng e).strobed.contains (g, now)
  if fire then
    (t.strobe tl g).modEng e (fun x => { x with strobed := x.strobed.filter (fun s => s.2 == now && s.1 != g) ++ [(g, now)] })
  else t

def effFlux (e : Nat) (t : Tx d0) : Tx d0 := t.issue e 0x04 (fun q t => t.fluxHold e q)

def execFlux (e : Fin 64) (s : State) : Host.Outcome State Fault Refusal := commit (effFlux e) s

/-- The changes that the MARKs of one tick make, in ascending SAMPLE order (R380, R381): the tick's first sample instant, the level and
the last change before, the changes, and whether one was delayed. -/
def markResolve (t8 : Nat) : List (Nat × Bool) → Bool → Option Nat → List (Nat × Bool) × Bool
  | [], _, _ => ([], false)
  | (k, v) :: r, level, last =>
    if v = level then markResolve t8 r level last
    else
      let at' := match last with
        | some l => max (t8 + k) (l + 4)
        | none => t8 + k
      let (cs, st) := markResolve t8 r v (some at')
      ((at', v) :: cs, st || decide (t8 + k < at'))

/-- MARK: with the other MARKs of its tick, it makes the marker's changes from its DAC sample on. Whether they delay a change is known as the tick
ends. -/
def Tx.markAt (t : Tx d0) (e : Nat) (q : QOp) : Tx d0 :=
  let tl := e / 2
  let o := opOperand q.bits
  let now := t.d.age
  let t := if (t.d.marker tl).tick = now && !(t.d.marker tl).reqs.isEmpty then t else
    let t := t.markTo tl (8 * now - 1)
    t.upd (.marker tl { t.d.marker tl with tick := now, reqs := [], last0 := (t.d.marker tl).last, queue0 := (t.d.marker tl).queue })
  let m := t.d.marker tl
  let k := o / 2 % 8
  let reqs := m.reqs.filter (fun c => c.1 < k) ++ [(k, o.testBit 0)] ++ m.reqs.filter (fun c => k < c.1)
  let level := match m.queue0.getLast? with
    | some (_, v) => v
    | none => t.b (R.FLX_MARK.LEVEL tl)
  let (cs, st) := markResolve (8 * now) reqs level m.last0
  let last := match cs.getLast? with
    | some (i, _) => some i
    | none => m.last0
  let t := t.upd (.marker tl { m with reqs := reqs, queue := m.queue0 ++ cs, last := last, late := st })
  t.firstLoad (markKey tl)

def effMark (e : Nat) (t : Tx d0) : Tx d0 := t.issue e 0x05 (fun q t => t.markAt e q)

def execMark (e : Fin 64) (s : State) : Host.Outcome State Fault Refusal := commit (effMark e) s

/-! ACQ, DISC, SEND (R148, R253, R287, R306) -/

/-- ACQ: a CAPTURE record arms the capture unit, a STREAM record starts a stream. -/
def Tx.acqOn (t : Tx d0) (e : Nat) (q : QOp) : Tx d0 :=
  let tl := e / 2
  let t := (t.cutAdc tl).readTables tl
  match t.d.acqNamed tl (opOperand q.bits % 2 ^ 16) with
  | none => t
  | some r => if rb r 0 = 1 then t.arm tl r else t.startStream tl r

def effAcq (e : Nat) (t : Tx d0) : Tx d0 := t.issue e 0x06 (fun q t => t.acqOn e q)

def execAcq (e : Fin 64) (s : State) : Host.Outcome State Fault Refusal := commit (effAcq e) s

/-- DISC: a window opens on each demodulator of DMASK. -/
def Tx.discOn (t : Tx d0) (e : Nat) (q : QOp) : Tx d0 :=
  let o := opOperand q.bits
  let t := (t.cutAdc (e / 2)).readTables (e / 2)
  t.each (List.range 16) (fun i t => if o.testBit i then t.openWin (16 * (e / 2) + i) (bitsOf o 55 40) (bitsOf o 39 16) else t)

def effDisc (e : Nat) (t : Tx d0) : Tx d0 := t.issue e 0x07 (fun q t => t.discOn e q)

def execDisc (e : Fin 64) (s : State) : Host.Outcome State Fault Refusal := commit (effDisc e) s

/-- SEND: the next code of each demodulator of DMASK, after this tick, is released to class 1 and 2. -/
def Tx.sendOn (t : Tx d0) (e : Nat) (q : QOp) : Tx d0 :=
  let o := opOperand q.bits
  let now := t.now.toNat
  t.modTile (e / 2) (fun x => { x with
    sends := x.sends.filter (fun c => !o.testBit c.1) ++ ((List.range 16).filter (fun i => o.testBit i)).flatMap (fun i =>
      (x.sends.filter (fun c => c.1 == i && c.2 != now)).take 1 ++ [(i, now)]) })

def effSend (e : Nat) (t : Tx d0) : Tx d0 := t.issue e 0x08 (fun q t => t.sendOn e q)

def execSend (e : Fin 64) (s : State) : Host.Outcome State Fault Refusal := commit (effSend e) s

/-! LOOP (R174) -/

/-- LOOP at its boundary: the register that TARGET names decides between the branch and the operation after it. -/
def Tx.loopOn (t : Tx d0) (e : Nat) (q : QOp) : Tx d0 :=
  let o := opOperand q.bits
  let r := opTarget q.bits % 4
  let f : Fetch := { active := t.f (R.SCH_STAT.LOOP_ACTIVE e), left := (t.d.eng e).left }
  let (br, f) := loopCopy f r (o % 2 ^ 32)
  let t := (t.modEng e (fun x => { x with left := f.left })).w (R.SCH_STAT.LOOP_ACTIVE e) f.active
  t.enterSeg e (if br then o / 2 ^ 32 else q.idx + 1)

def effLoop (e : Nat) (t : Tx d0) : Tx d0 := t.issue e 0x12 (fun q t => t.loopOn e q)

def execLoop (e : Fin 64) (s : State) : Host.Outcome State Fault Refusal := commit (effLoop e) s

end Sys2Proof.Machine
end

