-- ==== Sys2Proof/Machine/Forks.lean ====
section
/-! DEFINITION. Forks, waits and host jumps (chapter 05; R162 to R173, R176 to R183, R199), the resolution of a fork in Anise mode (R345),
END, and deliveries to fork-input ports. -/
namespace Sys2Proof.Machine

variable {d0 : Device}

/-! Host jumps (R179 to R183, R199) -/

/-- The jump that a boundary of a repeat takes again: that of the boundary of the same number and operation in the voided attempt, whatever ticks
a WAIT has moved (R199). -/
def Engine.retaken (x : Engine) (idx : Nat) : Option Nat :=
  (x.snap.jumps.find? (fun j => j.1 == x.segs && j.2.1 == idx)).map (fun j => j.2.2)

/-- The pending jump is done with. -/
def Tx.jumpOver (t : Tx d0) (e result : Nat) : Tx d0 :=
  ((t.modEng e (fun x => { x with jump := none })).wb (R.SCH_JUMP_REQ.REQ e) false).w (R.SCH_JUMP_STATUS.RESULT e) result

/-- A jump is taken on tick `at'` at the boundary of operation `idx` (R182); a retaken one changes only its tick (R199). -/
def Tx.jumpTaken (t : Tx d0) (e idx j at' : Nat) (retake : Bool) : Tx d0 :=
  let t := t.w64 (R.SCH_JUMP_EPOCH_LO.EPOCH e) (R.SCH_JUMP_EPOCH_HI.EPOCH e) at'
  if retake then t
  else
    let t := ((t.jumpOver e 1).w (R.SCH_JUMP_STATUS.J e) j).inc (R.SCH_JUMP_STATUS.TAKEN_CNT e)
    t.modEng e (fun x => { x with snap := { x.snap with jumps := x.snap.jumps ++ [(x.segs, idx, j)] } })

/-- A jump is refused at the boundary that would take it (R181). -/
def Tx.jumpRefused (t : Tx d0) (e : Nat) : Tx d0 := t.jumpOver e 3

/-- The tick on which the branch of a latched FORK starts, once it is known: its boundary, or 24 ticks after the last awaited bit (R345). -/
def Engine.branchAt (x : Engine) (l : ForkLatch) : Option Nat :=
  match x.anise with
  | some w => w.ready.map (fun g => g.toNat + 24)
  | none => some l.b.toNat

/-- The index of a latched FORK's entry: where it takes DEFAULT, entry BASE is read for it, and a tag there halts the engine as in the entry itself
(R173, R468; DEDUCED, log 153). -/
def Tx.entryIndex (t : Tx d0) (e : Nat) (l : ForkLatch) : Option Nat × Tx d0 :=
  let a := forkAddr (e / 2) (bitsOf l.operand 54 43) / 64
  if forkDefault l.operand l then
    let bad := t.d.lineKind a != 0
    let t := t.readLine a 0 8
    if bad then (none, t.haltEngine e 3) else (some (t.d.forkIndex (e / 2) l.operand l), t)
  else (some (t.d.forkIndex (e / 2) l.operand l), t)

/-- The entry of a latched FORK is formed (R209). -/
def Tx.formEntry (t : Tx d0) (e : Nat) : Tx d0 :=
  match (t.d.eng e).latch with
  | none => t
  | some l => match t.entryIndex e l with
    | (none, t) => t
    | (some i, t) => t.modEng e (fun x => { x with latch := some { l with entry := some i } })

/-- The engine reads a fork-table entry at a boundary (R173): its POINTER, or none where the engine halts. -/
def Tx.readEntry (t : Tx d0) (e i : Nat) : Option Nat × Tx d0 :=
  let l := forkAddr (e / 2) i / 64
  let k := t.d.lineKind l
  let t := t.readLine l 0 8
  let ent := t.d.forkEntry (e / 2) i
  if k ≠ 0 || !ent.testBit 25 then (none, t.haltEngine e 3) else (some (ent / 2 ^ 32), t)

/-- The POINTER of a latched FORK's entry, formed now where it has not been. -/
def Tx.readBranch (t : Tx d0) (e : Nat) (l : ForkLatch) : Option Nat × Tx d0 :=
  match l.entry with
  | some i => t.readEntry e i
  | none => match t.entryIndex e l with
    | (none, t) => (none, t)
    | (some i, t) => t.readEntry e i

/-- The entry of a latched FORK, formed by now, is read: its POINTER is known, and where fetching has come to the FORK it goes on with the branch,
which starts on tick `b`, from 19 ticks before it (R173, R209). -/
def Tx.openBranch (t : Tx d0) (e b : Nat) : Tx d0 :=
  match (t.d.eng e).latch with
  | none => t
  | some l =>
    match t.readBranch e l with
    | (none, t) => t
    | (some ptr, t) =>
      let t := t.modEng e (fun x => { x with latch := some { l with ptr := some ptr } })
      if (t.d.eng e).fetch.stop then t.fetchFrom e ptr b (max t.now.toNat (b - 19)) true else t

/-- The jump that a FORK latched at its deadline is replaced or cancelled before its boundary: the outcome decides after all, and what was fetched
of the other branch is fetched anew (DEDUCED, log 57). -/
def Tx.jumpGone (t : Tx d0) (e : Nat) : Tx d0 :=
  let t := match (t.d.eng e).anise with
    | some w => if w.jump then t.modEng e (fun x => { x with anise := some { w with jump := false } }) else t
    | none => t
  match (t.d.eng e).latch with
  | none => t
  | some l =>
    if l.jump.isNone || l.retake then t
    else
      let t := t.modEng e (fun x => { x with latch := some { l with jump := none, ptr := none } })
      let t := if l.entry.isSome then t.formEntry e else t
      if l.ptr.isNone then t
      else
        let isFork := fun (o : QOp) => opCode o.bits == 0x10 && o.fixed && o.due == l.b.toNat
        let q := (t.d.eng e).queue
        let t := match q.findIdx? isFork with
          | some i => (t.setQueue e (q.take (i + 1))).modEng e (fun x => { x with fetch := { x.fetch with stop := true } })
          | none => t
        t.openBranch e (((t.d.eng e).branchAt l).getD l.b.toNat)

/-- A pending jump is cancelled (R183). -/
def Tx.jumpDropped (t : Tx d0) (e : Nat) : Tx d0 := if (t.d.eng e).jump.isNone then t else (t.jumpOver e 2).jumpGone e

/-- A WAIT in JUMP mode takes a jump on tick `at'`, or refuses it (R177, R180, R181). -/
def Tx.waitJump (t : Tx d0) (e j at' : Nat) (retake : Bool) : Tx d0 :=
  match (t.d.eng e).waiting with
  | none => t
  | some w =>
    if bitsOf w.operand 58 55 ≤ j then t.jumpRefused e
    else match t.readEntry e (bitsOf w.operand 54 43 + j) with
      | (none, t) => t
      | (some ptr, t) => (t.jumpTaken e w.idx j at' retake).waitEnds e ptr (at' + bitsOf w.operand 42 32)

/-- A jump becomes pending on this tick, in place of one that is (R179); an engine at a WAIT in JUMP mode takes it at once (R180). -/
def Tx.jumpPend (t : Tx d0) (e j : Nat) : Tx d0 :=
  let now := t.now
  let t := t.jumpGone e
  let t := ((t.modEng e (fun x => { x with jump := some (j, now) })).wb (R.SCH_JUMP_REQ.REQ e) true).w (R.SCH_JUMP_REQ.J e) j
  match (t.d.eng e).waiting with
  | none => t
  | some w => if bitsOf w.operand 63 62 = 1 && w.resume.isNone then t.waitJump e j now.toNat false else t

/-- A write of SCH_JUMP_REQ is applied on this tick (R179, R183). -/
def Tx.jumpWrite (t : Tx d0) (e data : Nat) : Tx d0 :=
  let j := data % 16
  let pair := data.testBit 30
  let t := if data.testBit 29 then t.jumpDropped e else t
  let t := (t.w (R.SCH_JUMP_REQ.J e) j).wb (R.SCH_JUMP_REQ.PAIR e) pair
  if data.testBit 31 then
    let t := t.jumpPend e j
    if pair then t.jumpPend (e / 2 * 2 + (1 - e % 2)) j else t
  else t

/-! Forks (R166 to R173) -/

/-- The fork-input ports that a FORK names, 64 per tile. -/
def forkPorts (e o : Nat) : List Nat := (List.range (bitsOf o 57 55)).map (fun i => 32 * e + bitsOf o (5 * i + 4) (5 * i))

/-- A named port counts as present for boundary `b` (R166). -/
def Device.portOk (d : Device) (o b p : Nat) : Bool :=
  (d.port p).present && (bitsOf o 42 30 = 0 || decide (b ≤ (d.port p).stamp.toNat + 16 * bitsOf o 42 30))

/-- The engine latches the ports a FORK names, and at its deadline the jump it takes if any, and clears their marks (R166, R180, R199). -/
def Tx.latchFork (t : Tx d0) (e idx o b : Nat) (atDeadline : Bool) : Tx d0 :=
  let x := t.d.eng e
  let ps := forkPorts e o
  let absent := ps.filter (fun p => !t.d.portOk o b p)
  let v := ps.zipIdx.foldl (fun v (p, i) => v + (t.d.port p).val.toNat * 2 ^ i) 0
  let again := if atDeadline then x.retaken idx else none
  let jump := match again with
    | some j => some (j, t.now)
    | none => if o.testBit 62 && atDeadline then x.jump else none
  let l : ForkLatch := { b := BitVec.ofNat 64 b, operand := o, ok := absent.isEmpty, v := v, late := absent.any (fun p => !(t.d.port p).lost)
                         lost := absent.any (fun p => (t.d.port p).lost), jump := jump, retake := again.isSome }
  let t := t.modEng e (fun x => { x with latch := some l })
  t.each ps (fun p t => t.clearPort p)

/-- The FORK whose deadline this tick is: in the queue, or still to be fetched in the segment under way. -/
def Device.forkDue (d : Device) (e : Nat) : Option (Nat × Nat) :=
  let x := d.eng e
  let now := d.now.toNat
  let isFork := fun (bits : Nat) => opCode bits == 0x10 && !(opOperand bits).testBit 63
  match x.queue.find? (fun q => q.fixed && isFork q.bits && q.due == now + 24) with
  | some q => some (q.idx, q.bits)
  | none =>
    if x.fetch.stop || !x.fetch.fixed then none
    else match d.peekTerm e 128 x.fetch.ptr with
      | some (i, bits) => if isFork bits && x.fetch.base + opOffset bits == now + 24 then some (i, bits) else none
      | none => none

/-- FORK_DEADLINE: at b − 24 the named ports are latched (R166). In Anise mode the engine asks for the bits of class-2 routes that are not present,
and waits for them (R345), unless a jump that has arrived takes the boundary, which it then does at b (R180; DEDUCED, log 167). -/
def effForkDeadline (e : Nat) (t : Tx d0) : Tx d0 :=
  if !t.running || !(t.d.eng e).live || (t.d.eng e).latch.isSome then t
  else match t.d.forkDue e with
    | none => t
    | some (idx, bits) =>
      let o := opOperand bits
      let b := t.now.toNat + 24
      let ask := if t.d.aniseMode then (forkPorts e o).eraseDups.filter (fun p => (t.d.routeInto p).isSome && !t.d.portOk o b p) else []
      let arrived := if o.testBit 62 then (t.d.eng e).jump else none
      let jump := ((t.d.eng e).retaken idx).isSome || arrived.any (fun c => decide (c.1 < bitsOf o 61 58))
      let stamp := if bitsOf o 42 30 = 0 then (t.d.eng e).snap.b0.toNat else b - 16 * bitsOf o 42 30
      if ask.isEmpty then t.latchFork e idx o b true
      else if jump then (t.askPorts e stamp ask).latchFork e idx o b true
      else
        let t := t.modEng e (fun x => { x with
          anise := some { idx := idx, operand := o, b := b, await := ask, since := t.now, jump := arrived.isSome } })
        t.askPorts e stamp ask

def execForkDeadline (e : Fin 64) (s : State) : Host.Outcome State Fault Refusal := commit (effForkDeadline e) s

/-- The entry of a latched fork is formed 22 ticks before its branch starts, and read 20 ticks before it (R209). -/
def Tx.forkAhead (t : Tx d0) (e : Nat) : Tx d0 :=
  match (t.d.eng e).latch with
  | none => t
  | some l =>
    match (t.d.eng e).branchAt l with
    | none => t
    | some b => if b = t.now.toNat + 22 then t.formEntry e else if b = t.now.toNat + 20 then t.openBranch e b else t

/-- A resolved FORK continues at its branch on this tick (R167, R168, R173, R181, R182). -/
def Tx.forkGo (t : Tx d0) (e idx o : Nat) (l : ForkLatch) : Tx d0 :=
  let tl := e / 2
  let now := t.now.toNat
  match (match l.ptr with | some ptr => (some ptr, t) | none => t.readBranch e l) with
  | (none, t) => t
  | (some ptr, t) =>
    let taken := match l.jump with
      | some (j, _) => decide (j < bitsOf o 61 58)
      | none => false
    let t := match l.jump with
      | some (j, _) => if taken then t.jumpTaken e idx j now l.retake else if l.retake then t else t.jumpRefused e
      | none => t
    let t := if taken || l.ok then t
      else
        let t := (if l.late then t.ev (R.SCH_EVT.LATE_FORK e) else t)
        let t := (if l.lost then t.ev (R.SCH_EVT.LOST e) else t).inc (R.SCH_CNT.LATE e)
        let mask := (if l.late then 0x10 else 0) + (if l.lost then 0x08 else 0)
        match t.d.curShot tl with
        | some s => t.flagShot tl s.id s.attempt mask
        | none => t.flagTile tl mask
    (t.modEng e (fun x => { x with latch := none })).enterSeg e ptr

/-- FORK at its boundary: DIRECT forks continue at once; a fork that waits in Anise mode holds its engine (R345). -/
def Tx.forkOn (t : Tx d0) (e : Nat) (q : QOp) : Tx d0 :=
  let o := opOperand q.bits
  if o.testBit 63 then t.enterSeg e (o % 2 ^ 32)
  else match (t.d.eng e).anise with
  | some w =>
    let t := if w.jump then (t.modEng e (fun x => { x with anise := some { w with jump := false } })).jumpRefused e else t
    (t.w (R.SCH_STAT.STATE e) 2).idleOuts e
  | none => match (t.d.eng e).latch with
    | some l => t.forkGo e q.idx o l
    | none =>
      let t := t.latchFork e q.idx o q.due true
      match (t.d.eng e).latch with
      | some l => t.forkGo e q.idx o l
      | none => t

def effFork (e : Nat) (t : Tx d0) : Tx d0 := t.issue e 0x10 (fun q t => t.forkOn e q)

def execFork (e : Fin 64) (s : State) : Host.Outcome State Fault Refusal := commit (effFork e) s

/-- The last awaited port of a fork has become present, or has been given up, on this tick: every named port is latched, and the
branch starts 24 ticks later (R345). -/
def Tx.aniseLatch (t : Tx d0) (e : Nat) : Tx d0 :=
  match (t.d.eng e).anise with
  | none => t
  | some w =>
    if w.ready = some t.now && (t.d.eng e).latch.isNone then
      t.latchFork e w.idx w.operand w.b false
    else t

/-- ANISE_FORK_RESOLVE: at g + 24 the fork resolves. -/
def effAniseForkResolve (e : Nat) (t : Tx d0) : Tx d0 :=
  match (t.d.eng e).anise, (t.d.eng e).latch with
  | some w, some l =>
    if t.running && (t.d.eng e).live && (match w.ready with | some g => g.toNat + 24 == t.now.toNat | none => false) then
      (t.modEng e (fun x => { x with anise := none })).forkGo e w.idx w.operand l
    else t
  | _, _ => t

def execAniseForkResolve (e : Fin 64) (s : State) : Host.Outcome State Fault Refusal := commit (effAniseForkResolve e) s

/-! Waits (R176 to R178) -/

/-- WAIT at its boundary: the engine holds with its outputs idle. An event of this tick, or a jump pending, ends the wait at once; with a TIMEOUT the
operations after it are fetched for the timeout tick. -/
def Tx.waitOn (t : Tx d0) (e : Nat) (q : QOp) : Tx d0 :=
  let o := opOperand q.bits
  let b := t.now.toNat
  let tmo := o % 2 ^ 32
  let again := (t.d.eng e).retaken q.idx
  let t := t.modEng e (fun x => { x with waiting := some { b := t.now, operand := o, idx := q.idx } })
  let t := ((t.w (R.SCH_STAT.STATE e) 2).wb (R.SCH_STAT.WAITING e) true).idleOuts e
  let t := if tmo = 0 then t else t.fetchFrom e (q.idx + 1) (b + tmo) (max b (b + tmo - 19)) true
  if bitsOf o 63 62 = 0 then
    if b < t.d.run.evs.getD (bitsOf o 61 59) 0 then t.waitEnds e (q.idx + 1) (t.d.run.evs.getD (bitsOf o 61 59) 0 - 1 + bitsOf o 42 32) else t
  else match again, (t.d.eng e).jump with
    | some j, _ => t.waitJump e j b true
    | none, some (j, _) => t.waitJump e j b false
    | none, none => t

def effWait (e : Nat) (t : Tx d0) : Tx d0 := t.issue e 0x11 (fun q t => t.waitOn e q)

def execWait (e : Fin 64) (s : State) : Host.Outcome State Fault Refusal := commit (effWait e) s

/-- WAIT_RESUME: the next segment starts at the event tick plus DELAY. -/
def effWaitResume (e : Nat) (t : Tx d0) : Tx d0 :=
  match ((t.d.eng e).waiting).bind Waiting.resume with
  | none => t
  | some (b, ptr) =>
    if b = t.now && t.running && (t.d.eng e).live then (t.modEng e (fun x => { x with waiting := none })).enterSeg e ptr else t

def execWaitResume (e : Fin 64) (s : State) : Host.Outcome State Fault Refusal := commit (effWaitResume e) s

/-- WAIT_TIMEOUT: at b + TIMEOUT without an event the engine goes on behind the WAIT. -/
def effWaitTimeout (e : Nat) (t : Tx d0) : Tx d0 :=
  match (t.d.eng e).waiting with
  | none => t
  | some w =>
    let tmo := w.operand % 2 ^ 32
    if tmo ≠ 0 && w.resume.isNone && w.b.toNat + tmo = t.now.toNat && t.running && (t.d.eng e).live then
      ((t.modEng e (fun x => { x with waiting := none })).ev (R.SCH_EVT.WAIT_TIMEOUT e)).enterSeg e (w.idx + 1)
    else t

def execWaitTimeout (e : Fin 64) (s : State) : Host.Outcome State Fault Refusal := commit (effWaitTimeout e) s

/-! END (R169, R183, R192, R201) -/

/-- The engine's stream is over. -/
def Tx.streamOver (t : Tx d0) (e : Nat) : Tx d0 :=
  let t := t.jumpDropped e
  let t := t.modEng e (fun x => { x with live := false, queue := [], fetch := {}, safe := none, waiting := none, latch := none, anise := none, stopAtSafe := false, ended := true })
  let t := (((t.w (R.ENG_QUEUE.DEPTH e) 0).w (R.SCH_STAT.STATE e) 0).w (R.SCH_STAT.WAITING e) 0).w (R.SCH_STAT.VOIDED e) 0
  let t := t.modRun (fun r => { r with quiet := t.now })
  let t := if e % 2 = 1 then t.capShotEnd (e / 2) else t
  if t.d.tileHeld (e / 2) then (t.capShotEnd (e / 2)).closeShot (e / 2) else t

def effEndOp (e : Nat) (t : Tx d0) : Tx d0 := t.issue e 0x1F (fun _ t => t.streamOver e)

def execEndOp (e : Fin 64) (s : State) : Host.Outcome State Fault Refusal := commit (effEndOp e) s

/-! Deliveries (R164, R165, R266, R323) -/

/-- OUTCOME_DELIVERY: the bits on their way to a port that are due on this tick arrive. -/
def effOutcomeDelivery (p : Nat) (t : Tx d0) : Tx d0 :=
  let now := t.now.toNat
  let due := t.d.flight.filter (fun c => c.port == p && c.due == now)
  if !t.running || due.isEmpty then t
  else (t.upd (.flight (t.d.flight.filter (fun c => !(c.port == p && c.due == now))))).each due (fun c t => t.deliver p c.value c.stamp)

def execOutcomeDelivery (port : Fin 2048) (s : State) : Host.Outcome State Fault Refusal := commit (effOutcomeDelivery port) s

end Sys2Proof.Machine
end

