-- ==== Sys2Proof/Machine/Safe.lean ====
section
/-! DEFINITION. Safe points, holds and voids (chapter 05, R184 to R199; R209, R295, R331 to R334, R362, R365). -/
namespace Sys2Proof.Machine

variable {d0 : Device}

/-! The vote (R185, R190 to R192, R197, R217) -/

/-- A residency record of the committed image (R158). -/
def Device.resRec (d : Device) (n : Nat) : List Byte :=
  match d.img.act with
  | none => []
  | some im => im.resid.getD n []

/-- SCHED and WAVE blocks that a residency record names. -/
def recSched (r : List Byte) : List Nat := (List.range (rn r 4 4)).map (fun i => rn r 0 4 + i)
def recWave (r : List Byte) : List Nat :=
  (List.range (min 6 (rn r 8 2))).flatMap (fun i => (List.range (rn r (16 + 8 * i + 4) 4)).map (fun k => rn r (16 + 8 * i) 4 + k))

/-- Every block of a residency record is resident for an engine. -/
def Device.recordIn (d : Device) (e n : Nat) : Bool :=
  let r := d.resRec n
  (recSched r).all (fun b => (d.schedSlot e b).isSome) && (recWave r).all (fun b => (d.waveBlock e b).isSome)

/-- Members of a hold domain that still run, and whether one with a stream that has not executed END stands in FAULT (R191, R192). -/
def Device.members (d : Device) (e dom : Nat) : List Nat := (d.fellows e dom).filter (fun y => (d.eng y).live)
def Device.domFault (d : Device) (e dom : Nat) : Bool :=
  (d.fellows e dom).any (fun y => (d.stream? y).isSome && !(d.eng y).ended && d.f (R.SCH_STAT.STATE y) == 3)

/-- An engine stands at candidate `c` of domain `dom`. -/
def Device.standsAt (d : Device) (y dom : Nat) (c : Epoch) : Bool :=
  match (d.eng y).safe with
  | none => false
  | some s => s.cand == c && s.dom == dom

/-- The ports whose votes a candidate of domain 0b10 needs (R332): none outside a plan. -/
def Device.votePorts (d : Device) (dom : Nat) : List Nat := if dom = 2 then d.usedPorts else []

/-- The latest vote of a port in service for a candidate (R332, R350). -/
def Device.portVote (d : Device) (p : Nat) (c : Epoch) : Option VoteIn :=
  if d.b (R.FAB_PORT_STAT.IN_SERVICE p) then (bget (fun _ => none) d.votes p).bind (fun v => if v.cand = c.toNat then some v else none) else none

/-- The AND of this device's own votes for a candidate (R185, R332). -/
def Device.ownVote (d : Device) (e dom : Nat) (c : Epoch) : Bool :=
  !d.domFault e dom && (d.members e dom).all (fun y => d.standsAt y dom c && ((d.eng y).safe.bind SafePoint.vote) == some true)

/-- The READY this device sends for a candidate: a port from which no cell for it has come yet holds nothing back (R332). -/
def Device.readyOut (d : Device) (e dom : Nat) (c : Epoch) : Bool :=
  d.ownVote e dom c && (d.votePorts dom).all (fun p => (d.portVote p c).all VoteIn.ready)

/-- The combined vote for a candidate (R185, R332). -/
def Device.combined (d : Device) (e dom : Nat) (c : Epoch) : Bool :=
  d.ownVote e dom c && (d.votePorts dom).all (fun p => (d.portVote p c).any VoteIn.ready)

/-- Where a combined vote has become ready, the engines that start or repeat begin to fetch (R209). -/
def Tx.fetchReady (t : Tx d0) (e dom : Nat) (c : Epoch) : Tx d0 :=
  if t.d.combined e dom c then
    t.each (t.d.members e dom) (fun y t =>
      match (t.d.eng y).safe with
      | none => t
      | some s => if (t.d.eng y).fetch.stop && (t.d.eng y).queue.isEmpty then t.fetchFrom y s.ptr 0 t.now.toNat false else t)
  else t

/-- The SAFE operation of an engine's queue whose vote tick this is. -/
def Device.safeDue (d : Device) (e : Nat) : Option QOp :=
  (d.eng e).queue.find? (fun q => q.fixed && opCode q.bits == 0x13 && q.due == d.now.toNat + leadOf (opOperand q.bits / 2 ^ 62))

/-- A safe point from its SAFE operation. -/
def safeOf (q : QOp) : SafePoint :=
  { cand := BitVec.ofNat 64 q.due, dom := opOperand q.bits / 2 ^ 62, res := opOperand q.bits % 2 ^ 32, ptr := q.idx + 1 }

/-- SAFE_VOTE: at c − lead an engine votes (R185, R217, R295). -/
def effSafeVote (e : Nat) (t : Tx d0) : Tx d0 :=
  let x := t.d.eng e
  if !t.running || !x.live then t
  else
    let s := match x.safe with
      | some s => some s
      | none => (t.d.safeDue e).map safeOf
    match s with
    | none => t
    | some s =>
      if s.cand ≠ t.now + BitVec.ofNat 64 (leadOf s.dom) then t
      else
        let ok := t.d.recordIn e s.res && !(t.d.seq e).voidOpen
        let (room, t) := if e % 2 = 1 then t.reserve (e / 2) else (true, t)
        let t := t.modEng e (fun x => { x with safe := some { s with vote := some (ok && room) } })
        t.fetchReady e s.dom s.cand

def execSafeVote (e : Fin 64) (s : State) : Host.Outcome State Fault Refusal := commit (effSafeVote e) s

/-- An engine at the boundary of a SAFE that it had not issued at the vote tick has not voted ready (R185). -/
def Tx.lateSafe (t : Tx d0) (e : Nat) : Tx d0 :=
  match t.d.headOp e with
  | none => t
  | some (q, _) =>
    if opCode q.bits = 0x13 && !q.invalid && (t.d.eng e).safe.isNone then
      t.modEng e (fun x => { x with safe := some { safeOf q with vote := some false } })
    else t

/-- SAFE: its boundary is the first candidate; an engine that had not issued it at the vote tick has not voted ready. -/
def effSafe (e : Nat) (t : Tx d0) : Tx d0 :=
  match t.d.headOp e with
  | none => t
  | some (q, _) =>
    if q.invalid then t.haltEngine e 1 else t.lateSafe e

def execSafe (e : Fin 64) (s : State) : Host.Outcome State Fault Refusal := commit (effSafe e) s

/-! Passing (R186, R188, R193, R199, R362, R365) -/

/-- The codes in force and the marker level of a tile, recorded for a repeat (R365). -/
def Device.tileLevels (d : Device) (tl : Nat) : List Nat :=
  (List.range 8).map (fun i => d.f (R.FLX_OUT_STAT.CODE (8 * tl + i))) ++ [(d.markLast tl).toNat]

/-- A repeat starts from the recorded codes and level (R365). -/
def Tx.restoreLevels (t : Tx d0) (tl : Nat) : Tx d0 :=
  match bget (fun _ => []) t.d.recorded tl with
  | [] => t
  | l => (t.each (List.range 8) (fun i t => t.loadCode (8 * tl + i) (l.getD i 0))).markNow tl (l.getD 8 0 == 1)

/-- What a tile does at a safe point it passes: held codes go, open windows and the capture close, the old shot is over and a
new one starts with its number and attempt (R169, R186, R196, R271, R291, R298, R362, R365). -/
def Tx.tilePass (t : Tx d0) (tl : Nat) (rep : Bool) (attempt : Nat) : Tx d0 :=
  let now := t.now.toNat
  let t := t.dropTileHeld tl
  let t := if rep then t.restoreLevels tl else t.upd (.recorded tl (t.d.tileLevels tl))
  let t := t.each (List.range 16) (fun i t =>
    if (t.d.win (16 * tl + i)).isSome then (t.ev (R.RD_EVT.TRUNC tl)).closeWin (16 * tl + i) now true 4 else t)
  let t := (t.capShotEnd tl).closeShot tl
  let old := t.d.f64 (R.SCH_SHOT_LO.SHOT (2 * tl)) (R.SCH_SHOT_HI.SHOT (2 * tl))
  let n := old + (if rep then 0 else 1)
  let t := t.digestPass tl old
  let t := (t.w64 (R.SCH_SHOT_LO.SHOT (2 * tl)) (R.SCH_SHOT_HI.SHOT (2 * tl)) n).w64 (R.SCH_SHOT_LO.SHOT (2 * tl + 1)) (R.SCH_SHOT_HI.SHOT (2 * tl + 1)) n
  t.startShot tl n attempt

/-- Frame words that the engine owns, as a snapshot holds them. -/
def Device.frameWords (d : Device) (e : Nat) : List (Nat × Nat × Nat) :=
  (List.range 16).map (fun i => d.frame (32 * (e / 2) + 16 * (e % 2) + i))

/-- An engine passes a safe point on this tick: snapshot, ticks of what is queued and fetched, next segment (R186, R193, R208). -/
def Tx.engPass (t : Tx d0) (e : Nat) (s : SafePoint) : Tx d0 :=
  let c := t.now
  let x := t.d.eng e
  let q := match x.queue with
    | [] => []
    | h :: r => if opCode h.bits = 0x13 && h.fixed then r else h :: r
  let q := q.map (fun o => { o with due := if o.wait = 1 then c.toNat + o.due else o.due, wait := o.wait - 1 })
  let f := x.fetch
  let f := { f with base := if f.wait = 1 then c.toNat + f.base else f.base, wait := f.wait - 1 }
  let snap : Snapshot := { b0 := c, dom := s.dom, res := s.res, ptr := s.ptr, active := t.f (R.SCH_STAT.LOOP_ACTIVE e), left := x.left
                           frames := t.d.frameWords e, jumps := if s.rep then x.snap.jumps else [] }
  let t := t.modEng e (fun x => { x with
    safe := none, queue := q, fetch := f, snap := snap, curRec := s.res, voids := if s.rep then x.voids else 0, voidDue := none, notice := false
    segs := 0 })
  let t := (t.w (R.ENG_QUEUE.DEPTH e) q.length).wb (R.SCH_STAT.VOIDED e) false
  ((t.enterSeg e s.ptr).raise e 4 c.toNat).applySafe e

/-- The candidate fails: every member holds for 2,048 ticks more (R186, R188). -/
def Tx.engHold (t : Tx d0) (e : Nat) : Tx d0 :=
  match (t.d.eng e).safe with
  | none => t
  | some s =>
    let t := t.modEng e (fun x => { x with safe := some { s with cand := s.cand + 2048, vote := none, fails := s.fails + 1 } })
    ((t.inc (R.SCH_HOLD.QUANTA e)).ev (R.SCH_EVT.HOLD e)).w (R.SCH_STAT.STATE e) 2

/-- Engine `z` has cast a vote that reaches engine `y` and is not for the candidate of a domain at which `y` stands (R190). -/
def Device.strayVote (d : Device) (z y : Nat) (c : Epoch) (dom : Nat) : Bool :=
  match (d.eng z).safe with
  | none => false
  | some q => q.vote.isSome && (q.cand != c || q.dom != dom) && decide (c.toNat ≤ q.cand.toNat) && (d.fellows z q.dom).contains y

/-- An engine has cast a vote of its own for candidate `c` of domain 0b10, which is past, or has voided: a member that has voided, or that has still to
learn of the void a vote tells of, owes no vote for the candidates of the repeat (R196, R197). -/
def Device.votedFor (d : Device) (y : Nat) (c : Nat) (v : VoteIn) : Bool :=
  let x := d.eng y
  (x.snap.dom == 2 && x.snap.b0.toNat == c) || x.notice || (v.void && x.snap.dom == 2 && x.snap.b0.toNat == v.vbase) ||
    x.safe.any (fun s => s.rep || (s.dom == 2 && (s.cand.toNat == c || (s.cand.toNat == c + 2048 && 0 < s.fails))))

/-- The candidate's tick of votes that the ports have heard is over: an engine that runs and had no vote of its own for it, or one of another domain,
halts with SAFE_MISMATCH (R190; DESIGN CHOICE, log 60). -/
def Tx.strayVotes (t : Tx d0) : Tx d0 :=
  let vs := (t.d.votePorts 2).filterMap (fun p => t.d.portVote p t.now)
  if vs.isEmpty then t
  else t.each t.d.streams64 (fun y t => if (t.d.eng y).live && vs.any (fun v => !t.d.votedFor y t.now.toNat v) then t.haltEngine y 4 else t)

/-- SAFE_POINT_PASS: at candidate c every engine of the domain passes, or every one holds (R186, R190, R332). A safe point that is treated as END ends
the streams at its first candidate, or, in a hold, at the candidate that would pass (R655; log 180). -/
def effSafePointPass (e : Nat) (t : Tx d0) : Tx d0 :=
  match (t.d.eng e).safe with
  | none => t
  | some s =>
    if !t.running || !(t.d.eng e).live || s.cand ≠ t.now then t
    else
      let mem := t.d.members e s.dom
      let t := t.each mem (fun y t => t.lateSafe y)
      let here := mem.filter (fun y => t.d.standsAt y s.dom s.cand)
      if (t.d.eng e).stopAtSafe && (s.fails = 0 || t.d.combined e s.dom s.cand) then t.each here (fun y t => t.streamOver y)
      else
        let voided := mem.any (fun y => (t.d.eng y).notice || (match (t.d.eng y).safe with | some q => q.rep | none => false))
        let other := mem.filter (fun y => match (t.d.eng y).safe with | some q => q.cand == s.cand && q.dom != s.dom | none => false)
        let absent := if voided then [] else mem.filter (fun y => match (t.d.eng y).safe with | some q => q.cand != s.cand | none => true)
        let stray := here.filter (fun y => (other ++ absent).any (fun z => t.d.strayVote z y s.cand s.dom))
        let t := t.each (other ++ absent ++ stray) (fun y t => t.haltEngine y 4)
        let here := here.filter (fun y => (t.d.eng y).live)
        let t := t.each (t.d.votePorts s.dom) (fun p t => if (t.d.portVote p s.cand).isNone then t.ev R.FAB_EVT.VOTE_LOST else t)
        let pass := other.isEmpty && absent.isEmpty && t.d.combined e s.dom s.cand
        let t := if s.dom = 2 then t.upd (.voted (some (s.cand.toNat, pass))) else t
        if pass then
          let t := t.each (here.map (fun y => y / 2)).eraseDups (fun tl t =>
            let reps := here.any (fun y => y / 2 == tl && (match (t.d.eng y).safe with | some q => q.rep | none => false))
            t.tilePass tl reps (if reps then max (t.d.eng (2 * tl)).voids (t.d.eng (2 * tl + 1)).voids else 0))
          t.each here (fun y t => match (t.d.eng y).safe with | some q => t.engPass y q | none => t)
        else t.each here (fun y t => t.engHold y)

def execSafePointPass (e : Fin 64) (s : State) : Host.Outcome State Fault Refusal := commit (effSafePointPass e) s

/-- HOLD_TIMEOUT: 65,536 failed candidates halt the domain (R189). -/
def effHoldTimeout (e : Nat) (t : Tx d0) : Tx d0 :=
  match (t.d.eng e).safe with
  | none => t
  | some s => if 65536 ≤ s.fails && t.running then t.haltDomain e s.dom 5 else t

def execHoldTimeout (e : Fin 64) (s : State) : Host.Outcome State Fault Refusal := commit (effHoldTimeout e) s

/-! Voids (R194, R195, R198, R211) -/

/-- The operation that the issue unit has still to move to the queue on or before this tick: whether it is resident. -/
def Device.opMissing (d : Device) (e : Nat) : Option Bool :=
  let f := (d.eng e).fetch
  if f.stop || !f.fixed then none
  else
    let here := (d.opLine e f.ptr).isSome
    let bits := if here then d.opBits e f.ptr else d.opImage f.ptr
    if f.base + opOffset bits ≤ d.now.toNat then some here else none

/-- SHOT_VOID: an operation to be issued on this tick is not resident or not queued, or a substitution or a missing weight line
has made the void due. -/
def effShotVoid (e : Nat) (t : Tx d0) : Tx d0 :=
  let x := t.d.eng e
  if !t.running || !x.live then t
  else if x.voidDue.any (fun v => decide (v.toNat ≤ t.now.toNat)) then t.voidEngine e
  else if e % 2 = 1 && t.d.weightDue (e / 2) then (t.each (List.range 16) (fun i t => t.weigh (16 * (e / 2) + i))).voidEngine e
  else match t.d.opMissing e with
    | none => t
    | some resident => (if resident then t.ev (R.ENG_EVT.ISSUE_LATE e) else t).voidEngine e

def execShotVoid (e : Fin 64) (s : State) : Host.Outcome State Fault Refusal := commit (effShotVoid e) s

/-- VOID_NOTICE: an engine that has learnt of a void of its domain voids on this tick. -/
def effVoidNotice (e : Nat) (t : Tx d0) : Tx d0 := if t.running && (t.d.eng e).live && (t.d.eng e).notice then t.voidEngine e else t

def execVoidNotice (e : Fin 64) (s : State) : Host.Outcome State Fault Refusal := commit (effVoidNotice e) s

/-- VOID_LIMIT: eight voids of one shot in a row halt the domain. -/
def effVoidLimit (e : Nat) (t : Tx d0) : Tx d0 :=
  if t.running && (t.d.eng e).live && 8 ≤ (t.d.eng e).voids then t.haltDomain e (t.d.eng e).snap.dom 6 else t

def execVoidLimit (e : Fin 64) (s : State) : Host.Outcome State Fault Refusal := commit (effVoidLimit e) s

end Sys2Proof.Machine
end

