-- ==== Sys2Proof/Machine/Queues.lean ====
section
/-! DEFINITION. Completions of queue entries (chapter 17), and what a ring that is disabled does to the RING entries that take it (R585). -/
namespace Sys2Proof.Machine

variable {d0 : Device}

def Device.sqSize (d : Device) (q : Nat) : Nat := 2 ^ (d.queue q).sqLog
def Device.cqSize (d : Device) (q : Nat) : Nat := 2 ^ (d.queue q).cqLog

/-- The CQ is full (R572). -/
def Device.cqFull (d : Device) (q : Nat) : Bool := (d.f (R.LNK_Q_STAT.CQ_TAIL q) + 1) % d.cqSize q == d.f (R.LNK_CQ_HEAD.INDEX q)

def Tx.showCq (t : Tx d0) (q : Nat) : Tx d0 := t.wb (R.LNK_Q_STAT.CQ_FULL q) (t.d.cqFull q && t.b (R.LNK_Q_CTL.EN q))

/-- A completion entry is written, and its message made pending (R565, R571, R573). -/
def Tx.complete (t : Tx d0) (q : Nat) (entry : List Byte) (status done : Nat) : Tx d0 :=
  let x := t.d.queue q
  let tail := t.f (R.LNK_Q_STAT.CQ_TAIL q)
  let bs := (entry.drop 2).take 2 ++ leBytes 2 (t.f (R.LNK_Q_STAT.SQ_HEAD q)) ++ [BitVec.ofNat 8 status, BitVec.ofNat 8 x.phase.toNat, 0, 0] ++
    leBytes 4 done ++ leBytes 4 0
  let t := t.send (.hostWrite (x.cqBase + 16 * tail) bs false)
  let next := (tail + 1) % t.d.cqSize q
  let t := t.modQueue q (fun y => { y with cur := none, phase := if next = 0 then !y.phase else y.phase })
  let t := ((t.w (R.LNK_Q_STAT.CQ_TAIL q) next).wb (R.LNK_Q_STAT.BUSY q) false).showCq q
  if (rb entry 1).testBit 0 && t.b (R.LNK_Q_CTL.IEN q) then t.pend q else t

/-- Where a ring is read. -/
def ringRptr (n : Nat) : Fld := if n = 0 then R.ACQ_DRAIN_RPTR.OFF else R.ACQ_STRM_RPTR.OFF (n - 1)

/-- A ring is disabled: a RING entry that takes it completes with the bytes it has taken (R585), and its read pointer moves on (R568). -/
def Tx.endRings (t : Tx d0) (n : Nat) : Tx d0 :=
  t.each (List.range 64) (fun q t =>
    match (t.d.queue q).cur with
    | none => t
    | some e =>
      if rb e.bytes 0 = 3 && rb e.bytes 28 = n then
        (t.w (ringRptr n) ((256 * t.f (ringRptr n) + e.done) % max 1 (t.d.ring n).size / 256)).complete q e.bytes (if e.poison then 9 else 0) e.done
      else t)

end Sys2Proof.Machine
end

