-- ==== Sys2Proof/Machine/AcqRows.lean ====
section
/-! DEFINITION. Read-out results, trigger sources, capture segments, streams and the drain as commands (chapters 07 and 08). -/
namespace Sys2Proof.Machine

variable {d0 : Device}

/-! A demodulator's result (R263 to R269, R274) -/

/-- The result of a closed window appears: last-result registers, counters, the result itself, and the code's bits. -/
def Tx.resultOut (t : Tx d0) (n : Nat) (w : Win) (adc : List Int) : Tx d0 :=
  let tl := n / 16
  let dm := n % 16
  let E := w.start + w.len
  let now := t.now.toNat
  let (adc, t) := t.seen tl (4 * w.start) adc
  let (i, q, code, clip, osat) := t.d.winResult tl w adc
  let sent := !w.cut && (t.d.tile tl).sends.any (fun c => c.1 == dm && decide (c.2 < now))
  let t := if sent then t.modTile tl (fun x => { x with sends := x.sends.filter (fun c => c.1 != dm || decide (now ≤ c.2)) }) else t
  let t := (((t.wb (R.RD_DSTAT.VALID n) true).w (R.RD_DSTAT.CODE n) code).wb (R.RD_DSTAT.CLIP n) clip).wb (R.RD_DSTAT.OSAT n) osat
  let t := (t.w (R.RD_LAST_I.I n) (patternOf 32 i)).w (R.RD_LAST_Q.Q n) (patternOf 32 q)
  let t := if clip then t.ev (R.RD_EVT.CLIP tl) else t
  let t := if osat then t.ev (R.RD_EVT.OSAT tl) else t
  let t := if code = 2 then t.inc (R.RD_CNT.LEAK n) else if code = 3 then t.inc (R.RD_CNT.INVALID n) else t
  let flags := w.flags ||| (if code = 2 then 2 else 0)
  let t := if (rb w.wrec 6).testBit 2 then t.flagTile tl flags
    else t.queueResult tl w.shot w.attempt (resultBytes dm i q code sent clip osat flags w.shot)
  if w.cut then t
  else
    let t := (t.noteCode n code).readTables tl
    let t := t.each [0, 1] (fun b t =>
      let v := code.testBit b
      let t := t.deliverBit tl (2 * dm + b) v sent E
      let t := if sent then t.pendCode tl (2 * dm + b) v E else t
      t.answerAsked (32 * tl + 2 * dm + b) v E)
    t.codeTriggers tl dm code E

/-- INTEGRATION_END: 84 ticks after a window of the demodulator closed, its code and result appear. -/
def effIntegrationEnd (n : Nat) (adc : List Int) (t : Tx d0) : Tx d0 :=
  let tl := n / 16
  let here := fun (c : Nat × Win) => c.1 == n % 16 && c.2.start + c.2.len + 84 == t.now.toNat
  match (t.d.tile tl).closing.find? here with
  | none => t
  | some c => (t.modTile tl (fun x => { x with closing := x.closing.erase c })).resultOut n c.2 adc

def execIntegrationEnd (d : Fin 512) (adc : List Int) (s : State) : Host.Outcome State Fault Refusal := commit (effIntegrationEnd d adc) s

/-! Trigger sources (R276 to R279) -/

/-- TRIGGER_EDGE: the level of a trigger input changes; the instant of the transition lies `back` sixteenths of an ADC sample before the last
sixteenth of this tick. It counts as an edge once the new level has held for 2 ticks (R279): at once where it has by now, else on the tick that
begins then, unless the level changes back before. A transition that only returns to the level last held is no edge (DEDUCED, log 64). -/
def effTriggerEdge (k : Nat) (rising : Bool) (back : Nat) (t : Tx d0) : Tx d0 :=
  let raw : Int := 64 * (t.now.toNat : Int) + 63 - back
  let lv := t.f R.ACQ_TIN_STAT.LEVEL
  let t := t.w R.ACQ_TIN_STAT.LEVEL (if rising then lv ||| 2 ^ k else lv &&& (0xFF - 2 ^ k))
  if !t.d.tinWatched raw then t.upd (.tin k { level := rising })
  else
    let t := match (t.d.tin k).cand with
      | none => t
      | some (u, l) => if (u : Int) + 128 ≤ raw then t.tinEdge k u l else t.upd (.tin k { t.d.tin k with cand := none })
    if rising = (t.d.tin k).level then t
    else if raw + 128 ≤ 64 * (t.now.toNat : Int) then t.tinEdge k raw.toNat rising
    else t.upd (.tin k { t.d.tin k with cand := some (raw.toNat, rising) })

def execTriggerEdge (k : Fin 8) (rising : Bool) (back : Fin 2048) (s : State) : Host.Outcome State Fault Refusal := commit (effTriggerEdge k rising back) s

/-- LEVEL_CROSSING: the corrected ADC samples that end with sample `last` of this tick pass the detectors of a condition. -/
def effLevelCrossing (c last : Nat) (xs : List Int) (t : Tx d0) : Tx d0 :=
  match t.d.trigRec c with
  | none => t
  | some r =>
    let stop := 4 * t.now.toNat + last + 1
    if rb r 2 ≠ 1 || !t.running || stop < xs.length then t
    else
      let first := stop - xs.length
      let (xs, t) := (t.readTables (rb r 3)).seen (rb r 3) first xs
      t.each xs.zipIdx (fun (x, k) t =>
        let n := first + k
        if n < 4 * t.d.run.first.toNat then t
        else
          let t := if (rb r 4).testBit 0 then t.levelStep c c r n x else t
          if (rb r 4).testBit 1 then t.levelStep c (8 + c) r n x else t)

def execLevelCrossing (c : Fin 8) (last : Fin 4) (xs : List Int) (s : State) : Host.Outcome State Fault Refusal := commit (effLevelCrossing c last xs) s

/-- TIMER_TRIGGER: the condition has an event on each tick that matches PERIOD and PHASE. -/
def effTimerTrigger (c : Nat) (t : Tx d0) : Tx d0 :=
  match t.d.trigRec c with
  | none => t
  | some r =>
    let now : Int := t.now.toNat
    if rb r 2 = 4 && (now - rn r 24 8) % (rn r 16 8 : Int) = 0 then t.trigEvent c (64 * now) none else t

def execTimerTrigger (c : Fin 8) (s : State) : Host.Outcome State Fault Refusal := commit (effTimerTrigger c) s

/-! Capture (R288 to R291, R299) -/

/-- A segment of a capture is written, and SEGDONE counts it; with its last one the capture ends (R291, R310). -/
def Tx.segWritten (t : Tx d0) (tl : Nat) (c : Capture) (done : Bool) : Tx d0 :=
  let own := match (t.d.tile tl).cap with
    | none => true
    | some x => x.shot == c.shot && x.attempt == c.attempt
  let t := if done then (t.inc (R.ACQ_CNT.SEGMENTS tl)).when own (fun t => t.inc (R.ACQ_STAT.SEGDONE tl)) else t
  match (t.d.tile tl).cap with
  | none => t
  | some x => if own && x.stage = 3 && rn x.crec 6 2 ≤ x.segs && (t.d.tile tl).segQ.isEmpty then t.capOver tl else t

/-- SEGMENT_END: the oldest segment whose last sample is past gets its measurements and header. -/
def effSegmentEnd (tl : Nat) (samples : List Int) (t : Tx d0) : Tx d0 :=
  match (t.d.tile tl).segQ with
  | [] => t
  | c :: rest =>
    if t.now.toNat < c.last then t
    else
      let t := t.modTile tl (fun x => { x with segQ := rest })
      let from' := 4 * t.d.adcStart tl
      let (xs, t) := t.seen tl c.first.toNat (samples.take c.count)
      let xs := xs.zipIdx.map (fun (x, k) => if c.first + k < from' then 0 else x)
      let t := if c.flags &&& 4 = 0 then t else t.ev (R.ACQ_EVT.TRUNC tl)
      let (h, t) := t.segHeader tl c xs
      let (done, t) := t.writeSeg tl c.shot c.attempt h (if (rb c.crec 34).testBit 0 then [] else sampleBytes xs)
      (t.segWritten tl c done).tryReady tl

def execSegmentEnd (tl : Fin 32) (samples : List Int) (s : State) : Host.Outcome State Fault Refusal := commit (effSegmentEnd tl samples) s

/-- REARM: on the 48th tick after a segment's last sample the unit is armed again. -/
def effRearm (tl : Nat) (t : Tx d0) : Tx d0 :=
  match (t.d.tile tl).cap with
  | none => t
  | some c =>
    if c.stage = 3 && c.segs < rn c.crec 6 2 && c.last + 48 = t.now.toNat then
      ((((t.noteBusy tl).modTile tl (fun x => { x with cap := some { c with stage := 1, arm := t.now.toNat } })).showCap tl).capImmediate tl).capKnown tl
    else t

def execRearm (tl : Fin 32) (s : State) : Host.Outcome State Fault Refusal := commit (effRearm tl) s

/-! Streams (R306 to R308) -/

/-- STREAM_BLOCK: 40 ticks of samples form a block; the one that reaches LENGTH or the run's end is the last. -/
def effStreamBlock (s : Nat) (samples : List Int) (t : Tx d0) : Tx d0 :=
  let x := t.d.stream s
  if x.active && t.now.toNat = x.start + 40 * (x.seq + 1) then
    let last := !t.running || (x.len ≠ 0 && decide (x.len ≤ 40 * (x.seq + 1)))
    let left := if t.running then 40 else min 40 (t.d.run.ended.toNat - (x.start + 40 * x.seq))
    let t := if left = 0 then t else t.streamBlock s last (samples.take (4 * left))
    if last then t.streamStop s else t
  else t

def execStreamBlock (slot : Fin 4) (samples : List Int) (s : State) : Host.Outcome State Fault Refusal := commit (effStreamBlock slot samples) s

/-- STREAM_END: at LENGTH, or once the run has ended, the block under way is the last; samples it lacks are 0. -/
def effStreamEnd (s : Nat) (samples : List Int) (t : Tx d0) : Tx d0 :=
  let x := t.d.stream s
  let atLen := x.len ≠ 0 && decide (x.start + x.len ≤ t.now.toNat)
  if !x.active || (t.running && !atLen) then t
  else
    let stop := if atLen then x.start + x.len else t.d.run.ended.toNat
    let left := stop - (x.start + 40 * x.seq)
    (if left = 0 then t else t.streamBlock s true (samples.take (4 * left))).streamStop s

def execStreamEnd (slot : Fin 4) (samples : List Int) (s : State) : Host.Outcome State Fault Refusal := commit (effStreamEnd slot samples) s

/-! The drain and the rings (R301 to R304, R482, R483) -/

def effDrainRecord (t : Tx d0) : Tx d0 := t.drainOne

def execDrainRecord (s : State) : Host.Outcome State Fault Refusal := commit effDrainRecord s

/-- Two regions of CXL memory, each a base and a length, overlap. -/
def overlaps (a b : Nat × Nat) : Bool := a.1 < b.1 + b.2 && b.1 < a.1 + a.2

/-- Capacity of the CXL memory device in bytes. -/
def Device.capacity (d : Device) : Nat := if d.cxlUp then d.f R.ECC_CXL_STAT.CAP * 2 ^ 30 else 0

/-- Regions of the committed image and of one being checked, pending or being committed (R482). -/
def Device.imageRegions (d : Device) : List (Nat × Nat) :=
  (match d.img.act with | some im => [(im.base, im.len)] | none => []) ++
  (if d.f R.GLB_IMG_STAT.LOAD_STATE = 0 then [] else [(d.img.latBase, d.img.latLen)])

/-- A ring with its check table (R301). -/
def Ring.region (g : Ring) : Nat × Nat := (g.base, g.size + g.size / 64)

/-- A ring is enabled: 0 the drain ring, 1 + s stream slot s. -/
def Device.ringOn (d : Device) (n : Nat) : Bool := if n = 0 then d.b R.ACQ_DRAIN_CTL.EN else d.b (R.ACQ_STRM_CTL.EN (n - 1))

/-- Regions of the enabled rings but one. -/
def Device.ringRegions (d : Device) (but : Nat) : List (Nat × Nat) :=
  ((List.range 5).filter (fun n => n != but && d.ringOn n)).map (fun n => (d.ring n).region)

/-- Base and size that a ring's registers hold. -/
def Device.ringRegs (d : Device) (n : Nat) : Ring :=
  if n = 0 then { base := d.f R.ACQ_DRAIN_BASE_LO.ADDR * 4096 + d.f R.ACQ_DRAIN_BASE_HI.ADDR * 2 ^ 32, size := d.f R.ACQ_DRAIN_SIZE.SIZE * 4096 }
  else { base := d.f (R.ACQ_STRM_BASE_LO.ADDR (n - 1)) * 4096 + d.f (R.ACQ_STRM_BASE_HI.ADDR (n - 1)) * 2 ^ 32
         size := d.f (R.ACQ_STRM_SIZE.SIZE (n - 1)) * 4096 }

/-- Regions that H2C entries in progress write (R585). -/
def Device.h2cRegions (d : Device) : List (Nat × Nat) :=
  d.queues.filterMap (fun x => x.2.cur.bind (fun e => if rb e.bytes 0 = 1 then some (rn e.bytes 16 8, rn e.bytes 24 4) else none))

/-- MAP_WHY of an enable that is refused; 0 where it is not (R483). -/
def Device.mapWhy (d : Device) (n : Nat) : Nat :=
  let g := (d.ringRegs n).region
  if d.capacity < g.1 + g.2 then 1
  else if d.imageRegions.any (overlaps g) then 2
  else if (d.ringRegions n).any (overlaps g) || d.h2cRegions.any (overlaps g) then 3
  else 0

/-- The CXL test of a self-test is under way: the lowest test left to run is test 5 (R680, R690). -/
def Device.cxlTesting (d : Device) : Bool := d.st.begun && d.st.tests % 32 == 0 && d.st.tests.testBit 5

/-- A request waits for the CXL test to end (R690). -/
def Tx.stHold (t : Tx d0) (k : Nat) : Tx d0 := t.modSt (fun x => { x with held := if x.held.contains k then x.held else x.held ++ [k] })

/-- EN of a ring is written (R301, R304, R482, R483, R690). -/
def Tx.ringEnable (t : Tx d0) (n : Nat) (en : Bool) : Tx d0 :=
  let put := fun (t : Tx d0) (v : Bool) => if n = 0 then t.wb R.ACQ_DRAIN_CTL.EN v else t.wb (R.ACQ_STRM_CTL.EN (n - 1)) v
  if en then
    if t.d.ringOn n then t
    else if t.d.cxlTesting then t.stHold (n + 1)
    else
      let why := t.d.mapWhy n
      if why ≠ 0 then (t.ev R.ECC_EVT.MAP_ERR).w R.ECC_CXL_STAT.MAP_WHY why
      else
        let t := put (t.upd (.ring n (t.d.ringRegs n))) true
        if n = 0 then (t.w R.ACQ_DRAIN_WPTR.OFF 0).showAbove
        else (t.w (R.ACQ_STRM_WPTR.OFF (n - 1)) 0).w (R.ACQ_STRM_STAT.GAPS (n - 1)) 0
  else if !t.d.ringOn n then t
  else if t.running then (if n = 0 then t.ev R.ACQ_DRAIN_STAT.EN_DENIED else t.ev (R.ACQ_STRM_STAT.EN_DENIED (n - 1)))
  else (put ((t.endRings n).upd (.ring n {})) false).when (n == 0) Tx.showAbove

/-- DRAIN_ENABLE: a write of ACQ_DRAIN_CTL. -/
def Tx.drainCtl (t : Tx d0) (data : Nat) : Tx d0 := ((t.w R.ACQ_DRAIN_CTL.THRESH (data / 4096)).ringEnable 0 (data.testBit 0)).showAbove

def effDrainEnable (data : Nat) (t : Tx d0) : Tx d0 := t.hostReg R.ACQ_DRAIN_CTL.EN.off (fun t => t.drainCtl data)

def execDrainEnable (data : Word) (s : State) : Host.Outcome State Fault Refusal := commit (effDrainEnable data.toNat) s

/-- STREAM_RING_ENABLE: a write of ACQ_STRM_CTL, whose bits [31:12] are reserved. -/
def Tx.strmCtl (t : Tx d0) (slot data : Nat) : Tx d0 := t.ringEnable (slot + 1) (data.testBit 0)

def effStreamRingEnable (slot data : Nat) (t : Tx d0) : Tx d0 := t.hostReg (R.ACQ_STRM_CTL.EN slot).off (fun t => t.strmCtl slot data)

def execStreamRingEnable (slot : Fin 4) (data : Word) (s : State) : Host.Outcome State Fault Refusal := commit (effStreamRingEnable slot data.toNat) s

end Sys2Proof.Machine
end

