-- ==== Sys2Proof/Machine/FabricRows.lean ====
section
/-! DEFINITION. The decision fabric's commands (chapter 09): DECISION cells sent, received, delivered and relayed, STATUS and VOTE cells, and
the cells and timeouts of Anise mode. -/
namespace Sys2Proof.Machine

variable {d0 : Device}

def effDecisionSend (s : Nat) (t : Tx d0) : Tx d0 := t.decisionSend s
def execDecisionSend (slot : Fin 65536) (s : State) : Host.Outcome State Fault Refusal := commit (effDecisionSend slot) s

/-- DECISION_CELL: a copy comes on a lane, as the symbols of it. -/
def effDecisionCell (p l line : Nat) (t : Tx d0) : Tx d0 := t.hear p l line (fun bits t => t.decisionCell p l bits)
def execDecisionCell (port : Fin 9) (lane : Fin 4) (line : BitVec 224) (s : State) : Host.Outcome State Fault Refusal :=
  commit (effDecisionCell port lane line.toNat) s

def effSlotDelivery (s : Nat) (t : Tx d0) : Tx d0 := t.slotDelivery s
def execSlotDelivery (slot : Fin 65536) (s : State) : Host.Outcome State Fault Refusal := commit (effSlotDelivery slot) s

def effRelaySend (s : Nat) (t : Tx d0) : Tx d0 := t.relaySend s
def execRelaySend (slot : Fin 65536) (s : State) : Host.Outcome State Fault Refusal := commit (effRelaySend slot) s

/-- STATUS_CELL: a copy comes on a lane, as the symbols of it. -/
def effStatusCell (p l line : Nat) (t : Tx d0) : Tx d0 := t.hear p l line (fun bits t => t.statusCell p l bits)
def execStatusCell (port : Fin 9) (lane : Fin 4) (line : BitVec 224) (s : State) : Host.Outcome State Fault Refusal :=
  commit (effStatusCell port lane line.toNat) s

/-! VOTE cells (R331 to R334) -/

/-- The vote that a VOTE cell carries, by a copy of it on a lane. -/
def voteOf (bits start l : Nat) : VoteIn :=
  { cand := bitsOf bits 207 144, ready := bits.testBit 143, void := bits.testBit 142, pass := bits.testBit 141
    vbase := bitsOf bits 127 64, prev := bitsOf bits 63 48, start := start, copy := (l, bits) }

/-- A VOTE copy is good: CRC, type, position, and the SRC of the port's neighbour. -/
def Device.voteGood (d : Device) (p l bits : Nat) : Bool :=
  let S := d.startTick p l
  cellGood bits && bits / 2 ^ 220 == 3 && posAt S == 15 && bitsOf bits 219 216 == 15 && (p < 8 || l % 2 == 0) &&
    (d.portRec p).any (fun r => rb r 3 == bitsOf bits 215 210)

/-- A vote replaces the one held: it is of a later cell, or of the same one and the lower lane's, or the epoch has gone back by a sync. -/
def VoteIn.over (v : VoteIn) (old : Option VoteIn) : Bool :=
  old.all (fun o => o.start < v.start || v.start + 512 < o.start || (o.start == v.start && v.copy.1 < o.copy.1))

/-- A vote shows that its sender decided otherwise the candidate that this device decided last (R333): only a cell that started after that candidate can
name that decision as its sender's previous one, and one that repeats what the cell before it named tells of no new decision (DEDUCED, log 237). -/
def Device.voteSplit (d : Device) (old : Option VoteIn) (v : VoteIn) : Bool :=
  d.voted.any (fun x => decide (x.1 < v.start) && v.prev == x.1 % 65536 && v.pass != x.2) && old.all (fun o => o.prev != v.prev || o.pass != v.pass)

/-- A neighbour's vote, its void and its previous decision are learnt. A vote is held to this device's own at the candidate's tick
(R190, `Tx.strayVotes`). -/
def Tx.voteIn (t : Tx d0) (p l bits : Nat) : Tx d0 :=
  if !t.d.voteGood p l bits then t.badFixed p l bits 3
  else
    let v := voteOf bits (t.d.startTick p l) l
    let old := bget (fun _ => none) t.d.votes p
    let t := t.otherCopy p l bits ((old.filter (fun o => o.start == v.start)).map VoteIn.copy)
    let t := if (v.start + 64 < v.cand || v.cand ≤ v.start) && v.over old then t.upd (.vote p (some v)) else t
    if !t.running then t
    else
      let t := if t.d.voteSplit old v then t.each t.d.streams64 (fun e t => if (t.d.eng e).live then t.haltEngine e 4 else t) else t
      let t := if v.void then
          t.each t.d.streams64 (fun e t =>
            let x := t.d.eng e
            if x.live && x.snap.dom = 2 && x.snap.b0.toNat = v.vbase && !(x.safe.any SafePoint.rep) then
              t.modEng e (fun x => { x with notice := true })
            else t)
        else t
      t.each t.d.streams64 (fun e t =>
        match (t.d.eng e).safe with
        | some s => if s.dom = 2 && s.cand.toNat = v.cand then t.fetchReady e 2 s.cand else t
        | none => t)

/-- VOTE_CELL: a copy comes on a lane, as the symbols of it. -/
def effVoteCell (p l line : Nat) (t : Tx d0) : Tx d0 := t.hear p l line (fun bits t => t.voteIn p l bits)

def execVoteCell (port : Fin 9) (lane : Fin 4) (line : BitVec 224) (s : State) : Host.Outcome State Fault Refusal :=
  commit (effVoteCell port lane line.toNat) s

/-! Anise mode (R341 to R347) -/

/-- ANISE_SEND: the first cell that waits for a port and whose lanes are free in this position goes, with a credit; with none waiting, credits
to be returned go in a CREDIT cell. -/
def effAniseSend (p : Nat) (t : Tx d0) : Tx d0 :=
  let S := t.now.toNat
  let bal := bget (fun _ => 0) t.d.credit p
  let owed := bget (fun _ => 0) t.d.credit (16 + p)
  if !t.b R.TB_STAT.AWAKE || S % 4 ≠ 0 || 13 < posAt S || bal = 0 || !t.b (R.FAB_PORT_STAT.IN_SERVICE p) then t
  else
    let give := min 7 owed
    let go := fun (lane cell : Nat) (t : Tx d0) =>
      let t := (t.upd (.credit p (bal - 1))).upd (.credit (16 + p) (owed - give))
      t.sendCopies p lane (sealCell (cell + give * 2 ^ 68))
    match t.d.anise.out.find? (fun c => c.1 == p && t.d.laneFree p c.2.1) with
    | some c => go c.2.1 c.2.2 (t.modAnise (fun a => { a with out := a.out.erase c }))
    | none =>
      if owed = 0 || t.d.anise.out.any (fun c => c.1 == p) || !t.d.laneFree p (t.d.aniseLane p) then t
      else go (t.d.aniseLane p) (aniseCell 3 t.d.dev 0 0 0 0 0 0 0 false) t

def execAniseSend (port : Fin 9) (s : State) : Host.Outcome State Fault Refusal := commit (effAniseSend port) s

/-- A REQUEST for this device is answered at once or waits for the next code; another is relayed. -/
def Tx.requestIn (t : Tx d0) (p l bits : Nat) : Tx d0 :=
  match t.aniseIn p l bits 1 with
  | (false, t) => t
  | (true, t) =>
    match t.d.reqPort bits with
    | none => t.aniseRelay p bits true
    | some n =>
      let h := laneHead p l
      match (bget (fun _ => none) t.d.codes n).filter (fun c => decide (bitsOf bits 135 72 ≤ c.2)) with
      | some (v, E) => t.grant p h bits v E
      | none => t.modAnise (fun a => { a with asked := a.asked ++ [(p, h, bits)] })

/-- ANISE_REQUEST: a copy comes on a lane, as the symbols of it. -/
def effAniseRequest (p l line : Nat) (t : Tx d0) : Tx d0 := t.hear p l line (fun bits t => t.requestIn p l bits)

def execAniseRequest (port : Fin 9) (lane : Fin 4) (line : BitVec 224) (s : State) : Host.Outcome State Fault Refusal :=
  commit (effAniseRequest port lane line.toNat) s

/-- A handshake is over: the next ones may ask, and a fork that awaits nothing more latches. -/
def Tx.shakeOver (t : Tx d0) (h : Shake) : Tx d0 :=
  let t := t.modAnise (fun a => { a with shakes := a.shakes.erase h })
  ((t.shakeEnd h.e h.port).aniseLatch h.e).askMore h.e

/-- A GRANT for this device delivers its bit, or is stray; another is relayed. -/
def Tx.grantIn (t : Tx d0) (p l bits : Nat) : Tx d0 :=
  match t.aniseIn p l bits 2 with
  | (false, t) => t
  | (true, t) =>
    if bitsOf bits 167 160 % 64 ≠ t.d.dev % 64 then t.aniseRelay p bits false
    else match t.d.granted bits with
      | none => t.ev R.FAB_EVT.ANISE_STRAY
      | some h => (t.deliver h.port (bits.testBit 71) (bitsOf bits 135 72)).shakeOver h

/-- ANISE_GRANT: a copy comes on a lane, as the symbols of it. -/
def effAniseGrant (p l line : Nat) (t : Tx d0) : Tx d0 := t.hear p l line (fun bits t => t.grantIn p l bits)

def execAniseGrant (port : Fin 9) (lane : Fin 4) (line : BitVec 224) (s : State) : Host.Outcome State Fault Refusal :=
  commit (effAniseGrant port lane line.toNat) s

/-- ANISE_CREDIT: a copy comes on a lane, as the symbols of it; the credits come back. -/
def effAniseCredit (p l line : Nat) (t : Tx d0) : Tx d0 := t.hear p l line (fun bits t => (t.aniseIn p l bits 3).2)

def execAniseCredit (port : Fin 9) (lane : Fin 4) (line : BitVec 224) (s : State) : Host.Outcome State Fault Refusal :=
  commit (effAniseCredit port lane line.toNat) s

/-- ANISE_TIMEOUT: a handshake unanswered for 32,000 ticks is given up and its port marked LOST. -/
def effAniseTimeout (e sel : Nat) (t : Tx d0) : Tx d0 :=
  match t.d.anise.shakes.find? (fun h => h.asked && h.e == e && h.port == 32 * e + sel && decide (h.since + 32000 ≤ t.now.toNat)) with
  | none => t
  | some h =>
    let t := t.upd (.port h.port { t.d.port h.port with lost := true })
    ((t.inc R.FAB_ANISE.TIMEOUTS).ev R.FAB_EVT.ANISE_TIMEOUT).shakeOver h

def execAniseTimeout (e : Fin 64) (sel : Fin 32) (s : State) : Host.Outcome State Fault Refusal := commit (effAniseTimeout e sel) s

end Sys2Proof.Machine
end

