-- ==== Sys2Proof/Machine/Units.lean ====
section
/-! DEFINITION. The face of a unit (chapter 01): the ports it presents (R39), and its status summary (R43 to R49). -/
namespace Sys2Proof.Machine

/-- A unit presents a port (R25, R26, R39). A unit of another device that is no channel or tile counts as presenting every port in bounds. -/
def Tree.presents (t : Tree) (kind n port : Nat) : Bool :=
  let bound := if kind = 0 then decide (port < 256) else decide (port < 64)
  if !nameOk n then false
  else if nameLevel n = 0 then kind == 0 && n % 32 == 5 && port < 32 && nameDev n < 64
  else if nameLevel n = 1 then (if kind = 0 then decide (port < 32) else decide (port < 64)) && nameIndex n < 32 && nameDev n < 64
  else if t.described n then bound && t.recs.any (fun r => rb r 0 == 3 && rn r 2 3 == n && rb r 5 == kind && rn r 6 2 == port)
  else nameDev n != t.dev && bound

/-! Status summaries (R43 to R49) -/

/-- A summary word from its parts. -/
def summaryWord (state : Nat) (clamp sync : Bool) (faults flags : Nat) : Nat :=
  state * 2 ^ 30 + clamp.toNat * 2 ^ 29 + sync.toNat * 2 ^ 28 + min faults 0xFF * 2 ^ 16 + flags * 2 ^ 9

/-- The clamp key of the output of a channel slot, none for the read-out channel. -/
def slotOutput (tl slot : Nat) : Option Nat :=
  if slot < 5 then some (5 * tl + slot) else if slot = 5 then none else if slot < 14 then some (fluxKey (8 * tl + (slot - 6))) else some (markKey tl)

/-- The summary of a channel (R43): the state of the engine that owns it. Which channels show bits [15:9], "a record of the unit", the spec does
not say: all of the tile's flags show on the read-out channel, none on the others (DESIGN CHOICE, log 145). -/
def Device.chanSummary (d : Device) (tl slot : Nat) : Nat :=
  let e := 2 * tl + (if slot < 5 || slot = 14 then 0 else 1)
  let st := if d.img.act.isSome then d.f (R.SCH_STAT.STATE e) else 0
  let cl := match slotOutput tl slot with
    | some k => clamped (d.clampOf k)
    | none => false
  summaryWord st cl (d.b R.TB_STAT.SYNC_OK) 0 (if slot = 5 then d.flagsOf tl else 0)

/-- Combine the summaries of direct children (R45, R46). -/
def combineSums (l : List Nat) : Nat :=
  let st := l.foldl (fun m x => max m (x / 2 ^ 30)) 0
  let faults := (l.filter (fun x => x / 2 ^ 30 == 3)).length
  summaryWord st (l.any (fun x => x.testBit 29)) (l.all (fun x => x.testBit 28)) faults (l.foldl (fun m x => m ||| (x / 2 ^ 9 % 128)) 0)

/-- Two views of one group, combined (R330): of MEMBERS_FAULT, which the spec does not name here, the larger (DESIGN CHOICE, log 144). -/
def mergeSums (a b : Nat) : Nat :=
  summaryWord (max (a / 2 ^ 30) (b / 2 ^ 30)) (a.testBit 29 || b.testBit 29) (a.testBit 28 && b.testBit 28)
    (max (a / 2 ^ 16 % 256) (b / 2 ^ 16 % 256)) ((a / 2 ^ 9 % 128) ||| (b / 2 ^ 9 % 128))

/-- The summary of a tile (R44, R45): the higher state of its two engines. -/
def Device.tileSummary (d : Device) (tl : Nat) : Nat :=
  let s := combineSums ((List.range 15).map (d.chanSummary tl))
  let st := max (d.f (R.SCH_STAT.STATE (2 * tl))) (d.f (R.SCH_STAT.STATE (2 * tl + 1)))
  st * 2 ^ 30 + s % 2 ^ 30

/-- The summaries of a unit that the ports have heard (R49, R330): summary and age-tick it was formed. -/
def Device.heardSums (d : Device) (n : Nat) : List (Nat × Nat) :=
  (List.range 9).filterMap (fun p => bget (fun _ => none) d.sums (p * 2 ^ 24 + n))

/-- The latest of them; another device reports its own summary under the name of LEVEL 3. -/
def Device.heardSum (d : Device) (n : Nat) : Option (Nat × Nat) :=
  (d.heardSums (if d.tree.isOther n then devName (nameDev n) else n)).foldl (fun b x => match b with
    | none => some x
    | some y => if y.2 < x.2 then some x else some y) none

/-- The earlier of two forming ticks. -/
def earlier (a b : Option Nat) : Option Nat :=
  match a, b with
  | none, y => y
  | some x, some y => some (min x y)
  | some x, none => some x

/-- The views of a group that a cell sent on a port is combined with: those that the other ports have brought, while their
age cannot pass 4,096 ticks before the receiver hears of the group again: a cell takes at most 147 ticks (R326, R603), and each group has its turn
once in as many cells of 64 ticks as there are groups. So no view comes straight back to its sender, and one that comes back another way dies out
(R49, R330; DESIGN CHOICE, log 144). -/
def Device.tellable (d : Device) (p n : Nat) : List (Nat × Nat) :=
  let wait := 147 + 64 * (d.tree.above 8 d.tree.self).length
  ((List.range 9).filter (fun q => q != p)).filterMap (fun q =>
    (bget (fun _ => none) d.sums (q * 2 ^ 24 + n)).filter (fun x => decide (d.age + wait ≤ x.2 + 4096)))

/-- The summary of a unit of the tree, and the age-tick on which it was formed where it comes from the fabric (R45, R48, R49). Of a unit that
does not hold this device it is the latest one heard; a child that has not reported yet is left out of STATE, OR and AND. A group above this
device is combined from its members' summaries and from the views of it that neighbours report (R330), as `views` gives them. In ALONE a Cupola's
lost member counts in MEMBERS_FAULT only (R634). -/
def Device.unitView (d : Device) (views : Nat → List (Nat × Nat)) : Nat → Nat → Nat × Option Nat
  | 0, _ => (0, none)
  | k + 1, n =>
    let t := d.tree
    if nameDev n = t.dev && nameLevel n = 0 then (d.chanSummary (n / 32 % 32) (n % 32), none)
    else if t.isTile n then (d.tileSummary (nameIndex n), none)
    else if !t.overDev n && nameDev n ≠ t.dev then
      match d.heardSum n with
      | some x => (x.1, some x.2)
      | none => (0, none)
    else
      let alone := n == t.cup && d.f R.TWIN_STAT.STATE = 3
      let away := fun (c : Nat) => !t.overDev c && nameDev c ≠ t.dev
      let gone := (t.children n).filter (fun c => alone && away c)
      let said := (t.children n).filter (fun c => !away c || (!alone && (d.heardSum c).isSome))
      let xs := said.map (d.unitView views k)
      let own := (combineSums (xs.map Prod.fst) + gone.length * 2 ^ 16, xs.foldl (fun m x => earlier m x.2) none)
      if t.overDev n && !alone then (views n).foldl (fun x g => (mergeSums x.1 g.1, earlier x.2 (some g.2))) own else own

/-- The device as its summaries saw it before a run's first tick, where the block stands at that tick (R52). -/
def Device.beforeRun (d : Device) : Device :=
  match d.run.before with
  | none => d
  | some (states, flags, sums) => { d with
      flds := states.zipIdx.foldl (fun m (v, e) => setFld m (R.SCH_STAT.STATE e) v) d.flds, flags := flags, sums := sums }

/-- The summary of a unit as a query shows it (R49, R52). -/
def Device.unitSummary (d : Device) (n : Nat) : Nat × Option Nat := d.beforeRun.unitView d.beforeRun.heardSums 9 n

/-- The unit that a name in GLB_UNIT_QSEL selects, where it can be queried (R51). -/
def Device.queried (d : Device) (n : Nat) : Option Nat := d.tree.unitOf n

end Sys2Proof.Machine
end

