-- ==== Sys2Proof/Machine/ImageCheck.lean ====
section
/-! DEFINITION. The check of an image in CXL memory (chapter 02, R56 to R73, and the load rules of chapters 01, 04 to 10): the checks in table
order, each over the whole image, with the lowest offset that fails and its section. -/
namespace Sys2Proof.Machine

/-- A failure: offset in the image and the low byte of the section's type. -/
abbrev Fail := Nat × Nat

/-- The failure with the lowest offset. -/
def lowest (l : List Fail) : Option Fail :=
  l.foldl (fun b f => match b with
    | none => some f
    | some x => if f.1 < x.1 then some f else b) none

/-- An entry of the section table (R57). -/
structure Sect where
  typ : Nat
  ver : Nat
  flags : Nat
  off : Nat
  len : Nat
  crc : Nat
  cnt : Nat
  deriving DecidableEq, Repr

def Device.imgLe (d : Device) (o n : Nat) : Nat := d.cxlLe (d.img.latBase + o) n
def Device.imgBytes (d : Device) (o n : Nat) : List Byte := d.cxlBytes (d.img.latBase + o) n

def Device.sect (d : Device) (k : Nat) : Sect :=
  let a := 64 + 32 * k
  { typ := d.imgLe a 2, ver := d.imgLe (a + 2) 2, flags := d.imgLe (a + 4) 4, off := d.imgLe (a + 8) 8, len := d.imgLe (a + 16) 8
    crc := d.imgLe (a + 24) 4, cnt := d.imgLe (a + 28) 4 }

/-- Bytes of one record of section `k` (0 STRUCT … 7 CALGAP), 0 for SCHED, WAVE and FORK. -/
def recSize (k : Nat) : Nat := [32, 16, 0, 0, 0, 64, 64, 16].getD k 0

/-- Records of a section with their offsets. -/
def Device.sectRecs (d : Device) (k : Nat) : List (Nat × List Byte) :=
  let s := d.sect k
  (List.range s.cnt).map (fun i => (s.off + recSize k * i, d.imgBytes (s.off + recSize k * i) (recSize k)))

/-- The section in which an offset lies (R73). For an offset in the section table, as of a poisoned line there, it is the entry's TYPE (DESIGN
CHOICE, log 148). -/
def Device.sectAt (d : Device) (o : Nat) : Nat :=
  match (List.range 8).find? (fun k => (d.sect k).off ≤ o && o < (d.sect k).off + (d.sect k).len) with
  | some k => (d.sect k).typ % 256
  | none => if 64 ≤ o && o < 320 then (d.sect ((o - 64) / 32)).typ % 256 else 0

/-- Failures where a condition holds. -/
def failIf (c : Bool) (o s : Nat) : List Fail := if c then [(o, s)] else []

/-- Failures of the records of a section. -/
def badRecs (k : Nat) (rs : List (Nat × List Byte)) (p : List Byte → Bool) : List Fail := (rs.filter (fun r => p r.2)).map (fun r => (r.1, k + 1))

/-- Some byte of a record from `i` on, `n` of them, is not 0. -/
def nz (r : List Byte) (i n : Nat) : Bool := ((r.drop i).take n).any (fun b => b != 0)

/-! Header, section table, checks of bytes (codes 0x01 to 0x0C) -/

def Device.chkMagic (d : Device) : List Fail := failIf (d.imgLe 0 4 != 0x42595449) 0 0

def Device.chkFormat (d : Device) : List Fail :=
  failIf (d.imgLe 4 2 / 256 != 1) 4 0 ++
  (List.range 8).flatMap (fun k => failIf ((d.sect k).ver / 256 != 1) (66 + 32 * k) ((d.sect k).typ % 256))

def Device.chkHdrCrc (d : Device) : List Fail :=
  failIf (crc32c (d.imgBytes 0 60 ++ [0, 0, 0, 0] ++ d.imgBytes 64 256) != d.imgLe 60 4) 60 0

def Device.chkLength (d : Device) : List Fail :=
  let n := d.imgLe 8 8
  failIf (n != d.img.latLen || 0x40000000 < n || n % 64 != 0) 8 0

def Device.chkPart (d : Device) : List Fail :=
  failIf (d.imgLe 32 2 != 0x4416) 32 0 ++ failIf (4 ≤ d.imgLe 35 1) 35 0 ++ failIf (nz (d.imgBytes 0 60) 40 20) 40 0

def Device.chkRegion (d : Device) : List Fail :=
  let reg := (d.img.latBase, d.img.latLen)
  failIf (d.capacity < reg.1 + reg.2 || (match d.img.act with | some im => overlaps reg (im.base, im.len) | none => false) ||
    (d.ringRegions 99).any (overlaps reg)) 0 0

def Device.chkPoison (d : Device) (poisoned : List Nat) : List Fail :=
  ((poisoned.filter (fun o => o < d.img.latLen)).map (fun o => (o / 64 * 64, d.sectAt (o / 64 * 64))))

def Device.chkTable (d : Device) : List Fail :=
  failIf (d.imgLe 6 2 != 8) 6 0 ++
  (List.range 8).flatMap (fun k => failIf ((d.sect k).typ != k + 1) (64 + 32 * k) 0 ++ failIf ((d.sect k).flags != 0) (68 + 32 * k) 0)

/-- Length that R57, R60 and R61 ask of a section with so many records or blocks. -/
def sectLen (k cnt : Nat) : Nat :=
  if k = 2 || k = 3 then cnt * 260 else if k = 4 then cnt * 32768 else (cnt * recSize k + 63) / 64 * 64

def Device.chkBounds (d : Device) : List Fail :=
  (List.range 8).flatMap (fun k =>
    let s := d.sect k
    let a := 64 + 32 * k
    let typ := k + 1
    failIf (s.len == 0 && (k == 0 || k == 2 || k == 7)) a typ ++
    failIf (s.len == 0 && (s.off != 0 || s.crc != 0 || s.cnt != 0)) a typ ++
    failIf (s.len != 0 && (s.off % 4096 != 0 || s.off < 4096 || s.len % 64 != 0 || d.imgLe 8 8 < s.off + s.len)) a typ ++
    failIf (s.len != 0 && s.len != sectLen k s.cnt) a typ ++
    failIf (s.len != 0 && k == 4 && s.cnt != 32) a typ ++
    failIf ((k == 2 || k == 3) && s.cnt % 16 != 0) a typ ++
    failIf ((List.range k).any (fun j => s.len != 0 && (d.sect j).len != 0 && overlaps (s.off, s.len) ((d.sect j).off, (d.sect j).len))) a typ ++
    failIf (recSize k != 0 && nz (d.imgBytes (s.off + s.cnt * recSize k) (s.len - s.cnt * recSize k)) 0 64) (s.off + s.cnt * recSize k) typ)

/-- A section's CRC disagrees. Of a check that no one record, block or field fails, R73 does not say which offset is reported: the model gives the
entry's CRC field here, the later record where two conflict, and the section's start where a record is missing (DESIGN CHOICE, log 149). -/
def Device.chkCrc (d : Device) : List Fail :=
  (List.range 8).flatMap (fun k =>
    let s := d.sect k
    failIf (s.len != 0 && crc32c (d.imgBytes s.off s.len) != s.crc) (88 + 32 * k) (k + 1))

def Device.chkE2e (d : Device) : List Fail :=
  [2, 3].flatMap (fun k =>
    let s := d.sect k
    (List.range s.cnt).flatMap (fun b =>
      failIf (crc32c (d.imgBytes (s.off + 256 * b) 256) != d.imgLe (s.off + 256 * s.cnt + 4 * b) 4) (s.off + 256 * b) (k + 1)))

def Device.chkWaveDir (d : Device) : List Fail :=
  let s := d.sect 3
  if s.len = 0 then []
  else
    let n := d.imgLe s.off 4
    let dd := d.imgLe (s.off + 4) 4
    failIf (n == 0 || 65536 < n || dd != (n + 15) / 16 || nz (d.imgBytes s.off 256) 8 248) s.off 4 ++
    (List.range (min n 65536)).flatMap (fun i =>
      let a := s.off + 256 + 16 * i
      let f := d.imgLe a 4
      let l := d.imgLe (a + 4) 4
      failIf (f ≤ dd || l == 0 || 262144 < l || s.cnt < f + (l + 63) / 64 || 2 ≤ d.imgLe (a + 8) 2 || d.imgLe (a + 10) 6 != 0) a 4)

/-! STRUCT (codes 0x10 to 0x13, 0x17) -/

/-- Bytes a STRUCT record of a kind leaves reserved (R63): start and length. -/
def structRsvd (kind : Nat) : List (Nat × Nat) :=
  match kind with
  | 1 => [(1, 1), (5, 1), (9, 1), (12, 20)]
  | 2 => [(1, 1), (5, 1), (9, 23)]
  | 3 => [(1, 1), (11, 1), (14, 18)]
  | 4 => [(1, 1), (5, 27)]
  | 5 => [(1, 1), (8, 24)]
  | _ => [(1, 1), (3, 1), (7, 25)]

/-- A unit breaks the rules on what a group holds (R34 to R36): below this device tiles of one quadrant or whole quadrants, of its own where it
is a quadrant of the default tree; above it whole devices, or groups of them; the device itself no other device. -/
def Tree.groupBad (t : Tree) (g : Nat) : Bool :=
  let kids := t.children g
  if t.isDev g then kids.any (t.holdsDev 9)
  else if t.holdsDev 9 g then kids.any (fun c => !t.holdsDev 9 c)
  else
    let tiles := t.tiles 9 g
    tiles.isEmpty || !(t.above 8 g).contains t.self || (t.isQuad g && tiles.any (fun x => x / 8 != nameIndex g)) ||
      !((List.range 4).any (fun q => tiles.all (fun x => x / 8 == q)) ||
        (List.range 4).all (fun q => tiles.all (fun x => x / 8 != q) || (List.range 8).all (fun i => tiles.contains (8 * q + i))))

/-- A GROUP record breaks a rule: its name (R27 to R31), one record a group, its count of children, its parent, or what the group holds. -/
def Tree.groupRecBad (t : Tree) (r : List Byte) : Bool :=
  let g := rn r 2 3
  let p := rn r 6 3
  let devs := (t.devices 9 g).eraseDups
  !nameOk g || nameLevel g < 2 || 1 < (t.groups.filter (fun x => rn x 2 3 == g)).length ||
  (t.children g).isEmpty || (t.children g).length != rn r 10 2 ||
  nameLevel g != t.height 9 g || nameDev g != (if devs.length = 1 then devs.headD 0xFF else 0xFF) || (t.above 9 g).contains g ||
  (p != noUnit && !(t.known p || t.isGroup p)) || (g :: t.above 8 g).any t.groupBad

/-- A MEMBER record breaks a rule: its member must be a unit and its group a group, no channel or tile moves out of its place, no group
above the member may hold what it must not (R34 to R36), and another device goes by one name, so that it has one place (R27, R33). -/
def Tree.memberRecBad (t : Tree) (r : List Byte) : Bool :=
  let g := rn r 2 3
  let m := rn r 6 3
  !nameOk m || 1 < (t.memberRecs.filter (fun x => rn x 6 3 == m)).length || (t.above 9 m).contains m ||
  (t.isOther m && t.units.any (fun u => t.isOther u && nameDev u == nameDev m && u != m)) ||
  (if nameLevel m = 0 then nameDev m != t.dev || g != tileName t.dev (m / 32 % 32)
   else !(t.isTile m || t.known m || t.isOther m || t.isGroup m) || !(t.known g || t.isGroup g) ||
     t.groups.any (fun x => rn x 2 3 == m && rn x 6 3 != g) || (t.above 8 m).any t.groupBad)

/-- A BOUNDARY record breaks a rule (R25, R26): it maps a port of a group onto a port of one of its members, an outcome port once and a
fork-input port at most 8 times. -/
def Tree.boundaryRecBad (t : Tree) (r : List Byte) : Bool :=
  let g := rn r 2 3
  let same := t.recs.filter (fun x => rb x 0 == 3 && rn x 2 3 == g && rb x 5 == rb r 5 && rn x 6 2 == rn r 6 2)
  1 < rb r 5 || !t.described g || t.parent (rn r 8 3) != some g || t.emptied (rn r 8 3) || (rb r 5 == 0 && 1 < same.length) || 8 < same.length

/-- The SELF record names a Cupola that breaks R33: this device is its direct child, and beside it the Cupola holds one whole device. That a Cupola
needs no GROUP record, and then holds the device at the twin link's other end beside this one, is the model's (DESIGN CHOICE, log 194). -/
def Tree.selfRecBad (t : Tree) (r : List Byte) : Bool :=
  let c := rn r 4 3
  c != noUnit &&
    (!nameOk c || t.parent t.self != some c ||
     (if t.isGroup c then (t.children c).length != 2 || !(t.children c).any t.isOther
      else nameDev c != 0xFF || nameLevel c != t.height 9 c || t.known c || t.units.any (fun u => t.isOther u && u != t.peer)))

/-- A STRUCT record breaks the rules on channels, tiles and groups (R25 to R36, R62). Its reserved bytes are 0 (R63); the spec names no code for one
that is not, and the model gives this one's (DESIGN CHOICE, log 146). -/
def Tree.recBad (t : Tree) (r : List Byte) : Bool :=
  rb r 0 == 0 || 6 < rb r 0 || (structRsvd (rb r 0)).any (fun c => nz r c.1 c.2) ||
  (match rb r 0 with
   | 1 => t.groupRecBad r
   | 2 => t.memberRecBad r
   | 3 => t.boundaryRecBad r
   | 6 => t.selfRecBad r
   | _ => false)

/-! Which tree the image defines. STRUCT names units as the tree that it defines does (R27), so the levels of this device and of its quadrants are
those under which the section fits: it breaks no rule, and every unit stands as high as its name says. Of several, the part takes the first in the
order of these lists; where none fits, the first with the fewest breaches (DESIGN CHOICE, log 143), and the check of the shape refuses the image. -/

/-- Levels at which a quadrant may stand: that of the default tree, and the higher ones that STRUCT names it with. -/
def quadLevels (recs : List (List Byte)) (dev q : Nat) : List Nat :=
  2 :: [3, 4, 5].filter (fun l => recs.any (fun r => (rb r 0 == 1 || rb r 0 == 2) && (rn r 2 3 == unitName dev l q || rn r 6 3 == unitName dev l q)))

/-- This device and its quadrants where they have a LEVEL that is not that of their longest way down (R27). -/
def Tree.misnamed (t : Tree) : List Nat := (t.quads ++ [t.self]).filter (fun n => !t.emptied n && (2 ^ 24 ≤ n || t.height 9 n != nameLevel n))

/-- Breaches of a tree: records that break a rule, and units of the device whose level is not that of their longest way down. -/
def Tree.misfit (t : Tree) : Nat := (t.recs.filter t.recBad).length + t.misnamed.length

/-- The levels of a device and of its four quadrants that a tree may give them. -/
def levelChoices (recs : List (List Byte)) (dev : Nat) : List (Nat × List Nat) :=
  [3, 2, 4, 5, 6].flatMap (fun l => (quadLevels recs dev 0).flatMap (fun a => (quadLevels recs dev 1).flatMap (fun b =>
    (quadLevels recs dev 2).flatMap (fun c => (quadLevels recs dev 3).map (fun e => (l, [a, b, c, e]))))))

/-- The choice with the fewest breaches, the first of them. -/
def fewestBreaches (recs fabric : List (List Byte)) (dev cup : Nat) : List (Nat × List Nat) → Option (Nat × Nat × List Nat)
  | [] => none
  | c :: r =>
    let n := (Tree.ofLevels recs fabric dev cup c.1 c.2).misfit
    if n = 0 then some (0, c)
    else match fewestBreaches recs fabric dev cup r with
      | some x => if x.1 < n then some x else some (n, c)
      | none => some (n, c)

/-- The levels of this device and its quadrants under a STRUCT section. -/
def levelsOf (recs fabric : List (List Byte)) (dev cup : Nat) : Nat × List Nat :=
  match fewestBreaches recs fabric dev cup (levelChoices recs dev) with
  | some x => x.2
  | none => (3, [2, 2, 2, 2])

/-- The tree that the image under check defines. -/
def Device.imgTree (d : Device) : Tree :=
  let rs := (d.sectRecs 0).map Prod.snd
  let dev := d.imgLe 34 1
  let fs := (d.sectRecs 5).map Prod.snd
  let l := levelsOf rs fs dev (selfCupola rs)
  Tree.ofLevels rs fs dev (selfCupola rs) l.1 l.2

/-- The units that stand too high above a channel (R37): a way from a channel to the root, which counts the channel and the root, goes through more
than seven levels. Of another device's channels the way up to it has the LEVEL that its name carries (R27). A way that comes back to itself has no
root. -/
def Tree.tooHigh (t : Tree) : List Nat :=
  let up := fun (n : Nat) (room : Nat) => let l := t.above 9 n; if l.eraseDups.length = l.length then l.drop room else []
  ((List.range 32).flatMap (fun k => up (tileName t.dev k) 5) ++ (t.units.filter t.isOther).flatMap (fun o => up o (6 - nameLevel o))).eraseDups

/-- R37: the records that build a unit which stands too high fail. -/
def Device.chkDepth (d : Device) : List Fail :=
  let deep := d.imgTree.tooHigh
  if deep.isEmpty then []
  else
    let fs := badRecs 0 (d.sectRecs 0) (fun r => (rb r 0 == 1 || rb r 0 == 2) && deep.contains (rn r 2 3))
    if fs.isEmpty then [((d.sect 0).off, 1)] else fs

/-- The units that a STRUCT record of groups, members or ports names. -/
def structNames (r : List Byte) : List Nat :=
  match rb r 0 with
  | 1 => [rn r 2 3, rn r 6 3]
  | 2 => [rn r 2 3, rn r 6 3]
  | 3 => [rn r 2 3, rn r 8 3]
  | _ => []

/-- R38: the records that break a rule fail, and those that name this device or a quadrant with a LEVEL that R27 does not give it, since no unit goes by
that name. -/
def Device.chkShape (d : Device) : List Fail :=
  let t := d.imgTree
  let fs := badRecs 0 (d.sectRecs 0) (fun r => t.recBad r || (structNames r).any t.misnamed.contains)
  if fs.isEmpty then failIf (!t.misnamed.isEmpty) (d.sect 0).off 1 else fs

/-- R64: every channel of slots 0 to 14 carries exactly one OWNER record, with its engine. -/
def Device.chkOwner (d : Device) : List Fail :=
  let rs := (d.sectRecs 0).filter (fun r => rb r.2 0 == 4)
  let ids := rs.map (fun r => rn r.2 2 2)
  let missing := (List.range 32).any (fun tl => (List.range 15).any (fun s => !ids.contains (32 * tl + s)))
  badRecs 0 rs (fun r =>
    let c := rn r 2 2
    1024 ≤ c || 15 ≤ c % 32 || rb r 4 != (if c % 32 < 5 || c % 32 = 14 then 0 else 1)) ++
  (rs.zipIdx.filter (fun c => ((rs.take c.2).map (fun r => rn r.2 2 2)).contains (rn c.1.2 2 2))).map (fun c => (c.1.1, 1)) ++
  failIf missing (d.sect 0).off 1

/-- R65, and a record for a tile above 31, which R65 does not list (DESIGN CHOICE, log 150). Of two records for one tile and frame the later
fails (log 149). -/
def Device.chkFrameMap (d : Device) : List Fail :=
  let rs := (d.sectRecs 0).filter (fun r => rb r.2 0 == 5)
  badRecs 0 rs (fun r => 32 ≤ rb r 2 || 16 ≤ rb r 3 || 2 ^ 20 ≤ rn r 4 4) ++
  (rs.zipIdx.filter (fun c => (rs.take c.2).any (fun r => rb r.2 2 == rb c.1.2 2 && rb r.2 3 == rb c.1.2 3))).map (fun c => (c.1.1, 1))

def Device.chkDev (d : Device) : List Fail :=
  let selfs := (d.sectRecs 0).filter (fun r => rb r.2 0 == 6)
  failIf (63 < d.imgLe 34 1) 34 0 ++
  (match selfs with
   | [] => [((d.sect 0).off, 1)]
   | [r] => failIf (rb r.2 2 != d.imgLe 34 1) r.1 1 ++ failIf ((d.imgLe 35 1).testBit 0 != (rn r.2 4 3 != noUnit)) r.1 1
   | _ :: r :: _ => [(r.1, 1)])

/-! ROUTE (codes 0x14 to 0x16) -/

def Device.chkRoutePort (d : Device) : List Fail :=
  let t := d.imgTree
  badRecs 0 (d.sectRecs 0) (fun r => rb r 0 == 3 &&
    (!t.presents (rb r 5) (rn r 2 3) (rn r 6 2) || !t.presents (rb r 5) (rn r 8 3) (rn r 12 2))) ++
  badRecs 1 (d.sectRecs 1) (fun r => !t.presents 0 (rn r 0 3) (rb r 3) || !t.presents 1 (rn r 4 3) (rb r 7))

/-- The fork-input ports a route drives. -/
def Tree.driven (t : Tree) (r : List Byte) : List (Nat × Nat) := t.leaves 1 8 (rn r 4 3) (rb r 7)

def Device.chkRouteMulti (d : Device) : List Fail :=
  let t := d.imgTree
  let rs := d.sectRecs 1
  (rs.zipIdx.filter (fun c => (rs.take c.2).any (fun r => (t.driven r.2).any (fun p => (t.driven c.1.2).contains p)))).map (fun c => (c.1.1, 2))

/-- Device and tile of a resolved port; a unit that is no channel or tile has no tile here. -/
def Tree.place (n : Nat) : Nat × Option Nat := (nameDev n, if nameLevel n < 2 then some (tileOfName n) else none)

/-- The path class that source and destination of a route ask for (R67): none where they fit no class. -/
def Tree.routeClass (t : Tree) (r : List Byte) : Option Nat :=
  match t.leaves 0 8 (rn r 0 3) (rb r 3) with
  | [] => none
  | s :: _ =>
    let s := Tree.place s.1
    let ds := (t.driven r).map (fun p => Tree.place p.1)
    if ds.isEmpty then none
    else if ds.all (fun p => p == s && p.2.isSome) then some 0
    else if s.1 == t.dev && s.2.isSome && ds.all (fun p => p.1 == t.dev && p.2.isSome && p.2 != s.2) then some 1
    else if ds.all (fun p => p.1 != s.1) then some 2
    else none

/-- SLOT and PORT records of the image under check. -/
def Device.imgSlots (d : Device) : List (List Byte) := ((d.sectRecs 5).map Prod.snd).filter (fun r => rb r 0 == 2)
def Device.imgPorts (d : Device) : List (List Byte) := ((d.sectRecs 5).map Prod.snd).filter (fun r => rb r 0 == 1)

/-- A SLOT record suits one end of a class-2 route (R67). A unit with DEV 0xFF that this image does not describe may lie in any device (DEDUCED,
log 147). -/
def Device.slotFits (d : Device) (role src dst : Nat) (s : List Byte) : Bool :=
  let link := if role = 0 then (rb s 6, rb s 7) else (rb s 4, rb s 5)
  rb s 1 == role && (src == 0xFF || rb s 12 == src) && (dst == 0xFF || rb s 13 == dst) &&
    d.imgPorts.any (fun p => rb p 1 == link.1 && rb p 2 == link.2 && (rb s 11 != 1 || rb p 3 == (if role = 0 then rb s 13 else rb s 12)))

def Device.chkRouteSlot (d : Device) : List Fail :=
  let t := d.imgTree
  let rs := (d.sectRecs 1).map Prod.snd
  badRecs 1 (d.sectRecs 1) (fun r =>
    let cls := rb r 8
    let src := nameDev ((t.leaves 0 8 (rn r 0 3) (rb r 3)).headD (rn r 0 3, 0)).1
    let dsts := (t.driven r).map (fun p => nameDev p.1)
    let named := d.imgSlots.filter (fun s => rn s 2 2 == rn r 10 2)
    2 < cls || rb r 9 != 0 || nz r 12 4 || (cls < 2 && rn r 10 2 != 0) || t.routeClass r != some cls ||
    (cls == 2 && src == t.dev && dsts.any (fun x => !named.any (d.slotFits 0 t.dev x))) ||
    (cls == 2 && dsts.contains t.dev && !named.any (d.slotFits 2 src t.dev))) ++
  badRecs 5 (d.sectRecs 5) (fun s => rb s 0 == 2 && (rb s 1 == 0 || rb s 1 == 2) &&
    (rs.filter (fun r => rb r 8 == 2 && rn r 10 2 == rn s 2 2)).length != rb s 10)

/-! SCHED and ACQ (code 0x18) -/

def Device.imgOp (d : Device) (i : Nat) : Nat := d.imgLe ((d.sect 2).off + 16 * i) 16

/-- The streams of the image: engine, first operation, count. -/
def Device.imgStreams (d : Device) : List (Nat × Nat × Nat) :=
  ((List.range 64).map (fun e => (e, d.imgLe ((d.sect 2).off + 16 * e) 4, d.imgLe ((d.sect 2).off + 16 * e + 4) 4))).filter (fun s => s.2.2 != 0)

/-- First operations of the segments of a stream (R154). -/
def Device.segStarts (d : Device) (first cnt : Nat) : List Nat :=
  (List.range cnt).filterMap (fun i => if i = 0 || isTerm (opCode (d.imgOp (first + i - 1))) then some (first + i) else none)

/-- Operations of a segment with their offsets, and the operation that ends it. -/
def Device.segOps (d : Device) (stop : Nat) : Nat → Nat → List (Nat × Nat)
  | 0, _ => []
  | k + 1, i =>
    if stop ≤ i then []
    else (i, d.imgOp i) :: (if isTerm (opCode (d.imgOp i)) then [] else d.segOps stop k (i + 1))

/-- Failing operations of one segment under R151 and R210; of two that stand out of order the earlier (DESIGN CHOICE, log 149). -/
def segBad (ops : List (Nat × Nat)) : List Nat :=
  let offs := ops.map (fun o => opOffset o.2)
  let idx := ops.map Prod.fst
  let L := offs.getLastD 0
  let lone := match ops.getLast? with
    | some o => if isTerm (opCode o.2) then (if L < 32 then [o.1] else []) else [o.1]
    | none => []
  lone ++
  ((List.range (offs.length - 1)).filter (fun n => offs.getD (n + 1) 0 < offs.getD n 0 || L ≤ offs.getD n 0)).map (fun n => idx.getD n 0) ++
  ((List.range offs.length).filter (fun n => offs.getD n 0 + 16 < n)).map (fun n => idx.getD n 0) ++
  ((List.range offs.length).filter (fun j => (List.range j).any (fun i => 32 + (offs.getD j 0 - offs.getD i 0) < j - i + 1))).map (fun j => idx.getD j 0)

/-- Failing operations of a stream. -/
def Device.streamBad (d : Device) (s : Nat × Nat × Nat) (resCnt : Nat) (acqs : List (List Byte)) : List Nat :=
  let (e, first, cnt) := s
  let stop := first + cnt
  let starts := d.segStarts first cnt
  let structs := (d.sectRecs 0).map Prod.snd
  let dev := d.imgLe 34 1
  let bad := ((List.range cnt).map (fun i => first + i)).filter (fun i =>
    let b := d.imgOp i
    let o := opOperand b
    Sys2Proof.Machine.opBad structs dev e b ||
    (opCode b == 0x12 && (!starts.contains (o / 2 ^ 32) || i < o / 2 ^ 32)) ||
    (opCode b == 0x10 && o.testBit 63 && !starts.contains (o % 2 ^ 32)) ||
    (opCode b == 0x13 && resCnt ≤ o % 2 ^ 32) ||
    (opCode b == 0x06 && !acqs.any (fun r => (rb r 0 == 1 || rb r 0 == 2) && rb r 1 == e / 2 && rn r 2 2 == o % 2 ^ 16)) ||
    (opCode b == 0x07 && (o % 2 ^ 16 == 0 || (List.range 16).any (fun m => o.testBit m &&
      !acqs.any (fun r => rb r 0 == 0x10 && rb r 1 == e / 2 && rn r 2 2 == bitsOf o 55 40 && rb r 4 == m)))))
  bad ++ starts.flatMap (fun i => segBad (d.segOps stop cnt i))

/-- A residency record of the image. -/
def Device.imgRes (d : Device) (n : Nat) : List Byte :=
  d.imgBytes ((d.sect 2).off + 256 * d.imgLe ((d.sect 2).off + 1024) 4 + 64 * n) 64

/-- Distinct blocks of a record and its NEXT record. -/
def Device.withNext (d : Device) (f : List Byte → List Nat) (n : Nat) : Nat :=
  let r := d.imgRes n
  let a := f r
  let b := if rn r 12 4 = 0xFFFFFFFF then [] else f (d.imgRes (rn r 12 4))
  (a ++ b).eraseDups.length

/-- A residency record breaks R158 or R159 for itself. -/
def Device.resBad (d : Device) (cnt n : Nat) : Bool :=
  let r := d.imgRes n
  let w := rn r 8 2
  (d.sect 2).cnt < rn r 0 4 + rn r 4 4 || 6 < w || nz r 10 2 || (rn r 12 4 != 0xFFFFFFFF && cnt ≤ rn r 12 4) ||
  (List.range 6).any (fun i => if i < w then decide ((d.sect 3).cnt < rn r (16 + 8 * i) 4 + rn r (20 + 8 * i) 4) else nz r (16 + 8 * i) 8) ||
  1024 < d.withNext recSched n

/-- Records named by an engine, with the offset that names them. -/
def Device.namedRecs (d : Device) (s : Nat × Nat × Nat) : List (Nat × Nat) :=
  ((d.sect 2).off + 16 * s.1, d.imgLe ((d.sect 2).off + 16 * s.1 + 8) 4) ::
  (((List.range s.2.2).map (fun i => s.2.1 + i)).filter (fun i => opCode (d.imgOp i) == 0x13)).map (fun i =>
    ((d.sect 2).off + 16 * i, opOperand (d.imgOp i) % 2 ^ 32))

/-- An ACQ section record breaks the rules of its kind, but for lengths (R259, R260, R275, R284 to R286, R305, R356, R358). -/
def acqBad (waveN : Nat) (r : List Byte) : Bool :=
  match rb r 0 with
  | 0x01 => 32 ≤ rb r 1 || 8 < rb r 4 || rb r 5 < 16 || 31 < rb r 5 || 2 ≤ rb r 34 || nz r 35 29
  | 0x02 => 32 ≤ rb r 1 || 3 < rb r 4 || nz r 5 3 || rn r 8 8 % 40 != 0 || nz r 16 48
  | 0x03 =>
    7 < rb r 1 || 4 < rb r 2 || nz r 10 2 || nz r 32 32 ||
    (match rb r 2 with
     | 0 => 7 < rb r 3 || rb r 4 == 0 || 3 < rb r 4 || rb r 5 != 0
     | 1 => 31 < rb r 3 || rb r 4 == 0 || 3 < rb r 4 || rb r 5 != 0 || ri r 6 2 == -2048 || decide (ri r 6 2 < -2048) || decide (2047 < ri r 6 2) || 1023 < rn r 8 2
     | 2 => 31 < rb r 3 || 15 < rb r 4 || 15 < rb r 5
     | 3 => rb r 3 != 0 || rb r 5 != 0
     | _ => rb r 3 != 0 || rb r 5 != 0 || rn r 16 8 < 64 || rn r 16 8 ≤ rn r 24 8)
  | 0x04 => 32 ≤ rb r 1 || nz r 2 2 || nz r 10 54
  | 0x05 => 32 ≤ rb r 1 || 2 ≤ rb r 3 || rb r 7 != 0 || nz r 24 40
  | 0x10 => 32 ≤ rb r 1 || 15 < rb r 4 || rb r 5 < 16 || 31 < rb r 5 || 16 ≤ rb r 6 || 15 < rb r 7 || nz r 40 24 ||
      (!(rb r 6).testBit 0 && waveN ≤ rn r 8 4)
  | _ => true

/-- Two ACQ records share an INDEX, COND, TILECFG, FLUXCFG or weight set. -/
def acqSame (a b : List Byte) : Bool :=
  match rb a 0, rb b 0 with
  | 0x03, 0x03 => rb a 1 == rb b 1
  | 0x04, 0x04 => rb a 1 == rb b 1
  | 0x05, 0x05 => rb a 1 == rb b 1
  | 0x10, 0x10 => rb a 1 == rb b 1 && rn a 2 2 == rn b 2 2 && rb a 4 == rb b 4
  | x, y => (x == 1 || x == 2) && (y == 1 || y == 2) && rb a 1 == rb b 1 && rn a 2 2 == rn b 2 2

def Device.chkSched (d : Device) : List Fail :=
  let s := d.sect 2
  let resFirst := d.imgLe (s.off + 1024) 4
  let resCnt := d.imgLe (s.off + 1028) 4
  let resBlocks := (resCnt + 3) / 4
  let acqs := d.sectRecs 6
  let waveN := if (d.sect 3).len = 0 then 0 else d.imgLe (d.sect 3).off 4
  let inArea := fun (f n : Nat) => decide (80 ≤ f) && decide (f + n ≤ 16 * s.cnt) && f % 16 == 0 &&
    (resCnt == 0 || decide (16 * (resFirst + resBlocks) ≤ f) || decide (f + n ≤ 16 * resFirst))
  (List.range 64).flatMap (fun e =>
    let r := d.imgBytes (s.off + 16 * e) 16
    failIf (nz r 13 3 || (rn r 4 4 != 0 && (!inArea (rn r 0 4) (rn r 4 4) || resCnt ≤ rn r 8 4 || 2 < rb r 12))) (s.off + 16 * e) 3) ++
  failIf (nz (d.imgBytes (s.off + 1024) 256) 8 248 || (resCnt != 0 && (resFirst < 5 || s.cnt < resFirst + resBlocks))) (s.off + 1024) 3 ++
  (List.range (min resCnt (4 * s.cnt))).flatMap (fun n => failIf (d.resBad resCnt n) (s.off + 256 * resFirst + 64 * n) 3) ++
  d.imgStreams.flatMap (fun t => if inArea t.2.1 t.2.2 then
      (d.streamBad t resCnt (acqs.map Prod.snd)).map (fun i => (s.off + 16 * i, 3)) ++
      ((d.namedRecs t).filter (fun n => n.2 < resCnt && waveQuota t.1 < d.withNext recWave n.2)).map (fun n => (n.1, 3))
    else []) ++
  badRecs 6 acqs (acqBad waveN) ++
  (acqs.zipIdx.filter (fun c => (acqs.take c.2).any (fun r => acqSame r.2 c.1.2))).map (fun c => (c.1.1, 7))

/-! FORK (code 0x19) -/

/-- Entry `i` of a tile's fork table in the image; an empty section reads as zeros. -/
def Device.imgEntry (d : Device) (tl i : Nat) : Nat := if (d.sect 4).len = 0 then 0 else d.imgLe ((d.sect 4).off + 32768 * tl + 8 * i) 8

/-- Failures of the entries that a FORK or a WAIT in JUMP mode uses (R172): outcome entries from `base` on, then jump entries. -/
def Device.entriesBad (d : Device) (e opOff base nb nj : Nat) (starts : List Nat) (isWait : Bool) : List Fail :=
  let n := (if isWait then 0 else 2 ^ nb) + nj
  if n = 0 then []
  else if 4096 < base + n || (d.sect 4).len = 0 then [(opOff, 3)]
  else
    let dflt := d.imgEntry (e / 2) base % 64
    (List.range n).flatMap (fun i =>
      let x := d.imgEntry (e / 2) (base + i)
      let jump := isWait || 2 ^ nb ≤ i
      failIf (!x.testBit 25 || bitsOf x 31 26 != nb || x.testBit 24 != jump || x % 64 != dflt || 2 ^ nb ≤ x % 64 || bitsOf x 23 6 != 0 ||
        !starts.contains (x / 2 ^ 32)) ((d.sect 4).off + 32768 * (e / 2) + 8 * (base + i)) 5)

/-- The entries that FORK and WAIT operations use (R172, R173). A non-zero entry that none uses is not checked (DESIGN CHOICE, log 151). -/
def Device.chkFork (d : Device) : List Fail :=
  d.imgStreams.flatMap (fun s =>
    let starts := d.segStarts s.2.1 s.2.2
    ((List.range s.2.2).map (fun i => s.2.1 + i)).flatMap (fun i =>
      let b := d.imgOp i
      let o := opOperand b
      let at' := (d.sect 2).off + 16 * i
      if opCode b = 0x10 && !o.testBit 63 then d.entriesBad s.1 at' (bitsOf o 54 43) (bitsOf o 57 55) (bitsOf o 61 58) starts false
      else if opCode b = 0x11 && bitsOf o 63 62 = 1 then d.entriesBad s.1 at' (bitsOf o 54 43) 0 (bitsOf o 58 55) starts true
      else []))

/-! FABRIC, ACQ lengths, CALGAP (codes 0x1A to 0x1C) -/

/-- Where a slot departs: port, position and lanes; none for an RX slot. -/
def departs (s : List Byte) : Option (Nat × Nat × List Nat) :=
  if rb s 1 = 2 then none
  else
    let p := linkPort (rb s 6) (rb s 7)
    some (p, if rb s 1 = 0 then rb s 8 else (rb s 8 + 14) % 16, copyLanes p (rb s 9))

def collide (a b : List Byte) : Bool :=
  match departs a, departs b with
  | some (p, x, l), some (q, y, m) => p == q && x == y && l.any (fun i => m.contains i)
  | _, _ => false

def Device.slotBad (d : Device) (s : List Byte) : Bool :=
  let hasPort := fun (link port : Nat) => d.imgPorts.any (fun p => rb p 1 == link && rb p 2 == port)
  let side := fun (used : Bool) (link port : Nat) =>
    if used then !(link == 0 && port < 8 || link == 1 && port == 0) || !hasPort link port else link != 0xFF || port != 0xFF
  let twin := (rb s 1 != 0 && rb s 4 == 1) || (rb s 1 != 2 && rb s 6 == 1)
  2 < rb s 1 || side (rb s 1 != 0) (rb s 4) (rb s 5) || side (rb s 1 != 2) (rb s 6) (rb s 7) || 13 < rb s 8 || (twin && 3 < rb s 9) ||
  rb s 10 == 0 || 12 < rb s 10 || rb s 11 == 0 || 3 < rb s 11 || nz s 14 50 ||
  (match departs s with | some (_, x, _) => 14 ≤ x | none => false)

def Device.chkFabric (d : Device) : List Fail :=
  let rs := d.sectRecs 5
  badRecs 5 rs (fun r =>
    match rb r 0 with
    | 1 => 1 < rb r 1 || (rb r 1 == 1 && rb r 2 != 0) || (rb r 1 == 0 && 7 < rb r 2) || nz r 5 59
    | 2 => d.slotBad r
    | _ => true) ++
  (rs.zipIdx.filter (fun c => (rs.take c.2).any (fun x =>
    (rb x.2 0 == 1 && rb c.1.2 0 == 1 && rb x.2 1 == rb c.1.2 1 && rb x.2 2 == rb c.1.2 2) ||
    (rb x.2 0 == 2 && rb c.1.2 0 == 2 && (rn x.2 2 2 == rn c.1.2 2 2 || collide x.2 c.1.2))))).map (fun c => (c.1.1, 6))

def Device.chkAcqLength (d : Device) : List Fail :=
  let rs := d.sectRecs 6
  let caps := fun (tl : Nat) => (rs.map Prod.snd).filter (fun r => rb r 0 == 1 && rb r 1 == tl)
  let lines := fun (r : List Byte) => rn r 6 2 * (if (rb r 34).testBit 0 then 1 else 1 + rn r 16 4 / 32)
  badRecs 6 rs (fun r =>
    match rb r 0 with
    | 1 => rn r 16 4 < rn r 8 4 + rn r 12 4 || 4096 < rn r 8 4 || rn r 12 4 == 0 || rn r 16 4 == 0 || rn r 16 4 % 32 != 0 ||
        rn r 6 2 == 0 || 1024 < rn r 6 2 || rn r 16 4 < rn r 20 4 + rn r 24 4
    | 4 =>
      let h := (32 + 16 * rn r 8 2 + 63) / 64
      4096 < rn r 8 2 || rn r 4 4 == 0 || 16384 < rn r 4 4 ||
      (if (caps (rb r 1)).isEmpty then rn r 4 4 < 4 * ((h + 3) / 4) else (caps (rb r 1)).any (fun c => rn r 4 4 < 4 * ((h + lines c + 3) / 4)))
    | _ => false) ++
  failIf (d.imgStreams.any (fun s => s.1 % 2 == 1 && !rs.any (fun r => rb r.2 0 == 4 && rb r.2 1 == s.1 / 2))) (d.sect 6).off
    (if (d.sect 6).len = 0 then 0 else 7)

def Device.chkCalGap (d : Device) : List Fail :=
  let rs := d.sectRecs 7
  let streams := d.imgStreams
  badRecs 7 rs (fun r =>
    let e := 2 * rb r 0 + rb r 1
    16 ≤ rb r 13 * 16 || nz r 14 2 || 31 < rb r 0 || 1 < rb r 1 ||
    (match streams.find? (fun s => s.1 == e) with
     | none => true
     | some s =>
       let starts := d.segStarts s.2.1 s.2.2
       match starts[rn r 2 2]? with
       | none => true
       | some f =>
         let L := match (d.segOps (s.2.1 + s.2.2) s.2.2 f).getLast? with | some o => opOffset o.2 | none => 0
         rn r 8 4 < 2000 || L < rn r 4 4 + rn r 8 4)) ++
  failIf (streams.any (fun s => !rs.any (fun r => 2 * rb r.2 0 + rb r.2 1 == s.1))) (d.sect 7).off 8

/-! The whole check (R73) -/

/-- The checks in table order. -/
def Device.imgChecks (d : Device) (poisoned : List Nat) : List (Nat × (Unit → List Fail)) :=
  [(0x01, fun _ => d.chkMagic), (0x02, fun _ => d.chkFormat), (0x03, fun _ => d.chkHdrCrc), (0x04, fun _ => d.chkLength), (0x05, fun _ => d.chkPart),
   (0x06, fun _ => d.chkRegion), (0x07, fun _ => d.chkPoison poisoned), (0x08, fun _ => d.chkTable), (0x09, fun _ => d.chkBounds),
   (0x0A, fun _ => d.chkCrc), (0x0B, fun _ => d.chkE2e), (0x0C, fun _ => d.chkWaveDir), (0x10, fun _ => d.chkDepth), (0x11, fun _ => d.chkShape),
   (0x12, fun _ => d.chkOwner), (0x13, fun _ => d.chkFrameMap), (0x14, fun _ => d.chkRoutePort), (0x15, fun _ => d.chkRouteMulti),
   (0x16, fun _ => d.chkRouteSlot), (0x17, fun _ => d.chkDev), (0x18, fun _ => d.chkSched), (0x19, fun _ => d.chkFork), (0x1A, fun _ => d.chkFabric),
   (0x1B, fun _ => d.chkAcqLength), (0x1C, fun _ => d.chkCalGap)]

/-- The result of the check: code, offset and section of the first failure in table order; none where the image passes. -/
def Device.imgCheck (d : Device) (poisoned : List Nat) : Option (Nat × Fail) :=
  (d.imgChecks poisoned).findSome? (fun c => (lowest (c.2 ())).map (fun f => (c.1, f)))

/-- The directory entry of an envelope of the image: its first block and its length; none where the entry reaches beyond the data area
(R130, R131). -/
def Device.envImg (d : Device) (n : Nat) : Option (Nat × Nat) :=
  let f := d.imgLe ((d.sect 3).off + 256 + 16 * n) 4
  let l := d.imgLe ((d.sect 3).off + 260 + 16 * n) 4
  if l = 0 || (d.sect 3).cnt < f + (l + 63) / 64 then none else some (f, l)

/-- The image under check, parsed (R78). -/
def Device.parseImage (d : Device) : Image :=
  let structs := (d.sectRecs 0).map Prod.snd
  let levels := levelsOf structs ((d.sectRecs 5).map Prod.snd) (d.imgLe 34 1) (selfCupola structs)
  { base := d.img.latBase, len := d.img.latLen, id := d.imgLe 16 8, plan := d.imgLe 24 8, dev := d.imgLe 34 1, flags := d.imgLe 35 1
    header := d.imgBytes 0 64, structs := structs, selfLevel := levels.1, quadLevels := levels.2, routes := (d.sectRecs 1).map Prod.snd
    fabric := (d.sectRecs 5).map Prod.snd, acq := (d.sectRecs 6).map Prod.snd, gaps := (d.sectRecs 7).map Prod.snd
    schedOff := (d.sect 2).off, schedCnt := (d.sect 2).cnt, waveOff := (d.sect 3).off, waveCnt := (d.sect 3).cnt
    forkOff := (d.sect 4).off, forkLen := (d.sect 4).len
    tabs := [0, 1, 5, 6, 7].map (fun k => ((d.sect k).off, (d.sect k).len))
    dir := if (d.sect 2).cnt = 0 then [] else (List.range 64).map (fun e => d.imgBytes ((d.sect 2).off + 16 * e) 16)
    resid := if (d.sect 2).cnt = 0 then [] else (List.range (d.imgLe ((d.sect 2).off + 1028) 4)).map d.imgRes
    envs := if (d.sect 3).cnt = 0 then [] else (List.range (d.imgLe (d.sect 3).off 4)).map d.envImg }

end Sys2Proof.Machine
end

