-- ==== Sys2Proof/Machine/StateBus.lean ====
section
/-! DEFINITION. What stands at the addresses of the micro-sequencers' state bus (R224): reading it and storing there. -/
namespace Sys2Proof.Machine

variable {d0 : Device}

/-- What stands at a bus address (R224): a word the spec gives no name; of the engine's private part the argument of a waiting event, an entry of the ownership tables, and a fetch copy of a
loop register and its ACTIVE bit; of its state a SCH_ or ENG_ field, a loop register, a part of the snapshot store, the decode tag of an operation, the residency tag of a
SCHED block or a WAVE line; of the tile a word of a frame (F, Θ, E), the flags of a fork-input port, a word of the header store, the summary of the tile or of
a channel; of the device a request for a SCHED or WAVE block, an interrupt vector, a word of the oldest ECC_LOG entry. -/
inductive BusPlace where
  | word
  | arg (i : Nat)
  | owner (i : Nat)
  | copy (r : Nat)
  | copyActive
  | field (k : Nat)
  | left (r : Nat)
  | snapFrame (i part : Nat)
  | snapLeft (r : Nat)
  | snapActive
  | snapB0
  | decodeTag (i : Nat)
  | schedTag (b : Nat)
  | waveTag (l : Nat)
  | frame (i part : Nat)
  | port (i : Nat)
  | header (i : Nat)
  | summary (slot : Nat)
  | fetch (wave : Bool)
  | cause (v : Nat)
  | eccLog (k : Nat)
  deriving DecidableEq, Repr

/-- What stands at a bus address: the contents of each region are the spec's, the address of each within it is the part's own (log 157). -/
def busPlace (a : Nat) : BusPlace :=
  let c := Config.busPlace a
  if a < 0x1000 then (match c % 5 with
    | 0 => .word | 1 => .arg (c / 5 % 64) | 2 => .owner (c / 5 % 47) | 3 => .copy (c / 5 % 4) | _ => .copyActive)
  else if a < 0x2000 then (match c % 10 with
    | 0 => .word | 1 => .left (c / 10 % 4) | 2 => .field (c / 10) | 3 => .snapFrame (c / 10 % 16) (c / 160 % 3) | 4 => .snapLeft (c / 10 % 4)
    | 5 => .snapActive | 6 => .snapB0 | 7 => .decodeTag (c / 10 % 2 ^ 28) | 8 => .schedTag (c / 10 % 2 ^ 24) | _ => .waveTag (c / 10 % 2 ^ 24))
  else if a < 0x4000 then (match c % 5 with
    | 0 => .word | 1 => .frame (c / 5 % 32) (c / 160 % 3) | 2 => .port (c / 5 % 64) | 3 => .header (c / 5 % 2048) | _ => .summary (c / 5 % 16))
  else (match c % 4 with | 0 => .word | 1 => .fetch (c / 4 % 2 == 1) | 2 => .cause (c / 4 % 2048) | _ => .eccLog (c / 4 % 3))

/-- The SCH_ and ENG_ fields of an engine. -/
def busFields (e : Nat) : List Fld :=
  [R.SCH_STAT.STATE e, R.SCH_STAT.WAITING e, R.SCH_STAT.VOIDED e, R.SCH_STAT.FAULT e, R.SCH_STAT.LOOP_ACTIVE e, R.SCH_SEG.POINTER e,
   R.SCH_SHOT_LO.SHOT e, R.SCH_SHOT_HI.SHOT e, R.SCH_JUMP_REQ.REQ e, R.SCH_JUMP_REQ.PAIR e, R.SCH_JUMP_REQ.CANCEL e, R.SCH_JUMP_REQ.J e,
   R.SCH_JUMP_STATUS.RESULT e, R.SCH_JUMP_STATUS.TAKEN_CNT e, R.SCH_JUMP_STATUS.J e, R.SCH_JUMP_EPOCH_LO.EPOCH e, R.SCH_JUMP_EPOCH_HI.EPOCH e,
   R.SCH_EVT.LATE_FORK e, R.SCH_EVT.LOST e, R.SCH_EVT.VOID e, R.SCH_EVT.HOLD e, R.SCH_EVT.WAIT_TIMEOUT e, R.SCH_EVT.PORT_OVERRUN e,
   R.SCH_CNT.VOIDS e, R.SCH_CNT.LATE e, R.SCH_HOLD.QUANTA e, R.SCH_PORT_PRES.PRESENT e, R.ENG_CTL.QMAX_CLR e, R.ENG_CTL.CNT_CLR e,
   R.ENG_STAT.SEQ_STATE e, R.ENG_STAT.PRIO e, R.ENG_STAT.COMMITTED e, R.ENG_STAT.SPACE e, R.ENG_STAT.EVENT e, R.ENG_STAT.SHADOW e, R.ENG_STAT.UPC e,
   R.ENG_FAULT.CODE e, R.ENG_FAULT.TRAP e, R.ENG_FAULT.SPACE e, R.ENG_FAULT.UPC e, R.ENG_EVT.ISSUE_LATE e, R.ENG_EVT.BUS_SHORT e,
   R.ENG_EVT.RESTART e, R.ENG_EVT.ESCALATE e, R.ENG_EVT.PATCH_CE e, R.ENG_EVT.LINE_BAD e, R.ENG_CNT.RESTARTS e, R.ENG_CNT.ESCALATIONS e,
   R.ENG_LINES.LINES e, R.ENG_QUEUE.MAX e, R.ENG_QUEUE.DEPTH e] ++
  (List.range 32).flatMap (fun i => [R.ENG_MATCH.EN e i, R.ENG_MATCH.PADDR e i, R.ENG_MATCH.ROM_ADDR e i])
def busField (e k : Nat) : Fld := (busFields e).getD (k % (busFields e).length) (R.SCH_STAT.LOOP_ACTIVE e)

/-- Where the word of a bus address is held: the engine's own below 0x2000, its tile's below 0x4000, and the device's above (R224). -/
def busKey (e a : Nat) : Nat := (if a < 0x2000 then e else if a < 0x4000 then 64 + e / 2 else 96) * 2 ^ 16 + a

/-- A word of a frame: F, Θ or E. -/
def partOf (f : Nat × Nat × Nat) (part : Nat) : Nat := if part = 0 then f.1 else if part = 1 then f.2.1 else f.2.2
def setPart (f : Nat × Nat × Nat) (part v : Nat) : Nat × Nat × Nat :=
  if part = 0 then (v % 2 ^ 48, f.2.1, f.2.2) else if part = 1 then (f.1, v % 2 ^ 32, f.2.2) else (f.1, f.2.1, v)

/-- Entry `i` of an engine's ownership table as the committed image makes it: 1 where the engine owns frame `i`, or channel `i - 32`, of its tile (R64,
R147; the form of an entry is the part's own, log 157). -/
def ownerEntry (e i : Nat) : Nat :=
  if i < 32 then (if e % 2 = 0 then decide (i < 16) else decide (16 ≤ i)).toNat
  else (if e % 2 = 0 then decide (i < 37 || i = 46) else decide (37 ≤ i && i < 46)).toNat

/-- A commit makes the ownership tables anew. -/
def Tx.dropOwners (t : Tx d0) : Tx d0 :=
  t.each t.d.bus (fun c t => match busPlace (c.1 % 2 ^ 16) with | .owner _ => t.upd (.bus c.1 0) | _ => t)

/-- The value at a bus address, where the state holds one: an unnamed word, and what a request for a block reads as, are held from their first access on. -/
def Device.busGet (d : Device) (e a : Nat) : Option Nat :=
  let held := match bget (fun _ => 0) d.bus (busKey e a) with
    | 0 => none
    | v + 1 => some v
  match busPlace a with
  | .word | .fetch _ => held
  | .owner i => some (held.getD (ownerEntry e i))
  | .copyActive => some (d.eng e).fetch.active
  | .snapB0 => some (d.eng e).snap.b0.toNat
  | .arg i => some (((d.seq e).events[i]?.map SeqEvent.arg).getD 0)
  | .copy r => some ((d.eng e).fetch.left.getD r 0)
  | .field k => some (d.f (busField e k))
  | .left r => some ((d.eng e).left.getD r 0)
  | .snapFrame i part => some (partOf ((d.eng e).snap.frames.getD i (0, 0, 0)) part)
  | .snapLeft r => some ((d.eng e).snap.left.getD r 0)
  | .snapActive => some (d.eng e).snap.active
  | .decodeTag i => some (bget (fun _ => 0) d.dtags (tagKey e i) % 2 ^ 64)
  | .schedTag b => some (bget (fun _ => 0) d.resS (e * 2 ^ 24 + b))
  | .waveTag l => some (bget (fun _ => 0) d.resW (e * 2 ^ 24 + l))
  | .frame i part => some (partOf (d.frame (32 * (e / 2) + i)) part)
  | .port i => some ((d.port (64 * (e / 2) + i)).present.toNat + 2 * (d.port (64 * (e / 2) + i)).lost.toNat)
  | .header i => some (d.sramLe (64 * classBase 4 (e / 2) + 8 * i) 8)
  | .summary slot => some (if slot = 15 then d.tileSummary (e / 2) else d.chanSummary (e / 2) slot)
  | .cause v => some (bget (fun _ => false) d.pba v).toNat
  | .eccLog k => some ((d.eccLog.head?.map (fun x => if k = 0 then x.w0 else if k = 1 then x.w1 else x.epoch)).getD 0)

/-- The data at a bus address carry poison: a tagged line of the header store. Of an unnamed word the spec does not say (log 157). -/
def Device.busTagged (d : Device) (e a : Nat) : Option Bool :=
  match busPlace a with
  | .word | .fetch _ => none
  | .header i => some (d.tagOf (classBase 4 (e / 2) + i / 8) != 0)
  | _ => some false

/-- A field takes a value from the bus: a W1C bit is set as by a hardware event (R21, R233), and a W1S bit is cleared as by one, so that it stays set
where a write of 1 falls in the same clock (R23, R233). -/
def Tx.storeField (t : Tx d0) (F : Fld) (v : Nat) : Tx d0 :=
  if F.acc = .w1c && v % 2 = 1 then t.ev F else if F.acc = .w1s && v % 2 = 0 then t.doneS F else t.w F v

/-- A value is stored at a bus address: a narrower register takes the low bits (R220). -/
def Tx.busPut (t : Tx d0) (e a v : Nat) : Tx d0 :=
  let v := v % 2 ^ 64
  let held := fun (t : Tx d0) => t.upd (.bus (busKey e a) (v + 1))
  match busPlace a with
  | .word | .owner _ => held t
  | .copyActive => t.modEng e (fun x => { x with fetch := { x.fetch with active := v % 16 } })
  | .snapB0 => t.modEng e (fun x => { x with snap := { x.snap with b0 := BitVec.ofNat 64 v } })
  | .arg i => t.modSeq e (fun s => { s with events := s.events.modify i (fun x => { x with arg := v }) })
  | .copy r => t.modEng e (fun x => { x with fetch := { x.fetch with left := x.fetch.left.set r (v % 2 ^ 32) } })
  | .field k => t.storeField (busField e k) v
  | .left r => t.modEng e (fun x => { x with left := x.left.set r (v % 2 ^ 32) })
  | .snapFrame i part => t.modEng e (fun x => { x with snap := { x.snap with frames := x.snap.frames.modify i (fun f => setPart f part v) } })
  | .snapLeft r => t.modEng e (fun x => { x with snap := { x.snap with left := x.snap.left.set r (v % 2 ^ 32) } })
  | .snapActive => t.modEng e (fun x => { x with snap := { x.snap with active := v % 16 } })
  | .decodeTag i => t.upd (.dtag (tagKey e i) (bget (fun _ => 0) t.d.dtags (tagKey e i) / 2 ^ 64 * 2 ^ 64 + v))
  | .schedTag b => t.upd (.resS (e * 2 ^ 24 + b) (v % 1025))
  | .waveTag l => t.upd (.resW (e * 2 ^ 24 + l) (v % 24577))
  | .frame i part =>
    let f := 32 * (e / 2) + i
    let t := t.noteFrame f
    if part = 0 then t.w64 (R.NCO_FREQ_LO.F_LO f) (R.NCO_FREQ_HI.F_HI f) (v % 2 ^ 48)
    else if part = 1 then t.w (R.NCO_PHASE.THETA f) v else t.w64 (R.NCO_REF_LO.REF f) (R.NCO_REF_HI.REF f) v
  | .port i =>
    let n := 64 * (e / 2) + i
    t.upd (.port n { t.d.port n with present := v.testBit 0, lost := v.testBit 1 })
  | .header i => t.writeBytes (64 * classBase 4 (e / 2) + 8 * i) (leBytes 8 v)
  | .summary _ => t.upd (.flags (e / 2) (v / 2 ^ 9 % 128))
  | .fetch wave => held (t.fetchBlock wave (v % 2 ^ 24))
  | .cause n => t.upd (.pba n (v.testBit 0))
  | .eccLog k => (t.upd (.eccLog (match t.d.eccLog with
      | [] => []
      | x :: l => (if k = 0 then { x with w0 := v % 2 ^ 32 } else if k = 1 then { x with w1 := v % 2 ^ 32 } else { x with epoch := v }) :: l))).showLog

end Sys2Proof.Machine
end

