-- ==== Sys2Proof/Machine/Runs.lean ====
section
/-! DEFINITION. Runs and images as commands (chapters 02 and 23): run starts and ends (R700 to R704, R201), and LOAD, COMMIT and DISCARD of a tower
image up to its commit tick (R71 to R84, R116, R357, R363, R372, R373). -/
namespace Sys2Proof.Machine

variable {d0 : Device}

/-! Runs -/

/-- RUN_START_REQUEST: START is written. -/
def effRunStartRequest (t : Tx d0) : Tx d0 := t.hostReg R.GLB_RUN_CTL.START.off Tx.startRequest

def execRunStartRequest (s : State) : Host.Outcome State Fault Refusal := commit effRunStartRequest s

/-- A pending start is withdrawn (R703); on the first tick of the run it is too late. -/
def Tx.runCancel (t : Tx d0) : Tx d0 := if t.b R.GLB_RUN_STAT.PENDING && !t.d.firstIsNow then (t.wb R.GLB_RUN_STAT.PENDING false).ripenHeld else t

def effRunCancel (t : Tx d0) : Tx d0 := t.hostReg R.GLB_RUN_CTL.CANCEL.off Tx.runCancel

def execRunCancel (s : State) : Host.Outcome State Fault Refusal := commit effRunCancel s

/-- The run's first tick: calibration steps still running are cut, and the run begins (R415, R704). -/
def Tx.runBegins (t : Tx d0) : Tx d0 := (t.dropSteps t.d.stepOn).firstTick

/-- RUN_START: the run starts where this is its first tick and the checks of the tick before have passed; where they have not, it is refused. With a
FABRIC section a start that a hold keeps from FAB_START is refused, and so is one whose FAB_START is past (R701, R702, R335). -/
def effRunStart (t : Tx d0) : Tx d0 :=
  if !t.b R.GLB_RUN_STAT.PENDING || t.running then t
  else if t.d.firstTickNow then
    match t.d.run.found with
    | none => t
    | some 0 => t.runBegins
    | some c => t.refuseRun c
  else if t.d.fabric.isEmpty || t.now.toNat < t.d.fabStart then t
  else t.refuseRun (if t.d.run.found.getD 0 ≠ 0 then t.d.run.found.getD 0 else 12)

def execRunStart (s : State) : Host.Outcome State Fault Refusal := commit effRunStart s

/-- RUN_END: the tick after the last engine with a stream has stopped. -/
def effRunEnd (t : Tx d0) : Tx d0 :=
  if t.running && !t.d.streams64.any (fun e => (t.d.eng e).live) && t.d.run.quiet ≠ t.now then t.endRun else t

def execRunEnd (s : State) : Host.Outcome State Fault Refusal := commit effRunEnd s

/-! Requests for an image (R71, R72, R84) -/

/-- CODE of the latest request. -/
def Tx.imgCode (t : Tx d0) (c : Nat) : Tx d0 := t.w R.GLB_IMG_STAT.CODE c

/-- GLB_IMG_PEND_ID. -/
def Tx.pendId (t : Tx d0) (v : Nat) : Tx d0 := t.w64 R.GLB_IMG_PEND_ID_LO.VALUE R.GLB_IMG_PEND_ID_HI.VALUE v

/-- The pending image is dropped. -/
def Tx.dropPend (t : Tx d0) : Tx d0 :=
  (((t.modImg (fun x => { x with pend := none })).pendId 0).wb R.GLB_IMG_STAT.COMMIT_HELD false).w R.GLB_IMG_STAT.LOAD_STATE 0

/-- A write of LOAD (R71, R72, R690). -/
def Tx.imgLoad (t : Tx d0) : Tx d0 :=
  let st := t.f R.GLB_IMG_STAT.LOAD_STATE
  if t.d.cxlTesting then t.stHold 0
  else if st = 1 || st = 3 || t.b R.GLB_IMG_STAT.COMMIT_HELD then t.imgCode 0x20
  else
    let t := t.dropPend
    let base := t.f R.GLB_IMG_BASE_LO.ADDR * 4096 + t.f R.GLB_IMG_BASE_HI.ADDR * 2 ^ 32
    let t := t.modImg (fun x => { x with latBase := base, latLen := t.f R.GLB_IMG_LEN.LEN })
    ((t.w R.GLB_IMG_STAT.SECTION 0).w R.GLB_IMG_ERR_OFF.OFFSET 0).w R.GLB_IMG_STAT.LOAD_STATE 1

def effImgLoad (t : Tx d0) : Tx d0 := t.hostReg R.GLB_IMG_CTL.LOAD.off Tx.imgLoad

def execImgLoad (s : State) : Host.Outcome State Fault Refusal := commit effImgLoad s

/-- A write of COMMIT. -/
def Tx.imgCommit (t : Tx d0) : Tx d0 :=
  match t.f R.GLB_IMG_STAT.LOAD_STATE with
  | 0 => t.imgCode 0x21
  | 1 => t.wb R.GLB_IMG_STAT.COMMIT_HELD true
  | 2 =>
    if t.b R.GLB_IMG_STAT.COMMIT_HELD then t
    else
      let t := t.imgCode 0
      if t.running then t.wb R.GLB_IMG_STAT.COMMIT_HELD true else t.toCommitting
  | _ => t.imgCode 0x20

def effImgCommit (t : Tx d0) : Tx d0 := t.hostReg R.GLB_IMG_CTL.COMMIT.off Tx.imgCommit

def execImgCommit (s : State) : Host.Outcome State Fault Refusal := commit effImgCommit s

/-- A write of DISCARD. -/
def Tx.imgDiscard (t : Tx d0) : Tx d0 :=
  match t.f R.GLB_IMG_STAT.LOAD_STATE with
  | 0 => t.imgCode 0x21
  | 1 => ((t.dropPend).imgCode 0x22).ev R.GLB_DEV_EVT.IMG_DONE
  | 2 => (t.dropPend).imgCode 0
  | _ => t.imgCode 0x20

def effImgDiscard (t : Tx d0) : Tx d0 := t.hostReg R.GLB_IMG_CTL.DISCARD.off Tx.imgDiscard

def execImgDiscard (s : State) : Host.Outcome State Fault Refusal := commit effImgDiscard s

/-- IMG_CHECK_DONE: the check in progress ends; `poisoned` are the image offsets of the lines that were read
with poison (R73, R485). -/
def effImgCheckDone (poisoned : List Nat) (t : Tx d0) : Tx d0 :=
  if t.f R.GLB_IMG_STAT.LOAD_STATE ≠ 1 then t
  else
    let t := t.notePoison ((List.range (t.d.img.latLen / 64)).map (fun i => t.d.img.latBase + 64 * i)) (poisoned.map (fun o => t.d.img.latBase + o))
    let t := t.when (poisoned.any (fun o => o < t.d.img.latLen)) (fun t => t.ev R.ECC_EVT.CXL_POISON)
    match t.d.imgCheck poisoned with
    | some (code, off, sect) =>
      ((((t.dropPend).imgCode code).w R.GLB_IMG_STAT.SECTION sect).w R.GLB_IMG_ERR_OFF.OFFSET off).ev R.GLB_DEV_EVT.IMG_DONE
    | none =>
      let im := t.d.parseImage
      (((((t.modImg (fun x => { x with pend := some im })).pendId im.id).imgCode 0).w R.GLB_IMG_STAT.LOAD_STATE 2).ev R.GLB_DEV_EVT.IMG_DONE).heldCommit

def execImgCheckDone (poisoned : List Nat) (s : State) : Host.Outcome State Fault Refusal := commit (effImgCheckDone poisoned) s

/-- COMMITTING_START: a held commit of a pending image enters COMMITTING where no run is in progress. -/
def effCommittingStart (t : Tx d0) : Tx d0 := t.heldCommit

def execCommittingStart (s : State) : Host.Outcome State Fault Refusal := commit effCommittingStart s

/-! The commit tick (R79) -/

/-- A frame's words become 0 (R116). -/
def Tx.zeroFrame (t : Tx d0) (f : Nat) : Tx d0 :=
  if t.d.frame f = (0, 0, 0) then t
  else
    let t := t.noteFrame f
    ((t.w64 (R.NCO_FREQ_LO.F_LO f) (R.NCO_FREQ_HI.F_HI f) 0).w (R.NCO_PHASE.THETA f) 0).w64 (R.NCO_REF_LO.REF f) (R.NCO_REF_HI.REF f) 0

/-- An engine leaves STATE FAULT, and a halted micro-sequencer returns to idle (R47, R79, R218, R249). -/
def Tx.clearFault (t : Tx d0) (e : Nat) : Tx d0 :=
  let t := if t.f (R.SCH_STAT.STATE e) = 3 then t.w (R.SCH_STAT.STATE e) 0 else t
  let t := t.w (R.SCH_STAT.FAULT e) 0
  let t := (((t.w (R.ENG_FAULT.CODE e) 0).w (R.ENG_FAULT.TRAP e) 0).w (R.ENG_FAULT.SPACE e) 0).w (R.ENG_FAULT.UPC e) 0
  if t.d.seqHalted e then ((t.w (R.ENG_STAT.SEQ_STATE e) 0).modSeq e (fun s => { s with routine := none, voidOpen := false })).showSeq e else t

/-- A clamp with reason FAULT or MONITOR may from now on be released by a first load (R369, R378). -/
def Tx.armClamp (t : Tx d0) (k : Nat) : Tx d0 :=
  let w := t.d.clampOf k
  if w &&& 6 = 0 then t else t.setClamp k (w ||| 32 * (w &&& 6))

/-- A flux output takes the range, group and idle code of the new image (R357, R363, R372, R373). -/
def Tx.commitFlux (t : Tx d0) (c : Nat) : Tx d0 :=
  let t := t.w (R.FLX_OUT_STAT.GROUP c) (t.d.groupOf c)
  if t.d.rangeOf c = t.b (R.FLX_OUT_STAT.RANGE c) then t.upd (.ranged c false)
  else
    let t := (t.upd (.ranged c true)).upd (.rangeT0 c (some t.d.age))
    ((t.emptyHeld c).loadCode c 0).clampAdd (fluxKey c) 0x10

/-- A tile that is on under the new image; one that is off shows it once it comes back (R658). -/
def Tx.commitTile (t : Tx d0) (tl : Nat) : Tx d0 :=
  let t := t.each (tileOutputs tl) (fun k t => t.armClamp k)
  let t := t.each (List.range 8) (fun i t => t.commitFlux (8 * tl + i))
  let t := (t.idleTile tl).wb (R.FLX_MARK.MIDLE tl) (t.d.midle tl)
  let t := t.each (List.range 32) (fun i t => t.zeroFrame (32 * tl + i))
  let t := t.each (List.range 20) (fun i t => t.wb (R.NCO_MIX_STAT.BOUND (20 * tl + i)) false)
  t.each (List.range 16) (fun i t => t.wb (R.RD_DSTAT.VALID (16 * tl + i)) false)

/-- Bytes of the fork tables of the image in force, from offset `a` on; zeros without a FORK section (R171, R172). -/
def Device.forkBytes (d : Device) (a n : Nat) : List Byte :=
  match d.img.act with
  | none => List.replicate n 0
  | some im => if im.forkLen = 0 then List.replicate n 0 else d.cxlBytes (im.base + im.forkOff + a) n

/-- The fork tables are loaded from the image in force. -/
def Tx.loadForks (t : Tx d0) : Tx d0 :=
  let t := t.upd (.fillLines (classBase 3 0) (classBase 3 0 + 16384) .zero)
  match t.d.img.act with
  | none => t
  | some im =>
    if im.forkLen = 0 then t
    else
      let t := t.each (t.d.cxl.nonzero (im.base + im.forkOff) 1048576) (fun c t => t.upd (.sram (64 * classBase 3 0 + c.1) [c.2]))
      let lo := (im.base + im.forkOff) / 64
      t.poisonLines ((t.d.cxlBad.filter (fun c => c.2 && lo ≤ c.1 && c.1 < lo + 16384)).map (fun c => classBase 3 0 + (c.1 - lo)))

/-- A line of the fork tables is reloaded from the image in force (R476). -/
def Tx.reloadFork (t : Tx d0) (l : Nat) : Tx d0 :=
  let a := 64 * (l - classBase 3 0)
  let bad := t.d.img.act.any (fun im => im.forkLen != 0 && t.d.cxlPoison (im.base + im.forkOff + a))
  ((t.wrote l).upd (.lines l (t.d.forkBytes a 64))).poisonLines (if bad then [l] else [])

/-- The blocks that an engine's stream needs at its start are asked for (R80). -/
def Tx.preload (t : Tx d0) (e : Nat) : Tx d0 :=
  match t.d.stream? e with
  | none => t
  | some (_, _, res, _) =>
    let r := t.d.resRec res
    let t := t.each (recSched r) (fun b t => t.fetchBlock false b)
    t.each (recWave r) (fun b t => t.fetchBlock true b)

/-- The pending image becomes the committed one on this tick. -/
def Tx.install (t : Tx d0) (im : Image) : Tx d0 :=
  let t := (t.modImg (fun x => { x with pend := none, act := some im })).modTwin (fun x => { x with absent := false })
  let t := ((t.wb R.GLB_IMG_STAT.ACTIVE true).w R.GLB_IMG_STAT.LOAD_STATE 0).wb R.GLB_IMG_STAT.COMMIT_HELD false
  let t := (t.w64 R.GLB_IMG_ACT_ID_LO.VALUE R.GLB_IMG_ACT_ID_HI.VALUE im.id).pendId 0
  let t := t.w64 R.GLB_IMG_COMMIT_EPOCH_LO.VALUE R.GLB_IMG_COMMIT_EPOCH_HI.VALUE t.now.toNat
  let t := ((t.wb R.GLB_UNIT_SELF.VALID true).w R.GLB_UNIT_SELF.DEV im.dev).w R.GLB_UNIT_SELF.UNIT_ID (t.d.tree.self)
  let t := t.each (List.range 64) (fun e t => t.clearFault e)
  let t := ((((t.upd (.dropRes 0 64)).upd .dropBad).upd .dropSums).upd (.cxlReads [])).dropOwners
  let t := t.loadForks
  let t := t.loadTables im
  let t := t.each ((List.range 32).filter t.d.tileOn) (fun tl t => t.commitTile tl)
  let t := t.each (List.range 9) (fun p t =>
    let x := t.d.statIn p
    let t := t.wb (R.FAB_PORT_STAT.NBR_OK p) (!x.cells.isEmpty && (t.d.portRec p).map (fun r => rb r 3) == some (t.f (R.FAB_PORT_STAT.NBR_DEV p)))
    t.wb (R.FAB_PORT_STAT.PLAN_OK p) (x.whole == some im.plan))
  let t := (t.wb R.FAB_STAT.PLAN (!t.d.fabric.isEmpty)).wb R.FAB_STAT.ANISE t.d.aniseMode
  let t := t.each (List.range 9) (fun p t => t.wb (R.FAB_PORT_STAT.USED p) (t.d.portRec p).isSome)
  let t := t.showPorts
  (t.each (List.range 64) (fun e t => t.preload e)).ev R.GLB_DEV_EVT.IMG_COMMIT

/-- COMMIT_TICK: installation is complete. After power-on the commit waits until the Watch has started and has offered its patch set, which is loaded
first (R246): so the commit waits for a routine under way to end too. A sequencer that stands HALTED, which only this commit frees (R218), returns to
idle before the set is loaded on the same tick (DESIGN CHOICE, log 206). -/
def effCommitTick (t : Tx d0) : Tx d0 :=
  match t.d.img.pend with
  | none => t
  | some im =>
    if t.f R.GLB_IMG_STAT.LOAD_STATE ≠ 3 || !t.d.fw.started then t
    else if t.d.patchWait.isSome && (List.range 64).any (fun e => (t.d.seq e).routine.isSome) then t
    else ((t.each (List.range 64) (fun e t => t.clearFault e)).patchNow).install im

def execCommitTick (s : State) : Host.Outcome State Fault Refusal := commit effCommitTick s

end Sys2Proof.Machine
end

