-- ==== Sys2Proof/Machine/Clocks.lean ====
section
/-! DEFINITION. What the fast clocks carry with them (chapters 18, 19 and 21): ports in and out of service, the loss of a Cupola's
peer, the commit of the TWIN record, and the end of the fast clocks (R606 to R608, R615, R631, R633, R635, R671). -/
namespace Sys2Proof.Machine

variable {d0 : Device}

/-! A Watch reset (R615) -/

/-- A Watch reset leaves every line low and the member in SOLO (R615, R676); CLAIM, which SOLO drives, is then 0 (DEDUCED, log 181). The
absence of the twin port outlasts it (R621). -/
def Tx.selReset (t : Tx d0) : Tx d0 :=
  let t := (t.modTwin (fun x => { absent := x.absent })).w R.TWIN_STAT.STATE 0
  ((((t.upd (.dropDigs 0 32)).w R.TWIN_STAT.ROLE 0).w R.TWIN_CTL.CLAIM 0).dropSel).showQok.showPorts

/-! The TWIN record (R635) -/

/-- The Watch commits the TWIN record, as it was asked for last, with one more attach or takeover (R619, R633, R635). -/
def Tx.putTwinRec (t : Tx d0) (attaches takeovers : Nat) : Tx d0 :=
  let live := t.d.twinRec
  let old := t.d.twinLast
  let image := if attaches = 0 then (old.drop 8).take 8 else leBytes 8 ((t.d.img.act.map Image.id).getD 0)
  let boots := if takeovers = 0 then (old.drop 24).take 4 else leBytes 4 (t.d.keep.life.getD 1 0)
  let body := leBytes 3 t.d.cupola ++ [0, BitVec.ofNat 8 (t.f R.TWIN_STAT.ROLE), BitVec.ofNat 8 t.d.peerDev, BitVec.ofNat 8 t.d.dev, 0] ++ image ++
    leBytes 4 (satAdd 32 (rn old 16 4) attaches) ++ leBytes 4 (satAdd 32 (rn old 20 4) takeovers) ++ boots ++ List.replicate 36 0
  let t := t.checkLive 5 0
  let t := if t.d.keepTwin.isSome && (rn live 0 3 ≠ t.d.cupola || rb live 5 ≠ t.d.peerDev) then t.ev R.TWIN_EVT.PEER_CHANGED else t
  t.stageAny 5 0 body

/-- An engine has passed a safe point of this run: its shot is in progress. -/
def Engine.shooting (x : Engine) : Bool := x.live && !x.snap.frames.isEmpty

/-- Voids the shots in progress on the tiles of the quadrants in a mask (R631, R633). -/
def Tx.voidQuads (t : Tx d0) (mask : Nat) : Tx d0 :=
  t.each (List.range 64) (fun e t => if mask.testBit (e / 16) && (t.d.eng e).shooting then t.voidEngine e else t)

/-- The digests of the quadrants in a mask are no longer compared until the next attach (R631). -/
def Tx.muteQuads (t : Tx d0) (mask : Nat) : Tx d0 :=
  let rest := fun (c : Nat × Nat × Nat × Nat) => !mask.testBit (c.1 / 8)
  let t := t.modTwin (fun x => { x with mute := x.mute ||| mask, own := x.own.filter rest, peer := x.peer.filter rest })
  t.each ((List.range 4).filter mask.testBit) (fun q t => t.upd (.dropDigs (8 * q) (8 * q + 8)))

/-- A member in MIRROR loses its peer (R633). -/
def Tx.lostPeer (t : Tx d0) : Tx d0 :=
  if t.f R.TWIN_STAT.STATE = 1 then
    (((t.toSolo).ev R.TWIN_EVT.ATTACH_REFUSED).w R.TWIN_STAT.WHY 7)
  else if t.f R.TWIN_STAT.STATE ≠ 2 then t
  else
    let t := ((t.w R.TWIN_STAT.STATE 3).ev R.TWIN_EVT.HB_LOST).fault 0x0502 0
    let t := t.w64 R.TWIN_HO_EPOCH_LO.EPOCH R.TWIN_HO_EPOCH_HI.EPOCH t.now.toNat
    let t := if t.f R.TWIN_STAT.ROLE = 2 then t.voidQuads (t.f R.TWIN_STAT.PEER_SEL) else t
    let t := t.modTwin (fun x => { x with own := [], peer := [], cells := [], absent := true })
    let t := t.upd (.dropDigs 0 32)
    ((t.putTwinRec 0 1).showQok).showPorts

/-! Ports -/

/-- A port leaves service (R607, R608): its bring-up phase, what its cells have told, and its lanes' locks are gone; the lanes' adapted
settings stay for a WARM start. -/
def Tx.portLeave (t : Tx d0) (p : Nat) : Tx d0 :=
  let was := t.b (R.FAB_PORT_STAT.IN_SERVICE p)
  let band := t.f R.THM_STAT.BAND
  let t := if was then (t.modPortUp p (fun x => { x with warm := some band })).each (portLanes p) (fun l t => t.modLane (4 * p + l) (fun x => { x with kept := x.set })) else t
  let t := (t.wb (R.FAB_PORT_STAT.IN_SERVICE p) false).w (R.LNK_PORT_STAT.PHASE p) 0
  let t := (t.w (R.LNK_PORT_STAT.LANES p) 0).w (R.LNK_PORT_STAT.RATE p) 0
  let t := ((t.wb (R.FAB_PORT_STAT.NBR_OK p) false).wb (R.FAB_PORT_STAT.EPOCH_OK p) false).wb (R.FAB_PORT_STAT.PLAN_OK p) false
  let t := t.upd (.stat p {})
  let t := t.each (portLanes p) (fun l t =>
    ((t.wb (R.LNK_LANE_STAT.LOCK p l) false).wb (R.LNK_LANE_STAT.PRECODE_TX p l) false).wb (R.LNK_LANE_STAT.PRECODE_RX p l) false)
  let t := if p = 8 && was then t.lostPeer else t
  t.showPorts

/-- An attempt of a bring-up starts from SEND, with nothing locked. -/
def Tx.portAttempt (t : Tx d0) (p : Nat) : Tx d0 :=
  let now := t.d.age
  let t := t.modPortUp p (fun x => { x with since := now, slow := false, doneSent := 0 })
  let t := t.each (portLanes p) (fun l t =>
    (t.modLane (4 * p + l) (fun x => { x with slow := false, good := 0, lat := (0, 0), echo := none, doneRx := false, pre := false, trains := none })).wb (R.LNK_LANE_STAT.LOCK p l) false)
  ((t.w (R.LNK_PORT_STAT.LANES p) 0).w (R.LNK_PORT_STAT.RATE p) 0).w (R.LNK_PORT_STAT.PHASE p) 1

/-- The conditions of R600 for a bring-up; LOOP_LANE, the last test of a self-test, keeps every port out of service (R694). -/
def Device.mayTrain (d : Device) (p : Nat) : Bool :=
  d.b (R.LNK_PORT_CTL.EN p) && d.b R.TB_STAT.AWAKE && !d.running && !(d.st.begun && d.st.tests == 128)

/-- A port starts a bring-up from SEND, where it may (R600, R606): each lane loads its preset (R595). SRC shows the source that takes longest. -/
def Tx.portSend (t : Tx d0) (p : Nat) : Tx d0 :=
  if t.d.mayTrain p then
    let t := t.checkLive 1 (0x10 + t.f R.THM_STAT.BAND)
    let srcs := (portLanes p).map (fun l => (t.d.lanePreset p l).2)
    let t := t.each (portLanes p) (fun l t =>
      let x := (t.d.lanePreset p l).1
      t.modLane (4 * p + l) (fun y => { y with set := x, preset := x, low := 0 }))
    let t := t.w (R.LNK_PORT_STAT.SRC p) (if srcs.contains 2 then 2 else if srcs.contains 1 then 1 else 3)
    (t.portAttempt p).doneS (R.LNK_PORT_CTL.RETRAIN p)
  else t

/-- A port leaves service for a reason that DOWN reports (R608), and starts again from SEND where it may. -/
def Tx.portDown (t : Tx d0) (p why : Nat) : Tx d0 :=
  let t := (t.portLeave p).w (R.LNK_PORT_STAT.WHY p) why
  let t := t.ev (R.LNK_PORT_EVT.DOWN p)
  let t := if (t.d.portRec p).isSome then t.ev R.FAB_EVT.PORT_DOWN else t
  t.portSend p

/-- The tick after a run: a RETRAIN that waited applies, and every port out of service starts again from SEND (R606, R611). -/
def Tx.portsAfterRun (t : Tx d0) : Tx d0 :=
  t.each (List.range 9) (fun p t =>
    let t := if t.b (R.LNK_PORT_CTL.RETRAIN p) then t.portLeave p else t
    if t.b (R.FAB_PORT_STAT.IN_SERVICE p) then t else t.portSend p)

/-! The end of the fast clocks (R671, R726) -/

/-- SLEEPING (R671): AWAKE falls first; ports leave service, and every FAST domain and the core PLL stop. A rate clamp whose run has not ended by itself
has nothing more to wait for (R446). -/
def Tx.gate (t : Tx d0) : Tx d0 :=
  let t := (t.dropSteps t.d.stepOn).wb R.TB_STAT.AWAKE false
  let t := t.wb R.TB_STAT.LOCKED false
  let t := t.each (List.range 9) (fun p t => t.portLeave p)
  let t := t.modPower (fun x => { x with wakeEdges := 0, clocks := 0, idle := 0 })
  let t := (t.wb R.SCRUB_STAT.RUNNING false).each (List.range 4) (fun q t => t.wb (R.MON_STAT.RUNNING q) false)
  let t := if t.d.thermal.rateT0.isSome then (t.modThermal (fun x => { x with rateT0 := none })).watchClamp 8 else t
  (t.w R.PWR_STAT.STATE 0).showQok

/-- A wake under way is abandoned (R678): its request stands. -/
def Tx.abandonWake (t : Tx d0) : Tx d0 :=
  if t.f R.PWR_STAT.STATE = 1 then
    let t := ((t.wb R.TB_STAT.LOCKED false).w R.PWR_STAT.STATE 0).ev R.PWR_EVT.WAKE_ABORT
    t.modPower (fun x => { x with wakeEdges := 0, clocks := 0, wakeReq := true })
  else t

/-- The fast clocks stop at once, whatever they were doing. -/
def Tx.stopClocks (t : Tx d0) : Tx d0 := if t.b R.TB_STAT.AWAKE then t.gate else t.abandonWake

/-! Foreground calibrations (R418, R419) -/

/-- The steps of a request begin, on every powered path; FULL asks for every class. -/
def Tx.calBegin (t : Tx d0) (m : Nat) : Tx d0 :=
  let t := t.modCalib (fun c => { c with wait := false })
  (t.each [3, 4, 5, 6] (fun cls t =>
    if m.testBit cls || m.testBit 7 then
      t.each (List.range (calPathsOf cls)) (fun p t =>
        if t.d.pathOn cls p then t.modCalPath (calKey cls p) (fun x => { x with fg := true, step := 0, rej := 0 }) else t)
    else t)).showCal

/-- A request starts at once, with a wake where the fast clocks are stopped. -/
def Tx.calStart (t : Tx d0) (m : Nat) : Tx d0 :=
  let t := if t.b R.CAL_STAT.FG_BUSY then t else ((t.w R.CAL_REQ_STAT.DONE 0).w R.CAL_REQ_STAT.REJECTED 0).modCalib (fun c => { c with done := 0 })
  let t := ((t.w R.CAL_REQ_STAT.RESULT 1).wb R.CAL_STAT.FG_BUSY true).modCalib (fun c => { c with req := c.req ||| m, wait := true })
  if t.b R.TB_STAT.AWAKE then t.calBegin t.d.calib.req else t.wakeUp

/-- Classes deferred during a run, or while one was about to start, start once it is over (R419). -/
def Tx.calDeferred (t : Tx d0) : Tx d0 :=
  let m := t.f R.CAL_REQ_STAT.PENDING
  if m = 0 || t.running || t.b R.GLB_RUN_STAT.PENDING || t.d.endTick then t else (t.w R.CAL_REQ_STAT.PENDING 0).calStart m

/-! Band changes (R442, R416) -/

/-- The start of a calibration gap of any engine falls on this tick, or no run is in progress and none has ended on it (R201, R442). -/
def Device.gapStart (d : Device) : Bool :=
  !d.running && !d.endTick || (List.range 64).any (fun e => (d.gapsNow e).any (fun g => rn g.1 8 4 == g.2))

/-- A pending change takes effect where it may; the new band's set is the Keep's record where it is valid, else the current one (R416).
Before the first wake has loaded a set there is none to change; that wake loads the present band's (R422). -/
def Tx.bandChange (t : Tx d0) : Tx d0 :=
  if t.b R.THM_STAT.BAND_PEND && t.d.gapStart then
    let band := t.f R.THM_STAT.NEXT_BAND
    let t := ((t.w R.THM_STAT.BAND band).wb R.THM_STAT.BAND_PEND false).ev R.THM_EVT.BAND_CHG
    let t := t.modThermal (fun x => { x with home := 0 })
    let t := t.w R.CAL_STAT.BAND band
    let t := if t.d.calib.body.isEmpty then t
      else match t.d.keepCal band with
        | some r => (t.checkLive 1 band).loadCal r.body
        | none => (t.checkLive 1 band).dropEstimates
    t.calPendAll
  else t

end Sys2Proof.Machine
end

