-- ==== Sys2Proof/Machine/TestOps.lean ====
section
/-! DEFINITION. Self-test as other chapters use it (chapter 22): the programs and units (R680, R681), what a test leaves in the memories (R683, R691), a test's start with its refusals (R689, R695), and its abort (R692). -/
namespace Sys2Proof.Machine

variable {d0 : Device}

/-! Programs (R681) -/

/-- The elements of a program: whether it visits the lines in ascending order, and its operations at each line, a write or a read, of D or of its
inverse. -/
def testProgram (algo : Nat) : List (Bool × List (Bool × Bool)) :=
  let r := fun (inv : Bool) => (false, inv)
  let w := fun (inv : Bool) => (true, inv)
  if algo = 0 then
    [(true, [w false]), (true, [r false, w true]), (true, [r true, w false]), (false, [r false, w true]), (false, [r true, w false]), (true, [r false])]
  else [(true, [w false]), (true, [r false]), (true, [w true]), (true, [r true])]

/-- What the first `n` elements of a program leave: whether their last write was of the inverse. -/
def testLeft (algo n : Nat) : Bool :=
  (((((testProgram algo).take n).flatMap Prod.snd).filter Prod.fst).getLast?.map Prod.snd).getD false

/-- The last element of a program: it reads what all of them leave. -/
def lastElement (algo : Nat) : Nat := (testProgram algo).length - 1

/-! Units under test, and what the writes of a test leave there (R680, R683, R691) -/

/-- Tiles whose power domain is on. -/
def Device.tilesOn (d : Device) : List Nat := (List.range 32).filter d.tileOn

/-- The SRAM class that a test covers. -/
def testClass (k : Nat) : Nat := [0, 1, 2, 4, 3].getD k 0

/-- The units a memory test covers: number, first line and lines, of the SRAM space or of CXL memory. -/
def Device.testUnits (d : Device) (k : Nat) : List (Nat × Nat × Nat) :=
  match k with
  | 1 => (d.tilesOn.flatMap (fun tl => [2 * tl, 2 * tl + 1])).map (fun e => (e, classBase 1 e, 4096))
  | 4 => if d.domOn 5 then [(0, classBase 3 0, 40960)] else []
  | 5 => [(0, d.st.win.1 / 64, d.st.win.2 / 64)]
  | _ => if k < 4 then d.tilesOn.map (fun tl => (tl, classBase (testClass k) tl, classLines (testClass k))) else []

/-- Lines `l` to `l + n` of a unit under test whose first line is `base` hold what whole-line writes of D, or of its inverse, leave: new check bits and
no tag. A write-back that was due there is dropped. -/
def Tx.testWrites (t : Tx d0) (k base l n : Nat) (inv : Bool) : Tx d0 :=
  let x := Holds.test t.d.st.data t.d.st.bg (64 * base) inv
  if k = 5 then t.upd (.cxlFill ⟨64 * l, 64 * (l + n), x⟩)
  else (t.upd (.fillLines l (l + n) x)).upd (.wback (t.d.wback.filter (fun y => decide (y < l) || decide (l + n ≤ y))))

/-- A memory test begins: its units hold what the program leaves in them (R681, R691). -/
def Tx.testFill (t : Tx d0) (k : Nat) : Tx d0 :=
  let inv := testLeft t.d.st.algo (lastElement t.d.st.algo + 1)
  t.each (t.d.testUnits k) (fun u t => t.testWrites k u.2.1 u.2.1 u.2.2 inv)

/-- A test has ended at line position `p` of element `e` (R685): the lines visited before hold what the elements up to `e` leave, the others what
those before `e` leave. -/
def Tx.testStopped (t : Tx d0) (k e p : Nat) : Tx d0 :=
  let algo := t.d.st.algo
  let up := ((testProgram algo).getD e (true, [])).1
  t.each (t.d.testUnits k) (fun u t =>
    let (base, n) := u.2
    let a := if up then p else n - p
    (t.testWrites k base base a (testLeft algo (if up then e + 1 else e))).testWrites k base (base + a) (n - a) (testLeft algo (if up then e else e + 1)))

/-- After an abort, which part of a unit was reached is open. -/
def Tx.leftIn (t : Tx d0) (line lines : Nat) (whole : Bool) : Tx d0 := if whole then t else t.openFill line lines

/-- Lines that were resident are read again from the committed image. -/
def Tx.refill (t : Tx d0) (wave : Bool) (e : Nat) : Tx d0 :=
  match t.d.img.act with
  | none => t
  | some im =>
    let bank := if wave then t.d.resW else t.d.resS
    t.each (bank.filter (fun x => x.1 / 2 ^ 24 == e)) (fun x t =>
      let n := x.1 % 2 ^ 24
      let (l, from', k) := if wave then (classBase 0 (e / 2) + (x.2 - 1), im.base + im.waveOff + 64 * n, 1)
        else (classBase 1 e + 4 * (x.2 - 1), im.base + im.schedOff + 256 * n, 4)
      ((t.upd (.lines l (t.d.cxlBytes from' (64 * k)))).poisonLines
        (((List.range k).filter (fun i => t.d.cxlPoison (from' + 64 * i))).map (fun i => l + i))).keepCheck e wave (if wave then n / 4 else n))

/-- Restoration after a test; `whole`: it was not aborted. The end of LOOP_CONV is noted for the background estimates (R688). -/
def Tx.stRestore (t : Tx d0) (test : Nat) (whole : Bool) : Tx d0 :=
  match test with
  | 0 => t.each t.d.tilesOn (fun tl t => ((t.leftIn (classBase 0 tl) 24576 whole).refill true (2 * tl)).refill true (2 * tl + 1))
  | 1 => t.each (t.d.tilesOn.flatMap (fun tl => [2 * tl, 2 * tl + 1])) (fun e t => (t.leftIn (classBase 1 e) 4096 whole).refill false e)
  | 2 => t.each t.d.tilesOn (fun tl t => t.losePower (classBase 2 tl) (classBase 2 tl + 16384))
  | 3 => t.each t.d.tilesOn (fun tl t => t.losePower (classBase 4 tl) (classBase 4 tl + 256))
  | 4 =>
    if !t.d.domOn 5 then t
    else match t.d.img.act with
      | some im => (t.loadForks).loadTables im
      | none => t.losePower (classBase 3 0) (classBase 3 0 + 40960)
  | 5 =>
    let (b, n) := t.d.st.win
    if whole then t else (t.upd (.cxlFill ⟨b, b + n, .free t.d.freeN⟩)).upd .free
  | 6 => t.modCalib (fun c => { c with loopEnd := t.d.power.awakeTicks })
  | 7 => t.each (List.range 9) (fun p t => t.portSend p)
  | _ => t

/-- The lowest test of a mask. -/
def firstTest (m : Nat) : Option Nat := (List.range 8).find? m.testBit

/-- LOADs and ring enables held through the CXL test take effect (R690). -/
def Tx.stRelease (t : Tx d0) : Tx d0 :=
  let held := t.d.st.held
  let t := t.modSt (fun x => { x with held := [] })
  t.each held (fun k t => if k = 0 then t.imgLoad else t.ringEnable (k - 1) true)

/-- A shot record of a tile waits to drain (R295, R301). -/
def Device.waitsDrain (d : Device) (tl : Nat) : Bool := (d.tile tl).shots.any (fun s => !s.freed) || (d.tile tl).resv.isSome

/-- A stream slot is active. -/
def Device.streaming (d : Device) : Bool := (List.range 4).any (fun s => d.b (R.ACQ_STRM_STAT.ACTIVE s))

/-- The conditions of R670, but for SLEEP_DELAY. -/
def Device.mayRest (d : Device) : Bool :=
  !d.running && !d.b R.GLB_RUN_STAT.PENDING && !d.b R.CAL_STAT.FG_BUSY && !d.b R.CAL_STAT.INITIAL && !d.b R.GLB_ST_STAT.BUSY &&
  !(d.tiles.any (fun x => d.waitsDrain x.1)) && !d.streaming && !((List.range 160).any (fun c => d.b (R.NCO_OUT_CFG.SETTLING c)))

/-! Start (R686 to R689, R695) -/

/-- The CXL test window: base and length in bytes. -/
def Device.stWindow (d : Device) : Nat × Nat :=
  (d.f R.GLB_ST_CXL_BASE_LO.ADDR * 4096 + d.f R.GLB_ST_CXL_BASE_HI.ADDR * 2 ^ 32, d.f R.GLB_ST_CXL_LEN.LEN * 4096)

/-- REASON of a refusal; 0 for none. -/
def Device.stRefuse (d : Device) (m : Nat) : Nat :=
  let w := d.stWindow
  if m.testBit 5 && d.b R.ECC_CXL_STAT.PRESENT && (w.2 = 0 || d.capacity < w.1 + w.2 || d.imageRegions.any (overlaps w) || (d.ringRegions 99).any (overlaps w)) then 1
  else if (m.testBit 2 || m.testBit 3) && ((List.range 32).any d.waitsDrain || d.streaming) then 2
  else if m.testBit 5 && !d.b R.ECC_CXL_STAT.PRESENT then 3
  else 0

/-- LOOP_LANE begins (R694): every port leaves service with no DOWN report, and every lane starts FACTORY equalisation on its own transmitter. -/
def Tx.laneLoop (t : Tx d0) : Tx d0 :=
  let t := t.each (List.range 9) (fun p t => t.portLeave p)
  t.each (List.range 20) (fun i t =>
    let (p, l) := blockLane i
    t.modLane (4 * p + l) (fun x => { x with set := t.d.factoryLane i }))

/-- The test in front begins. With no test left, the self-test is over. -/
def Tx.stNext (t : Tx d0) : Tx d0 :=
  match firstTest t.d.st.tests with
  | none =>
    let t := (t.wb R.GLB_ST_STAT.BUSY false).w R.GLB_ST_STAT.RESULT (if t.f R.GLB_ST_STAT.FAILED = 0 then 1 else 2)
    t.modSt (fun x => { later := x.later, held := x.held })
  | some 7 => t.laneLoop
  | some k => t.testFill k

/-- The tests of a request start on this tick. -/
def Tx.stBegin (t : Tx d0) : Tx d0 :=
  let why := t.d.stRefuse t.d.st.tests
  if why ≠ 0 then
    let t := (((t.wb R.GLB_ST_STAT.BUSY false).w R.GLB_ST_STAT.RESULT 4).w R.GLB_ST_STAT.REASON why)
    t.modSt (fun x => { later := x.later })
  else
    let t := ((((t.wb R.GLB_ST_STAT.BUSY true).w R.GLB_ST_STAT.RESULT 0).w R.GLB_ST_STAT.REASON 0).w R.GLB_ST_STAT.DONE 0).w R.GLB_ST_STAT.FAILED 0
    let t := ((((((t.w R.GLB_ST_FAIL.TEST 0).w R.GLB_ST_FAIL.ELEM 0).w R.GLB_ST_FAIL.OP 0).w R.GLB_ST_FAIL.WORD 0).w R.GLB_ST_FAIL.BIT 0).w
      R.GLB_ST_FAIL.NBITS 0).w R.GLB_ST_FAIL.KIND 0
    let t := ((t.w64 R.GLB_ST_FAIL_ADDR_LO.ADDR R.GLB_ST_FAIL_ADDR_HI.ADDR 0).w R.GLB_ST_TMAP.MAP 0).w64 R.GLB_ST_EMAP_LO.MAP R.GLB_ST_EMAP_HI.MAP 0
    let t := ((t.w R.GLB_ST_CONV.MAP 0).w R.GLB_ST_LANE.MAP 0).w R.GLB_ST_FAILCNT.MAP 0
    (t.modSt (fun x => { x with begun := true, wait := false, bg := t.d.f64 R.GLB_ST_BG_LO.BG R.GLB_ST_BG_HI.BG, win := t.d.stWindow })).stNext

/-- A request starts: at once where the fast clocks are awake, else with a wake (R666, R686). -/
def Tx.stStart (t : Tx d0) (m algo data : Nat) (stop : Bool) : Tx d0 :=
  let t := t.modSt (fun x => { tests := m, algo := algo, data := data, stop := stop, wait := true, later := x.later })
  let t := (t.wb R.GLB_ST_STAT.BUSY true).w R.GLB_ST_STAT.DONE 0
  if t.b R.TB_STAT.AWAKE then t.stBegin else t.wakeUp

/-- A request that waited starts, where what held it is over; a deferred calibration goes first (R687). -/
def Tx.stDeferred (t : Tx d0) : Tx d0 :=
  match t.d.st.later with
  | none => t
  | some (m, algo, data, stop) =>
    if t.running || t.b R.GLB_RUN_STAT.PENDING || t.b R.CAL_STAT.FG_BUSY || t.b R.CAL_STAT.INITIAL || t.f R.CAL_REQ_STAT.PENDING ≠ 0 ||
      t.b R.GLB_ST_STAT.BUSY || t.d.endTick then t
    else ((t.modSt (fun x => { x with later := none })).wb R.GLB_ST_STAT.DEFERRED false).stStart m algo data stop

/-! Abort (R692) -/

/-- A test under way stops at once; what can be restored is restored. -/
def Tx.stAbort (t : Tx d0) : Tx d0 :=
  if t.d.st.begun then
    let front := firstTest t.d.st.tests
    let t := t.modSt (fun x => { x with begun := false })
    let t := match front with
      | some k => t.stRestore k false
      | none => t
    let t := (t.modSt (fun x => { later := x.later, held := x.held })).stRelease
    (t.wb R.GLB_ST_STAT.BUSY false).w R.GLB_ST_STAT.RESULT 3
  else t

/-- A rate clamp with no run in progress: a foreground calibration ends, the fast clocks stop, and every output is clamped (R446). A self-test, which
needs those clocks, stops too (DEDUCED, log 187). -/
def Tx.rateClampIdle (t : Tx d0) : Tx d0 := (((t.fgAbort).stAbort).stopClocks).watchClamp 8

end Sys2Proof.Machine
end

