-- ==== Sys2Proof/Machine/Mirror.lean ====
section
/-! DEFINITION. Twin pairing as the tick and the register writes use it (chapter 19): writes of TWIN_CTL, mirror cells received, and host requests
in mirror mode. -/
namespace Sys2Proof.Machine

variable {d0 : Device}

/-! TWIN_CTL (R619, R620, R636) -/

/-- A write of TWIN_CTL (R619, R620, R636). Outside SOLO, CLAIM is held, and reads as it was written; a write of DETACH, whose CLAIM R620 gives, holds none
(DESIGN CHOICE, log 133). -/
def Tx.twinCtl (t : Tx d0) (data : Nat) : Tx d0 :=
  let t := t.wb R.TWIN_CTL.ON_MISMATCH (data.testBit 29)
  let t := if t.f R.TWIN_STAT.STATE = 0 then (t.w R.TWIN_CTL.CLAIM (data % 16)).drive (data % 16)
    else if data.testBit 30 then t
    else (t.w R.TWIN_CTL.CLAIM (data % 16)).modTwin (fun x => { x with claim := some (data % 16) })
  let t := if data.testBit 30 then t.setS R.TWIN_CTL.DETACH else t
  let t := if data.testBit 31 then t.setS R.TWIN_CTL.ATTACH else t
  t.twinAsked

/-! Mirror cells received (R622 to R624) -/

/-- A copy of a MIRROR cell is good in itself. -/
def Device.mirrorGood (d : Device) (l S bits : Nat) : Bool :=
  let kinds := [bitsOf bits 191 189, bitsOf bits 133 131, bitsOf bits 75 73]
  cellGood bits && bits / 2 ^ 220 == 5 && (l == 1 || l == 3) && 14 ≤ posAt S && bitsOf bits 219 216 == posAt S && bitsOf bits 207 200 == cycAt S % 256 &&
    bitsOf bits 215 210 == d.peerDev % 64 && kinds.all (fun k => decide (k < 5))

/-- A copy of a MIRROR cell arrives on a lane of the twin link (R322, R624); of two good ones that differ lane 1's is taken (R350). -/
def Tx.mirrorIn (t : Tx d0) (l bits : Nat) : Tx d0 :=
  let S := t.d.startTick 8 l
  let now := t.now.toNat
  let ok := t.d.mirrorGood l S bits
  let t := if cellGood bits && bits / 2 ^ 220 = 5 && (bitsOf bits 219 216 ≠ posAt S || bitsOf bits 207 200 ≠ cycAt S % 256) then t.ev R.FAB_EVT.CYC_ERR else t
  if ok && S + 160 < now then ((t.inc (R.FAB_PORT_LOST.LATE_COPY 8)).ev R.FAB_EVT.LATE_COPY).badCopy 8 l
  else if !ok then t.badCopy 8 l
  else
    let age := t.d.age
    let t := t.modTwin (fun x => { x with last := age })
    match t.d.twin.cells.find? (fun c => c.1 == S) with
    | none => t.modTwin (fun x => { x with cells := x.cells ++ [(S, bits)] })
    | some (_, b) =>
      if b = bits then t
      else
        let t := t.badCopy 8 3
        if l = 1 then t.modTwin (fun x => { x with cells := x.cells.map (fun c => if c.1 = S then (S, bits) else c) }) else t

/-- An apply tick from its low word: the first such tick from now on. -/
def fullTick (now w : Nat) : Nat := now + (w + 2 ^ 32 - now % 2 ^ 32) % 2 ^ 32

/-- One entry of a MIRROR cell takes effect (R619, R625, R628). -/
def Tx.mirrorEntry (t : Tx d0) (e : Nat) : Tx d0 :=
  let now := t.now.toNat
  let age := t.d.age
  let state := t.f R.TWIN_STAT.STATE
  match e / 2 ^ 55 with
  | 1 =>
    let tl := bitsOf e 54 50
    let s := bitsOf e 49 32
    if state ≠ 2 || t.d.twin.mute.testBit (tl / 8) then t
    else (t.modTwin (fun x => { x with peer := x.peer ++ [(tl, s, e % 2 ^ 32, age)] })).matchDigest tl s
  | 2 | 3 =>
    if state = 2 && t.f R.TWIN_STAT.ROLE = 2 then t.modTwin (fun x => { x with reqs := x.reqs ++ [(fullTick now (e % 2 ^ 32), e)] }) else t
  | 4 =>
    if state = 1 then t.modTwin (fun x => { x with pieces := x.pieces.set (bitsOf e 54 53) (some (bitsOf e 47 32)) }) else t
  | _ => t

/-- The entries of a MIRROR cell (R622). -/
def mirrorEntries (bits : Nat) : List Nat := [bitsOf bits 191 134, bitsOf bits 133 76, bitsOf bits 75 18]

/-- A MIRROR cell takes effect, on tick S + 180 (R624): the peer's lines and QOK, the role of a peer that attaches, as its IMAGE entries show (R617, R619),
a quadrant that the LEAD hands over (R631), and the entries. -/
def Tx.mirrorAct (t : Tx d0) (bits : Nat) : Tx d0 :=
  let now := t.d.age
  let own := bitsOf bits 199 196
  let fell := t.f R.TWIN_STAT.PEER_SEL &&& (15 - own)
  let state := t.f R.TWIN_STAT.STATE
  let t := (t.w R.TWIN_STAT.PEER_SEL own).w R.TWIN_STAT.PEER_QOK (bitsOf bits 195 192)
  let t :=
    if state = 1 then
      let t := if (mirrorEntries bits).any (fun e => e / 2 ^ 55 == 4) then t.seeRole (bitsOf bits 209 208) else t
      if t.f R.TWIN_STAT.ROLE = 2 && own = 15 && t.d.twin.leadHigh.isNone then t.modTwin (fun x => { x with leadHigh := some now }) else t
    else if state = 2 && t.f R.TWIN_STAT.ROLE = 2 && fell ≠ 0 then (t.muteQuads fell).voidQuads fell
    else t
  t.each (mirrorEntries bits) (fun e t => t.mirrorEntry e)

/-- The MIRROR cells whose tick S + 180 has come take effect. -/
def Tx.mirrorDue (t : Tx d0) : Tx d0 :=
  let now := t.now.toNat
  let due := t.d.twin.cells.filter (fun c => c.1 + 180 ≤ now)
  if due.isEmpty then t
  else (t.modTwin (fun x => { x with cells := x.cells.filter (fun c => now < c.1 + 180) })).each due (fun c t => t.mirrorAct c.2)

/-! Host requests in mirror mode (R625) -/

/-- A host request of the LEAD is to be applied at a + 384, and is sent to the FOLLOW as entries of kind JUMP or TRIG; `g` is applied at once outside
MIRROR. -/
def Tx.mirrored (t : Tx d0) (entries : List Nat) (g : Tx d0 → Tx d0) : Tx d0 :=
  if t.f R.TWIN_STAT.STATE ≠ 2 then g t
  else if t.f R.TWIN_STAT.ROLE = 2 then t.ev R.TWIN_EVT.FOLLOW_WRITE
  else
    let w := t.now.toNat + 384
    t.each entries (fun e t =>
      let e := e + w % 2 ^ 32
      let t := t.modTwin (fun x => { x with reqs := x.reqs ++ [(w, e)] })
      if e < 2 ^ 58 then t.mirrorSend e else t)

/-- A host write of SCH_JUMP_REQ. A write with neither REQ nor CANCEL has no entry: it waits on the LEAD alone, marked by bit 58. -/
def Tx.hostJump (t : Tx d0) (e data : Nat) : Tx d0 :=
  let base := e * 2 ^ 49 + data % 16 * 2 ^ 45 + (if data.testBit 30 then 2 ^ 44 else 0)
  let es := (if data.testBit 29 then [2 * 2 ^ 55 + base + 2 ^ 43] else []) ++ (if data.testBit 31 then [2 * 2 ^ 55 + base] else [])
  t.mirrored (if es.isEmpty then [2 ^ 58 + base] else es) (fun t => t.jumpWrite e data)

/-- A host write of ACQ_SWTRIG. -/
def Tx.hostTrig (t : Tx d0) (mask : Nat) : Tx d0 := t.mirrored [3 * 2 ^ 55 + mask % 256 * 2 ^ 47] (fun t => t.swtrig mask)

/-- A jump whose tick lies outside the run is cancelled (R636). -/
def Tx.jumpLate (t : Tx d0) (e : Nat) : Tx d0 := (t.jumpDropped e).w (R.SCH_JUMP_STATUS.RESULT e) 2

/-- The request of a mirrored jump was made in a run that has ended since, within 384 ticks of its end (R636). -/
def Device.jumpOutlived (d : Device) : Bool := !d.running && decide (d.now.toNat < d.run.ended.toNat + 384)

/-- A mirrored request is applied (R625): a jump asked for with no run is pending from now on (R179); one whose run is over is cancelled (R636). -/
def Tx.mirrorApply (t : Tx d0) (e : Nat) : Tx d0 :=
  let eng := bitsOf e 54 49
  let data := bitsOf e 48 45 + (if e.testBit 44 then 2 ^ 30 else 0)
  if e / 2 ^ 55 = 3 then t.swtrig (bitsOf e 54 47)
  else if 2 ^ 58 ≤ e then t.jumpWrite eng data
  else if e.testBit 43 then t.jumpWrite eng (data + 2 ^ 29)
  else if !t.d.jumpOutlived then t.jumpWrite eng (data + 2 ^ 31)
  else
    let t := t.jumpLate eng
    if e.testBit 44 then t.jumpLate (eng / 2 * 2 + (1 - eng % 2)) else t

/-- The requests whose tick w this is are applied, in the order in which they were made. -/
def Tx.mirrorReqs (t : Tx d0) : Tx d0 :=
  let now := t.now.toNat
  let due := t.d.twin.reqs.filter (fun r => r.1 == now)
  (t.modTwin (fun x => { x with reqs := x.reqs.filter (fun r => r.1 != now) })).each due (fun r t => t.mirrorApply r.2)

end Sys2Proof.Machine
end

