-- ==== Sys2Proof/Machine/Tick.lean ====
section
/-! DEFINITION. What a tick does whatever is commanded: the tick that ends is closed (markers, saturation counts, digests, symbols on the lanes), the
fine epoch advances, and the new tick begins (windows, record writes, captures, the issue unit, and the cells of fixed positions). -/
namespace Sys2Proof.Machine

variable {d0 : Device}

/-! The tick that ends -/

/-- The TRAIN cell of a lane that starts on tick `S` (R599). -/
def Device.trainCell (d : Device) (p l S : Nat) : Nat :=
  let x := d.lane (4 * p + l)
  let mask := (portLanes p).foldl (fun v i => v + (if d.b (R.LNK_LANE_STAT.LOCK p i) then 2 ^ i else 0)) 0
  let phase := d.f (R.LNK_PORT_STAT.PHASE p)
  let (echo, rxe) := match x.echo with
    | some (a, b) => if phase < 3 then (0, 0) else (a, b)
    | none => (0, 0)
  sealCell (0xF * 2 ^ 220 + phase * 2 ^ 216 + l * 2 ^ 214 + (if p = 8 then 2 ^ 213 else 0) + x.set.precode.toNat * 2 ^ 212 + mask * 2 ^ 208 +
    (if x.slow then 2 else 3) * 2 ^ 204 + 2 ^ 200 + 0x4416 * 2 ^ 184 + S % 2 ^ 40 * 2 ^ 144 + echo % 2 ^ 40 * 2 ^ 104 + rxe % 2 ^ 40 * 2 ^ 64 +
    (if phase = 6 then x.scr % 2 ^ 31 * 2 ^ 33 else 0))

/-- TRAIN cells sent in unbroken succession, with the one that starts on tick `S` (R602). -/
def Lane.trained (x : Lane) (S : Nat) : Option (Nat × Nat) :=
  match x.trains with
  | some (a, b) => if b + (if x.slow then 8 else 4) = S then some (a, S) else some (S, S)
  | none => some (S, S)

/-- A lane sends the symbols of the cell that started on the tick that ends: what was sent on it, or an IDLE cell, whose contents are open
(R312, R586 to R590). A port under bring-up sends TRAIN cells, unscrambled; their filler is open. -/
def Tx.laneSymbols (t : Tx d0) (p l S : Nat) : Tx d0 :=
  let n := 4 * p + l
  let x := t.d.lane n
  let ph := t.f (R.LNK_PORT_STAT.PHASE p)
  if t.b (R.FAB_PORT_STAT.IN_SERVICE p) then
    let (bits, t) := match x.sent with
      | some b => (b, t)
      | none => let (v, t) := t.open; (v % 2 ^ 220, t)
    let (syms, scr, prev) := codeCell x.scr x.prev (t.b (R.LNK_LANE_STAT.PRECODE_TX p l)) bits
    (t.upd (.lane n { x with scr := scr, prev := prev, sent := none })).send (.symbols p l (syms.map pamLevel))
  else if 1 ≤ ph && ph ≤ 6 && !t.running && (!x.slow || S % 8 = 0) then
    let (v, t) := t.open
    let t := if ph = 6 then t.modPortUp p (fun y => { y with doneSent := y.doneSent + 1 }) else t
    let cell := sealCell (t.d.trainCell p l S + v % 2 ^ 17 * 2 ^ 16)
    (t.upd (.lane n { x with trains := x.trained S })).send (.symbols p l ((cellPairs cell).map (fun b => pamLevel (graySym b))))
  else t

/-- A receiver that has been told the peer's seed passes a cell every four ticks from the peer's last TRAIN cell on: its descrambler goes a cell further, and
it keeps the last symbol of the cell, which of an IDLE cell is open (R588, R589). -/
def Tx.laneHears (t : Tx d0) (p l : Nat) : Tx d0 :=
  let n := 4 * p + l
  let x := t.d.lane n
  if t.b (R.LNK_LANE_STAT.LOCK p l) && x.doneRx && decide (x.rxFrom < t.d.age) && (t.d.age - x.rxFrom) % 4 == 0 then
    let (last, t) := match x.rxHeard with
      | some s => (s, t)
      | none => if x.set.precode then (let (v, t) := t.open; (v % 4, t)) else (0, t)
    t.modLane n (fun x => { x with rxScr := scrCell x.rxScr, rxPrev := last, rxHeard := none })
  else t

/-- The changes that fall on the tick that ends are made, and a delayed one is reported (R381). -/
def Tx.markEnd (t : Tx d0) (tl : Nat) : Tx d0 :=
  let m := t.d.marker tl
  let t := if m.late && m.tick = t.d.age then t.ev (R.FLX_EVT.MARK_STRETCH tl) else t
  t.markTo tl (8 * t.d.age + 7)

/-- Settings held for a run that is over take effect by the end of the tick after it, commanded or not (R393). -/
def Tx.applyHeld (t : Tx d0) : Tx d0 := t.each (t.d.outCfgs.map Prod.fst) (fun c t => if (t.d.outCfg c).ripe then t.outApply c else t)

/-! Cells of fixed positions (R328, R331, R332, R622) -/

/-- Send a cell on a lane. -/
def Tx.sendOnLane (t : Tx d0) (p l bits : Nat) : Tx d0 := (t.modLane (4 * p + l) (fun x => { x with sent := some bits })).send (.cell p l bits)

/-- The STATUS cell of this device that starts on tick `S` on a port (R328, R330, R344). -/
def Device.statusCell (d : Device) (p S : Nat) : Nat :=
  let up := d.tree.above 8 d.tree.self
  let c := cycAt S
  let g := if up.isEmpty then 0xFFFFFF else up.getD (c % up.length) 0
  let (gs, formed) := if up.isEmpty then (0, none) else d.unitView (d.tellable p) 9 g
  let age := match formed with | some f => min 0xFFFF (d.age - f) | none => 0
  let plan := (d.img.act.map Image.plan).getD 0
  sealCell (2 * 2 ^ 220 + 14 * 2 ^ 216 + d.dev % 64 * 2 ^ 210 + S % 2 ^ 64 * 2 ^ 144 + (d.unitView (fun _ => []) 9 d.tree.self).1 * 2 ^ 112 +
    g * 2 ^ 88 + gs * 2 ^ 56 + age * 2 ^ 40 + c % 8 * 2 ^ 37 + plan / 2 ^ (8 * (c % 8)) % 256 * 2 ^ 29 + 8 * 2 ^ 16)

/-- The VOTE cell of this device that starts on tick `S` (R331, R332, R334). A device with no engine left sends READY 1 for the latest candidate its
neighbours name, unless an engine with a stream stands in FAULT, which votes not ready (R191, R192; log 135), and passes on the VOID of the latest
attempt that they tell of (R334; DEDUCED, log 238). -/
def Device.voteCell (d : Device) (S : Nat) : Nat :=
  let live := d.streams64.filter (fun e => (d.eng e).live)
  let at' := live.find? (fun e => (d.eng e).safe.any (fun s => s.dom == 2 && s.cand.toNat ≤ S + 1024))
  let heard : List VoteIn := (List.range 9).filterMap (fun p => bget (fun _ => none) d.votes p)
  let (cand, ready) := match at' with
    | some e => match (d.eng e).safe with
      | some s => (s.cand.toNat, d.readyOut e 2 s.cand)
      | none => (0, false)
    | none =>
      if live.isEmpty then
        let c := heard.foldl (fun m (v : VoteIn) => max m v.cand) 0
        (c, !(d.streams64.any (fun e => !(d.eng e).ended && d.f (R.SCH_STAT.STATE e) == 3)))
      else (0, false)
  let mine := live.find? (fun e => (d.eng e).snap.dom == 2 && ((d.eng e).notice || (d.eng e).safe.any SafePoint.rep))
  let told := (heard.filter VoteIn.void).map VoteIn.vbase
  let vb := match mine, live.find? (fun e => (d.eng e).snap.dom == 2) with
    | some e, _ => some (d.eng e).snap.b0.toNat
    | none, some e => told.find? (fun b => b == (d.eng e).snap.b0.toNat)
    | none, none => told.max?
  let (pc, pp) := d.voted.getD (0, false)
  sealCell (3 * 2 ^ 220 + 15 * 2 ^ 216 + d.dev % 64 * 2 ^ 210 + cand % 2 ^ 64 * 2 ^ 144 + ready.toNat * 2 ^ 143 + vb.isSome.toNat * 2 ^ 142 +
    pp.toNat * 2 ^ 141 + vb.getD 0 % 2 ^ 64 * 2 ^ 64 + pc % 2 ^ 16 * 2 ^ 48)

/-- The IMAGE entry of a piece of the committed image's number (R623). -/
def Device.imageEntry (d : Device) (i : Nat) : Nat :=
  4 * 2 ^ 55 + i % 4 * 2 ^ 53 + (d.img.act.map Image.id).getD 0 / 2 ^ (16 * (i % 4)) % 2 ^ 16 * 2 ^ 32

/-- The MIRROR cell that starts on tick `S` goes on lanes 1 and 3 of the twin link (R622, R624). -/
def Tx.mirrorCellOut (t : Tx d0) (S : Nat) : Tx d0 :=
  let q := t.d.twin.sendQ
  let n := q.length
  let ent := fun (i : Nat) =>
    if i < n then q.getD i 0 else if t.f R.TWIN_STAT.STATE = 1 then t.d.imageEntry (3 * (S / 4) + i) else 0
  let cell := sealCell (5 * 2 ^ 220 + posAt S * 2 ^ 216 + t.d.dev % 64 * 2 ^ 210 + t.f R.TWIN_STAT.ROLE * 2 ^ 208 + cycAt S % 256 * 2 ^ 200 +
    t.f R.TWIN_STAT.SEL * 2 ^ 196 + t.f R.TWIN_STAT.QOK * 2 ^ 192 + ent 0 * 2 ^ 134 + ent 1 * 2 ^ 76 + ent 2 * 2 ^ 18)
  ((t.modTwin (fun x => { x with sendQ := x.sendQ.drop 3 })).sendOnLane 8 1 cell).sendOnLane 8 3 cell

/-- The cells of positions 14 and 15 that start on this tick, on every port in service; they carry what the block holds at the tick's end (DESIGN
CHOICE, log 197). -/
def Tx.fixedCells (t : Tx d0) : Tx d0 :=
  let S := t.now.toNat
  if S % 4 ≠ 0 || posAt S < 14 then t
  else
    let ps := (List.range 9).filter (fun p => t.b (R.FAB_PORT_STAT.IN_SERVICE p) && (!t.running || (t.d.portRec p).isSome))
    if ps.isEmpty then t
    else
      let t := t.each ps (fun p t =>
        let cell := if posAt S = 14 then t.d.statusCell p S else t.d.voteCell S
        t.each (if p = 8 then [0, 2] else [0, 1]) (fun l t => t.sendOnLane p l cell))
      if ps.contains 8 then t.mirrorCellOut S else t

/-- The tick that ends is closed. An operation is fetched behind the releases of the tick, so that one which leaves a full queue makes room (R206, R211). -/
def Tx.closeTick (t : Tx d0) : Tx d0 :=
  let tick := t.now.toNat
  let t := if t.d.runOver then t else t.each (t.d.wins.map Prod.fst) (fun n t => t.weigh n)
  let t := if t.running then t.strayVotes else t
  let t := if t.running then t.each t.d.streams64 (fun e t => t.fetchOp e) else t
  let t := if t.d.twin.reqs.isEmpty then t else t.mirrorReqs
  let t := t.each (List.range 32) (fun tl t => if (t.d.marker tl).queue.isEmpty then t else t.markEnd tl)
  let t := if t.running || t.d.endTick then t else t.applyHeld
  let t := (((t.bandChange).calDeferred).calCommit).limitDue.stDeferred.startCheck
  let t := ((t.countSat tick).digestTick tick).fixedCells
  let t := t.each (List.range 9) (fun p t => t.each (portLanes p) (fun l t => t.laneHears p l))
  if tick % 4 = 0 then t.each (List.range 9) (fun p t => t.each (portLanes p) (fun l t => t.laneSymbols p l tick)) else t

/-! The tick that begins -/

/-- Windows whose last tick is past are closed (R253). -/
def Tx.runWindows (t : Tx d0) : Tx d0 :=
  let now := t.now.toNat
  t.each (t.d.wins.map Prod.fst) (fun n t =>
    match t.d.win n with
    | none => t
    | some w => if w.start + w.len ≤ now then t.closeWin n now false 0 else t)

/-- A capture whose last sample is past waits to re-arm, or for its last segment to be written (R288, R290, R291). -/
def Tx.runCapture (t : Tx d0) (tl : Nat) : Tx d0 :=
  match (t.d.tile tl).cap with
  | none => t
  | some c =>
    if c.stage = 2 && c.last < t.now.toNat then
      ((t.segDone tl).modTile tl (fun x => { x with cap := some { c with segs := c.segs + 1, stage := 3 } })).showCap tl
    else t

/-- The new tick begins: up to 4 results leave each write queue before new ones enter it (R268; DESIGN CHOICE, log 208) (R206, R213, R253, R268, R279, R288, R308, R446, R670). -/
def Tx.openTick (t : Tx d0) : Tx d0 :=
  let t := (t.runWindows).mirrorDue
  let t := ((t.each (t.d.tiles.map Prod.fst) (fun tl t => (t.drainWq tl).runCapture tl)).runTins).runStreams
  let t := if t.running then t.each t.d.streams64 (fun e t => t.forkAhead e) else t
  let t := if t.now.toNat % 65536 = 0 then t.each (List.range 64) (fun e t => if t.d.tileOn (e / 2) then t.raise e 8 t.now.toNat else t) else t
  let t := if t.running then (t.modCalib (fun c => { c with runTicks := c.runTicks + 1 })).gapStarts
    else if t.d.bgWaits.isEmpty && t.d.calib.due.isEmpty then t else t.applyTick
  let t := if t.f R.TWIN_STAT.STATE = 2 then t.showQok else t
  let t := t.each (List.range 9) (fun p t => if t.b (R.LNK_PORT_CTL.RETRAIN p) && t.d.mayTrain p then (t.portLeave p).portSend p else t)
  let t := if t.d.run.afterEnd && !t.running then (t.modRun (fun r => { r with afterEnd := false })).portsAfterRun else t
  let t := if !t.running && t.d.thermal.rateT0.isSome then (t.modThermal (fun x => { x with rateT0 := none })).rateClampIdle else t
  let rest := t.d.mayRest
  t.modPower (fun x => { x with idle := if rest then min (2 ^ 28) (x.idle + 1) else 0, awakeTicks := x.awakeTicks + 1 })

/-! Loads of the epoch (R94, R97, R98) -/

/-- Syncs whose load edge is the edge the block stands at. -/
def Device.syncsDue (d : Device) : List SyncTaken := d.time.sync.filter (fun y => y.left = 0)

/-- The load edge of the syncs that are due: the epoch becomes LOAD, of the last one taken where two share an edge. -/
def Tx.syncLoad (t : Tx d0) (load : Epoch) : Tx d0 :=
  let old := t.now
  let due := t.d.syncsDue
  let t := t.modTime (fun x => { x with
    sync := x.sync.filter (fun y => y.left ≠ 0), coarse := load, fine := if t.b R.TB_STAT.AWAKE then load else x.fine, before := some old })
  let t := t.dropHist
  (t.each due (fun _ t => ((t.wb R.TB_STAT.SYNCED true).inc R.TB_STAT.SYNC_COUNT).ev R.GLB_DEV_EVT.TB_SYNC)).showPorts

/-- A load that is due takes place, and the tick that begins at its edge opens with the loaded epoch. -/
def Tx.takeSyncs (t : Tx d0) : Tx d0 :=
  match t.d.syncsDue.getLast? with
  | none => t
  | some y =>
    let t := t.syncLoad y.load
    if t.b R.TB_STAT.AWAKE then t.openTick else t

/-- The fine epoch advances by one tick. -/
def Tx.passTick (t : Tx d0) : Tx d0 :=
  (((t.closeTick).newClock).modTime (fun x => { x with fine := x.fine + 1, ticks := x.ticks + 1 })).openTick

def tickEff (t : Tx d0) : Tx d0 :=
  let t := t.takeSyncs
  let t := (t.modPower (fun x => { x with atEdge := false })).modTime (fun x => { x with before := none })
  if t.b R.TB_STAT.AWAKE then t.passTick
  else if t.d.time.refclk then t.newClock
  else (t.newClock).modTime (fun x => { x with ticks := x.ticks + 1 })

/-- A step on an empty queue: one tick passes. -/
def tick (s : State) : Host.Outcome State Fault Refusal := commit tickEff s

end Sys2Proof.Machine
end

