-- ==== Sys2Proof/Machine/Time.lean ====
section
/-! DEFINITION. The timebase as commands (chapter 03): REFCLK edges and the two counters, epoch syncs, SYNC_OUT, and timebase faults. -/
namespace Sys2Proof.Machine

variable {d0 : Device}

/-! REFCLK edges -/

/-- Every SYNC_OUT period that ends and begins at an edge (R102). -/
def Tx.soutEdge (t : Tx d0) : Tx d0 :=
  if t.d.time.soutNext then
    (t.modTime (fun x => { x with soutNext := false, sout := true, soutLeft := 4 })).w R.TB_CTL.SYNC_GEN 0
  else t.modTime (fun x => { x with soutLeft := x.soutLeft - 1 })

/-- The run, a foreground calibration and a self-test stop (R109, R432, R692). -/
def Tx.stopWork (t : Tx d0) : Tx d0 := ((t.stopRun).fgAbort).stAbort

/-- A timebase fault: what runs stops, the Watch commits its record (R109, R652, R654), and a LEAD has a reason to hand every quadrant over (R629). -/
def Tx.timebaseFault (t : Tx d0) : Tx d0 :=
  let t := if t.f R.TWIN_STAT.STATE = 2 then t.modTwin (fun x => { x with lostTime := true }) else t
  (t.stopWork).fault 0x0102 (t.f R.TB_STAT.SLIP * 2 + t.f R.TB_STAT.REF_LOST)

/-- The coarse and the fine epoch disagree at an edge (R90). -/
def Tx.slip (t : Tx d0) : Tx d0 :=
  let t := ((t.ev R.TB_STAT.SLIP).wb R.TB_STAT.SYNCED false).timebaseFault
  ((t.dropHist).modTime (fun x => { x with fine := x.coarse })).showPorts

/-- REFCLK_EDGE: `syncIn` is the level of SYNC_IN at the edge (R88, R90, R95, R102). Where a load of the epoch falls on it, the tick that begins at it
opens with that load. The coarse epoch lies in AON, whose power P0 switches on (R657, R663). -/
def effRefclkEdge (syncIn : Bool) (t : Tx d0) : Tx d0 :=
  if !t.d.domOn 0 then t else
  let t := t.takeSyncs
  let awake := t.b R.TB_STAT.AWAKE
  let t := (if awake then t.closeTick else t.startCheck).newClock
  let rise := syncIn && !t.d.time.syncIn
  let t := t.modTime (fun x => { x with
    fine := if awake then x.fine + 1 else x.fine
    coarse := x.coarse + 20
    ticks := x.ticks + (if awake then 1 else 20)
    good := min 1000 (if x.refclk then x.good + 1 else 0)
    refclk := true, held := false, before := none, syncIn := syncIn, syncRise := rise
    sync := x.sync.map (fun y => { y with left := y.left - 1 }) })
  let t := t.soutEdge
  let t := if rise && t.f R.TB_CTL.SOUT_MODE = 1 then t.modTime (fun x => { x with soutNext := true }) else t
  let t := t.modPower (fun x => { x with atEdge := true, wakeEdges := if t.f R.PWR_STAT.STATE = 1 then x.wakeEdges + 1 else x.wakeEdges })
  if awake then
    let t := if t.d.time.fine = t.d.time.coarse then t else t.slip
    if t.d.syncsDue.isEmpty then t.openTick else t
  else t.showWait

def execRefclkEdge (syncIn : Bool) (s : State) : Host.Outcome State Fault Refusal := commit (effRefclkEdge syncIn) s

/-! Epoch syncs (R95 to R101) -/

/-- SYNC_IN_PULSE: the sampling edge of a pulse that rose `pos` ticks before it. -/
def effSyncInPulse (pos : Nat) (t : Tx d0) : Tx d0 :=
  if !t.d.time.syncRise then t
  else
    let t := t.modTime (fun x => { x with syncRise := false })
    if !t.b R.TB_CTL.SYNC_ARM || t.running then t.ev R.TB_STAT.SYNC_IGNORED
    else
      let load := BitVec.ofNat 64 (t.d.f64 R.TB_SYNC_LOAD_LO.LOAD R.TB_SYNC_LOAD_HI.LOAD)
      let t := (t.wb R.TB_CTL.SYNC_ARM false).modTime (fun x => { x with sync := x.sync ++ [⟨load, t.f R.TB_SYNC_DELAY.DELAY⟩] })
      if t.b R.TB_STAT.AWAKE && 1 ≤ pos && pos ≤ 20 then
        let t := (t.wb R.TB_SYNC_POS.VALID true).w R.TB_SYNC_POS.POS pos
        if pos = 1 || pos = 20 then t.ev R.TB_STAT.SYNC_MARGIN else t
      else (t.wb R.TB_SYNC_POS.VALID false)

def execSyncInPulse (pos : Fin 32) (s : State) : Host.Outcome State Fault Refusal := commit (effSyncInPulse pos.val) s

/-- SYNC_LOAD: the load edge of a sync that was taken. -/
def effSyncLoad (t : Tx d0) : Tx d0 := t.takeSyncs

def execSyncLoad (s : State) : Host.Outcome State Fault Refusal := commit effSyncLoad s

/-! SYNC_OUT (R102, R103) -/

/-- A pulse has started at the edge that begins this clock. -/
def Device.soutStarts (d : Device) : Bool := d.time.sout && d.time.soutLeft == 4 && d.power.atEdge

/-- A write of 1 to SYNC_GEN. In the clock on which a pulse starts and the bit clears, the bit stays set and another pulse starts (R23). -/
def Tx.syncGen (t : Tx d0) : Tx d0 :=
  if t.f R.TB_CTL.SOUT_MODE ≠ 2 then t
  else if t.d.time.sout && !t.d.soutStarts then t.ev R.TB_STAT.SYNC_IGNORED
  else (t.wb R.TB_CTL.SYNC_GEN true).modTime (fun x => { x with soutNext := true })

def effSyncGen (t : Tx d0) : Tx d0 := t.hostReg R.TB_CTL.SYNC_GEN.off Tx.syncGen

def execSyncGen (s : State) : Host.Outcome State Fault Refusal := commit effSyncGen s

/-- SOUT_MODE is written: LOW holds the pin low. A pulse that is pending or under way between REPEAT and SOURCE starts or goes on (DESIGN CHOICE,
log 198). -/
def Tx.soutMode (t : Tx d0) (m : Nat) : Tx d0 :=
  let t := t.w R.TB_CTL.SOUT_MODE m
  if m = 0 then (t.wb R.TB_CTL.SYNC_GEN false).modTime (fun x => { x with sout := false, soutNext := false, soutLeft := 0 }) else t

/-- SYNC_OUT_PULSE_END: 4 REFCLK periods after the pulse began. -/
def effSyncOutPulseEnd (t : Tx d0) : Tx d0 :=
  if t.d.time.sout && t.d.time.soutLeft = 0 then t.modTime (fun x => { x with sout := false }) else t

def execSyncOutPulseEnd (s : State) : Host.Outcome State Fault Refusal := commit effSyncOutPulseEnd s

/-! Timebase faults (R107 to R109, R726, R727) -/

/-- REFCLK_LOST: no rising edge for 50 ns. -/
def effRefclkLost (t : Tx d0) : Tx d0 :=
  if t.d.time.held then t
  else
    let t := t.takeSyncs
    let t := (t.ev R.TB_STAT.REF_LOST).wb R.TB_STAT.REF_OK false
    let t := t.wb R.TB_STAT.SYNCED false
    let t := if t.d.time.sync.isEmpty then t else t.ev R.TB_STAT.SYNC_IGNORED
    let t := t.modTime (fun x => { x with held := true, refclk := false, good := 0, sync := [], syncRise := false })
    (((t.timebaseFault).stopClocks).showPorts).showWait

def execRefclkLost (s : State) : Host.Outcome State Fault Refusal := commit effRefclkLost s

/-- REFCLK_RESTORED: 1,000 consecutive good periods have passed since REFCLK came or returned. -/
def effRefclkRestored (t : Tx d0) : Tx d0 := if t.d.time.good < 1000 then t else (t.wb R.TB_STAT.REF_OK true).showWait

def execRefclkRestored (s : State) : Host.Outcome State Fault Refusal := commit effRefclkRestored s

/-- PLL_LOCK_LOST: the core PLL loses lock. Where REFCLK stays, the fast clocks stay AWAKE, and LOCKED returns at the next wake (DESIGN CHOICE,
log 233). -/
def effPllLockLost (t : Tx d0) : Tx d0 :=
  if t.b R.TB_STAT.LOCKED then (((t.wb R.TB_STAT.LOCKED false).wb R.TB_STAT.SYNCED false).timebaseFault).showPorts else t

def execPllLockLost (s : State) : Host.Outcome State Fault Refusal := commit effPllLockLost s

end Sys2Proof.Machine
end

