-- ==== Sys2Proof/Machine/Flux.lean ====
section
/-! DEFINITION. Range switches and monitor visits of the flux outputs (chapter 10), and the settings of the RF outputs (chapter 11). -/
namespace Sys2Proof.Machine

variable {d0 : Device}

/-! Range switches (R372 to R374) -/

/-- RANGE_GAIN_SWITCH: 1,000 ticks after the commit tick. -/
def effRangeGainSwitch (c : Nat) (t : Tx d0) : Tx d0 :=
  match bget (fun _ => none) t.d.rangeT0 c with
  | none => t
  | some t0 => if t.d.age < t0 + 1000 then t else t.wb (R.FLX_OUT_STAT.RANGE c) (t.d.rangeOf c)

def execRangeGainSwitch (c : Fin 256) (s : State) : Host.Outcome State Fault Refusal := commit (effRangeGainSwitch c.val) s

/-- RANGE_CLAMP_RELEASE: 3,000 ticks after the commit tick, once the gain is switched. -/
def effRangeClampRelease (c : Nat) (t : Tx d0) : Tx d0 :=
  match bget (fun _ => none) t.d.rangeT0 c with
  | none => t
  | some t0 =>
    if t.d.age < t0 + 3000 || t.b (R.FLX_OUT_STAT.RANGE c) ≠ t.d.rangeOf c then t
    else (t.upd (.rangeT0 c none)).clampDrop (fluxKey c) 0x10

def execRangeClampRelease (c : Fin 256) (s : State) : Host.Outcome State Fault Refusal := commit (effRangeClampRelease c.val) s

/-! Monitor visits (R375 to R379) -/

/-- The output at or after position `i` of a quadrant that a visit comes to next, with the tiles that are off passed over; none where all are. -/
def Device.monNext (d : Device) (q i : Nat) : Option Nat :=
  (((List.range 64).map (fun k => (i + k) % 64)).find? (fun p => d.tileOn (8 * q + p / 8)))

/-- Expected value of a visit (R376), in monitor steps. -/
def Device.monExpect (d : Device) (c : Nat) : Int :=
  if clamped (d.clampOf (fluxKey c)) then 0
  else (signedOf 16 (d.f (R.FLX_OUT_STAT.CODE c)) * (if d.b (R.FLX_OUT_STAT.RANGE c) then 4 else 2) + 2) / 5

/-- The Watch opens the series disconnect of a flux output (R652, R653). -/
def Tx.disconnect (t : Tx d0) (c : Nat) : Tx d0 :=
  let t := t.clampAdd (fluxKey c) 1
  let t := t.watchSet (R.WATCH_DISC.OPEN (c / 32)) (t.f (R.WATCH_DISC.OPEN (c / 32)) ||| 2 ^ (c % 32))
  let n := ((List.range 256).filter (fun k => (t.f (R.WATCH_DISC.OPEN (k / 32))).testBit (k % 32))).length
  (((t.watchSet R.WATCH_STAT.DISCONNECTS n).ev R.WATCH_EVT.DISCONNECT).fault 0x0202 c).quadFault (c / 64)

/-- A compared visit counts in the window of the output's FLUX_TRIM (R408). -/
def Tx.trimVisit (t : Tx d0) (c : Nat) : Tx d0 :=
  let v := signedOf 16 (t.f (R.FLX_OUT_STAT.CODE c))
  t.modCalPath (calKey 2 c) (fun x => { x with
    visits := x.visits + 1, low := if x.visits = 0 then v else min x.low v, high := if x.visits = 0 then v else max x.high v })

/-- A compared visit of an unclamped output (R378). -/
def Tx.monOpen (t : Tx d0) (c err : Nat) : Tx d0 :=
  let q := c / 64
  let t := t.trimVisit c
  let t := if t.f (R.MON_WIN.WARN q) < err then
      ((t.ev (R.FLX_OUT_STAT.MON_WARN c)).ev (R.FLX_EVT.MON_WARN (c / 8))).inc (R.FLX_MON_CNT.WARNS c) else t
  if t.f (R.MON_WIN.FAULT q) < err then
    if bget (fun _ => 0) t.d.monErr c = 1 then
      let t := ((t.upd (.monErr c 0)).clampAdd (fluxKey c) 4).ev (R.FLX_EVT.MON_FAULT (c / 8))
      (t.fault 0x0201 c).quadFault q
    else t.upd (.monErr c 1)
  else t.upd (.monErr c 0)

/-- A compared visit of a clamped output (R379). -/
def Tx.monClamped (t : Tx d0) (c err : Nat) : Tx d0 :=
  if 26 < err then
    if bget (fun _ => 0) t.d.monErr c = 2 then
      let t := (t.upd (.monErr c 0)).ev (R.FLX_EVT.CLAMP_FAULT (c / 8))
      if (t.d.clampOf (fluxKey c)).testBit 0 then t else t.disconnect c
    else t.upd (.monErr c 2)
  else t.upd (.monErr c 0)

/-- A lap of `n` visits ends; once every 256 laps the monitor checks itself for 300 ns. -/
def Tx.monLap (t : Tx d0) (q n : Nat) : Tx d0 :=
  let laps := (t.d.mon q).laps
  let t := (t.w (R.MON_STAT.LAP q) (3 * (n + (if laps = 255 then 1 else 0)))).inc (R.MON_LAPS.LAPS q)
  t.upd (.mon q { next := 0, visits := 0, laps := (laps + 1) % 256 })

/-- The visit of output `i` is over: the next output, and the lap where it ends. Where the outputs that were left of a lap have been switched off since,
the lap has ended before this visit. -/
def Tx.monStep (t : Tx d0) (q i : Nat) : Tx d0 :=
  let t := if i < (t.d.mon q).next then t.monLap q (t.d.mon q).visits else t
  let n := (t.d.mon q).visits + 1
  let wrap := match t.d.monNext q ((i + 1) % 64) with
    | some p => decide (p ≤ i)
    | none => true
  if wrap then t.monLap q n
  else t.upd (.mon q { t.d.mon q with next := i + 1, visits := n })

/-- MONITOR_VISIT: the visit of output `c` measures `measured` monitor steps. It arises when the output's turn has come. -/
def effMonitorVisit (c : Nat) (measured : Int) (t : Tx d0) : Tx d0 :=
  let q := c / 64
  if !t.b R.TB_STAT.AWAKE || !t.d.domOn 7 || t.d.monNext q (t.d.mon q).next ≠ some (c % 64) then t
  else
    let t := t.monStep q (c % 64)
    if t.d.age < bget (fun _ => 0) t.d.steady c + 2000 then t.wb (R.FLX_MON_CNT.UNSTABLE c) true
    else
      let e := t.d.monExpect c
      let t := (t.w (R.FLX_MON.MEAS c) (patternOf 16 measured)).w (R.FLX_MON.EXPECT c) (patternOf 16 e)
      let t := (t.wb (R.FLX_MON_CNT.VALID c) true).wb (R.FLX_MON_CNT.UNSTABLE c) false
      let err := (measured - e).natAbs
      if clamped (t.d.clampOf (fluxKey c)) then t.monClamped c err else t.monOpen c err

def execMonitorVisit (c : Fin 256) (measured : Int) (s : State) : Host.Outcome State Fault Refusal := commit (effMonitorVisit c.val measured) s

/-! Settings of an RF output (R392 to R394, R401, R402) -/

/-- A write of NCO_OUT_CFG. -/
def Tx.outCfgWrite (t : Tx d0) (c data : Nat) : Tx d0 :=
  let t := (t.w (R.NCO_OUT_CFG.DLY c) (bitsOf data 25 16)).w (R.NCO_OUT_CFG.FS_TRIM c) (bitsOf data 13 8)
  let t := t.put (R.NCO_OUT_CFG.MODE c) (data % 4) (data % 4 < 2)
  if t.running || t.b R.GLB_RUN_STAT.PENDING then
    let v := (t.f (R.NCO_OUT_CFG.DLY c), t.f (R.NCO_OUT_CFG.FS_TRIM c), t.f (R.NCO_OUT_CFG.MODE c))
    let t := if (t.d.outCfg c).ripe then t.upd (.outCfg c { t.d.outCfg c with ripe := false }) else t
    t.wb (R.NCO_OUT_CFG.PENDING c) (v ≠ (t.d.outCfg c).force)
  else t.outApply c

/-- A host write reaches a register of BAR0 whole, in a domain that is on (R9, R698). -/
def Tx.hostWord (t : Tx d0) (off be : Nat) (g : Tx d0 → Tx d0) : Tx d0 :=
  t.access (fun t =>
    match (if be ≠ 15 then [R.GLB_ACC_ERR.NARROW] else []) ++ (if t.d.domOn (domainOf off) then [] else [R.GLB_ACC_ERR.OFF]) with
    | [] => g t
    | errs => t.accErr off errs)

def effOutCfgWrite (c be data : Nat) (t : Tx d0) : Tx d0 := t.hostWord (R.NCO_OUT_CFG.MODE c).off be (fun t => t.outCfgWrite c data)

/-- OUT_CFG_WRITE: NCO_OUT_CFG is written. -/
def execOutCfgWrite (c : Fin 160) (be : BitVec 4) (data : Word) (s : State) : Host.Outcome State Fault Refusal :=
  commit (effOutCfgWrite c.val be.toNat data.toNat) s

/-- OUT_CFG_APPLY: a held value takes effect on the tick after the run it waited for. -/
def effOutCfgApply (c : Nat) (t : Tx d0) : Tx d0 :=
  if t.b (R.NCO_OUT_CFG.PENDING c) && (t.d.outCfg c).ripe && !t.running && !t.d.endTick then t.outApply c else t

def execOutCfgApply (c : Fin 160) (s : State) : Host.Outcome State Fault Refusal := commit (effOutCfgApply c.val) s

/-- SETTLE_END: 2,000 ticks after settling began. -/
def effSettleEnd (c : Nat) (t : Tx d0) : Tx d0 :=
  if t.b (R.NCO_OUT_CFG.SETTLING c) && (t.d.outCfg c).since + 2000 ≤ t.d.age then t.wb (R.NCO_OUT_CFG.SETTLING c) false else t

def execSettleEnd (c : Fin 160) (s : State) : Host.Outcome State Fault Refusal := commit (effSettleEnd c.val) s

end Sys2Proof.Machine
end

