-- ==== Sys2Proof/Machine/Cal.lean ====
section
/-! DEFINITION. Calibration as commands (chapter 12): estimates of background classes, steps of the others in gaps and between runs, foreground
requests, and the band's record. Measured quantities are operands, in the units of `agreeFig`, counted from the factory value of the band. -/
namespace Sys2Proof.Machine

variable {d0 : Device}

/-! Agreement and plausibility (R425) -/

/-- Quantities a result of a class holds: ADC_IL offset, gain and timing of four sub-converters; DAC_MATCH gain; FLUX_TRIM offset and gain;
ADC_FLAT gain and phase of two points; DAC_FLAT gain of two points and P_FS; DAC_DELAY delay; TIN_SKEW 8 trigger inputs and 32 ADC paths. -/
def calQuantities (cls : Nat) : Nat :=
  match cls with
  | 0 => 12 | 1 => 1 | 2 => 2 | 3 => 4 | 4 => 3 | 5 => 1 | _ => 40

/-- Agreement figure and plausible range of quantity `i` of a class: offsets of ADC_IL in 0.01 code, gains in 0.001 dB, timing in fs; FLUX_TRIM
in 0.1 µV and 0.001 %; phase in 0.01°; delay in 0.1 ps; CAL in sixteenths. -/
def agreeFig (cls i : Nat) : Nat × Nat :=
  match cls with
  | 0 => if i % 3 = 0 then (25, 3200) else if i % 3 = 1 then (10, 1000) else (40, 4000)
  | 1 => (10, 1000)
  | 2 => if i = 0 then (100, 50000) else (5, 1000)
  | 3 => if i % 2 = 0 then (50, 3000) else (30, 2000)
  | 4 => if i < 2 then (50, 3000) else (50, 1000)
  | 5 => (5, 200)
  | _ => (1, 256)

/-- Two measurements agree and are plausible in quantity `i`. -/
def quantityAgrees (cls i : Nat) (a b : Int) : Bool :=
  decide ((a - b).natAbs ≤ (agreeFig cls i).1) && decide (a.natAbs ≤ (agreeFig cls i).2) && decide (b.natAbs ≤ (agreeFig cls i).2)

/-- Two measurements agree and are plausible, in every quantity that is measured. -/
def calAgree (cls : Nat) (measured : Nat → Bool) (a b : List Int) : Bool :=
  a.length == calQuantities cls && b.length == calQuantities cls &&
  (List.range (calQuantities cls)).all (fun i => !measured i || quantityAgrees cls i (a.getD i 0) (b.getD i 0))

/-- Quantities that a step of a class measures: TIN_SKEW measures the ADC paths of powered tiles. -/
def Device.measured (d : Device) (cls i : Nat) : Bool := cls != 6 || decide (i < 8) || d.tileOn (i - 8)

/-- A step or update is rejected (R426). -/
def Tx.calReject (t : Tx d0) : Tx d0 := (t.inc R.CAL_CNT.REJECTS).ev R.CAL_EVT.CAL_REJECT

/-! Background classes (R407 to R409) -/

/-- LOOP_CONV runs: paths are switched to its stimuli in turn. -/
def Device.loopTest (d : Device) : Bool := d.st.begun && firstTest d.st.tests == some 6

/-- LOOP_CONV runs or ran during the estimate window of a path: samples of the path while it was switched to a test stimulus are none of the window's
(R688). -/
def Device.loopIn (d : Device) (cls path : Nat) : Bool := d.loopTest || decide (max (d.calPath (calKey cls path)).win d.calib.bgFrom < d.calib.loopEnd)

/-- Ticks that an estimate window of a background class takes at least (R408): 2^20 ADC samples, 2^18 observer samples; 16 compared visits of a flux
output are counted as they come. -/
def bgWindow (cls : Nat) : Nat := if cls = 0 then 2 ^ 18 else if cls = 1 then 2 ^ 21 else 0

/-- An estimate window of a background class can be over on a path. -/
def Device.bgOver (d : Device) (cls path : Nat) : Bool :=
  let x := d.calPath (calKey cls path)
  decide (max x.win d.calib.bgFrom + bgWindow cls ≤ d.power.awakeTicks) && (cls != 2 || decide (16 ≤ x.visits))

/-- The quantities that a window's estimate holds: a flux output whose codes span less than 4,096 gives no gain (R408, R409). -/
def Device.bgQuantities (d : Device) (cls path : Nat) (values : List Int) : List Int :=
  let x := d.calPath (calKey cls path)
  if cls = 2 && decide (x.high - x.low < 4096) then values.take 1 else values

/-- An estimate meets the one before it (R408, R409, R425, R426): where they agree, the path's coefficients are to move to it, or to the one before, and
where they do not the path keeps its coefficients: what an earlier pair has still to move is given up (DEDUCED, log 210). -/
def Tx.bgCompare (t : Tx d0) (k : Nat) (e vs : List Int) : Tx d0 :=
  let cls := k / 512
  let n := min vs.length e.length
  let next := some (vs ++ e.drop vs.length)
  if (vs.length = calQuantities cls || cls = 2 && vs.length = 1) && (List.range n).all (fun i => quantityAgrees cls i (e.getD i 0) (vs.getD i 0)) then
    let (v, t) := t.open
    let pick := (List.range n).map (fun i => if v.testBit i then vs.getD i 0 else e.getD i 0)
    (t.modCalPath k (fun x => { x with est := next, rej := 0, stale := false, goal := some pick })).showCal
  else
    (t.calReject.modCalPath k (fun x => { x with est := next, rej := min 3 (x.rej + 1), stale := x.stale || 3 ≤ x.rej + 1, goal := none })).showCal

/-- BG_ESTIMATE: an estimate window of a background class ends on a path; an empty list says that the path lacked what the class needs: nothing
more is applied then, and the last estimate is kept (R409). When LOOP_CONV has a path switched is open, and so is whether a window that it falls into
has all its samples (R688; DESIGN CHOICE, log 246). -/
def effBgEstimate (cls path : Nat) (values : List Int) (t : Tx d0) : Tx d0 :=
  let (v, t) := if t.d.loopIn cls path then t.open else (0, t)
  if 2 < cls || calPathsOf cls ≤ path || !t.b R.TB_STAT.AWAKE || !t.d.pathOn cls path || !t.d.bgOver cls path || v % 2 = 1 then t
  else
    let k := calKey cls path
    let vs := t.d.bgQuantities cls path values
    let now := t.d.power.awakeTicks
    let t := t.modCalPath k (fun x => { x with win := now, visits := 0, low := 0, high := 0 })
    if vs.isEmpty then t.modCalPath k (fun x => { x with goal := none })
    else
      let (v, t) := t.open
      let t := t.when (cls == 0) (fun t => t.w (R.CAL_ADC_Q.IL_SPUR path) v)
      match (t.d.calPath k).est with
      | none => t.modCalPath k (fun x => { x with est := some vs })
      | some e => t.bgCompare k e vs

def execBgEstimate (cls : Fin 8) (path : Fin 512) (values : List Int) (s : State) : Host.Outcome State Fault Refusal :=
  commit (effBgEstimate cls.val path.val values) s

/-! Steps (R403, R412 to R415) -/

/-- A step of a class may start on a path now: any tick without a run, or in a gap of the path's engine that permits the class and covers the step. -/
def Device.calPermits (d : Device) (cls path : Nat) : Bool :=
  !d.running || (d.gapsNow (2 * calTile cls path + (if cls = 3 then 1 else 0))).any (fun g => (rn g.1 12 2).testBit cls && calDuration cls ≤ g.2)

/-- A class waits for steps on a path. -/
def Device.calWants (d : Device) (cls path : Nat) : Bool := (d.calPath (calKey cls path)).pend || (d.calPath (calKey cls path)).fg

/-- The classes and paths of a tile in the order in which their steps run (R412). -/
def calOrder (tl : Nat) : List (Nat × Nat) :=
  (3, tl) :: (List.range 5).map (fun i => (5, 5 * tl + i)) ++ (List.range 5).map (fun i => (4, 5 * tl + i))

/-- A step starts. -/
def Tx.stepStart (t : Tx d0) (cls path : Nat) : Tx d0 :=
  let age := t.d.age
  let now := t.d.calib.runTicks
  (t.modCalib (fun c => { c with steps := c.steps ++ [(cls, path, age)] })).modCalPath (calKey cls path) (fun x => { x with since := now })

/-- CAL_STEP: a step of a class starts on a path. -/
def effCalStep (cls path : Nat) (t : Tx d0) : Tx d0 :=
  let tl := calTile cls path
  if !t.b R.TB_STAT.AWAKE || t.d.calib.steps.any (fun s => s.1 == 6) then t
  else if cls = 6 then (if path = 0 && t.d.calWants 6 0 && !t.running && t.d.calib.steps.isEmpty then t.stepStart 6 0 else t)
  else if cls < 3 || 5 < cls || !t.d.tileOn tl || t.d.calib.steps.any (fun s => calTile s.1 s.2.1 == tl) then t
  else if (calOrder tl).find? (fun p => t.d.calWants p.1 p.2 && t.d.calPermits p.1 p.2) = some (cls, path) then t.stepStart cls path
  else t

def execCalStep (cls : Fin 8) (path : Fin 512) (s : State) : Host.Outcome State Fault Refusal := commit (effCalStep cls.val path.val) s

/-- CAL of a trigger input or an ADC path after TIN_SKEW: either of the two measurements that agree, counted from the factory value. -/
def Tx.newSkew (t : Tx d0) (a b : List Int) : Tx d0 :=
  let fac := factoryCal (t.f R.CAL_STAT.BAND)
  (t.each (List.range 40) (fun k t =>
    if !t.d.measured 6 k then t
    else
      let (v, t) := t.open
      let x := signedOf 16 (leNat ((fac.drop (14464 + 2 * k)).take 2)) + (if v % 2 = 0 then a.getD k 0 else b.getD k 0)
      (t.modCalib (fun c => { c with
        body := c.body.take (14464 + 2 * k) ++ leBytes 2 (patternOf 16 x) ++ c.body.drop (14466 + 2 * k)
        due := if c.due.contains (448 + k) then c.due else c.due ++ [448 + k] })).writeCoef (14464 + 2 * k) 2)).applyIdle

/-- A class completes on a path (R411, R424). -/
def Tx.calComplete (t : Tx d0) (cls path : Nat) (a b : List Int) : Tx d0 :=
  let age := t.d.age
  let t := if (t.d.calPath (calKey cls path)).fg then t.modCalib (fun c => { c with done := c.done ||| 2 ^ cls }) else t
  let t := t.modCalPath (calKey cls path) (fun x => { x with
    pend := false, fg := false, step := 0, rej := 0, stale := false, stopT := false, stopM := false
    tref := some (t.d.pathTemp cls path), last := some age })
  let band := t.f R.CAL_STAT.BAND
  let t := (t.inc R.CAL_CNT.COMPLETIONS).modCalib (fun c => { c with changed := c.changed ||| 2 ^ band })
  let (v, t) := t.open
  match cls with
  | 3 => ((((t.w (R.CAL_ADC_Q.FLAT path) v).wb (R.CAL_ADC_Q.FLAT_VALID path) true).newBlock 3 path).showTdiff path).showAge path
  | 4 => (((((t.w (R.CAL_DAC_Q.FLAT path) v).w (R.CAL_DAC_Q.PFS_ERR path) (v / 256)).wb (R.CAL_DAC_Q.FLAT_VALID path) true).newBlock 4 path).showTdiff (path / 5)).showAge (path / 5)
  | 5 => (t.wb (R.CAL_DAC_Q.DELAY_VALID path) true).newBlock 5 path
  | _ => t.newSkew a b

/-- Ticks of MAXINT seconds. -/
def Device.maxint (d : Device) : Nat := d.f R.CAL_TCFG.MAXINT * 2000000000

/-- The temperature trigger of a class holds on a path (R410). -/
def Device.tempTrigger (d : Device) (cls path : Nat) : Bool :=
  match (d.calPath (calKey cls path)).tref with
  | some r => decide (4 * d.f R.CAL_TCFG.TDELTA ≤ (d.pathTemp cls path - r).natAbs)
  | none => false

/-- The interval trigger of a class holds on a path (R410). -/
def Device.maxintTrigger (d : Device) (cls path : Nat) : Bool :=
  match (d.calPath (calKey cls path)).last with
  | some l => decide (l + d.maxint ≤ d.age)
  | none => false

/-- The third rejection in a row stops a class on a path for the trigger it ran for (R426). -/
def Tx.calStop (t : Tx d0) (cls path : Nat) : Tx d0 :=
  let k := calKey cls path
  let asked := t.b R.CAL_STAT.FG_BUSY && (t.d.calPath k).fg && (t.d.calib.req.testBit cls || t.d.calib.req.testBit 7)
  let t := if asked then t.w R.CAL_REQ_STAT.REJECTED (t.f R.CAL_REQ_STAT.REJECTED ||| 2 ^ cls) else t
  let (hot, old) := (t.d.tempTrigger cls path, t.d.maxintTrigger cls path)
  (t.modCalPath k (fun x => { x with pend := false, fg := false, step := 0, rej := 0, stale := true, stopT := hot, stopM := old })).showCal

/-- CAL_STEP_DONE: a step ends with its two measurements (R411, R424 to R426). A class that became pending anew meanwhile starts afresh (R432). -/
def effCalStepDone (cls path : Nat) (a b : List Int) (t : Tx d0) : Tx d0 :=
  match t.d.calib.steps.find? (fun s => s.1 == cls && s.2.1 == path) with
  | none => t
  | some s =>
    if t.d.stepOn s then t
    else
      let k := calKey cls path
      let x := t.d.calPath k
      let t := t.dropSteps (fun y => y == s)
      let good := calAgree cls (t.d.measured cls) a b
      let t := if good then t else t.calReject
      if x.again then t.showCal
      else if good then
        if x.step + 1 < calSteps cls then t.modCalPath k (fun x => { x with step := x.step + 1, rej := 0 })
        else (t.calComplete cls path a b).showCal
      else if x.rej + 1 < 3 then t.modCalPath k (fun x => { x with rej := x.rej + 1 })
      else t.calStop cls path

def execCalStepDone (cls : Fin 8) (path : Fin 512) (first second : List Int) (s : State) : Host.Outcome State Fault Refusal :=
  commit (effCalStepDone cls.val path.val first second) s

/-- A trigger of a class on a path makes it pending, unless the class has stopped there for it (R410, R426). -/
def Tx.calTrigger (t : Tx d0) (cls path : Nat) : Tx d0 :=
  let x := t.d.calPath (calKey cls path)
  let (hot, old) := (t.d.tempTrigger cls path, t.d.maxintTrigger cls path)
  let t := if x.stopT && !hot then t.modCalPath (calKey cls path) (fun x => { x with stopT := false }) else t
  if (hot && !x.stopT) || (old && !x.stopM) then t.calPend cls path else t

/-- CAL_MAXINT: a class becomes pending where MAXINT seconds have passed since it last completed. -/
def effCalMaxint (cls : Nat) (t : Tx d0) : Tx d0 :=
  if cls < 3 || 5 < cls then t
  else (t.each (List.range (calPathsOf cls)) (fun p t =>
    if t.d.maxintTrigger cls p && !(t.d.calPath (calKey cls p)).stopM then t.calPend cls p else t)).showCal

def execCalMaxint (cls : Fin 8) (s : State) : Host.Outcome State Fault Refusal := commit (effCalMaxint cls.val) s

/-- GAP_STARVED: a class has been pending on a path for MAXINT seconds during runs with no gap for it (R417). -/
def effGapStarved (cls : Nat) (t : Tx d0) : Tx d0 :=
  if t.running && (List.range (calPathsOf cls)).any (fun p =>
      (t.d.calPath (calKey cls p)).pend && (t.d.calPath (calKey cls p)).since + t.d.maxint ≤ t.d.calib.runTicks) then
    t.ev R.CAL_EVT.GAP_STARVED
  else t

def execGapStarved (cls : Fin 8) (s : State) : Host.Outcome State Fault Refusal := commit (effGapStarved cls.val) s

/-! Requests (R418 to R421) -/

/-- A write of CAL_REQ. -/
def Tx.calReq (t : Tx d0) (data : Nat) : Tx d0 :=
  let t := t.w R.CAL_REQ.CLASSES (bitsOf data 7 3)
  let m := 8 * bitsOf data 7 3
  if !data.testBit 31 then t
  else if t.running || t.b R.GLB_RUN_STAT.PENDING then
    (t.w R.CAL_REQ_STAT.RESULT 2).w R.CAL_REQ_STAT.PENDING (t.f R.CAL_REQ_STAT.PENDING ||| m)
  else t.calStart m

def effCalRequest (data : Nat) (t : Tx d0) : Tx d0 := t.hostReg R.CAL_REQ.GO.off (fun t => t.calReq data)

def execCalRequest (data : Word) (s : State) : Host.Outcome State Fault Refusal := commit (effCalRequest data.toNat) s

/-- CAL_DEFERRED_START: classes deferred during a run start once it is over. -/
def effCalDeferredStart (t : Tx d0) : Tx d0 := t.calDeferred

def execCalDeferredStart (s : State) : Host.Outcome State Fault Refusal := commit effCalDeferredStart s

/-- Steps of a foreground calibration are still to come on a powered path. -/
def Device.fgOpen (d : Device) : Bool := d.calPaths.any (fun x => x.2.fg && d.pathOn (x.1 / 512) (x.1 % 512))

/-- FG_CAL_DONE: a foreground or initial calibration ends once every class of it has completed or stopped on every powered path (R410, R418, R422). DONE
names the classes asked for that have completed on some path, and FULL (DEDUCED, log 211). -/
def effFgCalDone (t : Tx d0) : Tx d0 :=
  let busy := t.b R.CAL_STAT.FG_BUSY
  if !(busy || t.b R.CAL_STAT.INITIAL) || t.d.calib.wait || t.d.fgOpen || !t.d.calib.steps.isEmpty then t
  else
    let full := t.b R.CAL_STAT.INITIAL || t.d.calib.req.testBit 7
    let t := if busy then (t.w R.CAL_REQ_STAT.RESULT 3).w R.CAL_REQ_STAT.DONE (t.d.calib.req &&& (t.d.calib.done ||| 128)) else t
    let t := ((t.wb R.CAL_STAT.FG_BUSY false).wb R.CAL_STAT.INITIAL false).modCalib (fun c => { c with req := 0 })
    if full then
      (t.each t.d.calPaths (fun x t =>
        if x.2.stale && 3 ≤ x.1 / 512 && x.1 / 512 ≤ 5 && t.d.pathOn (x.1 / 512) (x.1 % 512) then t.calPend (x.1 / 512) (x.1 % 512) else t)).showCal
    else t

def execFgCalDone (s : State) : Host.Outcome State Fault Refusal := commit effFgCalDone s

/-! Loading and the record (R416, R422, R427 to R429) -/

/-- What a wake does: the first one after a reset loads the present band's set, and a request that waited begins (R418, R422). -/
def Tx.calAwake (t : Tx d0) : Tx d0 :=
  let band := t.f R.THM_STAT.BAND
  let t :=
    if !t.d.calib.body.isEmpty then t.w R.CAL_STAT.SOURCE 3
    else
      let t := (t.w R.CAL_STAT.BAND band).checkLive 1 band
      match t.d.keepCal band with
      | some r => (t.w R.CAL_STAT.SOURCE 2).loadCal r.body
      | none =>
        ((((t.useFactory band).w R.CAL_STAT.SOURCE 1).loadCal (factoryCal band)).wb R.CAL_STAT.INITIAL true).calBegin 128
  if t.d.calib.wait then t.calBegin t.d.calib.req else t

/-- CAL_RECORD_COMMIT: a class of the band has completed since its last commit, which lies 600 s back, and no run is in progress. -/
def effCalRecordCommit (t : Tx d0) : Tx d0 := t.calCommit

def execCalRecordCommit (s : State) : Host.Outcome State Fault Refusal := commit effCalRecordCommit s

end Sys2Proof.Machine
end

