-- ==== Sys2Proof/Machine/Micro.lean ====
section
/-! DEFINITION. The micro-sequencers as commands (chapter 06): the routines of the mask ROM as a whole, the micro-cycle, faults, and the patch set. -/
namespace Sys2Proof.Machine

variable {d0 : Device}

/-! Faults (R218, R240) -/

/-- A micro-sequencer fault: the sequencer halts, the engine stands in STATE FAULT with code ENGINE, and every waiting event is discarded. -/
def Tx.seqFault (t : Tx d0) (e code trap : Nat) : Tx d0 :=
  let u := (t.d.seq e).upc
  let t := (((t.w (R.ENG_FAULT.CODE e) code).w (R.ENG_FAULT.TRAP e) trap).w (R.ENG_FAULT.SPACE e) (u / 2 ^ 14 % 2)).w (R.ENG_FAULT.UPC e) (u % 2 ^ 14)
  let t := t.modSeq e (fun s => { s with events := [], fills := [], routine := none })
  let t := (t.w (R.ENG_STAT.SEQ_STATE e) 2).showSeq e
  let t := (t.haltEngine e 15).w (R.SCH_STAT.FAULT e) 15
  t.pend (64 + 4 * (e / 2) + e % 2)

/-! What the routines do (R247) -/

/-- Lines of the schedule cache that a block in slot `s` takes. -/
def slotLines (e s : Nat) : List Nat := (List.range 4).map (fun i => classBase 1 e + 4 * s + i)

/-- Operation `i` of a block in slot `s`. -/
def Device.slotOp (d : Device) (e s i : Nat) : Nat := d.sramLe (64 * (classBase 1 e + 4 * s) + 16 * i) 16

/-- LINE_FILL commits (R205, R212): the block becomes resident, each of its 16 operations that fails its check is marked invalid, and the line is
counted. -/
def Tx.lineFilled (t : Tx d0) (e b : Nat) : Tx d0 :=
  match (t.d.seq e).fills.find? (fun x => x.1 == b) with
  | none => t
  | some (_, s) =>
    let bad := (List.range 16).filter (fun i => t.d.checkBad e (t.d.slotOp e s i))
    let t := t.each bad (fun i t =>
      let k := tagKey e (16 * b + i)
      t.upd (.dtag k (bget (fun _ => 0) t.d.dtags k % 2 ^ 64 + 2 ^ 64)))
    let t := t.modSeq e (fun x => { x with fills := x.fills.filter (fun y => y.1 != b) })
    let t := (t.upd (.resS (e * 2 ^ 24 + b) (s + 1))).inc (R.ENG_LINES.LINES e)
    if bad.isEmpty then t else t.ev (R.ENG_EVT.LINE_BAD e)

/-- INVALIDATE commits: the block's residency and decode tags are cleared. -/
def Tx.invalidated (t : Tx d0) (e b : Nat) : Tx d0 := t.dropSched e b

/-- Blocks of the current record of an engine and of the one that follows it. -/
def Device.keptBlocks (d : Device) (e : Nat) (wave : Bool) : List Nat :=
  let cur := (d.eng e).curRec
  if cur = 0xFFFFFFFF then []
  else
    let r := d.resRec cur
    let next := rn r 12 4
    let rs := r :: (if next = 0xFFFFFFFF then [] else [d.resRec next])
    rs.flatMap (fun r => if wave then recWave r else recSched r)

/-- The part may evict any block of an engine that belongs to neither record (R160): which of them it evicts is open. -/
def Tx.evictOld (t : Tx d0) (e : Nat) : Tx d0 :=
  let mine := fun (m : Bank Nat) => (m.filter (fun x => x.1 / 2 ^ 24 == e)).map (fun x => x.1 % 2 ^ 24)
  let old := fun (wave : Bool) (l : List Nat) => l.filter (fun b => !(t.d.keptBlocks e wave).contains b)
  let t := t.each (old false (mine t.d.resS)) (fun b t => let (v, t) := t.open; if v % 2 = 1 then t.dropSched e b else t)
  t.each (old true ((mine t.d.resW).map (fun l => l / 4)).eraseDups) (fun b t =>
    let (v, t) := t.open
    if v % 2 = 1 then t.each (List.range 4) (fun i t => t.dropWave e (4 * b + i)) else t)

/-- SAFE_PASS commits: the evictions start, and the blocks of the record that follows the current one are asked for (R160). -/
def Tx.fetchAhead (t : Tx d0) (e : Nat) : Tx d0 :=
  let t := t.evictOld e
  let next := rn (t.d.resRec (t.d.eng e).curRec) 12 4
  if next = 0xFFFFFFFF || (t.d.eng e).curRec = 0xFFFFFFFF then t
  else
    let r := t.d.resRec next
    let t := t.each (recSched r) (fun b t => if (t.d.schedSlot e b).isSome then t else t.fetchBlock false b)
    t.each (recWave r) (fun b t => if (t.d.waveBlock e b).isSome then t else t.fetchBlock true b)

/-- HOST commits: what the bits of ENG_CTL ask for, and the bits clear (R23, R249). -/
def Tx.hostRoutine (t : Tx d0) (e : Nat) : Tx d0 :=
  let t := if t.b (R.ENG_CTL.QMAX_CLR e) then (t.w (R.ENG_QUEUE.MAX e) 0).doneS (R.ENG_CTL.QMAX_CLR e) else t
  if t.b (R.ENG_CTL.CNT_CLR e) then
    (((t.w (R.ENG_CNT.RESTARTS e) 0).w (R.ENG_CNT.ESCALATIONS e) 0).w (R.ENG_LINES.LINES e) 0).doneS (R.ENG_CTL.CNT_CLR e)
  else t

/-- A routine of the mask ROM commits: its effect. RUN_START, RUN_END and HOUSE have none that the spec names, and the fault that STOP records is the
FAULT record that its cause requested. -/
def Tx.routineCommits (t : Tx d0) (e : Nat) (x : SeqEvent) : Tx d0 :=
  match x.code with
  | 2 => t.voidRestore e
  | 4 => t.fetchAhead e
  | 5 => t.invalidated e x.arg
  | 7 => t.lineFilled e x.arg
  | 9 => t.hostRoutine e
  | _ => t

/-- The routine of an event has reached DONE: the engine votes again once its VOID routine has (R217), and STOP halts the sequencer, which then
discards every event (R218, R247). -/
def Tx.routineDone (t : Tx d0) (e code : Nat) : Tx d0 :=
  if code = 1 then (t.modSeq e (fun s => { s with routine := none, events := [], fills := [] })).w (R.ENG_STAT.SEQ_STATE e) 2
  else t.modSeq e (fun s => { s with routine := none, voidOpen := s.voidOpen && (code != 2 || s.events.any (fun x => x.code == 2)) })

/-! Escalation (R238) -/

/-- The first event that has been abandoned four times in a row is counted as raised to priority 3. -/
def Tx.escalate (t : Tx d0) (e : Nat) : Tx d0 :=
  let q := (t.d.seq e).events
  match q.findIdx? (fun x => 4 ≤ x.tries && !x.esc) with
  | none => t
  | some i =>
    let t := t.modSeq e (fun s => { s with events := s.events.modify i (fun x => { x with esc := true }) })
    (t.inc (R.ENG_CNT.ESCALATIONS e)).ev (R.ENG_EVT.ESCALATE e)

def effEscalate (e : Nat) (t : Tx d0) : Tx d0 := if t.b R.TB_STAT.AWAKE then t.escalate e else t

def execEscalate (e : Fin 64) (s : State) : Host.Outcome State Fault Refusal := commit (effEscalate e.val) s

/-! Routines as a whole -/

/-- The event that comes first by a priority is taken from the queue. -/
def Tx.takeBy (t : Tx d0) (e : Nat) (prio : SeqEvent → Nat) : Option SeqEvent × Tx d0 :=
  let t := t.escalate e
  match firstEvent prio (t.d.seq e).events with
  | none => (none, t)
  | some x => (some x, t.modSeq e (fun s => { s with events := s.events.erase x }))

/-- The event an idle sequencer takes next is taken from its queue. -/
def Tx.takeEvent (t : Tx d0) (e : Nat) : Option SeqEvent × Tx d0 := t.takeBy e SeqEvent.prio

/-- An idle sequencer runs one whole routine, where the event it takes next has this code (R215, R247). -/
def Tx.runRoutine (t : Tx d0) (e code : Nat) : Tx d0 :=
  let s := t.d.seq e
  if t.d.seqHalted e || s.routine.isSome || (nextEvent s.events).map SeqEvent.code ≠ some code then t
  else match t.takeEvent e with
    | (some x, t) => ((t.routineCommits e x).routineDone e x.code).showSeq e
    | (none, t) => t

/-- A routine command: the routine runs, and the HOST routine follows where it is next. In sleep the engine clocks stand (R664, R699). -/
def effRoutine (code e : Nat) (t : Tx d0) : Tx d0 := if t.b R.TB_STAT.AWAKE then (t.runRoutine e code).runRoutine e 9 else t

def effLineFill (e : Nat) (t : Tx d0) : Tx d0 := effRoutine 7 e t
def execLineFill (e : Fin 64) (s : State) : Host.Outcome State Fault Refusal := commit (effLineFill e.val) s

def effInvalidate (e : Nat) (t : Tx d0) : Tx d0 := effRoutine 5 e t
def execInvalidate (e : Fin 64) (s : State) : Host.Outcome State Fault Refusal := commit (effInvalidate e.val) s

def effSafePass (e : Nat) (t : Tx d0) : Tx d0 := effRoutine 4 e t
def execSafePass (e : Fin 64) (s : State) : Host.Outcome State Fault Refusal := commit (effSafePass e.val) s

def effVoidRoutine (e : Nat) (t : Tx d0) : Tx d0 := effRoutine 2 e t
def execVoidRoutine (e : Fin 64) (s : State) : Host.Outcome State Fault Refusal := commit (effVoidRoutine e.val) s

def effRunStartRoutine (e : Nat) (t : Tx d0) : Tx d0 := effRoutine 3 e t
def execRunStartRoutine (e : Fin 64) (s : State) : Host.Outcome State Fault Refusal := commit (effRunStartRoutine e.val) s

def effRunEndRoutine (e : Nat) (t : Tx d0) : Tx d0 := effRoutine 6 e t
def execRunEndRoutine (e : Fin 64) (s : State) : Host.Outcome State Fault Refusal := commit (effRunEndRoutine e.val) s

def effStopRoutine (e : Nat) (t : Tx d0) : Tx d0 := effRoutine 1 e t
def execStopRoutine (e : Fin 64) (s : State) : Host.Outcome State Fault Refusal := commit (effStopRoutine e.val) s

def effHouse (e : Nat) (t : Tx d0) : Tx d0 := effRoutine 8 e t
def execHouse (e : Fin 64) (s : State) : Host.Outcome State Fault Refusal := commit (effHouse e.val) s

/-! ENG_CTL (R213, R249) -/

/-- A write of 1 to a bit of ENG_CTL raises a HOST event; an idle sequencer runs its routine. -/
def Tx.engCtl (t : Tx d0) (e : Nat) (bit : Fld) : Tx d0 :=
  if t.d.seqHalted e then t.setS bit else ((t.setS bit).raise e 9 t.now.toNat).when (t.b R.TB_STAT.AWAKE) (fun t => t.runRoutine e 9)

def effQmaxClr (e : Nat) (t : Tx d0) : Tx d0 := t.hostReg (R.ENG_CTL.QMAX_CLR e).off (fun t => t.engCtl e (R.ENG_CTL.QMAX_CLR e))
def execQmaxClr (e : Fin 64) (s : State) : Host.Outcome State Fault Refusal := commit (effQmaxClr e.val) s

def effCntClr (e : Nat) (t : Tx d0) : Tx d0 := t.hostReg (R.ENG_CTL.CNT_CLR e).off (fun t => t.engCtl e (R.ENG_CTL.CNT_CLR e))
def execCntClr (e : Fin 64) (s : State) : Host.Outcome State Fault Refusal := commit (effCntClr e.val) s

/-! The microword (R219) -/

def mwNext (w : Nat) : Nat := bitsOf w 191 178
def mwBr (w : Nat) : Nat := bitsOf w 177 174
def mwDwell (w : Nat) : Nat := bitsOf w 173 171
def mwSample (w : Nat) : Bool := w.testBit 170
def mwCommit (w : Nat) : Bool := w.testBit 169
def mwSeq (w : Nat) : Nat := bitsOf w 168 166
def mwSpace (w : Nat) : Bool := w.testBit 165
def mwCinv (w : Nat) : Bool := w.testBit 164
def mwAlu (w : Nat) : Nat := bitsOf w 163 159
def mwSrcA (w : Nat) : Nat := bitsOf w 158 154
def mwSrcB (w : Nat) : Nat := bitsOf w 153 149
def mwBimm (w : Nat) : Bool := w.testBit 148
def mwDst (w : Nat) : Nat := bitsOf w 147 143
def mwDstWe (w : Nat) : Bool := w.testBit 142
def mwWidth (w : Nat) : Nat := 2 ^ (3 + bitsOf w 141 140)
def mwShift (w : Nat) : Nat := bitsOf w 139 138
def mwShamt (w : Nat) : Nat := bitsOf w 137 132
def mwFlagsWe (w : Nat) : Bool := w.testBit 131
def mwOpf (w : Nat) : Nat := bitsOf w 130 128
def mwOpadv (w : Nat) : Bool := w.testBit 127
def mwBus (w : Nat) : Nat := bitsOf w 126 124
def mwBusAddr (w : Nat) : Nat := bitsOf w 123 108
def mwBusIdx (w : Nat) : Bool := w.testBit 107
def mwBusReg (w : Nat) : Nat := bitsOf w 106 102
def mwCause (w : Nat) : Nat := bitsOf w 101 98
def mwMcnt (w : Nat) : Nat := bitsOf w 97 96
def mwImm (w : Nat) : Nat := w % 2 ^ 64

/-- A reserved encoding, or a reserved bit that is not 0 (R221). -/
def mwReserved (w : Nat) : Bool :=
  mwSeq w == 7 || 12 ≤ mwAlu w || mwOpf w == 7 || mwBus w == 7 || 13 ≤ mwCause w || mwMcnt w == 3 || bitsOf w 95 64 != 0

/-! Operands and the ALU (R220, R223) -/

/-- A scratch register; X0 reads 0. -/
def Seq.x (s : Seq) (i : Nat) : Nat := if i = 0 then 0 else s.xs.getD i 0

/-- Write a scratch register; a write to X0 is discarded. -/
def Seq.setX (s : Seq) (i v : Nat) : Seq := if i = 0 then s else { s with xs := s.xs.set i (v % 2 ^ 64) }

/-- Operand A. -/
def Seq.opA (s : Seq) (arg w : Nat) : Nat :=
  match mwOpf w with
  | 0 => s.x (mwSrcA w)
  | 1 => opCode s.opBits
  | 2 => opTarget s.opBits
  | 3 => opOffset s.opBits
  | 4 => opOperand s.opBits
  | 5 => s.opIdx
  | _ => arg

/-- Operand B, shifted. -/
def Seq.opB (s : Seq) (w : Nat) : Nat :=
  let b := if mwBimm w then mwImm w else s.x (mwSrcB w)
  let n := mwShamt w
  match mwShift w with
  | 0 => b
  | 1 => b * 2 ^ n % 2 ^ 64
  | 2 => b / 2 ^ n
  | _ => patternOf 64 (signedOf 64 b / (2 ^ n : Nat))

/-- The result of the ALU, masked to a width (R220, R223): the operands are taken whole. -/
def aluResult (op width a b : Nat) : Nat :=
  let m := 2 ^ width
  (match op with
  | 0x00 => a
  | 0x01 => b
  | 0x02 => a + b
  | 0x03 => a + (2 ^ 64 - b % 2 ^ 64)
  | 0x04 => a &&& b
  | 0x05 => a ||| b
  | 0x06 => a ^^^ b
  | 0x07 => a &&& (b ^^^ (2 ^ 64 - 1))
  | 0x08 => if a + 1 < m then a + 1 else m - 1
  | 0x09 => a + (2 ^ 64 - b % 2 ^ 64)
  | 0x0A => min a b
  | _ => max a b) % m

/-- Signed overflow of an addition or a subtraction at a width. -/
def aluOverflow (op width a b : Nat) : Bool :=
  let (x, y) := (signedOf width a, signedOf width b)
  let r := if op = 0x02 then x + y else x - y
  decide (r < -((2 ^ (width - 1) : Nat) : Int)) || decide (((2 ^ (width - 1) : Nat) : Int) ≤ r)

/-- The engine owns what the operation register's TARGET names (R64, R147, R222). -/
def Device.opOwned (d : Device) (e bits : Nat) : Bool :=
  let g := opTarget bits
  let c := opCode bits
  let tl := e / 2
  if c = 0x01 then e % 2 = 0 && g / 256 < 20 && g % 256 < 16
  else if c = 0x02 || c = 0x03 then g < 256 && (if e % 2 = 0 then decide (g < 16) else decide (16 ≤ g && g < 32))
  else if c = 0x04 then e % 2 = 1 && (List.range 8).any (fun i => g == chanName d.dev tl (6 + i))
  else if c = 0x05 then e % 2 = 0 && g == chanName d.dev tl 14
  else if 0x06 ≤ c && c ≤ 0x08 then e % 2 = 1 && g == chanName d.dev tl 5
  else false

/-- The opcode table lets the engine issue the opcode (R147, R222). -/
def opEngine (e c : Nat) : Bool :=
  if c = 0x01 || c = 0x05 then e % 2 == 0
  else if c = 0x04 || (0x06 ≤ c && c ≤ 0x08) then e % 2 == 1
  else c == 0x02 || c == 0x03 || isTerm c

/-- A condition as it stands at the start of the cycle (R222). -/
def Device.mwCond (d : Device) (e br : Nat) (r : Routine) : Bool :=
  let s := d.seq e
  match br with
  | 0x0 => false
  | 0x1 => true
  | 0x2 => s.flagZ
  | 0x3 => s.flagN
  | 0x4 => s.flagC
  | 0x5 => s.flagV
  | 0x6 => s.mcnt == 0
  | 0x7 => isTerm (opCode s.opBits)
  | 0x8 => s.opIdx == 15
  | 0x9 => d.opOwned e s.opBits
  | 0xA => opEngine e (opCode s.opBits)
  | 0xB => s.busErr
  | 0xC => s.busPoison
  | 0xD => d.running
  | 0xE => d.interrupted e r
  | _ => r.shadow.isEmpty

/-! The state bus and the shadow (R224, R225, R232 to R234) -/

/-- Engine clocks a bus address needs; 0 in the reserved range. -/
def busLatency (a : Nat) : Nat := if a < 0x1000 then 1 else if a < 0x2000 then 2 else if a < 0x4000 then 4 else if a < 0x8000 then 8 else 0

/-- Causes 1 to 12 of a microword. -/
def causeFld (e c : Nat) : Option Fld :=
  [R.SCH_EVT.LATE_FORK e, R.SCH_EVT.LOST e, R.SCH_EVT.VOID e, R.SCH_EVT.HOLD e, R.SCH_EVT.WAIT_TIMEOUT e, R.SCH_EVT.PORT_OVERRUN e,
   R.ENG_EVT.ISSUE_LATE e, R.ENG_EVT.BUS_SHORT e, R.ENG_EVT.RESTART e, R.ENG_EVT.ESCALATE e, R.ENG_EVT.PATCH_CE e, R.ENG_EVT.LINE_BAD e][c - 1]?

/-- What a bus operation makes of the value at its address. -/
def busResult (x : Shadow) (old : Nat) : Nat :=
  (match x.op with
  | 3 => old ||| x.data
  | 4 => old &&& (x.data ^^^ (2 ^ 64 - 1))
  | 5 => old + 1
  | _ => x.data) % 2 ^ 64

/-- A word of the header store read over the bus: corrected errors are counted, and an error that cannot be corrected tags the line and is logged, each
as for any consumer (R461, R462). -/
def Tx.busHeader (t : Tx d0) (e addr : Nat) : Tx d0 :=
  match busPlace addr with
  | .header i => t.readLine (classBase 4 (e / 2) + i / 8) 0 0
  | _ => t

/-- A visible effect takes place (R225, R233): a bus operation, a decode tag (operation 6, with the operation's index), or a cause (operation 8). -/
def Tx.drain1 (t : Tx d0) (e : Nat) (x : Shadow) : Tx d0 :=
  if x.op = 8 then (match causeFld e x.addr with | some F => t.ev F | none => t)
  else if x.op = 6 then t.upd (.dtag (tagKey e x.addr) (bget (fun _ => 0) t.d.dtags (tagKey e x.addr) / 2 ^ 64 * 2 ^ 64 + x.data % 2 ^ 64))
  else
    let t := if 3 ≤ x.op then t.busHeader e x.addr else t
    let (old, t) := match t.d.busGet e x.addr with
      | some v => (v, t)
      | none => if x.op = 2 then (0, t) else t.open
    t.busPut e x.addr (busResult x old)

/-- A visible effect enters the shadow before COMMIT, and takes place at once from COMMIT on; the answer is false where the shadow is full. -/
def Tx.visible (t : Tx d0) (e : Nat) (x : Shadow) : Bool × Tx d0 :=
  match (t.d.seq e).routine with
  | none => (true, t)
  | some r =>
    if r.committed then (true, t.drain1 e x)
    else if 64 ≤ r.shadow.length then (false, t)
    else (true, t.modSeq e (fun s => { s with routine := some { r with shadow := r.shadow ++ [x] } }))

/-- The routine commits: every shadow entry takes effect, and so does the routine's own work (R233, R247). -/
def Tx.seqCommit (t : Tx d0) (e : Nat) : Tx d0 :=
  match (t.d.seq e).routine with
  | none => t
  | some r =>
    if r.committed then t
    else
      let t := t.each r.shadow (fun x t => t.drain1 e x)
      (t.modSeq e (fun s => { s with routine := some { r with shadow := [], committed := true } })).routineCommits e r.ev

/-- A READ of the state bus: the shadow's value where it holds one for the address, else what stands there; a word that nothing has accessed and the
state does not hold reads as a free value, which it then holds. Whether an unnamed word carries poison is open. -/
def Tx.busRead (t : Tx d0) (e addr : Nat) : Nat × Bool × Tx d0 :=
  let sh := (((t.d.seq e).routine.map Routine.shadow).getD []).filter (fun x =>
    if x.op = 6 then busPlace addr == .decodeTag x.addr else x.op ≠ 8 && x.addr == addr)
  let t := t.busHeader e addr
  let (v, t) := match t.d.busGet e addr with
    | some v => (v, t)
    | none => let (v, t) := t.open; (v % 2 ^ 64, t.upd (.bus (busKey e addr) (v % 2 ^ 64 + 1)))
  let (p, t) := match t.d.busTagged e addr with
    | some p => (p, t)
    | none => let (p, t) := t.open; (p % 2 == 1, t)
  (sh.foldl (fun v x => busResult x v) v, p && sh.isEmpty, t)

/-- The bus operation of a microword: false where the shadow overflows. A TAG goes to the engine state, whatever BUS_ADDR says; outside a LINE_FILL the
operation register names no operation of the cache, and a TAG stores nothing (R225). -/
def Tx.busOp (t : Tx d0) (e w : Nat) (s : Seq) : Bool × Tx d0 :=
  let op := mwBus w
  if op = 0 then (true, t)
  else
    let a := if op = 6 then 0x1000 else (mwBusAddr w + (if mwBusIdx w then s.x (mwSrcA w) % 2 ^ 16 else 0)) % 2 ^ 16
    if busLatency a = 0 || mwDwell w + 1 < busLatency a then
      let t := (t.modSeq e (fun y => if op = 1 then { y.setX (mwBusReg w) 0 with busErr := true, busPoison := false } else { y with busErr := true })).ev (R.ENG_EVT.BUS_SHORT e)
      (true, t)
    else
      let t := t.modSeq e (fun y => { y with busErr := false })
      let data := s.x (mwBusReg w)
      if op = 1 then
        let (v, p, t) := t.busRead e a
        (true, t.modSeq e (fun y => { y.setX (mwBusReg w) v with busPoison := p }))
      else if op = 6 then
        match s.routine with
        | some r => if r.ev.code = 7 then t.visible e { op := 6, addr := 16 * r.ev.arg + s.opIdx, data := data } else (true, t)
        | none => (true, t)
      else if a < 0x1000 then (true, t.drain1 e { op := op, addr := a, data := data })
      else t.visible e { op := op, addr := a, data := data }

/-! Next address (R226 to R229, R241) -/

/-- Entry point of an operation's check (R227, R247). -/
def opEntry (c : Nat) : Nat :=
  match c with
  | 0x01 => 0x0200
  | 0x02 => 0x0240
  | 0x03 => 0x0280
  | 0x04 => 0x02C0
  | 0x05 => 0x0300
  | 0x06 => 0x0340
  | 0x07 => 0x0380
  | 0x08 => 0x03C0
  | 0x10 => 0x0400
  | 0x11 => 0x0440
  | 0x12 => 0x0480
  | 0x13 => 0x04C0
  | 0x1F => 0x0500
  | _ => 0x0540

/-- A fetch from mask ROM that hits an enabled match register goes to patch space (R241). -/
def Device.matched (d : Device) (e u : Nat) : Nat :=
  if u < 2 ^ 14 then
    match (List.range 32).find? (fun i => d.b (R.ENG_MATCH.EN e i) && d.f (R.ENG_MATCH.ROM_ADDR e i) == u) with
    | some i => 2 ^ 14 + d.f (R.ENG_MATCH.PADDR e i)
    | none => u
  else u

/-- The word after `u` in its space; none past the end of the space. -/
def upcSucc (u : Nat) : Option Nat := if u % 2 ^ 14 = (if u < 2 ^ 14 then 0x3FFF else 511) then none else some (u + 1)

/-- The target of a microword; none for a patch target beyond the patch RAM. -/
def mwTarget (w : Nat) : Option Nat := if mwSpace w then (if 512 ≤ mwNext w then none else some (2 ^ 14 + mwNext w)) else some (mwNext w)

/-- What follows a microword: the next micro-PC and stack, the end of the routine, or a fault with its code and trap number. -/
inductive MNext where
  | go (upc : Nat) (stack : List Nat)
  | done
  | halt (code trap : Nat)
  deriving DecidableEq, Repr

/-- R226. -/
def mwFollow (w u : Nat) (cond : Bool) (stack : List Nat) (opcode : Nat) : MNext :=
  let next := fun (x : Option Nat) (st : List Nat) => match x with | some v => MNext.go v st | none => MNext.halt 3 0
  let push := fun (x : Option Nat) => match upcSucc u with
    | none => MNext.halt 3 0
    | some r => if 8 ≤ stack.length then MNext.halt 4 0 else next x (r :: stack)
  match mwSeq w with
  | 0 => next (if cond then mwTarget w else upcSucc u) stack
  | 1 => if cond then push (mwTarget w) else next (upcSucc u) stack
  | 2 => if cond then (match stack with | [] => .halt 4 0 | r :: st => .go r st) else next (upcSucc u) stack
  | 3 => push (some (opEntry opcode))
  | 4 => next (if cond then mwTarget w else some u) stack
  | 5 => .done
  | _ => .halt 1 (mwImm w % 256)

/-! The micro-cycle -/

/-- The routine of an event starts: the first microword comes from its entry point, with an empty return stack (DESIGN CHOICE, log 202). -/
def Tx.startBy (t : Tx d0) (e : Nat) (prio : SeqEvent → Nat) : Tx d0 :=
  match t.takeBy e prio with
  | (none, t) => t
  | (some x, t) =>
    let u := t.d.matched e (evEntry x.code)
    t.modSeq e (fun s => { s with routine := some { ev := x, prio := x.prio }, upc := u, opNext := 0 })

/-- The routine of the event that R215 takes next starts. -/
def Tx.startRoutine (t : Tx d0) (e : Nat) : Tx d0 := t.startBy e SeqEvent.prio

/-- A higher-priority event at a sampling point: the routine is abandoned, the interrupting routine starts, and the abandoned event returns to the head
of its queue (R235, R237). An abandoned LINE_FILL whose line an INVALIDATE names is cancelled (R216). -/
def Tx.abandon (t : Tx d0) (e : Nat) (r : Routine) : Tx d0 :=
  let cancelled := r.ev.code = 7 && (t.d.seq e).events.any (fun x => x.code == 5 && x.arg == r.ev.arg)
  let back := if cancelled then [] else [{ r.ev with tries := r.ev.tries + 1, esc := false }]
  let t := (t.modSeq e (fun s => { s with routine := none })).startBy e (fun x => evPrio x.code)
  let t := t.modSeq e (fun s => { s with events := back ++ s.events })
  (t.inc (R.ENG_CNT.RESTARTS e)).ev (R.ENG_EVT.RESTART e)

/-- The next operation of the line under check is loaded into the operation register; after the line's last comes its first again (DESIGN CHOICE,
log 239). -/
def Tx.opAdvance (t : Tx d0) (e : Nat) (x : SeqEvent) : Tx d0 :=
  let s := t.d.seq e
  match (if x.code = 7 then s.fills.find? (fun y => y.1 == x.arg) else none) with
  | some (_, sl) =>
    let b := t.d.slotOp e sl (s.opNext % 16)
    t.modSeq e (fun s => { s with opBits := b, opIdx := s.opNext % 16, opNext := s.opNext + 1 })
  | none =>
    let (v, t) := t.open
    t.modSeq e (fun s => { s with opBits := v % 2 ^ 128, opIdx := s.opNext % 16, opNext := s.opNext + 1 })

/-- The datapath of a microword (R220): the answer is false where the shadow overflows. Every operand is read as it stood at the start; what the
flag C holds after a subtraction is open. -/
def Tx.datapath (t : Tx d0) (e w : Nat) (r : Routine) : Bool × Tx d0 :=
  let s := t.d.seq e
  let a := s.opA r.ev.arg w
  let b := s.opB w
  let op := mwAlu w
  let v := aluResult op (mwWidth w) a b
  let t := if mwDstWe w && op ≠ 9 then t.modSeq e (fun y => y.setX (mwDst w) v) else t
  let t := if mwFlagsWe w then
      let t := t.modSeq e (fun y => { y with flagZ := v == 0, flagN := v.testBit (mwWidth w - 1) })
      if op = 2 then t.modSeq e (fun y => { y with
        flagC := 2 ^ mwWidth w ≤ a % 2 ^ mwWidth w + b % 2 ^ mwWidth w, flagV := aluOverflow op (mwWidth w) a b })
      else if op = 3 || op = 9 then
        let (c, t) := t.open
        t.modSeq e (fun y => { y with flagC := c % 2 == 1, flagV := aluOverflow op (mwWidth w) a b })
      else t
    else t
  let t := match mwMcnt w with
    | 1 => t.modSeq e (fun y => { y with mcnt := mwImm w % 2 ^ 16 })
    | 2 => t.modSeq e (fun y => { y with mcnt := y.mcnt - 1 })
    | _ => t
  let t := if mwOpadv w then t.opAdvance e r.ev else t
  let t := if mwCommit w then t.seqCommit e else t
  let (ok, t) := t.busOp e w s
  if !ok then (false, t)
  else if mwCause w = 0 then (true, t)
  else t.visible e { op := 8, addr := mwCause w, data := 0 }

/-- The routine's counts of micro-cycles go on (R230, R236). -/
def Routine.tick (r : Routine) (sampled : Bool) (post : Bool) : Routine :=
  { r with cycles := r.cycles + 1, gap := if sampled then 1 else r.gap + 1, post := if post then r.post + 1 else r.post }

/-- A microword executes: `w` is the word, `r` the routine at its start (R220 to R236). Of several faults of one word, a reserved encoding is
recorded before a limit that is passed (DESIGN CHOICE, log 203). -/
def Tx.execWord (t : Tx d0) (e w : Nat) (r : Routine) : Tx d0 :=
  let s := t.d.seq e
  let sampled := mwSample w || mwCommit w
  let cond := t.d.mwCond e (mwBr w) r != mwCinv w
  if mwReserved w then t.seqFault e 2 0
  else if !r.committed && !sampled && 48 ≤ r.gap then t.seqFault e 6 0
  else if r.committed && 48 ≤ r.post then t.seqFault e 7 0
  else
    let idle := mwSeq w = 4 && !cond
    let t := t.modSeq e (fun x => { x with routine := some (r.tick sampled (r.committed || (mwCommit w && !idle))) })
    if idle then t.modSeq e (fun x => { x with upc := t.d.matched e s.upc })
    else
      let (ok, t) := t.datapath e w r
      if !ok then t.seqFault e 5 0
      else match mwFollow w s.upc cond r.stack (opCode s.opBits) with
        | .halt code trap => t.seqFault e code trap
        | .done => (((t.seqCommit e).routineDone e r.ev.code).startRoutine e)
        | .go u st => t.modSeq e (fun x => { x with upc := t.d.matched e u, routine := x.routine.map (fun y => { y with stack := st }) })

/-- A microword of the routine under way: what is read from mask ROM (`word`) or from the engine's patch RAM, its sampling point, and the word itself
(R230, R231, R235, R245). Before the word is read the length of the routine is tested, then its parity or check bits, then interrupts are
sampled, and only then the word executes (DESIGN CHOICE, log 203). `err` says what the parity or the check bits show on this read: 0 nothing, 1 one bit, 2 more. An error of a patch word stays in
it until the patch RAM is loaded again. -/
def Tx.microCycle (t : Tx d0) (e word err : Nat) : Tx d0 :=
  match (t.d.seq e).routine with
  | none => t
  | some r =>
    let u := (t.d.seq e).upc
    let inPatch := 2 ^ 14 ≤ u
    let a := u % 2 ^ 14
    let t := if inPatch && bget (fun _ => 0) t.d.patchErr (512 * e + a) < err then t.upd (.patchErr (512 * e + a) err) else t
    let bad := bget (fun _ => 0) t.d.patchErr (512 * e + a)
    if 4096 ≤ r.cycles then t.seqFault e 8 0
    else if !inPatch && err ≠ 0 then t.seqFault e 9 0
    else if inPatch && bad = 2 then t.seqFault e 10 0
    else
      let t := if inPatch && bad = 1 then t.ev (R.ENG_EVT.PATCH_CE e) else t
      let w := if inPatch then bget (fun _ => 0) t.d.patch a else word
      if (mwSample w || mwCommit w) && !r.committed && t.d.interrupted e r then t.abandon e r
      else t.execWord e w r

/-- MICROWORD: one micro-cycle, where the engine clocks run (R664, R699); an idle sequencer first takes its next event. -/
def effMicroword (e word err : Nat) (t : Tx d0) : Tx d0 :=
  if t.d.seqHalted e || !t.b R.TB_STAT.AWAKE then t
  else
    let t := if (t.d.seq e).routine.isNone then t.startRoutine e else t
    (t.microCycle e word err).showSeq e

def execMicroword (e : Fin 64) (word : BitVec 192) (err : Fin 3) (s : State) : Host.Outcome State Fault Refusal :=
  commit (effMicroword e.val word.toNat err.val) s

/-- A limit of a routine under way is passed, where `past` holds of it and the engine clocks run. -/
def Tx.limit (t : Tx d0) (e code : Nat) (past : Routine → Bool) : Tx d0 :=
  match (t.d.seq e).routine with
  | none => t
  | some r => if past r && t.b R.TB_STAT.AWAKE then t.seqFault e code 0 else t

/-- ROUTINE_LONG: 4,096 micro-cycles without DONE (R230). -/
def effRoutineLong (e : Nat) (t : Tx d0) : Tx d0 := t.limit e 8 (fun r => 4096 ≤ r.cycles)
def execRoutineLong (e : Fin 64) (s : State) : Host.Outcome State Fault Refusal := commit (effRoutineLong e.val) s

/-- SAMPLE_GAP: 48 micro-cycles before COMMIT without a sampling point (R236). -/
def effSampleGap (e : Nat) (t : Tx d0) : Tx d0 := t.limit e 6 (fun r => !r.committed && 48 ≤ r.gap)
def execSampleGap (e : Fin 64) (s : State) : Host.Outcome State Fault Refusal := commit (effSampleGap e.val) s

/-- COMMIT_OVERRUN: a 49th micro-cycle from COMMIT on (R236). -/
def effCommitOverrun (e : Nat) (t : Tx d0) : Tx d0 := t.limit e 7 (fun r => r.committed && 48 ≤ r.post)
def execCommitOverrun (e : Fin 64) (s : State) : Host.Outcome State Fault Refusal := commit (effCommitOverrun e.val) s

/-! The patch set (R242 to R246) -/

/-- PATCH_LOAD: the set that waits is loaded or refused, or waits on. -/
def effPatchLoad (t : Tx d0) : Tx d0 := t.patchNow

def execPatchLoad (s : State) : Host.Outcome State Fault Refusal := commit effPatchLoad s

end Sys2Proof.Machine
end

