-- ==== Sys2Proof/Machine/Thermal.lean ====
section
/-! DEFINITION. Temperature sensing and thermal bands (chapter 13): samples, bands, rate limits, THERM_N and shutdown. -/
namespace Sys2Proof.Machine

variable {d0 : Device}

/-! Readings (R435 to R438) -/

/-- A sensor whose readings count: it has one and is not faulted. -/
def Device.sensorOk (d : Device) (i : Nat) : Bool := !(d.readings i).isEmpty && !d.b (R.THM_SENS.FAULT i) && !d.sensorBad i

/-- Twice the median of a list of readings. -/
def median2 (vs : List Int) : Int :=
  let s := vs.mergeSort (fun a b => a ≤ b)
  let n := s.length
  s.getD ((n - 1) / 2) 0 + s.getD (n / 2) 0

/-- A sensor's new count of samples in a row more than 25 °C off the median of the other valid sensors. -/
def Device.deviation (d : Device) (i : Nat) : Nat :=
  let others := ((List.range 12).filter (fun j => j != i && d.sensorOk j)).map (fun j => (d.readings j).headD 0)
  if !others.isEmpty && 800 < (2 * (d.readings i).headD 0 - median2 others).natAbs then d.thermal.dev.getD i 0 + 1 else 0

/-- The valid sensor with the largest latest reading, the lower-numbered one of two (R438). -/
def Device.hottest (d : Device) : Option Nat :=
  ((List.range 12).filter d.sensorOk).foldl (fun b i => match b with
    | none => some i
    | some j => if (d.readings j).headD 0 < (d.readings i).headD 0 then some i else some j) none

/-! Bands (R439, R440) -/

/-- Rising threshold of band `k`, in sixteenths. -/
def bandAt (k : Nat) : Int := 320 + 320 * (k : Int)

/-- The band reached by the rising loop from band `b`. -/
def risen (b : Nat) (t : Int) : Nat := (List.range 4).foldl (fun k _ => if k < 4 && bandAt (k + 1) ≤ t then k + 1 else k) b

/-- The band reached by the falling loop from band `b`. -/
def fallen (b : Nat) (t : Int) : Nat := (List.range 4).foldl (fun k _ => if 0 < k && t ≤ bandAt k - 32 then k - 1 else k) b

/-- The target band (R440). -/
def targetBand (b : Nat) (t : Int) : Nat := if risen b t = b then fallen b t else risen b t

/-! Rates (R444) -/

/-- Rate of a sensor with 64 readings since power-on or since the end of shutdown. -/
def Device.sensorRate (d : Device) (i : Nat) : Option Int :=
  let h := d.readings i
  if d.thermal.fresh < 64 || h.length < 64 then none else some ((((h.take 32).foldl (· + ·) 0 - ((h.drop 32).take 32).foldl (· + ·) 0) * 1000) / 1024)

/-- The largest rate, held within its field; none where no valid sensor has 64 readings. -/
def Device.maxRate (d : Device) : Option Int :=
  (((List.range 12).filter d.sensorOk).filterMap d.sensorRate).foldl (fun b r => match b with
    | none => some (max (-2047) (min 2047 r))
    | some x => some (max x (max (-2047) (min 2047 r)))) none

/-! A sample -/

/-- The band, target and dwell of a sample (R440, R441, R443). -/
def Tx.bandSample (t : Tx d0) (temp : Int) : Tx d0 :=
  let b := t.f R.THM_STAT.BAND
  if !t.d.thermal.first then (t.w R.THM_STAT.BAND (risen 0 temp)).modThermal (fun x => { x with first := true, target := risen 0 temp })
  else
    let k := targetBand b temp
    let n := if k = b then 0 else if k = t.d.thermal.target then min 250 (t.f R.THM_STAT.DWELL + 1) else 1
    let t := t.w R.THM_STAT.DWELL n
    t.modThermal (fun x => { x with target := k, home := if k = b then min 250 (x.home + 1) else 0 })

/-- RATE_CLAMP (R446): engines end at their next safe point; with no run the fast clocks stop and every output is clamped. -/
def Tx.rateClamp (t : Tx d0) (rate : Nat) : Tx d0 :=
  let t := t.when (!t.b R.THM_STAT.RATE_CLAMP) (fun t => t.fault 0x0302 rate)
  let t := (t.wb R.THM_STAT.RATE_CLAMP true).ev R.THM_EVT.RATE_CLAMP
  if t.running then
    let age := t.d.age
    let t := t.each (List.range 64) (fun e t => if (t.d.eng e).live then t.modEng e (fun x => { x with stopAtSafe := true }) else t)
    t.modThermal (fun x => { x with rateT0 := some (x.rateT0.getD age) })
  else t.rateClampIdle

/-- Rate limits of a sample (R444 to R447). A sample on which no sensor has 64 readings reads RATE 0, which no limit acts on. -/
def Tx.rateSample (t : Tx d0) : Tx d0 :=
  let t := t.wb R.THM_STAT.RATE_SUPP ((List.range 12).any (fun i => t.d.sensorOk i && (t.d.thermal.fresh < 64 || (t.d.readings i).length < 64)))
  let r := t.d.maxRate.getD 0
  let acts := t.d.maxRate.isSome
  let t := t.w R.THM_MAX.RATE (patternOf 12 r)
  let warn : Int := t.f R.THM_RATE_LIM.WARN
  let clamp : Int := t.f R.THM_RATE_LIM.CLAMP
  let t := t.modThermal (fun x => { x with below := if r < warn then min 1000 (x.below + 1) else 0 })
  let t := if acts && warn ≤ r then (t.wb R.THM_STAT.RATE_WARN true).ev R.THM_EVT.RATE_WARN else t
  let t := if t.d.thermal.below = 1000 then (t.wb R.THM_STAT.RATE_WARN false).wb R.THM_STAT.RATE_CLAMP false else t
  if acts && clamp ≤ r then t.rateClamp r.toNat else t

/-- Temperature triggers of every path, powered or not, and the figures of the tiles that are on (R410, R411). -/
def Tx.calSample (t : Tx d0) : Tx d0 :=
  let t := t.each (List.range 32) (fun tl t =>
    let t := t.calTrigger 3 tl
    let t := t.each (List.range 5) (fun i t => (t.calTrigger 5 (5 * tl + i)).calTrigger 4 (5 * tl + i))
    if t.d.tileOn tl then (t.showTdiff tl).showAge tl else t)
  t.showCal

/-- SENSOR_SAMPLE: the twelve readings of a sample, in sixteenths of a degree. -/
def effSensorSample (temps : List Int) (t : Tx d0) : Tx d0 :=
  let t := t.modThermal (fun x => { x with hist := x.hist.zipIdx.map (fun (h, i) => (temps.getD i 0 :: h).take 64), fresh := min 64 (x.fresh + 1) })
  let dev := (List.range 12).map t.d.deviation
  let t := t.modThermal (fun x => { x with dev := dev })
  let t := t.each (List.range 12) (fun i t =>
    (t.w (R.THM_SENS.TEMP i) (patternOf 16 (temps.getD i 0))).wb (R.THM_SENS.VALID i) (t.d.sensorOk i))
  match t.d.hottest with
  | none => t.rateSample
  | some i =>
    let temp := (t.d.readings i).headD 0
    let t := (t.w R.THM_MAX.ID i).w R.THM_MAX.TEMP (patternOf 16 temp)
    let t := if !t.d.thermal.first || signedOf 16 (t.f R.THM_PEAK.PEAK) < temp then t.w R.THM_PEAK.PEAK (patternOf 16 temp) else t
    ((t.bandSample temp).rateSample).calSample

def execSensorSample (temps : List Int) (s : State) : Host.Outcome State Fault Refusal := commit (effSensorSample temps) s

/-- RATE_CLAMP_STOP: a run has not ended 10 ms after a rate clamp (R446). -/
def effRateClampStop (t : Tx d0) : Tx d0 :=
  match t.d.thermal.rateT0 with
  | none => t
  | some t0 =>
    if t.running && t0 + 20000000 ≤ t.d.age then
      let t := t.stopWork
      (t.modThermal (fun x => { x with rateT0 := none })).rateClampIdle
    else t

def execRateClampStop (s : State) : Host.Outcome State Fault Refusal := commit effRateClampStop s

/-! Shutdown (R449 to R452) -/

/-- Shutdown starts (R450); while the fast clocks sleep only the steps of the Keep and of power are taken (R454). -/
def Tx.shutdown (t : Tx d0) (why : Nat) : Tx d0 :=
  if t.b R.THM_STAT.SHUTDOWN then t
  else
    let now := t.d.age
    let t := ((t.wb R.THM_STAT.SHUTDOWN true).w R.THM_STAT.SHUT_WHY why).ev R.THM_EVT.SHUTDOWN
    let asleep := t.f R.PWR_STAT.STATE = 0
    let t := ((t.when (!asleep) Tx.stopWork).fault 0x0301 why).lifeInc 3
    let t := t.when (!asleep) (fun t => (t.watchClamp 8).abandonWake)
    let t := if t.d.keep.flight.any (fun x => !x.program) then (t.keepCut).ev R.THM_EVT.KEEP_ABORT else t
    let ended := if t.d.keep.flight.isNone then some now else none
    let t := t.modKeep (fun k => { k with held := true })
    (t.modThermal (fun x => { x with shutT0 := some now, ended := ended })).showWait

/-- SHUTDOWN_TRIP: the 115 °C comparator of sensor `i`, which is valid, trips (R449). -/
def effShutdownTrip (i : Nat) (t : Tx d0) : Tx d0 := if t.d.sensorOk i then t.shutdown 1 else t

def execShutdownTrip (i : Fin 12) (s : State) : Host.Outcome State Fault Refusal := commit (effShutdownTrip i.val) s

/-- SENSOR_FAULT: a sensor that must be faulted is (R436, R437). -/
def effSensorFault (i : Nat) (t : Tx d0) : Tx d0 :=
  if t.b (R.THM_SENS.FAULT i) || !t.d.sensorBad i then t
  else
    let t := (((t.wb (R.THM_SENS.FAULT i) true).wb (R.THM_SENS.VALID i) false).ev R.THM_EVT.SENS_FAULT).fault 0x0303 i
    if i < 8 && t.b (R.THM_SENS.FAULT (i / 2 * 2 + (1 - i % 2))) then t.shutdown 2 else t

def execSensorFault (i : Fin 12) (s : State) : Host.Outcome State Fault Refusal := commit (effSensorFault i.val) s

/-- KEEP_ABORT: 1.2 ms after the trip, or when a 120 °C comparator trips, a page program still in flight is aborted. -/
def effKeepAbort (t : Tx d0) : Tx d0 :=
  if t.b R.THM_STAT.SHUTDOWN && t.d.keep.flight.isSome then
    let now := t.d.age
    ((t.keepCut).ev R.THM_EVT.KEEP_ABORT).modThermal (fun x => { x with ended := some now })
  else t

def execKeepAbort (s : State) : Host.Outcome State Fault Refusal := commit effKeepAbort s

/-- The SRAM of a domain loses its contents (R464, R658). -/
def Tx.domLose (t : Tx d0) (k : Nat) : Tx d0 :=
  if k = 5 then t.losePower (classBase 3 0) (classBase 3 0 + 65536)
  else if k < 8 then t
  else t.each [2 * (k - 8), 2 * (k - 8) + 1] (fun tl t =>
    let t := (t.losePower (classBase 0 tl) (classBase 0 tl + 24576)).losePower (classBase 2 tl) (classBase 2 tl + 16384)
    let t := (t.losePower (classBase 4 tl) (classBase 4 tl + 256)).losePower (classBase 1 (2 * tl)) (classBase 1 (2 * tl) + 8192)
    t.upd (.dropRes (2 * tl) (2 * tl + 2)))

/-- Clamps of a tile's outputs after a loss of power: POWERUP, and DISCONNECT where a disconnect is open (R368, R653). -/
def Tx.clampPower (t : Tx d0) (tl : Nat) : Tx d0 :=
  t.each (tileOutputs tl) (fun k t =>
    let disc := 1000 ≤ k && k < 2000 && (t.f (R.WATCH_DISC.OPEN ((k - 1000) / 32))).testBit ((k - 1000) % 32)
    t.setClamp k (if disc then 9 else 8))

/-- SHUTDOWN_POWER_DOWN: 10 µs after the Keep's last program ended, the fast clocks stop and every domain but AON and HOST powers
down, those that were still on their way up included; the tiles' outputs are clamped (R368). -/
def effShutdownPowerDown (t : Tx d0) : Tx d0 :=
  match t.d.thermal.ended with
  | none => t
  | some e =>
    if !t.b R.THM_STAT.SHUTDOWN || t.d.age < e + 20000 || t.f R.PWR_DOM_STAT.ON = 3 then t
    else
      let t := (((t.stopClocks).w R.PWR_DOM_STAT.ON 3).w R.PWR_TILE_STAT.UP 0).modPower (fun x => { x with ups := [], upStep := 5 })
      let t := t.each (List.range 24) (fun k t => if k < 2 then t else t.domLose k)
      t.each (List.range 32) (fun tl t => t.clampPower tl)

def execShutdownPowerDown (s : State) : Host.Outcome State Fault Refusal := commit effShutdownPowerDown s

/-! Band changes (R441, R442, R416) -/

/-- BAND_PEND: DWELL has reached 250 samples at a target other than the band in force. -/
def effBandPend (t : Tx d0) : Tx d0 :=
  if t.f R.THM_STAT.DWELL = 250 && t.d.thermal.target ≠ t.f R.THM_STAT.BAND then (t.wb R.THM_STAT.BAND_PEND true).w R.THM_STAT.NEXT_BAND t.d.thermal.target else t

def execBandPend (s : State) : Host.Outcome State Fault Refusal := commit effBandPend s

/-- BAND_WDRAWN: 250 samples in a row at the band in force. -/
def effBandWdrawn (t : Tx d0) : Tx d0 :=
  if t.b R.THM_STAT.BAND_PEND && t.d.thermal.home = 250 then (t.wb R.THM_STAT.BAND_PEND false).ev R.THM_EVT.BAND_WDRAWN else t

def execBandWdrawn (s : State) : Host.Outcome State Fault Refusal := commit effBandWdrawn s

/-- BAND_CHG: a pending change takes effect, at the start of a gap or on a tick without a run. -/
def effBandChg (t : Tx d0) : Tx d0 := t.bandChange

def execBandChg (s : State) : Host.Outcome State Fault Refusal := commit effBandChg s

/-! THERM_N (R448) -/

/-- THERM_N is driven low. -/
def Device.thermNLow (d : Device) : Bool :=
  let m := d.f R.THM_CTL.THERM_MASK
  d.b R.THM_STAT.SHUTDOWN || (m.testBit 0 && d.f R.THM_STAT.BAND == 4) || (m.testBit 1 && d.b R.THM_STAT.RATE_WARN) ||
    (m.testBit 2 && d.b R.THM_STAT.RATE_CLAMP) || (m.testBit 3 && (List.range 12).any (fun i => d.b (R.THM_SENS.FAULT i)))

end Sys2Proof.Machine
end

