-- ==== Sys2Proof/Machine/KeepCmds.lean ====
section
/-! DEFINITION. The Keep as commands (chapter 15): two-phase commits, reclaim, retirement, the boot scan, and LIFE. -/
namespace Sys2Proof.Machine

variable {d0 : Device}

/-! Units -/

/-- The role that takes new records: LOG, or RING in the worn state (R516). -/
def Device.logRole (d : Device) : Nat := if d.keep.wear = 0 then 1 else 4

/-- Logical units of a role's circle. -/
def circle (role : Nat) : Nat := if role = 4 then 8 else 2876

/-- Erased units kept ahead of the head (R508, R516). -/
def aheadOf (role : Nat) : Nat := if role = 4 then 2 else 4

/-- The unit at a distance after the head in its circle that still holds the role. -/
def Device.after (d : Device) (n : Nat) : Option Nat :=
  d.unitOf d.logRole (((d.unit d.keep.head).logical + n) % circle d.logRole)

/-- The next unit after the head in its circle. -/
def Device.nextUnit (d : Device) : Option Nat := ((List.range (circle d.logRole)).map (fun i => i + 1)).findSome? d.after

/-- An erased unit: its header stands and no record follows it. -/
def KUnit.erased (u : KUnit) : Bool := u.recs.isEmpty && !u.suspect

/-- A record and its COMMIT fit in the unit (R499), which no failed or interrupted program has closed (R505, R513). -/
def KUnit.fits (u : KUnit) (r : KRec) : Bool :=
  decide (u.used + { r with committed := true }.size ≤ 65536) && u.recs.all (fun x => x.good && x.comTorn.isNone) && !u.suspect

/-- The head moves to the next unit, where that is erased. -/
def Tx.openNext (t : Tx d0) : Bool × Tx d0 :=
  match t.d.nextUnit with
  | some u => if (t.d.unit u).erased then (true, t.modKeep (fun k => { k with head := u })) else (false, t)
  | none => (false, t)

/-- As many erased units lie ahead of the head as must (R508, R516). -/
def Device.aheadOk (d : Device) : Bool :=
  let us := ((List.range (circle d.logRole - 1)).filterMap (fun i => d.after (i + 1))).take (aheadOf d.logRole)
  us.length == aheadOf d.logRole && us.all (fun u => (d.unit u).erased)

/-- Make room for a record at the head. A new record opens the next unit only where as many erased ones lie ahead as must, so that a relocation, which
`moved` marks, finds room. -/
def Tx.roomFor (t : Tx d0) (r : KRec) (moved : Bool) : Bool × Tx d0 :=
  if (t.d.unit t.d.keep.head).fits r then (true, t) else if moved || t.d.aheadOk then t.openNext else (false, t)

/-- Put a record at the head. -/
def Tx.putRec (t : Tx d0) (r : KRec) : Tx d0 := t.modUnit t.d.keep.head (fun u => { u with recs := u.recs ++ [r] })

/-- A record written and committed without a break: a relocation (R508), or the power-down LIFE record (R512); the answer says whether it found room. -/
def Tx.putWhole (t : Tx d0) (r : KRec) : Bool × Tx d0 :=
  match t.roomFor r true with
  | (true, t) => (true, t.putRec { cls := r.cls, key := r.key, seq := r.seq, body := r.body, committed := true })
  | (false, t) => (false, t)

/-- How many units after the head a logical unit of its circle is opened: the head itself comes last. -/
def Device.opensIn (d : Device) (logical : Nat) : Nat :=
  let n := circle d.logRole
  (logical + 2 * n - (d.unit d.keep.head).logical - 1) % n + 1

/-- GEN of the header that is programmed after an erase (R493, R515): for a unit of the role that takes new records its place in the order in which those
are opened, counted from the head's; a unit of the other of LOG and RING keeps its own; for a firmware unit the descriptor's. `spare`: a spare that
replaces the unit has a higher GEN than it. -/
def Device.nextGen (d : Device) (x : KUnit) (fwGen : Nat) (spare : Bool) : Nat :=
  let least := x.gen + spare.toNat
  if x.role = d.logRole then max least ((d.unit d.keep.head).gen + d.opensIn x.logical)
  else if x.role = 1 || x.role = 4 then least
  else max fwGen (x.gen + 1)

/-! Registers (R521) -/

/-- Physical units, as the role map lists them. -/
def Device.unitsOf (d : Device) (role : Nat) : Nat := ((List.range 4096).filter (fun u => (d.unit u).role == role)).length

/-- Show the Keep's state, once READY. -/
def Tx.showKeep (t : Tx d0) : Tx d0 :=
  if !t.b R.KEEP_STAT.READY then t
  else
    let t := ((t.w R.KEEP_STAT.STATE t.d.keep.wear).w R.KEEP_STAT.RING_GOOD (t.d.unitsOf 4)).showQueue
    let t := (t.w R.KEEP_WEAR.SPARES (t.d.unitsOf 5)).w R.KEEP_WEAR.RETIRED (min 255 (t.d.unitsOf 0))
    let top := (List.range 4096).foldl (fun m u => let x := t.d.unit u; if 1 ≤ x.role && x.role ≤ 3 then max m x.erases else m) 0
    (t.w R.KEEP_ERASE.MAX top).wb R.KEEP_STAT.BUSY t.d.keep.flight.isSome

/-! Retirement (R514 to R517) -/

/-- The failed state (R517). -/
def Tx.keepFails (t : Tx d0) : Tx d0 :=
  if t.d.keep.wear = 2 then t else ((t.modKeep (fun k => { k with wear := 2, todo := [] })).ev R.KEEP_EVT.RING_FAIL).showKeep

/-- The worn state, for want of a spare for unit `u`: new records go to the ring from its first good unit (R516). Units that were still to be replaced
stay as they are. -/
def Tx.keepWorn (t : Tx d0) (u : Nat) : Tx d0 :=
  if t.d.keep.wear ≠ 0 then t
  else
    let ring := ((List.range 8).filterMap (t.d.unitOf 4)).head?
    let t := t.modKeep (fun k => { k with wear := 1, wornBy := some u, head := ring.getD k.head, todo := k.todo.filter Prod.fst })
    ((t.ev R.KEEP_EVT.WORN).fault 0x0F03 0).showKeep

/-- The ROLE byte of a unit has been programmed to 0x00 (R494, R514, R517). -/
def Tx.roleGone (t : Tx d0) (u : Nat) : Tx d0 :=
  let ring := (t.d.unit u).role = 4
  let t := ((t.modUnit u KUnit.retired).ev R.KEEP_EVT.RETIRE).fault 0x0F02 u
  if ring && decide (t.d.unitsOf 4 < 4) then t.keepFails else t.showKeep

/-- A spare has been erased and takes the role and number of a unit, with a higher GEN (R515). What a firmware unit holds of an image goes with it
(DESIGN CHOICE, log 214). -/
def Tx.spareTakes (t : Tx d0) (s u : Nat) : Tx d0 :=
  let x := t.d.unit u
  let g := t.d.nextGen x x.gen true
  let t := (t.modUnit s (fun y => { role := x.role, logical := x.logical, erases := y.erases + 1, gen := g })).lifeInc 5
  let t := t.modKeep (fun k => { k with head := if k.head = u then s else k.head })
  (if x.role = 2 || x.role = 3 then t.each (List.range 15) (fun j t => t.putBytes s j (t.d.blockBytes u j)) else t).showKeep

/-- The spares. -/
def Device.spares (d : Device) : List Nat := (List.range 4096).filter (fun s => (d.unit s).role == 5)

/-- The Watch may start a program or an erase (R450, R491, R512, R657); while it restarts commits wait, but for that of its boot ROM (R539, R540). -/
def Device.keepFree (d : Device) : Bool :=
  d.b R.KEEP_STAT.READY && d.domOn 6 && d.keep.flight.isNone && !d.keep.held && d.power.pwrfailN && d.power.pwrfailOk && d.keep.wear ≠ 2 &&
    (d.f R.WATCH_STAT.STATE ≠ 2 || d.fw.trial)

/-- Where units wait to be retired, the Keep goes on with the first: its ROLE byte, or the erase of a spare. With no spare left it is worn (R516). -/
def Tx.keepNext (t : Tx d0) : Tx d0 :=
  if !t.d.keepFree then t
  else match t.d.keep.todo with
    | [] => t
    | (true, u) :: _ => t.keepStart { what := .role, unit := u }
    | (false, u) :: _ =>
      match t.d.spares.head? with
      | none => t.keepWorn u
      | some s => let (ok, t) := t.verifies; t.keepStart { what := .spare u, unit := s, ok := ok }

/-- A unit is to be retired: a ring unit by its ROLE byte, another once a spare has its place. -/
def Tx.retire (t : Tx d0) (u : Nat) : Tx d0 := (t.modKeep (fun k => { k with todo := k.todo ++ [((t.d.unit u).role == 4, u)] })).keepNext

/-- An erase of a LOG or RING unit has verified: its new header is programmed. -/
def Tx.erased (t : Tx d0) (u : Nat) : Tx d0 :=
  let g := t.d.nextGen (t.d.unit u) 0 false
  ((t.modUnit u (fun x => { role := x.role, logical := x.logical, erases := x.erases + 1, gen := g, fails := x.fails })).lifeInc 5).showKeep

/-- The unit is to be retired instead of erased (R505, R514). -/
def KUnit.spent (x : KUnit) : Bool := decide (3 ≤ x.fails) || decide (100000 ≤ x.erases)

/-! Staging (R456, R468, R500) -/

/-- The first line of a place of the staging region: sixteen places of 961 lines, behind 1,008 lines of Watch state (DESIGN CHOICE, log 105). -/
def stageLine (slot : Nat) : Nat := classBase 3 0 + 50160 + 961 * slot

/-- The bytes of a staged record. Its sequence number is put in when phase 1 begins. -/
def KReq.staged (q : KReq) : List Byte := ({ cls := q.cls, key := q.key, seq := q.seq.getD 0, body := q.body } : KRec).header ++ q.body

/-- Lines a staged commit takes. -/
def KReq.lines (q : KReq) : Nat := (q.staged.length + 63) / 64

/-- The `i`th line of a staged commit. -/
def KReq.line (q : KReq) (i : Nat) : List Byte := ((q.staged.drop (64 * i)) ++ List.replicate 64 0).take 64

/-- A staged commit is written to a place of the staging region. -/
def Tx.layStage (t : Tx d0) (q : KReq) (slot : Nat) : Tx d0 :=
  t.each (List.range q.lines) (fun i t => t.writeLine (stageLine slot + i) (q.line i))

/-- Every staged commit that has no place yet gets the lowest free one and is written there. The Watch does so whenever it goes on with the commits, and
so before the first program of each (DESIGN CHOICE, log 105). -/
def Tx.stageAll (t : Tx d0) : Tx d0 :=
  t.each (List.range t.d.keep.queue.length) (fun i t =>
    match t.d.keep.queue[i]?, (List.range 16).find? (fun s => !t.d.keep.queue.any (fun q => q.slot == some s)) with
    | some q, some s =>
      if q.slot.isSome then t
      else (t.modKeep (fun k => { k with queue := k.queue.set i { q with slot := some s } })).layStage q s
    | _, _ => t)

/-- The Watch writes a line of its state, or of the staging region, again from its source (R468, R476). -/
def Tx.restageLine (t : Tx d0) (l : Nat) : Tx d0 :=
  match (if l < stageLine 0 then none else t.d.keep.queue.find? (fun q => q.slot == some ((l - stageLine 0) / 961))) with
  | none => t.openFill l 1
  | some q => t.writeLine l (q.line ((l - stageLine 0) % 961))

/-- The first line of the commit in front that a read finds poisoned, of whatever kind (R468). -/
def Device.badStage (d : Device) (q : KReq) : Option Nat :=
  match q.slot with
  | none => none
  | some s => ((List.range q.lines).map (fun i => stageLine s + i)).find? (fun l => d.lineKind l != 0)

/-! Commits (R503 to R506) -/

/-- A commit is complete. -/
def Tx.committed (t : Tx d0) (cls key seq : Nat) : Tx d0 :=
  let t := ((t.inc R.KEEP_CNT.COMMITS).w R.KEEP_SEQ.SEQ seq).showQueue
  if cls = 1 && key < 5 then ((t.ev R.CAL_EVT.COMMIT).w R.CAL_KEEP_SEQ.SEQ seq).showCalSrc
  else if cls = 7 then t.ev R.WATCH_EVT.FAULT_LOGGED
  else t

/-- Where the page ends of which byte `n` of a unit's last record is the first to program, counted in the record (R490, R500). -/
def KUnit.pageEnd (u : KUnit) (r : KRec) (n : Nat) : Nat :=
  let at' := { u with recs := u.recs.dropLast }.used
  min r.total ((at' + n) / 256 * 256 + 256 - at')

/-- The next page of the record in front is programmed. -/
def Tx.nextPage (t : Tx d0) : Tx d0 :=
  let u := t.d.keep.head
  match (t.d.unit u).recs.getLast? with
  | none => t
  | some r => if r.total ≤ r.fill then t else t.keepStart { what := .record ((t.d.unit u).pageEnd r r.fill), unit := u }

/-- Phase 1 of the commit in front begins: its staging lines are read, its header line takes the sequence number, and the first page of the record is
programmed at the head (R499, R500). A poisoned staging line puts it off: the commit is staged again (R468, R520). -/
def Tx.phase1 (t : Tx d0) (q : KReq) : Tx d0 :=
  match t.d.badStage q with
  | some l => (t.readLine l 0 5).layStage q (q.slot.getD 0)
  | none =>
    let t := t.each q.slot.toList (fun s t => t.each (List.range q.lines) (fun i t => t.corrected 3 (stageLine s + i)))
    let seq := q.seq.getD t.d.keep.nextSeq
    let r : KRec := { cls := q.cls, key := q.key, seq := seq, body := q.body, fill := 0, good := false }
    match t.roomFor r false with
    | (false, t) => t
    | (true, t) =>
      let q' := { q with seq := some seq, phase := 1 }
      let t := if q.seq.isSome then t else t.each q.slot.toList (fun s t => t.writeLine (stageLine s) (q'.line 0))
      ((t.putRec r).modKeep (fun k => { k with
        queue := q' :: k.queue.drop 1
        nextSeq := if q.seq.isNone then k.nextSeq + 1 else k.nextSeq })).nextPage

/-- A read-back fails (R505, R517): the unit is closed, and the record is written again in the next unit. -/
def Tx.progRetry (t : Tx d0) (q : KReq) : Tx d0 :=
  let u := t.d.keep.head
  let ring := t.d.logRole = 4
  let n := t.d.freeN
  let t := (t.modLast u (fun r => if q.phase = 1 then { r with good := false, fill := 0, torn := some (n, r.total) }
    else { r with committed := false, comTorn := some n })).upd .free
  let t := t.modUnit u (fun x => { x with fails := x.fails + 1 })
  let t := (t.modKeep (fun k => { k with
    queue := { q with phase := 0, retries := q.retries + 1 } :: k.queue.drop 1, ringFails := if ring then k.ringFails + 1 else 0 })).ev R.KEEP_EVT.PROG_RETRY
  if 3 ≤ t.d.keep.ringFails then t.keepFails else t

/-- Every page of the record in front has been programmed. -/
def Device.recordWhole (d : Device) : Bool := (d.unit d.keep.head).recs.getLast?.any (fun r => decide (r.total ≤ r.fill))

/-- KEEP_RECORD_COMMIT: the commit in front goes on by a phase, or by a page where its pages were held up; `ok` is the read-back of what was programmed
last. A unit that waits to be retired goes first. -/
def effKeepRecordCommit (ok : Bool) (t : Tx d0) : Tx d0 :=
  if !t.d.keepFree then t
  else if !t.d.keep.todo.isEmpty then t.keepNext
  else
  let t := t.stageAll
  match t.d.keep.queue with
  | [] => t
  | q :: _ =>
    if q.phase = 0 then t.phase1 q
    else if q.phase = 1 && !t.d.recordWhole then t.nextPage
    else if !ok then t.progRetry q
    else if q.phase = 1 then
      (t.modKeep (fun k => { k with queue := { q with phase := 2 } :: k.queue.drop 1 })).keepStart { what := .com, unit := t.d.keep.head }
    else
      (t.modKeep (fun k => { k with queue := k.queue.drop 1, ringFails := 0 })).committed q.cls q.key (q.seq.getD 0)

def execKeepRecordCommit (readBackOk : Bool) (s : State) : Host.Outcome State Fault Refusal := commit (effKeepRecordCommit readBackOk) s

/-- Firmware pages may be programmed: the Keep takes work, no unit waits to be retired, and its commit queue is empty (R533). -/
def Device.fwReady (d : Device) : Bool := d.keepFree && d.keep.queue.isEmpty && d.keep.todo.isEmpty

/-- The slot an update writes (R530, R544). -/
def Device.fwTarget (d : Device) : Nat := if d.b R.FW_STAT.RECOVERY then 0 else 1 - d.f R.FW_STAT.RUNNING

/-- The unit that holds a slot block (R523). -/
def Device.fwUnit (d : Device) (s i : Nat) : Option Nat := d.unitOf (2 + s) (i / 15)

/-- A slot block's bytes. -/
def Device.fwBlock (d : Device) (s i : Nat) : List Byte :=
  match d.fwUnit s i with
  | some u => d.blockBytes u (i % 15)
  | none => erasedBytes 4096

/-- The block that a firmware command in progress is to put at NEXT: BEGIN's and LIT's own, or the running slot's for a COPY (R531, R532). -/
def Device.fwData (d : Device) : List Byte :=
  match d.fw.cur with
  | some (_, 3, args, _) => d.fwBlock (d.f R.FW_STAT.RUNNING) (args.getD 1 0 + d.f R.FW_STAT.NEXT - args.getD 0 0)
  | some (_, _, _, b) => b
  | none => []

/-- The next page of the block at NEXT is programmed. -/
def Tx.fwNextPage (t : Tx d0) : Tx d0 :=
  let i := t.f R.FW_STAT.NEXT
  match t.d.fw.pages, t.d.fwUnit t.d.fwTarget i with
  | some k, some u => if k < 16 && t.d.fwReady then t.keepStart { what := .fwPage (i % 15) k ((t.d.fwData.drop (256 * k)).take 256), unit := u } else t
  | _, _ => t

/-- GEN of the descriptor of a slot as it stands (R528, R531). -/
def Device.descGen (d : Device) (s : Nat) : Nat :=
  leNat (((((d.fw.descs.map (fun l => l.getD s [])).getD []).drop 4).take 4))

/-- A firmware unit has been erased: its header is programmed with the descriptor's GEN, and it holds nothing else (R531); the command in progress that
asked for it goes on. -/
def Tx.fwErased (t : Tx d0) (u : Nat) (cmd : Bool) : Tx d0 :=
  let g := t.d.descGen t.d.fwTarget
  let t := (t.modUnit u (fun x => { role := x.role, logical := x.logical, erases := x.erases + 1, gen := g, fails := x.fails })).lifeInc 5
  let t := t.each (List.range 15) (fun j t => t.putBytes u j (erasedBytes 4096))
  if !cmd then t.showKeep
  else ((t.modFw (fun x => { x with going := if x.going = 2 then 3 else x.going, pages := if x.going = 2 then none else some 0 })).showKeep).fwNextPage

/-- What follows a program or erase that has ended. -/
def Tx.flightDone (t : Tx d0) (f : KFlight) : Tx d0 :=
  match f.what with
  | .erase => if f.ok then t.erased f.unit else t.retire f.unit
  | .record m =>
    let t := t.modLast f.unit (fun r => { r with fill := m, good := decide (r.total ≤ m) })
    if t.d.keepFree && t.d.keep.queue.head?.any (fun q => q.phase == 1) then t.nextPage else t
  | .com =>
    let n := t.d.freeN
    if (t.d.unit f.unit).suspect then (t.modLast f.unit (fun r => { r with comTorn := some n })).upd .free
    else t.modLast f.unit (fun r => { r with committed := true })
  | .fwErase cmd => if f.ok then t.fwErased f.unit cmd else t.retire f.unit
  | .fwPage j k data =>
    let old := t.d.blockBytes f.unit j
    let bs := old.take (256 * k) ++ programOver ((old.drop (256 * k)).take 256) data ++ old.drop (256 * k + 256)
    ((t.putBytes f.unit j bs).modFw (fun x => { x with pages := x.pages.map (fun k => k + 1) })).fwNextPage
  | .spare u =>
    if f.ok then ((t.spareTakes f.unit u).modKeep (fun k => { k with todo := (true, u) :: k.todo.drop 1 })).keepNext
    else (t.modKeep (fun k => { k with todo := (true, f.unit) :: k.todo })).keepNext
  | .role => ((t.modKeep (fun k => { k with todo := k.todo.drop 1 })).roleGone f.unit).keepNext

/-- PROGRAM_OR_ERASE_END: the program or erase in flight completes; where a record or a firmware block has another page, and nothing holds it up, that
is programmed next. -/
def effProgramOrEraseEnd (t : Tx d0) : Tx d0 :=
  match t.d.keep.flight with
  | none => t
  | some f =>
    let now := t.d.age
    let t := ((t.modKeep (fun k => { k with flight := none })).wb R.KEEP_STAT.BUSY false).flightDone f
    if t.b R.THM_STAT.SHUTDOWN && t.d.thermal.ended.isNone then t.modThermal (fun x => { x with ended := some now }) else t

def execProgramOrEraseEnd (s : State) : Host.Outcome State Fault Refusal := commit effProgramOrEraseEnd s

/-! Reclaim (R508, R514) -/

/-- Records of a class and key that are kept: the latest two, and of FAULT the latest 4,096 (R498, R516). -/
def Device.kept (d : Device) (r : KRec) : Bool :=
  if !r.committed || !r.good then false
  else if r.cls = 7 then d.faults.any (fun x => x.seq == r.seq)
  else
    let newer := ((d.recUnits.flatMap (fun u => (d.unit u).recs)).filter (fun x => x.cls == r.cls && x.key == r.key && x.committed && x.good && r.seq < x.seq)).map KRec.seq
    newer.eraseDups.length < 2

/-- The live records of a unit that no other unit holds a copy of. -/
def Device.toMove (d : Device) (u : Nat) : List KRec :=
  (d.unit u).recs.filter (fun r => d.kept r && !(d.recUnits.any (fun v => v != u && (d.unit v).recs.any (fun x => x.seq == r.seq && x.committed && x.good))))

/-- Live records are copied to the head (R508); the answer says whether all found room. -/
def Tx.relocate (t : Tx d0) (rs : List KRec) : Bool × Tx d0 :=
  rs.foldl (fun (x : Bool × Tx d0) r => if x.1 then x.2.putWhole r else x) (true, t)

/-- The oldest unit of the log: the first one after the head that is not erased. -/
def Device.oldest (d : Device) : Option (Nat × Nat) :=
  ((List.range (circle d.logRole - 1)).map (fun i => i + 1)).findSome? (fun n =>
    match d.after n with
    | some u => if (d.unit u).erased then none else some (n, u)
    | none => none)

/-- A commit's phases have begun. -/
def Device.committing (d : Device) : Bool := d.keep.queue.head?.any (fun q => q.phase != 0)

/-- LOG_RECLAIM: between commits, where fewer erased units lie ahead of the head than must, the oldest one's live records are relocated, and it is
erased, or retired where it has failed or is worn out; `eraseOk`: the erase verifies. A unit that waits to be retired goes first. -/
def effLogReclaim (eraseOk : Bool) (t : Tx d0) : Tx d0 :=
  if !t.d.keepFree || t.d.committing then t
  else if !t.d.keep.todo.isEmpty then t.keepNext
  else match t.d.oldest with
    | none => t
    | some (n, u) =>
      if aheadOf t.d.logRole < n then t
      else match t.relocate (t.d.toMove u) with
        | (false, t) => t
        | (true, t) => if (t.d.unit u).spent then t.retire u else t.keepStart { what := .erase, unit := u, ok := eraseOk }

def execLogReclaim (eraseOk : Bool) (s : State) : Host.Outcome State Fault Refusal := commit (effLogReclaim eraseOk) s

/-! The boot scan (R495, R509 to R512) -/

/-- A unit is suspect (R510): the target of an aborted program or erase, a header that fails HCRC, or a record or COMMIT that fails CHECK. -/
def KUnit.bad (x : KUnit) : Bool := x.role != 0 && (x.suspect || x.torn.isSome || x.recs.any (fun r => !r.good || r.comTorn.isSome))

/-- Units that claim a role and number which a unit of a higher generation holds are retired (R495). -/
def Tx.scanRoles (t : Tx d0) : Tx d0 :=
  t.each (t.d.keep.units.map Prod.fst) (fun u t =>
    let x := t.d.unit u
    if x.role = 0 || x.role = 5 || t.d.unitOf x.role x.logical = some u then t else t.roleGone u)

/-- Every item whose live record would be one that fails CHECK is reported (R504). -/
def Tx.scanChecks (t : Tx d0) : Tx d0 :=
  let items := ((t.d.recUnits.flatMap (fun u => (t.d.unit u).recs)).map (fun r => (r.cls, r.key))).eraseDups
  t.each items (fun c t => t.checkLive c.1 c.2)

/-- During the scan a unit is retired for the first spare whose erase verifies; one that fails is retired itself (R514, R515). -/
def Tx.replaceNow (t : Tx d0) (u : Nat) : List Nat → Tx d0
  | [] => t.keepWorn u
  | s :: rest =>
    match t.verifies with
    | (true, t) => (t.spareTakes s u).roleGone u
    | (false, t) => (t.roleGone s).replaceNow u rest

/-- During the scan a suspect unit is erased, or retired where it must be (R511, R514, R517). -/
def Tx.scanErase (t : Tx d0) (u : Nat) : Tx d0 :=
  let go := fun (t : Tx d0) => if (t.d.unit u).role = 1 then t.replaceNow u t.d.spares else t.roleGone u
  if (t.d.unit u).spent then go t
  else match t.verifies with
    | (true, t) => t.erased u
    | (false, t) => go t

/-- A suspect unit's live records are relocated, and it is erased, but for a LOG unit in the worn state, or one whose records found no room (R511). A spare
whose erase was aborted is erased again (R520). The failed state only counts the unit (R517). -/
def Tx.scanSuspect (t : Tx d0) : Tx d0 :=
  t.each ((t.d.keep.units.map Prod.fst).filter (fun u => (t.d.unit u).bad && [1, 4, 5].contains (t.d.unit u).role)) (fun u t =>
    let t := if t.d.keep.head = u then t.openNext.2 else t
    let rs := if t.d.keep.wear = 2 then [] else t.d.toMove u
    let t := match t.relocate rs with
      | (true, t) => if t.d.keep.wear = 2 || (t.d.keep.wear = 1 && (t.d.unit u).role = 1) then t else t.scanErase u
      | (false, t) => t
    let t := (t.w R.KEEP_BOOT.SUSPECT (min 255 (t.f R.KEEP_BOOT.SUSPECT + 1))).w R.KEEP_BOOT.RELOCATED (min 255 (t.f R.KEEP_BOOT.RELOCATED + rs.length))
    (t.ev R.KEEP_EVT.SUSPECT).fault 0x0F01 u)

/-- LIFE as the Keep holds it; the boot, and a power-down that left no record, are counted (R501, R512). A Keep without a LIFE record starts with every
count at 0 and reports nothing (R519). In the failed state the counts are held in SRAM only (R518). FAULT records that were asked for before now get
their BOOTS (R502). -/
def Tx.scanLife (t : Tx d0) : Tx d0 :=
  let t := match (if t.d.keep.wear = 2 then none else t.d.live 6 0) with
    | none => t
    | some r =>
      let t := t.modKeep (fun k => { k with life := (List.range 13).map (fun i => satAdd 32 (rn r.body (4 * i) 4) (k.life.getD i 0)) })
      if t.d.keep.downOk then t else ((t.lifeInc 12).ev R.KEEP_EVT.LIFE_GAP).fault 0x0F05 0
  let t := (t.lifeInc 1).modKeep (fun k => { k with downOk := false })
  let boots := leBytes 4 (t.d.keep.life.getD 1 0)
  t.modKeep (fun k => { k with queue := k.queue.map (fun q => if q.cls = 7 then { q with body := q.body.take 4 ++ boots ++ q.body.drop 8, slot := none } else q) })

/-- Factory items of which both copies fail are reported (R496, R521): IDENT, whose DETAIL is 0x10, and the lane presets, 0x11; the CAL set of a band is
when it is loaded (DESIGN CHOICE, log 213). -/
def Tx.scanOtp (t : Tx d0) : Tx d0 :=
  let bad := fun (n : Nat) (t : Tx d0) => (t.ev R.KEEP_EVT.OTP_BAD).fault 0x0F06 n
  let t := if identBad then bad 0x10 t else t
  if !otpGood 0x2A000 0x1000 && !otpGood 0x2B000 0x1000 then bad 0x11 t else t

/-- KEEP_BOOT_SCAN: the scan ends; how long it took is open. It starts no program or erase, and so does not end, in shutdown or while PWRFAIL_N is low
(R450, R512). -/
def effKeepBootScan (t : Tx d0) : Tx d0 :=
  if t.b R.KEEP_STAT.READY || !t.d.domOn 6 || t.d.keep.held || !t.d.power.pwrfailN || !t.d.power.pwrfailOk then t
  else
    let t := ((t.scanRoles).scanLife).scanChecks
    let top := (t.d.recUnits.flatMap (fun u => (t.d.unit u).recs)).foldl (fun m r => if r.good then max m r.seq else m) 0
    let t := ((t.modKeep (fun k => { k with nextSeq := top + 1 })).scanSuspect).scanOtp
    let (ms, t) := t.open
    let t := (t.w R.KEEP_BOOT.SCAN_MS ms).wb R.KEEP_STAT.READY true
    ((t.showKeep).showCalSrc).showWait

def execKeepBootScan (s : State) : Host.Outcome State Fault Refusal := commit effKeepBootScan s

/-! LIFE and power failure (R501, R507, R512, R513) -/

/-- Runs are counted up to now. -/
def Tx.countRuns (t : Tx d0) : Tx d0 :=
  let now := t.d.age
  let t := if t.running then t.modKeep (fun k => { k with runAcc := k.runAcc + (now - k.runMark), runMark := now }) else t
  let n := t.d.keep.runAcc / 7200000000000
  t.modKeep (fun k => { k with runAcc := k.runAcc % 7200000000000, life := k.life.set 2 (satAdd 32 (k.life.getD 2 0) n) })

/-- LIFE_HOUR: another powered hour; it counts for the band in force at its end. The minutes beyond a whole hour that an earlier power-down left stay. -/
def effLifeHour (t : Tx d0) : Tx d0 :=
  let t := ((t.lifeInc 0).lifeInc (6 + t.f R.THM_STAT.BAND)).countRuns
  let t := t.modKeep (fun k => { k with hourMark := t.d.age })
  t.stageAny 6 0 t.d.lifeBody

def execLifeHour (s : State) : Host.Outcome State Fault Refusal := commit effLifeHour s

/-- The Keep at the falling edge of PWRFAIL_N (R512, R520): nothing starts; an erase is aborted; a page program in flight runs to its end, and a commit
under way is interrupted, its unit suspect; with no program in flight and Tj at most 105 °C the power-down LIFE record is written. -/
def Tx.keepPowerFail (t : Tx d0) : Tx d0 :=
  let t := (t.wb R.KEEP_STAT.PWRFAIL true).lifeInc 4
  let busy := t.d.keep.flight.any KFlight.program
  let t := if busy then t else t.keepCut
  let t := if t.d.committing then (t.modUnit t.d.keep.head (fun u => { u with suspect := true })).restage else t
  if !busy && t.b R.KEEP_STAT.READY && t.d.keep.wear ≠ 2 && signedOf 16 (t.f R.THM_MAX.TEMP) ≤ 1680 then
    let t := t.countRuns
    let r : KRec := { cls := 6, key := 0, seq := t.d.keep.nextSeq, body := t.d.lifeBody }
    match t.putWhole r with
    | (true, t) => (t.modKeep (fun k => { k with nextSeq := k.nextSeq + 1, downOk := true })).committed 6 0 r.seq
    | (false, t) => t
  else t

/-- KEEP_WRITE_RESUME: PWRFAIL_N has been high for 10 ms (R513, R667, R673). -/
def effKeepWriteResume (t : Tx d0) : Tx d0 :=
  if !t.d.power.pwrfailN || t.d.power.pwrfailOk then t
  else
    let t := t.modPower (fun x => { x with pwrfailOk := true })
    let t := (t.restage).modKeep (fun k => { k with downOk := false })
    t.showWait

def execKeepWriteResume (s : State) : Host.Outcome State Fault Refusal := commit effKeepWriteResume s

end Sys2Proof.Machine
end

