-- ==== Sys2Proof/Machine/Power.lean ====
section
/-! DEFINITION. Power, clocks and resets as commands (chapter 21): the power-up sequence, tile pairs, wakes and sleeps, PWRFAIL_N, and the resets. -/
namespace Sys2Proof.Machine

variable {d0 : Device}

/-! Tile pairs (R658 to R660) -/

/-- A pair is on or powering up. -/
def Device.pairUp (d : Device) (k : Nat) : Bool := (d.f R.PWR_DOM_STAT.ON).testBit (8 + k) || (d.f R.PWR_TILE_STAT.UP).testBit k

/-- Show which pairs wait for a change. -/
def Tx.showPairs (t : Tx d0) : Tx d0 :=
  t.w R.PWR_TILE_STAT.PENDING ((List.range 16).foldl (fun v k => if (t.f R.PWR_TILE_CTL.EN).testBit k = t.d.pairUp k then v else v + 2 ^ k) 0)

/-- Offset ranges of a tile's registers that a reset or a loss of power returns to their reset values; the match registers stay (R246). -/
def tileRanges (tl : Nat) : List (Nat × Nat) :=
  let b := 0x100000 + 0x20000 * tl
  [(b, b + 0x3080), (b + 0x3100, b + 0x3180), (b + 0x3200, b + 0x20000)]

/-- Offset range of a tile's registers. -/
def tileAll (tl : Nat) : Nat × Nat := (0x100000 + 0x20000 * tl, 0x120000 + 0x20000 * tl)

/-- A pair loses power: its registers, the match registers and the patch RAM of its engines among them, memories, clamps and what its tiles held (R658).
R246 keeps match registers and patch RAM through resets only; its engines run from mask ROM until the next patch set is loaded (DESIGN CHOICE, log 82). -/
def Tx.pairOff (t : Tx d0) (k : Nat) : Tx d0 :=
  let t := (t.w R.PWR_DOM_STAT.ON (t.f R.PWR_DOM_STAT.ON &&& (0xFFFFFF ^^^ 2 ^ (8 + k)))).w R.PWR_TILE_STAT.UP (t.f R.PWR_TILE_STAT.UP &&& (0xFFFF ^^^ 2 ^ k))
  let t := (t.modPower (fun x => { x with ups := x.ups.filter (fun j => j != k) })).domLose (8 + k)
  let t := t.dropSteps (fun s => s.1 != 6 && calTile s.1 s.2.1 / 2 == k)
  let t := t.each (t.d.calPaths.map Prod.fst) (fun n t =>
    if n / 512 < 6 && calTile (n / 512) (n % 512) / 2 = k then t.modCalPath n (fun x => { x with fg := false, have' := none }) else t)
  t.each [2 * k, 2 * k + 1] (fun tl t =>
    let t := ((t.upd (.dropRegs (tileAll tl).1 (tileAll tl).2)).upd (.dropPatchErr (1024 * tl) (1024 * tl + 1024))).clampPower tl
    let t := ((t.upd (.tile tl {})).upd (.marker tl {})).upd (.recorded tl [])
    let t := t.each (List.range 20) (fun i t => t.upd (.mixer (20 * tl + i) {}))
    let t := t.each (List.range 64) (fun i t => t.upd (.port (64 * tl + i) {}))
    let t := t.each (List.range 5) (fun i t => t.upd (.outCfg (5 * tl + i) {}))
    let t := t.each (List.range 8) (fun i t => (t.upd (.rangeT0 (8 * tl + i) none)).upd (.ranged (8 * tl + i) false))
    t.each [2 * tl, 2 * tl + 1] (fun e t => (t.upd (.engine e {})).upd (.seq e {})))

/-- A pair begins to power up (R660). -/
def Tx.pairStart (t : Tx d0) (k : Nat) : Tx d0 :=
  if t.d.pairUp k then t
  else (t.w R.PWR_TILE_STAT.UP (t.f R.PWR_TILE_STAT.UP ||| 2 ^ k)).modPower (fun x => { x with ups := x.ups ++ [k] })

/-- TILE_PAIR_SWITCH: a wanted change of a pair takes effect (R659); pairs power up in ascending order (R660). -/
def effTilePairSwitch (k : Nat) (t : Tx d0) : Tx d0 :=
  let want := (t.f R.PWR_TILE_CTL.EN).testBit k
  let lower := (List.range k).any (fun j => (t.f R.PWR_TILE_CTL.EN).testBit j && !t.d.pairUp j)
  if (want && lower) || want = t.d.pairUp k || t.running || t.b R.GLB_RUN_STAT.PENDING || t.b R.THM_STAT.SHUTDOWN then t
  else if want then ((t.pairStart k).showPairs).showWait
  else if t.d.waitsDrain (2 * k) || t.d.waitsDrain (2 * k + 1) then t
  else ((t.pairOff k).showPairs).showWait

def execTilePairSwitch (k : Fin 16) (s : State) : Host.Outcome State Fault Refusal := commit (effTilePairSwitch k.val) s

/-- A tile's outputs settle from now on (R402), its flux outputs and marker show the committed image, and its paths are to take their coefficients, and
their background classes begin their windows (R407, R408). -/
def Tx.tileUp (t : Tx d0) (tl : Nat) : Tx d0 :=
  let ks := engineBlocks (2 * tl) ++ engineBlocks (2 * tl + 1)
  let t := if t.d.calib.body.isEmpty then t
    else t.modCalib (fun c => { c with due := c.due ++ ks.filter (fun k => !c.due.contains k) })
  let now := t.d.power.awakeTicks
  let t := t.each ((0, tl) :: (List.range 5).map (fun i => (1, 5 * tl + i)) ++ (List.range 8).map (fun i => (2, 8 * tl + i))) (fun c t =>
    t.modCalPath (calKey c.1 c.2) (fun x => { x with win := now }))
  let t := t.each (List.range 5) (fun i t => t.settle (5 * tl + i))
  let t := t.each (List.range 8) (fun i t =>
    let c := 8 * tl + i
    (t.w (R.FLX_OUT_STAT.GROUP c) (if t.d.img.act.isSome then t.d.groupOf c else 0)).wb (R.FLX_OUT_STAT.RANGE c) (t.d.rangeOf c))
  (t.wb (R.FLX_MARK.MIDLE tl) (t.d.midle tl)).modTile tl (fun x => { x with adcFrom := t.d.age })

/-- TILE_PAIR_UP: the pair that completes next does so. -/
def effTilePairUp (k : Nat) (t : Tx d0) : Tx d0 :=
  if t.d.power.ups.head? ≠ some k then t
  else
    let t := t.modPower (fun x => { x with ups := x.ups.drop 1 })
    let t := (t.w R.PWR_TILE_STAT.UP (t.f R.PWR_TILE_STAT.UP &&& (0xFFFF ^^^ 2 ^ k))).w R.PWR_DOM_STAT.ON (t.f R.PWR_DOM_STAT.ON ||| 2 ^ (8 + k))
    ((((t.tileUp (2 * k)).tileUp (2 * k + 1))).showPairs).showWait

def execTilePairUp (k : Fin 16) (s : State) : Host.Outcome State Fault Refusal := commit (effTilePairUp k.val) s

/-! Power-up (R662, R663) -/

/-- The internal power-on reset: everything but the Keep's flash, the memory beyond the part and the levels of its pins starts afresh; a program in
flight leaves its unit suspect (R510, R676, R711). A low PERST_N holds a fundamental reset (R674, R709). -/
def Tx.powerReset (t : Tx d0) (on : Nat) (pins : Power) : Tx d0 :=
  let t := (t.keepCut).upd .powerOn
  let t := t.modPower (fun x => { x with
    upStep := 0, por := pins.por, svc := pins.svc, aon := pins.aon, perstHigh := pins.perstHigh, pwrfailN := pins.pwrfailN, pwrfailOk := pins.pwrfailOk
    reset := if pins.perstHigh then none else some (1, true) })
  (t.w R.PWR_DOM_STAT.ON on).wb R.KEEP_STAT.PWRFAIL (!pins.pwrfailN)

/-- POWER_ON_RESET: the reset is released at P0, with every rail in its range. -/
def effPowerOnReset (t : Tx d0) : Tx d0 := t.powerReset 1 { t.d.power with por := false, svc := true, aon := true }

def execPowerOnReset (s : State) : Host.Outcome State Fault Refusal := commit effPowerOnReset s

/-- POWERUP_STEP: step `k` of the sequence from P0, in order. -/
def effPowerupStep (k : Nat) (t : Tx d0) : Tx d0 :=
  if t.d.power.por || t.d.power.upStep ≠ k then t
  else
    let on := fun (m : Nat) (t : Tx d0) => (t.w R.PWR_DOM_STAT.ON (t.f R.PWR_DOM_STAT.ON ||| m)).modPower (fun x => { x with upStep := k + 1 })
    match k with
    | 0 => on 0x01 t
    | 1 => on 0x40 t
    | 2 => on 0xBE t
    | 3 => ((t.each (List.range 16) (fun j t => if (t.f R.PWR_TILE_CTL.EN).testBit j then t.pairStart j else t)).showPairs).modPower (fun x => { x with upStep := 4 })
    | _ => if t.f R.PWR_TILE_STAT.UP = 0 then t.modPower (fun x => { x with upStep := 5 }) else t

def execPowerupStep (k : Fin 5) (s : State) : Host.Outcome State Fault Refusal := commit (effPowerupStep k.val) s

/-! Wakes (R665 to R669) -/

/-- PWR_CTL.WAKE is written (R666). While the fast clocks wake or are awake there is no wake to start, and the bit stays as it is, but for a write in
the clock in which the wake of an earlier one starts (R23). -/
def Tx.wakeWrite (t : Tx d0) : Tx d0 :=
  if t.f R.PWR_STAT.STATE = 0 || t.f R.PWR_STAT.STATE = 3 then
    ((t.setS R.PWR_CTL.WAKE).modPower (fun x => { x with wakeReq := true })).showWait
  else t

def effWake (t : Tx d0) : Tx d0 := t.hostReg R.PWR_CTL.WAKE.off Tx.wakeWrite

def execWake (s : State) : Host.Outcome State Fault Refusal := commit effWake s

/-- WAKE_START: W0, the first REFCLK edge at which a wake is requested and the conditions of R667 hold. -/
def effWakeStart (t : Tx d0) : Tx d0 :=
  if t.f R.PWR_STAT.STATE = 0 && t.d.power.wakeReq && t.d.wakeMiss = 0 && t.d.power.atEdge && t.d.domOn 4 then
    let t := (t.w R.PWR_STAT.STATE 1).doneS R.PWR_CTL.WAKE
    (t.modPower (fun x => { x with wakeReq := t.b R.PWR_CTL.WAKE, wakeEdges := 0, clocks := 0 })).showWait
  else t

def execWakeStart (s : State) : Host.Outcome State Fault Refusal := commit effWakeStart s

/-- PLL_LOCK: the core PLL locks. -/
def effPllLock (t : Tx d0) : Tx d0 :=
  if t.f R.PWR_STAT.STATE = 1 && !t.b R.TB_STAT.LOCKED then
    (t.wb R.TB_STAT.LOCKED true).modPower (fun x => { x with lockAt := t.d.age })
  else t

def execPllLock (s : State) : Host.Outcome State Fault Refusal := commit effPllLock s

/-- CLOCK_GROUP_ENABLE: group `g` of tile clocks 2g µs after the lock, or, as group 8, the lane, monitor, fabric and scrubber clocks (R668). -/
def effClockGroupEnable (g : Nat) (t : Tx d0) : Tx d0 :=
  let c := t.d.age
  if t.f R.PWR_STAT.STATE = 1 && t.b R.TB_STAT.LOCKED && t.d.power.clocks = 2 ^ g - 1 && t.d.power.lockAt + 4000 * g ≤ c then
    t.modPower (fun x => { x with clocks := x.clocks + 2 ^ g, clkAt := c })
  else t

def execClockGroupEnable (g : Fin 9) (s : State) : Host.Outcome State Fault Refusal := commit (effClockGroupEnable g.val) s

/-- What happens on the tick on which AWAKE is set (R89, R669); a HOST event that was raised asleep is served where it is next (R213). -/
def Tx.nowAwake (t : Tx d0) : Tx d0 :=
  let t := t.modTime (fun x => { x with fine := x.coarse })
  let t := ((t.wb R.TB_STAT.AWAKE true).w R.PWR_STAT.STATE 2).w R.PWR_STAT.WAKE_TIME t.d.power.wakeEdges
  let t := t.modPower (fun x => { x with idle := 0 })
  let t := t.wb R.SCRUB_STAT.RUNNING (t.b R.SCRUB_CTL.EN)
  let t := t.each (List.range 4) (fun q t => (t.wb (R.MON_STAT.RUNNING q) true).upd (.mon q {}))
  let t := t.each (List.range 32) (fun tl t => if t.d.tileOn tl then t.modTile tl (fun x => { x with adcFrom := t.d.age }) else t)
  let t := t.each (List.range 9) (fun p t => t.portSend p)
  let t := t.calAwake
  let t := if t.d.st.wait then t.stBegin else t
  (t.each (List.range 64) (fun e t => t.runRoutine e 9)).showPorts

/-- AWAKE: the REFCLK edge after the last clock group is enabled. -/
def effAwake (t : Tx d0) : Tx d0 :=
  if t.f R.PWR_STAT.STATE = 1 && t.d.power.clocks = 0x1FF && t.d.power.atEdge && t.d.power.clkAt < t.d.age then t.nowAwake else t

def execAwake (s : State) : Host.Outcome State Fault Refusal := commit effAwake s

/-! Sleeps (R670, R671) -/

/-- SLEEPING starts: AWAKE falls on its first tick. -/
def Tx.startSleep (t : Tx d0) : Tx d0 := ((t.doneS R.PWR_CTL.SLEEP).wb R.TB_STAT.AWAKE false).w R.PWR_STAT.STATE 3

/-- PWR_CTL.SLEEP is written. -/
def Tx.sleepWrite (t : Tx d0) : Tx d0 :=
  if t.f R.PWR_STAT.STATE = 2 then (if t.d.mayRest then (t.setS R.PWR_CTL.SLEEP).startSleep else t.setS R.PWR_CTL.SLEEP)
  else if t.f R.PWR_STAT.STATE = 1 then t.setS R.PWR_CTL.SLEEP
  else t

def effSleep (t : Tx d0) : Tx d0 := t.hostReg R.PWR_CTL.SLEEP.off Tx.sleepWrite

def execSleep (s : State) : Host.Outcome State Fault Refusal := commit effSleep s

/-- AUTO_SLEEP: the conditions have held for SLEEP_DELAY µs. -/
def effAutoSleep (t : Tx d0) : Tx d0 :=
  if t.f R.PWR_STAT.STATE = 2 && t.b R.PWR_CTL.AUTO_SLEEP && t.d.mayRest && 2000 * t.f R.PWR_CTL.SLEEP_DELAY ≤ t.d.power.idle then t.startSleep else t

def execAutoSleep (s : State) : Host.Outcome State Fault Refusal := commit effAutoSleep s

/-- SLEEPING: the steps of R671, from a sleep that has started or from one that was asked for and may start now. -/
def effSleeping (t : Tx d0) : Tx d0 :=
  let t := if t.f R.PWR_STAT.STATE = 2 && t.b R.PWR_CTL.SLEEP && t.d.mayRest then t.startSleep else t
  if t.f R.PWR_STAT.STATE = 3 then (t.gate).showWait else t

def execSleeping (s : State) : Host.Outcome State Fault Refusal := commit effSleeping s

/-! PWRFAIL_N and the rails (R512, R673, R711) -/

/-- The effects of a falling edge of PWRFAIL_N. -/
def Tx.powerFails (t : Tx d0) : Tx d0 :=
  let t := t.modPower (fun x => { x with pwrfailOk := false })
  let t := (((t.stopWork).watchClamp 8).stopClocks).dropSel
  let t := t.ev R.PWR_EVT.PWRFAIL
  ((t.keepPowerFail).fault 0x0801 0).showWait

/-- PWRFAIL_FALL: PWRFAIL_N has been low for 100 ns. Where AON has no power only the level is noted. -/
def effPwrfailFall (t : Tx d0) : Tx d0 :=
  if !t.d.domOn 0 then t.modPower (fun x => { x with pwrfailN := false, pwrfailOk := false })
  else if t.d.power.pwrfailN then (t.modPower (fun x => { x with pwrfailN := false })).powerFails else t

def execPwrfailFall (s : State) : Host.Outcome State Fault Refusal := commit effPwrfailFall s

/-- PWRFAIL_RISE: PWRFAIL_N is high again; without VDD_SVC it reads low (R709). -/
def effPwrfailRise (t : Tx d0) : Tx d0 :=
  if t.d.power.pwrfailN || !t.d.power.svc then t
  else ((t.modPower (fun x => { x with pwrfailN := true })).wb R.KEEP_STAT.PWRFAIL false).showWait

def execPwrfailRise (s : State) : Host.Outcome State Fault Refusal := commit effPwrfailRise s

/-- The pins once rail `i` of the order of R706 has fallen below 85 %: the reset is held (R662); without VDD_SVC its inputs read low (R709). That a rail is absent
below 85 % of its nominal voltage is the model's choice (DESIGN CHOICE, log 244). -/
def Power.railLost (p : Power) (i : Nat) : Power :=
  let p := { p with por := true, aon := p.aon && i != 2 }
  if i = 6 then { p with svc := false, perstHigh := false, pwrfailN := false, pwrfailOk := false } else p

/-- RAIL_DROP: rail `i` of VDD_CORE, SRAM, AON, AN, HV, IO and SVC below its range for 10 µs acts as PWRFAIL_N does; below 85 % of nominal it raises
power-on reset, which holds until P0. -/
def effRailDrop (i : Nat) (below85 : Bool) (t : Tx d0) : Tx d0 :=
  if below85 then t.powerReset 0 (t.d.power.railLost i)
  else if t.d.power.pwrfailN then (t.powerFails).wb R.KEEP_STAT.PWRFAIL false else t

def execRailDrop (rail : Fin 7) (below85 : Bool) (s : State) : Host.Outcome State Fault Refusal := commit (effRailDrop rail.val below85) s

/-! Resets (R674 to R677) -/

/-- Offset ranges that a reset of domains `lo` to 23 returns to reset values. The patch set and the counters of the Keep stay (R7, R676). -/
def resetRanges (lo : Nat) : List (Nat × Nat) :=
  [(if lo = 1 then 0 else 0x10, 0x404), (0x40C, 0x1000), (0x20000, 0x30000), (if lo = 1 then 0x30000 else 0x30100, 0x80000),
   (0x500000, 0x50000C), (0x500010, 0x500128), (0x501000, 0x502000)] ++
  (if lo = 1 then [(0x1000000, 0x2000000)] else []) ++ (List.range 32).flatMap tileRanges

/-- What registers of domain 6 show of the Keep and of the Watch's code, which no reset but power-on touches (R676). -/
def keptShown : List Fld :=
  [R.KEEP_STAT.READY, R.FW_STAT.RUNNING, R.FW_STAT.RECOVERY, R.FW_MINSVN.MIN_SVN] ++
  [0, 1].flatMap (fun s => [R.FW_SLOT.STATE s, R.FW_SLOT.TRIES s, R.FW_SLOT.SVN s, R.FW_VER.FW_VER s])

/-- Registers of domain 6 after its reset: what they show of the Keep and the Watch stands as it was, everything else is at its reset value (DESIGN
CHOICE, log 83). -/
def Tx.showKept (t : Tx d0) (vs : List (Fld × Nat)) : Tx d0 :=
  let t := t.each vs (fun x t => t.w x.1 x.2)
  (((t.wb R.KEEP_STAT.PWRFAIL (!t.d.power.pwrfailN)).wb R.KEEP_STAT.BUSY t.d.keep.flight.isSome)).showKeep

/-- A reset of domains `lo` to 23 (R675, R676); `cause` as PWR_RST reports it. A fundamental reset empties the queues and the pending bits; a device reset
disables the rings, which ends the entries that take them (R585). A firmware command in progress is dropped, and its update has no owner (R536). -/
def Tx.resetDomains (t : Tx d0) (lo cause : Nat) (perst : Bool) : Tx d0 :=
  let t := t.stopWork
  let t := (t.dropSel).stopClocks
  let t := if t.f R.PWR_STAT.STATE = 3 then t.gate else t
  let (synced, count, ok) := (t.f R.TB_STAT.SYNCED, t.f R.TB_STAT.SYNC_COUNT, t.f R.TB_STAT.REF_OK)
  let t := if lo = 1 then t.upd .dropQueues else t.each (List.range 5) (fun n t => t.endRings n)
  let used := t.b R.ECC_CXL_STAT.PRESENT
  let kept := keptShown.map (fun F => (F, t.f F))
  let t := (t.dropFw).upd .resetBlocks
  let t := t.each (resetRanges lo) (fun r t => t.upd (.dropRegs r.1 r.2))
  let t := (if lo = 1 then t.modHost (fun _ => {}) else t.modHost (fun x => { x with cxlLost := x.cxlLost || used })).showKept kept
  let t := ((t.w R.TB_STAT.SYNCED synced).w R.TB_STAT.SYNC_COUNT count).w R.TB_STAT.REF_OK ok
  let t := t.each (List.range 32) (fun tl t => t.clampPower tl)
  let t := (t.w R.PWR_RST.CAUSE cause).inc R.PWR_RST.COUNT
  let t := t.modPower (fun x => { x with reset := some (lo, perst), wakeReq := false })
  let t := t.modTime (fun x => { x with sout := false, soutNext := false, soutLeft := 0 })
  let t := ((t.wb R.PWR_CTL.WAKE false).wb R.PWR_CTL.SLEEP false)
  ((t.showPorts).showCalSrc).showWait

/-- FUNDAMENTAL_RESET: PERST_N falls (`perst`), or a hot reset or link disable. -/
def effFundamentalReset (perst : Bool) (t : Tx d0) : Tx d0 :=
  if !t.d.domOn 0 then t.modPower (fun x => { x with perstHigh := x.perstHigh && !perst }) else
  let t := t.resetDomains 1 (if perst then 2 else 3) perst
  if perst then t.modPower (fun x => { x with perstHigh := false }) else t

def execFundamentalReset (perst : Bool) (s : State) : Host.Outcome State Fault Refusal := commit (effFundamentalReset perst) s

/-- A write of PWR_RST_CTL (R677). -/
def Tx.rstCtl (t : Tx d0) (data : Nat) : Tx d0 :=
  if !data.testBit 31 then t
  else if data % 65536 = 0xD5E7 then t.resetDomains 2 4 false
  else t.ev R.PWR_EVT.RST_DENIED

def effDeviceReset (data : Nat) (t : Tx d0) : Tx d0 := t.hostReg R.PWR_RST_CTL.DEVICE.off (fun t => t.rstCtl data)

def execDeviceReset (data : Word) (s : State) : Host.Outcome State Fault Refusal := commit (effDeviceReset data.toNat) s

/-- PERST_N_RISE: PERST_N returns high, and the last 5 ms of the reset begin; without VDD_SVC it reads low (R709). -/
def effPerstNRise (t : Tx d0) : Tx d0 :=
  if !t.d.power.svc then t
  else t.modPower (fun x => { x with perstHigh := true, reset := x.reset.map (fun r => (r.1, false)) })

def execPerstNRise (s : State) : Host.Outcome State Fault Refusal := commit effPerstNRise s

/-- RESET_END: the reset in progress ends; the outputs of the pairs that are on settle (R402). -/
def effResetEnd (t : Tx d0) : Tx d0 :=
  match t.d.power.reset with
  | some (_, false) =>
    let t := t.modPower (fun x => { x with reset := none })
    t.each (List.range 32) (fun tl t => if t.d.tileOn tl then t.tileUp tl else t)
  | _ => t

def execResetEnd (s : State) : Host.Outcome State Fault Refusal := commit effResetEnd s

/-- RESUME: THM_CTL.RESUME is written in shutdown (R452). -/
def Tx.resume (t : Tx d0) : Tx d0 :=
  if !t.b R.THM_STAT.SHUTDOWN || 1440 < signedOf 16 (t.f R.THM_MAX.TEMP) then t
  else
    let t := t.resetDomains 2 5 false
    let t := ((t.wb R.THM_STAT.SHUTDOWN false).w R.THM_STAT.SHUT_WHY 0).wb R.THM_STAT.RATE_SUPP true
    let t := (t.modThermal (fun x => { x with fresh := 0, rateT0 := none, shutT0 := none, ended := none })).w R.THM_MAX.RATE 0
    let t := t.modKeep (fun k => { k with held := false })
    let t := t.w R.PWR_DOM_STAT.ON (t.f R.PWR_DOM_STAT.ON ||| 0xFF)
    let t := t.each (List.range 16) (fun k t => if (t.f R.PWR_TILE_CTL.EN).testBit k then t.pairStart k else t)
    (t.showPairs).showWait

def effResume (t : Tx d0) : Tx d0 := t.hostReg R.THM_CTL.RESUME.off Tx.resume

def execResume (s : State) : Host.Outcome State Fault Refusal := commit effResume s

end Sys2Proof.Machine
end

