-- ==== Sys2Proof/Machine/Firmware.lean ====
section
/-! DEFINITION. Firmware update and the service port (chapter 16): blocks, slots and descriptors; the commands of the mailbox; what a start of the
Watch chooses; and the service port. -/
namespace Sys2Proof.Machine

variable {d0 : Device}

/-! Blocks (R522, R523) -/

/-- A block's check value agrees. -/
def blockGood (bs : List Byte) : Bool := bs.length == 4096 && crc32c (bs.take 4092) == leNat (bs.drop 4092)

/-! The header block (R524 to R526) -/

/-- Sections of a header block in use: type, first block, blocks, length. -/
def fwSections (h : List Byte) : List (Nat × Nat × Nat × Nat) :=
  (List.range (min 8 (rn h 6 2))).map (fun i => (rn h (72 + 16 * i) 2, rn h (76 + 16 * i) 4, rn h (80 + 16 * i) 4, rn h (84 + 16 * i) 4))

/-- MAGIC, FORMAT, PART and NBLOCKS are right, and every section lies inside the image. -/
def headerGood (h : List Byte) : Bool :=
  let n := rn h 8 4
  rn h 0 4 == 0x42594657 && rb h 5 == 1 && rn h 20 4 == 0x4416 && 2 ≤ n && n ≤ 7680 && 1 ≤ rn h 6 2 && rn h 6 2 ≤ 8 &&
  (fwSections h).all (fun s => s.2.1 + s.2.2.1 ≤ n && s.2.2.2 ≤ 4092 * s.2.2.1)

/-- A key of the factory IDENT body. -/
def identBytes (a n : Nat) : List Byte := (List.range n).map (fun i => Config.identByte (a + i))

/-- SIG signs bytes 0 to 199 under the firmware key (R525). -/
def headerSigned (h : List Byte) : Bool := sigOk (identBytes 32 96) (h.take 200) ((h.drop 200).take 96)

/-- Data of a section of a slot. -/
def Device.fwSection (d : Device) (s : Nat) (x : Nat × Nat × Nat × Nat) : List Byte :=
  ((List.range x.2.2.1).flatMap (fun i => (d.fwBlock s (x.2.1 + i)).take 4092)).take x.2.2.2

/-- The section of a type. -/
def Device.fwFind (d : Device) (s type : Nat) : Option (Nat × Nat × Nat × Nat) := (fwSections (d.fwBlock s 0)).find? (fun x => x.1 == type)

/-- The patch set of a PATCH section (R527): identity, patch words, match entries, and the reason to refuse it that its form gives. -/
def patchSet (b : List Byte) : Nat × List Nat × List Nat × Nat :=
  let w := rn b 4 2
  let m := rn b 6 2
  let words := (List.range w).map (fun i => rn b (8 + 4 * m + 24 * i) 24)
  let ms := (List.range m).map (fun i => rn b (8 + 4 * i) 4)
  (rn b 0 4, words, ms, if b.length = 8 + 4 * m + 24 * w then patchRefuse words ms else 3)

/-! Descriptors (R528, R529) -/

/-- The body of a descriptor. -/
def fwDesc (state tries gen ver svn minSvn nblocks : Nat) (htag : List Byte) : List Byte :=
  [BitVec.ofNat 8 state, BitVec.ofNat 8 tries, 0, 0] ++ leBytes 4 gen ++ leBytes 4 ver ++ leBytes 2 svn ++ leBytes 2 minSvn ++ leBytes 4 nblocks ++
    (htag ++ List.replicate 32 0).take 32 ++ List.replicate 12 0

/-- The descriptor of slot A at manufacture. -/
def fwFirst : List Byte :=
  [3, 0, 0, 0] ++ (List.range 12).map (fun i => Config.firmware (2 ^ 25 + i)) ++ ((fwMade 0).drop 8).take 4 ++ (sha384 (fwMade 0)).take 32 ++ List.replicate 12 0

/-- A slot's descriptor as the Keep holds it. -/
def Device.keptDesc (d : Device) (s : Nat) : List Byte :=
  match d.live (2 + s) 0 with
  | some r => r.body
  | none => if s = 0 then fwFirst else List.replicate 64 0

def Device.desc (d : Device) (s : Nat) : List Byte := (d.fw.descs.map (fun l => l.getD s [])).getD (d.keptDesc s)

/-- STATE of a slot. -/
def Device.slotState (d : Device) (s : Nat) : Nat := rb (d.desc s) 0

/-- The slot the Watch started from, and MIN_SVN of that slot. -/
def Device.fwRun (d : Device) : Nat := d.f R.FW_STAT.RUNNING
def Device.minSvn (d : Device) : Nat := rn (d.desc d.fwRun) 14 2

/-- Show the descriptors. -/
def Tx.showFw (t : Tx d0) : Tx d0 :=
  (t.each [0, 1] (fun s t =>
    let b := t.d.desc s
    (((t.w (R.FW_SLOT.STATE s) (rb b 0)).w (R.FW_SLOT.TRIES s) (rb b 1)).w (R.FW_SLOT.SVN s) (rn b 12 2)).w (R.FW_VER.FW_VER s) (rn b 8 4))).w
    R.FW_MINSVN.MIN_SVN t.d.minSvn

/-- A descriptor as the Watch holds it changes. -/
def Tx.holdDesc (t : Tx d0) (s : Nat) (b : List Byte) : Tx d0 := t.modFw (fun x => { x with descs := x.descs.map (fun l => l.set s b) })

/-- The commit queue has room for the descriptors that a command changes (R506, R529); without, the command waits. -/
def Device.descRoom (d : Device) (n : Nat) : Bool := decide (d.keep.queue.length + n ≤ 16)

/-- A descriptor changes: its record is staged. In the worn and failed states no record of its class is (R516). -/
def Tx.setDesc (t : Tx d0) (s : Nat) (b : List Byte) : Tx d0 :=
  let t := t.holdDesc s b
  (if t.d.keep.wear = 0 then t.stageAny (2 + s) 0 b else t).showFw

/-! Commands (R534 to R545) -/

/-- A command ends with a result. -/
def Tx.fwDone (t : Tx d0) (r : Nat) : Tx d0 :=
  ((((t.w R.FW_STAT.RESULT r).wb R.FW_STAT.BUSY false).modFw (fun x => { x with cur := none, going := 0, pages := none })).ev R.GLB_DEV_EVT.FW_DONE)

/-- The read-back of the block at NEXT fails (R550): what stands there is open, the unit counts it, and the third time it is retired for a spare; the Watch
writes the block again in the same place. -/
def Tx.progFail (t : Tx d0) (p : Nat) : Tx d0 :=
  let n := t.d.freeN
  let bs := (List.range 4096).map (fun i => Config.freeByte n i)
  let t := (t.putBytes p (t.f R.FW_STAT.NEXT % 15) bs).upd .free
  let t := (t.modUnit p (fun x => { x with fails := x.fails + 1 })).ev R.KEEP_EVT.PROG_RETRY
  let t := t.modFw (fun x => { x with pages := none })
  if 3 ≤ (t.d.unit p).fails then t.retire p else t

/-- The block at NEXT goes on (R531): the erase of its unit where it is the first of it, a page, or the read-back, whose outcome `ok` tells, after which
NEXT moves on and the answer is true. -/
def Tx.blockStep (t : Tx d0) (ok : Bool) : Bool × Tx d0 :=
  let i := t.f R.FW_STAT.NEXT
  match t.d.fwUnit t.d.fwTarget i with
  | none => (false, t)
  | some p =>
    match t.d.fw.pages with
    | none =>
      if i % 15 = 0 then (false, if 100000 ≤ (t.d.unit p).erases then t.retire p else t.keepStart { what := .fwErase true, unit := p, ok := ok })
      else (false, (t.modFw (fun x => { x with pages := some 0 })).fwNextPage)
    | some k =>
      if k < 16 then (false, t.fwNextPage)
      else if !ok then (false, t.progFail p)
      else (true, ((t.putBytes p (i % 15) t.d.fwData).modFw (fun x => { x with pages := none })).w R.FW_STAT.NEXT (i + 1))

/-- A command that has passed its checks goes on, where the Keep takes firmware work (R533): BEGIN and LIT with their one block, COPY with one block after
another, each of which it checks before it programs it (R532). A worn Keep ends it: with PROG_FAIL where no spare was left for the unit it writes, else
with WORN (R550). -/
def Tx.fwGoOn (t : Tx d0) (op : Nat) (args : List Nat) (ok : Bool) : Tx d0 :=
  if t.d.keep.wear ≠ 0 then
    t.fwDone (if t.d.keep.wornBy.isSome && t.d.keep.wornBy == t.d.fwUnit t.d.fwTarget (t.f R.FW_STAT.NEXT) then 16 else 3)
  else if !t.d.keep.todo.isEmpty then t.keepNext
  else if t.d.fw.going = 3 then t.fwDone 2
  else if !t.d.fwReady then t
  else if t.d.fw.going = 2 then
    match t.d.fwUnit t.d.fwTarget (t.f R.FW_STAT.NEXT) with
    | none => t.fwDone 2
    | some p => if 100000 ≤ (t.d.unit p).erases then t.retire p else t.keepStart { what := .fwErase true, unit := p, ok := ok }
  else
    let copy := op = 3
    let left := fun (t : Tx d0) => args.getD 0 0 + args.getD 2 0 - t.f R.FW_STAT.NEXT
    let noSource := fun (t : Tx d0) =>
      let src := args.getD 1 0 + t.f R.FW_STAT.NEXT - args.getD 0 0
      copy && t.d.fw.pages.isNone && (decide (rn (t.d.desc t.d.fwRun) 16 4 ≤ src) || !blockGood t.d.fwData)
    if noSource t then t.fwDone 10
    else match t.blockStep ok with
      | (false, t) => t
      | (true, t) =>
        if !copy || left t = 0 then t.fwDone 1
        else if noSource t then t.fwDone 10
        else (t.blockStep ok).2

/-- The command in progress has passed its checks. -/
def Tx.fwGoing (t : Tx d0) (n : Nat) : Tx d0 := t.modFw (fun x => { x with going := n, pages := none })

/-- Where a resumed update goes on (R535). -/
def Device.resumeAt (d : Device) (s n : Nat) : Nat × Bool :=
  match ((List.range (n - 1)).map (fun i => i + 1)).find? (fun i => !blockGood (d.fwBlock s i)) with
  | none => (n, false)
  | some i => if (d.fwBlock s i).all (fun b => b == 0xFF) then (i, false) else (i / 15 * 15, true)

/-- BEGIN. -/
def Tx.fwBegin (t : Tx d0) (iface : Nat) (h : List Byte) (args : List Nat) (ok : Bool) : Tx d0 :=
  let s := t.d.fwTarget
  let old := t.d.desc s
  let tag := (sha384 h).take 32
  if t.d.keep.wear ≠ 0 then t.fwDone 3
  else if t.f R.FW_STAT.OWNER ≠ 0 && t.f R.FW_STAT.OWNER ≠ iface then t.fwDone 14
  else if t.d.slotState s = 3 && !t.b R.FW_STAT.RECOVERY then t.fwDone 12
  else if !blockGood h then t.fwDone 4
  else if !headerGood h then t.fwDone 6
  else if !headerSigned h then t.fwDone 7
  else if rn h 16 2 < t.d.minSvn then t.fwDone 9
  else
    let n := rn h 8 4
    if t.d.slotState s = 1 && (old.drop 20).take 32 == tag then
      let (i, wipe) := t.d.resumeAt s n
      let t := (t.w R.FW_STAT.OWNER iface).w R.FW_STAT.NEXT i
      if wipe then (t.fwGoing 2).fwGoOn 1 args ok else t.fwDone 2
    else if !t.d.descRoom 1 then t
    else
      let t := (t.w R.FW_STAT.OWNER iface).setDesc s (fwDesc 1 0 ((rn old 4 4 + 1) % 2 ^ 32) (rn h 12 4) (rn h 16 2) t.d.minSvn n tag)
      ((t.w R.FW_STAT.NEXT 0).fwGoing 1).fwGoOn 1 args ok

/-- What LIT, COPY and ACTIVATE ask first: the Keep's state, the owner, and an update in progress; 0 where they may go on. -/
def Device.fwGate (d : Device) (iface : Nat) : Nat :=
  if d.keep.wear ≠ 0 then 3
  else if d.f R.FW_STAT.OWNER ≠ 0 && d.f R.FW_STAT.OWNER ≠ iface then 14
  else if d.f R.FW_STAT.OWNER = 0 || d.slotState d.fwTarget ≠ 1 then 12
  else 0

/-- Blocks of the image being written. -/
def Device.fwLen (d : Device) : Nat := rn (d.desc d.fwTarget) 16 4

/-- LIT. -/
def Tx.fwLit (t : Tx d0) (iface idx : Nat) (b : List Byte) (args : List Nat) (ok : Bool) : Tx d0 :=
  let g := t.d.fwGate iface
  if g ≠ 0 then t.fwDone g
  else if idx ≠ t.f R.FW_STAT.NEXT || t.d.fwLen ≤ idx then t.fwDone 5
  else if !blockGood b then t.fwDone 4
  else (t.fwGoing 1).fwGoOn 2 args ok

/-- COPY. -/
def Tx.fwCopy (t : Tx d0) (iface idx count : Nat) (args : List Nat) (ok : Bool) : Tx d0 :=
  let g := t.d.fwGate iface
  if g ≠ 0 then t.fwDone g
  else if idx ≠ t.f R.FW_STAT.NEXT || count = 0 || 256 < count || t.d.fwLen < idx + count then t.fwDone 5
  else (t.fwGoing 1).fwGoOn 3 args ok

/-! Starts (R539 to R545, R651) -/

/-- Slot A is as the factory wrote it. -/
def Device.factorySlot (d : Device) : Bool :=
  let made := fun (u : Nat) => decide (2876 ≤ u) && decide (u < 3388)
  !d.keep.blocks.any (fun x => made (x.1 / 16)) && d.keep.units.all (fun x => !made x.1 || x.2.role == 2)

/-- A slot passes the checks of the boot ROM (R540). Slot A as the factory wrote it does. -/
def Device.slotPasses (d : Device) (s : Nat) : Bool :=
  (s == 0 && d.factorySlot) ||
  (let h := d.fwBlock s 0
   headerGood h && headerSigned h &&
   (fwSections h).all (fun x => (x.1 != 1 && x.1 != 2) || (List.range x.2.2.1).all (fun i => blockGood (d.fwBlock s (x.2.1 + i)))))

/-- The patch set of the slot is offered to the engines; a slot without one leaves them on mask ROM (R242, R527, R539). -/
def Tx.offerPatch (t : Tx d0) (s : Nat) : Tx d0 :=
  let x := match t.d.fwFind s 2 with
    | none => (0, [], [], 0)
    | some x =>
      let p := patchSet (t.d.fwSection s x)
      if (List.range x.2.2.1).all (fun i => blockGood (t.d.fwBlock s (x.2.1 + i))) then p else (p.1, p.2.1, p.2.2.1, 4)
  let x := if s = 0 && t.d.factorySlot then (0, [], [], 0) else x
  let bytes := if noPatch x then [] else ((t.d.fwFind s 2).map (fun y => t.d.fwSection s y)).getD []
  let t := t.modFw (fun y => { y with offered := bytes })
  (t.upd (.patchWait (some x))).watchSet R.ENG_PATCH_STAT.PENDING (t.running && !noPatch x).toNat

/-- The IDENT body the Keep holds or is about to hold. -/
def Device.identBody (d : Device) : List Byte :=
  match d.keep.queue.find? (fun q => q.cls == 4 && q.key == 0) with
  | some q => q.body
  | none => ((d.live 4 0).map KRec.body).getD (identBytes 0 256 ++ List.replicate 32 0)

/-- The Keep's IDENT record is compared with the factory body; the old ASSET is kept (R651). -/
def Tx.fixIdent (t : Tx d0) : Tx d0 :=
  let made := identBytes 0 256
  if (t.d.live 4 0).any (fun r => r.body.take 256 == made) then t
  else match t.stage 4 0 (made ++ (t.d.identBody.drop 256 ++ List.replicate 32 0).take 32) with
    | (true, t) => t.ev R.WATCH_EVT.IDENT_FIX
    | (false, t) => t

/-- The Watch runs from a slot. -/
def Tx.startSlot (t : Tx d0) (s : Nat) : Tx d0 :=
  let t := ((t.w R.FW_STAT.RUNNING s).wb R.FW_STAT.RECOVERY false).watchSet R.WATCH_STAT.STATE 1
  t.offerPatch s

/-- The slot with a state. -/
def Device.slotWith (d : Device) (state : Nat) : Option Nat := [0, 1].find? (fun s => d.slotState s == state)

/-- The boot ROM commits a descriptor, before what waits in the queue, which has a place more for it, and after a commit whose phases have begun (R540;
DESIGN CHOICE, log 215). -/
def Tx.romDesc (t : Tx d0) (s : Nat) (b : List Byte) : Tx d0 :=
  ((t.holdDesc s b).modKeep (fun k => { k with
    queue := k.queue.takeWhile (fun q => q.phase != 0) ++ { cls := 2 + s, key := 0, body := b } ::
      (k.queue.dropWhile (fun q => q.phase != 0)).filter (fun q => q.cls != 2 + s) })).showQueue

/-- The ACTIVE slot, or recovery. -/
def Tx.startActive (t : Tx d0) : Tx d0 :=
  match t.d.slotWith 3 with
  | some s => if t.d.slotPasses s then t.startSlot s else ((t.wb R.FW_STAT.RECOVERY true).watchSet R.WATCH_STAT.STATE 3)
  | none => (t.wb R.FW_STAT.RECOVERY true).watchSet R.WATCH_STAT.STATE 3

/-- The Watch has started, and IDENT is compared (R651). -/
def Tx.watchUp (t : Tx d0) : Tx d0 := ((((t.checkLive 4 0).fixIdent).modFw (fun x => { x with started := true })).showFw).showWait

/-- The boot ROM chooses a slot (R540, R544, R545). A TRIAL slot's TRIES + 1 is committed first: until then the Watch has not started. -/
def Tx.watchBoot (t : Tx d0) : Tx d0 :=
  match (if t.d.keep.wear = 0 then ([0, 1].find? (fun s => rb (t.d.desc s) 0 == 2)) else none) with
  | none =>
    let kept := [t.d.desc 0, t.d.desc 1]
    ((t.modFw (fun x => { x with descs := some kept, trial := false })).startActive).watchUp
  | some s =>
    if !t.d.fw.trial then
      let kept := [t.d.desc 0, t.d.desc 1]
      let t := t.modFw (fun x => { x with descs := some kept, trial := true })
      (t.romDesc s (setByte (t.d.desc s) 1 (rb (t.d.desc s) 1 + 1))).showFw
    else if t.d.keep.queue.any (fun q => q.cls == 2 + s) then t
    else
      let b := t.d.desc s
      let t := t.modFw (fun x => { x with trial := false })
      (if t.d.slotPasses s && rb b 1 < 3 then t.startSlot s
       else (((t.romDesc s (setByte b 0 5)).fault 0x0601 s).w R.FW_STAT.RESULT 17).startActive).watchUp

/-- ACTIVATE. -/
def Tx.fwActivate (t : Tx d0) (iface : Nat) : Tx d0 :=
  let s := t.d.fwTarget
  let g := t.d.fwGate iface
  let n := t.d.fwLen
  let b := t.d.desc s
  let fail := fun (r : Nat) (t : Tx d0) => (t.setDesc s (setByte b 0 5)).fwDone r
  if g ≠ 0 then t.fwDone g
  else if t.f R.FW_STAT.NEXT ≠ n then t.fwDone 11
  else if !t.d.descRoom 1 then t
  else
    let h := t.d.fwBlock s 0
    if !(List.range n).all (fun i => blockGood (t.d.fwBlock s i)) then fail 4 t
    else if sha384 ((List.range (n - 1)).flatMap (fun i => t.d.fwBlock s (i + 1))) ≠ (h.drop 24).take 48 then fail 8 t
    else if !headerSigned h then fail 7 t
    else if rn h 16 2 < t.d.minSvn then fail 9 t
    else if (t.d.fwFind s 2).any (fun x => (patchSet (t.d.fwSection s x)).2.2.2 ≠ 0) then fail 15 t
    else
      let t := ((t.setDesc s (setByte (setByte b 0 2) 1 0)).w R.FW_STAT.OWNER 0).fwDone 1
      if t.b R.FW_STAT.RECOVERY then (t.watchSet R.WATCH_STAT.STATE 2).watchBoot else t

/-- CONFIRM. -/
def Tx.fwConfirm (t : Tx d0) : Tx d0 :=
  let r := t.d.fwRun
  let b := t.d.desc r
  if t.d.keep.wear ≠ 0 then t.fwDone 3
  else if t.d.slotState r ≠ 2 || t.b R.FW_STAT.RECOVERY then t.fwDone 12
  else if !t.d.descRoom 2 then t
  else
    let m := leBytes 2 (max (rn b 14 2) (rn b 12 2))
    let t := t.setDesc r ([3] ++ (b.drop 1).take 13 ++ m ++ b.drop 16)
    let o := t.d.desc (1 - r)
    (if rb o 0 = 3 then t.setDesc (1 - r) (setByte o 0 4) else t).fwDone 1

/-- ROLLBACK. -/
def Tx.fwRollback (t : Tx d0) : Tx d0 :=
  if t.d.keep.wear ≠ 0 then t.fwDone 3
  else match t.d.slotWith 4 with
    | none => t.fwDone 13
    | some s =>
      let b := t.d.desc s
      if rn b 12 2 < t.d.minSvn then t.fwDone 9 else if !t.d.descRoom 1 then t else (t.setDesc s (setByte (setByte b 0 2) 1 0)).fwDone 1

/-- ABORT: the target is EMPTY, whatever it was (R537). Its GEN stays, above which the next BEGIN counts (R534). -/
def Tx.fwAbort (t : Tx d0) (iface : Nat) : Tx d0 :=
  let s := t.d.fwTarget
  if t.f R.FW_STAT.OWNER ≠ 0 && t.f R.FW_STAT.OWNER ≠ iface then t.fwDone 14
  else if t.d.keep.wear = 0 && !t.d.descRoom 1 then t
  else (((t.setDesc s (fwDesc 0 0 (rn (t.d.desc s) 4 4) 0 0 0 0 [])).w R.FW_STAT.OWNER 0).w R.FW_STAT.NEXT 0).fwDone 1

/-- RESTART. -/
def Tx.fwRestart (t : Tx d0) : Tx d0 := ((t.fwDone 1).watchSet R.WATCH_STAT.STATE 2).showWait

/-- The Watch takes commands. -/
def Device.watchRuns (d : Device) : Bool := d.f R.WATCH_STAT.STATE == 1 || d.f R.WATCH_STAT.STATE == 3

/-- A command begins. -/
def Tx.fwSubmit (t : Tx d0) (iface op : Nat) (args : List Nat) (block : List Byte) : Tx d0 :=
  (t.modFw (fun x => { x with cur := some (iface, op, args, block) })).wb R.FW_STAT.BUSY true

/-- The mailbox's GO is taken, where the Watch takes commands. -/
def Tx.fwTake (t : Tx d0) : Tx d0 :=
  if t.b R.FW_CMD.GO && t.d.watchRuns && !t.b R.FW_STAT.BUSY then
    (t.doneS R.FW_CMD.GO).fwSubmit 1 (t.f R.FW_CMD.OP) [t.f R.FW_ARG0.ARG, t.f R.FW_ARG1.ARG, t.f R.FW_ARG2.ARG]
      ((List.range 1024).flatMap (fun k => leBytes 4 (t.f (R.FW_BUF.DATA k))))
  else t

/-- A GO that the action's end has left set is taken again (R23). -/
def Tx.fwAgain (t : Tx d0) : Tx d0 := if t.b R.FW_CMD.GO && !t.b R.FW_STAT.BUSY then (t.upd (.again [])).fwTake else t

/-- A write of FW_CMD: a reserved OP leaves that field, and GO submits the one in force (R19). -/
def Tx.fwWrite (t : Tx d0) (data : Nat) : Tx d0 :=
  let op := data % 16
  let t := t.put R.FW_CMD.OP op (1 ≤ op && op ≤ 8)
  if !data.testBit 31 then t
  else if t.b R.FW_STAT.BUSY then t.ev R.FW_STAT.OVERRUN
  else (t.setS R.FW_CMD.GO).fwTake

/-- The command in progress is carried out, or goes on; one that programs pages takes a step with every program of the Keep. OP 0, which stands at reset
and cannot be written, names no command: it ends with STATE (DESIGN CHOICE, log 179). -/
def Tx.fwGo (t : Tx d0) (ok : Bool) : Tx d0 :=
  match t.d.fw.cur with
  | none => t
  | some (iface, op, args, block) =>
    if !t.d.watchRuns then t
    else if t.d.fw.going ≠ 0 then t.fwGoOn op args ok
    else match op with
      | 1 => t.fwBegin iface block args ok
      | 2 => t.fwLit iface (args.getD 0 0) block args ok
      | 3 => t.fwCopy iface (args.getD 0 0) (args.getD 2 0) args ok
      | 4 => t.fwActivate iface
      | 5 => t.fwConfirm
      | 6 => t.fwRollback
      | 7 => t.fwAbort iface
      | 8 => t.fwRestart
      | _ => t.fwDone 12

/-- A firmware command: one that has been submitted is carried out; where none is in progress, host software submits it through the mailbox. -/
def effFw (op : Nat) (ok : Bool) (t : Tx d0) : Tx d0 :=
  match t.d.fw.cur with
  | none => ((t.hostReg R.FW_CMD.GO.off (fun t => t.fwWrite (2 ^ 31 + op))).fwGo ok).fwAgain
  | some (_, o, _) => if o = op then (t.fwGo ok).fwAgain else t.hostReg R.FW_CMD.GO.off (fun t => t.fwWrite (2 ^ 31 + op))

def effBegin (ok : Bool) (t : Tx d0) : Tx d0 := effFw 1 ok t
def execBegin (readBackOk : Bool) (s : State) : Host.Outcome State Fault Refusal := commit (effBegin readBackOk) s

def effLit (ok : Bool) (t : Tx d0) : Tx d0 := effFw 2 ok t
def execLit (readBackOk : Bool) (s : State) : Host.Outcome State Fault Refusal := commit (effLit readBackOk) s

def effCopy (ok : Bool) (t : Tx d0) : Tx d0 := effFw 3 ok t
def execCopy (readBackOk : Bool) (s : State) : Host.Outcome State Fault Refusal := commit (effCopy readBackOk) s

def effActivate (t : Tx d0) : Tx d0 := effFw 4 true t
def execActivate (s : State) : Host.Outcome State Fault Refusal := commit effActivate s

def effConfirm (t : Tx d0) : Tx d0 := effFw 5 true t
def execConfirm (s : State) : Host.Outcome State Fault Refusal := commit effConfirm s

def effRollback (t : Tx d0) : Tx d0 := effFw 6 true t
def execRollback (s : State) : Host.Outcome State Fault Refusal := commit effRollback s

def effAbort (t : Tx d0) : Tx d0 := effFw 7 true t
def execAbort (s : State) : Host.Outcome State Fault Refusal := commit effAbort s

def effRestart (t : Tx d0) : Tx d0 := effFw 8 true t
def execRestart (s : State) : Host.Outcome State Fault Refusal := commit effRestart s

/-! The service port (R546 to R549) -/

/-- The status byte of a write. -/
def Tx.svcSay (t : Tx d0) (status : Nat) : Tx d0 := t.send (.svc [BitVec.ofNat 8 status])

/-- The answer to a read: a status byte and `len` data bytes (R546). What the command has no data for is open (DESIGN CHOICE, log 216). -/
def Tx.svcData (t : Tx d0) (status len : Nat) (bs : List Byte) : Tx d0 :=
  if len ≤ bs.length then t.send (.svc (BitVec.ofNat 8 status :: bs.take len))
  else
    let n := t.d.freeN
    (t.send (.svc (BitVec.ofNat 8 status :: (bs ++ (List.range (len - bs.length)).map (Config.freeByte n))))).upd .free

/-- A read that needs an unlocked port; the answer of a locked one has its data bytes too. -/
def Tx.svcRead (t : Tx d0) (len : Nat) (g : Tx d0 → List Byte × Tx d0) : Tx d0 :=
  if t.d.svc.locked then t.svcData 2 len [] else let (bs, t) := g t; t.svcData 0 len bs

/-- A write that needs an unlocked port. -/
def Tx.svcOpen (t : Tx d0) (g : Tx d0 → Tx d0) : Tx d0 := if t.d.svc.locked then t.svcSay 2 else g t

def effSvcId (n : Nat) (t : Tx d0) : Tx d0 :=
  t.svcData 0 n (leBytes 4 0x4416 ++ leBytes 2 t.d.svc.locked.toNat ++ leBytes 2 t.d.svc.fails)

def execSvcId (len : BitVec 16) (s : State) : Host.Outcome State Fault Refusal := commit (effSvcId len.toNat) s

def effSvcNonce (n : Nat) (t : Tx d0) : Tx d0 :=
  let (v, t) := t.open
  (t.modSvc (fun x => { x with nonce := some (leBytes 16 v) })).svcData 0 n (leBytes 16 v)

def execSvcNonce (len : BitVec 16) (s : State) : Host.Outcome State Fault Refusal := commit (effSvcNonce len.toNat) s

/-- UNLOCK: a signature over the nonce and the part serial under the service-port key. -/
def effSvcUnlock (sig : List Byte) (t : Tx d0) : Tx d0 :=
  let x := t.d.svc
  let ok := x.nonce.any (fun n => sigOk (identBytes 128 96) (n ++ identBytes 8 16) sig)
  if 3 ≤ x.fails then t.svcSay 4
  else if ok then (t.modSvc (fun x => { x with locked := false, nonce := none })).svcSay 0
  else (t.modSvc (fun x => { x with fails := x.fails + 1, nonce := none })).svcSay 4

def execSvcUnlock (sig : List Byte) (s : State) : Host.Outcome State Fault Refusal := commit (effSvcUnlock sig) s

/-- The bytes of an erase unit of the Keep; what is not written reads all ones, and what an aborted erase has left is open. -/
def Device.unitBytes (d : Device) (u : Nat) : List Byte :=
  let x := d.unit u
  let body := if x.recs.isEmpty then (List.range 15).flatMap (d.blockBytes u) else x.recs.flatMap KRec.bytes
  match x.torn with
  | some n => (List.range 65536).map (Config.freeByte n)
  | none => ((x.header ++ body) ++ List.replicate 65536 0xFF).take 65536

/-- A run of bytes of the Keep, up to its end. -/
def Device.keepBytes (d : Device) (a n : Nat) : List Byte :=
  (((List.range (n / 65536 + 2)).flatMap (fun i => if a / 65536 + i < 4096 then d.unitBytes (a / 65536 + i) else [])).drop (a % 65536)).take n

def effSvcReadKeep (a n : Nat) (t : Tx d0) : Tx d0 := t.svcRead n (fun t => (t.d.keepBytes a n, t))

def execSvcReadKeep (addr : Word) (len : BitVec 16) (s : State) : Host.Outcome State Fault Refusal := commit (effSvcReadKeep addr.toNat len.toNat) s

def effSvcReadOtp (a n : Nat) (t : Tx d0) : Tx d0 := t.svcRead n (fun t => (otpBytes a (min n (2 ^ 20 - a)), t))

def execSvcReadOtp (addr : Word) (len : BitVec 16) (s : State) : Host.Outcome State Fault Refusal := commit (effSvcReadOtp addr.toNat len.toNat) s

/-- FW_CMD: a firmware command goes to the Watch, with the same checks as the mailbox. -/
def effSvcFwCmd (op : Nat) (args : List Nat) (block : List Byte) (t : Tx d0) : Tx d0 :=
  t.svcOpen (fun t =>
    if op = 0 || 8 < op then t.svcSay 3
    else if t.b R.FW_STAT.BUSY || !t.d.watchRuns then t.svcSay 1
    else (t.fwSubmit 2 op args ((block ++ List.replicate 4096 0xFF).take 4096)).svcSay 0)

def execSvcFwCmd (op : Word) (args : List Word) (block : List Byte) (s : State) : Host.Outcome State Fault Refusal :=
  commit (effSvcFwCmd op.toNat (args.map BitVec.toNat) block) s

/-- A word of FW_STAT and of FW_SLOT. -/
def Device.fwStatWord (d : Device) : Nat :=
  d.f R.FW_STAT.BUSY * 2 ^ 31 + d.f R.FW_STAT.OVERRUN * 2 ^ 30 + d.f R.FW_STAT.RUNNING * 2 ^ 29 + d.f R.FW_STAT.RECOVERY * 2 ^ 28 +
    d.f R.FW_STAT.OWNER * 2 ^ 24 + d.f R.FW_STAT.RESULT * 2 ^ 16 + d.f R.FW_STAT.NEXT
def Device.fwSlotWord (d : Device) (s : Nat) : Nat := d.f (R.FW_SLOT.STATE s) * 2 ^ 29 + d.f (R.FW_SLOT.TRIES s) * 2 ^ 26 + d.f (R.FW_SLOT.SVN s)

def effSvcFwStat (n : Nat) (t : Tx d0) : Tx d0 :=
  t.svcRead n (fun t =>
    (leBytes 4 t.d.fwStatWord ++ leBytes 4 (t.d.fwSlotWord 0) ++ leBytes 4 (t.d.fwSlotWord 1) ++ leBytes 4 (t.f R.FW_MINSVN.MIN_SVN), t))

def execSvcFwStat (len : BitVec 16) (s : State) : Host.Outcome State Fault Refusal := commit (effSvcFwStat len.toNat) s

/-- SVC_RST: the port is locked; nothing else is reset. -/
def effSvcRst (t : Tx d0) : Tx d0 := t.modSvc (fun x => { x with locked := true, nonce := none })

def execSvcRst (s : State) : Host.Outcome State Fault Refusal := commit effSvcRst s

/-- TRANSACTION_CUT: a transaction that SVC_CS_N ends early is discarded. -/
def effTransactionCut (t : Tx d0) : Tx d0 := t

def execTransactionCut (s : State) : Host.Outcome State Fault Refusal := commit effTransactionCut s

end Sys2Proof.Machine
end

