-- ==== Sys2Proof/Machine/MemCmds.lean ====
section
/-! DEFINITION. Memory integrity as commands (chapter 14): write-backs, the scrubbers, error injection, the error log, and blocks that arrive from
CXL memory. -/
namespace Sys2Proof.Machine

variable {d0 : Device}

/-! Write-backs (R461) -/

/-- Every correctable error of a line is gone: its stored bytes are the corrected ones. What cannot be corrected stays. -/
def Tx.mendLine (t : Tx d0) (cls l : Nat) : Tx d0 :=
  let bs := t.d.sramBytes (64 * l) 64
  let t := t.each ((t.d.lineErrs l).filter (fun c => (eccDecode cls c.2).isSome)) (fun c t => t.upd (.err c.1 0))
  t.upd (.sram (64 * l) bs)

/-- CE_WRITEBACK: the bank is idle and what was corrected of a line is written back, unless a functional write has come first. -/
def effCeWriteback (l : Nat) (t : Tx d0) : Tx d0 :=
  if !t.d.wback.contains l then t
  else
    let t := t.upd (.wback (t.d.wback.filter (fun x => x != l)))
    match lineClass l with
    | none => t
    | some (cls, _, _) => t.mendLine cls l

def execCeWriteback (line : BitVec 21) (s : State) : Host.Outcome State Fault Refusal := commit (effCeWriteback line.toNat) s

/-! The scrubbers (R472 to R476) -/

/-- Lines a scrubber covers. -/
def scrubLines (u : Nat) : Nat := if u = 32 then 65536 else 49408

/-- Line `i` in a scrubber's order: waveform, schedule caches A and B, record memory, header store. -/
def scrubLine (u i : Nat) : Nat :=
  if u = 32 then classBase 3 0 + i
  else if i < 24576 then classBase 0 u + i
  else if i < 28672 then classBase 1 (2 * u) + (i - 24576)
  else if i < 32768 then classBase 1 (2 * u + 1) + (i - 28672)
  else if i < 49152 then classBase 2 u + (i - 32768)
  else classBase 4 u + (i - 49152)

/-- Engines and WAVE lines held in a waveform line of a tile. -/
def Device.waveHolders (d : Device) (tl line : Nat) : List (Nat × Nat) :=
  (d.resW.filter (fun x => x.1 / 2 ^ 24 / 2 == tl && x.2 == line + 1)).map (fun x => (x.1 / 2 ^ 24, x.1 % 2 ^ 24))

/-- The SCHED block of an engine in a slot of its schedule cache: resident, or waiting for its LINE_FILL. -/
def Device.slotBlock (d : Device) (e s : Nat) : Option Nat :=
  match d.resS.find? (fun x => x.1 / 2 ^ 24 == e && x.2 == s + 1) with
  | some x => some (x.1 % 2 ^ 24)
  | none => ((d.seq e).fills.find? (fun y => y.2 == s)).map Prod.fst

/-- A line that the scrubber decodes (R474, R690). -/
def Device.scrubbed (d : Device) (l : Nat) : Bool :=
  let test := if d.st.begun then firstTest d.st.tests else none
  d.tagOf l == 0 &&
  (match lineClass l with
   | none => false
   | some (cls, u, n) =>
     (if cls = 0 then !(d.waveHolders u n).isEmpty else if cls = 1 then (d.slotBlock u (n / 4)).isSome else true) &&
     (match test with
      | some 0 => cls != 0
      | some 1 => cls != 1
      | some 2 => cls != 2
      | some 3 => cls != 4
      | some 4 => cls != 3
      | _ => true))

/-- Record line `n` of a tile lies in a shot record that has not drained. -/
def Device.recInUse (d : Device) (tl n : Nat) : Bool :=
  (d.tile tl).shots.any (fun s => !s.freed && decide ((n + 16384 - s.base % 16384) % 16384 < s.lines))

/-- Header-store line `n` of a tile holds a header of such a record. -/
def Device.hsInUse (d : Device) (tl n : Nat) : Bool :=
  (d.tile tl).shots.any (fun s => !s.freed && (s.hs % 256 == n || s.segs.any (fun g => g.hs % 256 == n)))

/-- A record that is ready to drain and has a header in a poisoned line of the header store is discarded (R471); one still being written is when it
would drain. -/
def Tx.loseRecord (t : Tx d0) (tl n : Nat) : Tx d0 :=
  match (t.d.tile tl).shots.find? (fun s => !s.freed && (s.hs % 256 == n || s.segs.any (fun g => g.hs % 256 == n)) &&
      t.d.drainQ.contains (tl, s.id, s.attempt)) with
  | none => t
  | some s => ((t.ev R.ECC_EVT.REC_LOST).upd (.drainQ (t.d.drainQ.erase (tl, s.id, s.attempt)))).freeShot tl s.id s.attempt

/-- What the part does about an uncorrectable error a scrubber found (R476): the ACTION logged, and the work. -/
def Device.scrubAction (d : Device) (l : Nat) : Nat × ({d0 : Device} → Tx d0 → Tx d0) :=
  match lineClass l with
  | none => (0, fun t => t)
  | some (0, tl, n) => (1, fun t => t.each (d.waveHolders tl n) (fun x t => t.refetchWave x.1 (x.2 / 4)))
  | some (1, e, n) => match d.slotBlock e (n / 4) with
    | none => (1, fun t => t)
    | some b => (1, fun t => ((t.cancelFill e b).raise e 5 b).fetchBlock false b)
  | some (2, tl, n) => (if d.recInUse tl n then 2 else 0, fun t => t)
  | some (3, _, n) =>
    if n < 16384 then (4, fun t => t.reloadFork l)
    else if n < 40960 then (4, fun t => t.reloadTable l)
    else if n < 49152 then (3, fun t => t.reloadCal)
    else (5, fun t => (t.restageLine l).fault 0x0401 n)
  | some (_, tl, n) => (if d.hsInUse tl n then 0x0A else 0, fun t => t.loseRecord tl n)

/-- A scrubber decodes a line. -/
def Tx.scrubDecode (t : Tx d0) (l : Nat) : Tx d0 :=
  match lineClass l with
  | none => t
  | some (cls, _, _) =>
    match t.d.lineUe cls l with
    | some ue =>
      let (act, work) := t.d.scrubAction l
      work (((t.corrected cls l).uncorrectable cls l 1 act ue).ev R.ECC_EVT.UE_IDLE)
    | none => t.corrected cls l

/-- The scrubbers whose memories are powered. -/
def Device.scrubbers (d : Device) : List Nat := (List.range 33).filter (fun v => if v = 32 then d.domOn 5 else d.tileOn v)

/-- A scrubber has visited its last line: a lap is complete when each of them has, and lasts as long as the slowest took (R475). -/
def Tx.scrubLap (t : Tx d0) (u : Nat) : Tx d0 :=
  let now := t.d.power.awakeTicks
  let x := t.d.scrub u
  let t := t.upd (.scrub u { x with pos := 0, laps := 1, took := now - x.began.getD now, began := some now })
  if t.d.scrubbers.any (fun v => (t.d.scrub v).laps == 0) then t
  else
    let slow := t.d.scrubbers.foldl (fun m v => max m (t.d.scrub v).took) 0
    let t := t.each (List.range 33) (fun v t => t.modScrub v (fun x => { x with laps := 0 }))
    (t.w R.SCRUB_STAT.LAP (min (2 ^ 20 - 1) (slow / 2000))).inc R.SCRUB_LAPS.LAPS

/-- SCRUB_VISIT: a scrubber's interval is over and it visits its next line, passing over those it does not decode. -/
def effScrubVisit (u : Nat) (t : Tx d0) : Tx d0 :=
  let x := t.d.scrub u
  let now := t.d.power.awakeTicks
  if !t.b R.TB_STAT.AWAKE || !t.b R.SCRUB_CTL.EN || now < x.next || !(if u = 32 then t.d.domOn 5 else t.d.tileOn u) then t
  else
    let n := scrubLines u
    let t := t.modScrub u (fun x => { x with next := now + 2 * t.f R.SCRUB_CTL.INTERVAL, began := some (x.began.getD now) })
    match ((List.range (n - x.pos)).map (fun i => x.pos + i)).find? (fun i => t.d.scrubbed (scrubLine u i)) with
    | none => t.scrubLap u
    | some i =>
      let t := (t.scrubDecode (scrubLine u i)).modScrub u (fun x => { x with pos := i + 1 })
      if i + 1 = n then t.scrubLap u else t

def execScrubVisit (unit : Fin 33) (s : State) : Host.Outcome State Fault Refusal := commit (effScrubVisit unit.val) s

/-! Error injection (R486, R487) -/

/-- The line of the SRAM space that ECC_FLIP_CTL names. -/
def Device.flipLine (d : Device) : Nat := classBase (d.f R.ECC_FLIP_CTL.CLASS) (d.f R.ECC_FLIP_CTL.UNIT) + d.f R.ECC_FLIP_CTL.LINE

/-- The byte address of the byte or word that ECC_FLIP_CTL and ECC_FLIP_POS name. -/
def Device.flipAddr (d : Device) : Nat := 64 * d.flipLine + (if perByte (d.f R.ECC_FLIP_CTL.CLASS) then 1 else 8) * d.f R.ECC_FLIP_POS.POS

/-- The data mask. -/
def Device.flipMask (d : Device) : Nat := d.f64 R.ECC_FLIP_DATA_LO.MASK R.ECC_FLIP_DATA_HI.MASK

/-- A mask or position that the class does not have (R486). -/
def Device.flipReserved (d : Device) : Bool :=
  let cls := d.f R.ECC_FLIP_CTL.CLASS
  (if perByte cls then 2 ^ 8 ≤ d.flipMask || 2 ^ 5 ≤ d.f R.ECC_FLIP_POS.CHK else 8 ≤ d.f R.ECC_FLIP_POS.POS)

/-- ARM is refused (R487), and so is a line that the class does not have. -/
def Device.flipDenied (d : Device) : Bool :=
  let cls := d.f R.ECC_FLIP_CTL.CLASS
  let unit := d.f R.ECC_FLIP_CTL.UNIT
  let n := d.f R.ECC_FLIP_CTL.LINE
  d.running || classUnits cls ≤ unit || classLines cls ≤ n || d.tagOf d.flipLine != 0 ||
  (cls == 0 && (d.waveHolders unit n).isEmpty) || (cls == 1 && !d.resS.any (fun x => x.1 / 2 ^ 24 == unit && x.2 == n / 4 + 1)) || (cls == 3 && 49152 ≤ n)

/-- A write of ECC_FLIP_CTL. A reserved CLASS leaves that field, and ARM acts on the class in force (R19). The DATA, CHK and POS bits that R486 calls
reserved depend on CLASS, which may be written later: the mask registers take them, and the write of ARM that would use them is the one refused
with RSVD_ENC (DESIGN CHOICE, log 152). -/
def Tx.flipCtl (t : Tx d0) (data : Nat) : Tx d0 :=
  let off := R.ECC_FLIP_CTL.ARM.off
  let t := t.put R.ECC_FLIP_CTL.CLASS (bitsOf data 26 24) (bitsOf data 26 24 ≤ 4)
  let t := (t.w R.ECC_FLIP_CTL.UNIT (bitsOf data 21 16)).w R.ECC_FLIP_CTL.LINE (bitsOf data 15 0)
  if !data.testBit 31 then t
  else if t.d.flipReserved then t.accErr off [R.GLB_ACC_ERR.RSVD_ENC]
  else if t.d.flipDenied then (t.wb R.ECC_FLIP_CTL.ARM false).ev R.ECC_EVT.FLIP_DENIED
  else (t.upd (.flip t.d.flipAddr)).setS R.ECC_FLIP_CTL.ARM

def effFlipArm (data : Nat) (t : Tx d0) : Tx d0 := t.hostReg R.ECC_FLIP_CTL.ARM.off (fun t => t.flipCtl data)

def execFlipArm (data : Word) (s : State) : Host.Outcome State Fault Refusal := commit (effFlipArm data.toNat) s

/-- FLIP_INJECT: the bank is idle: the stored bits of the word that the write of ARM named are inverted under the masks, its tag stays, and ARM clears. -/
def effFlipInject (t : Tx d0) : Tx d0 :=
  if !t.b R.ECC_FLIP_CTL.ARM then t
  else
    let a := t.d.flip
    let cls := ((lineClass (a / 64)).map Prod.fst).getD 0
    let mask := t.d.flipMask
    let n := if perByte cls then 1 else 8
    let old := leNat (t.d.sram.read a n)
    let err := bget (fun _ => 0) t.d.errs a ^^^ flipDelta cls mask (t.f R.ECC_FLIP_POS.CHK)
    ((t.upd (.sram a (leBytes n (old ^^^ mask)))).upd (.err a err)).doneS R.ECC_FLIP_CTL.ARM

def execFlipInject (s : State) : Host.Outcome State Fault Refusal := commit effFlipInject s

/-! The log (R489) -/

/-- A write of ECC_LOG_POP. -/
def Tx.popLog (t : Tx d0) (data : Nat) : Tx d0 :=
  if data.testBit 0 then (t.upd (.eccLog (t.d.eccLog.drop 1))).showLog else t

def effEccLogPop (data : Nat) (t : Tx d0) : Tx d0 := t.hostReg R.ECC_LOG_POP.POP.off (fun t => t.popLog data)

def execEccLogPop (data : Word) (s : State) : Host.Outcome State Fault Refusal := commit (effEccLogPop data.toNat) s

/-! Blocks that arrive (R160, R205, R457, R469, R485) -/

/-- WAVE blocks that an engine holds but for one (R159). -/
def Device.wavesHeld (d : Device) (e block : Nat) : Nat :=
  (((d.resW.filter (fun x => x.1 / 2 ^ 24 == e)).map (fun x => x.1 % 2 ^ 24 / 4)).filter (fun b => b != block)).eraseDups.length

/-- The place where a block goes is free, or holds what the part may evict, and the engine's quota of WAVE blocks has room for it (R159, R160); the
blocks it drops, by engine. -/
def Device.evicts (d : Device) (e : Nat) (wave : Bool) (block slot : Nat) : Option (List (Nat × Nat)) :=
  let held := if wave then
      (((List.range 4).flatMap (fun i => d.waveHolders (e / 2) (4 * slot + i))).map (fun x => (x.1, x.2 / 4))).eraseDups
    else ((d.slotBlock e slot).map (fun b => (e, b))).toList
  let held := held.filter (fun x => x != (e, block))
  if held.any (fun x => (d.keptBlocks x.1 wave).contains x.2) ||
    (wave && decide (waveQuota e + (held.filter (fun x => x.1 == e)).length ≤ d.wavesHeld e block)) then none else some held

/-- A block's four lines are written; poisoned ones are tagged CXL, and all of them at the fourth bad fetch in a row. -/
def Tx.fillLines (t : Tx d0) (e : Nat) (wave : Bool) (block line : Nat) (bs : List Byte) (poison : Nat) : Tx d0 :=
  let t := (t.each (List.range 4) (fun i t => (t.overwritten (line + i)).wrote (line + i))).upd (.lines line bs)
  let t := t.keepCheck e wave block
  if poison = 0 then t
  else
    let (fourth, t) := t.countBad e wave block true
    let t := t.each (List.range 4) (fun i t => if fourth || poison.testBit i then t.upd (.tag (line + i) 4) else t)
    t.ev R.ECC_EVT.CXL_POISON

/-- CXL_READ_COMPLETE: a block of the committed image arrives for an engine and goes to a place of its memory. A WAVE block is resident at once, a
SCHED block once its LINE_FILL has committed. -/
def effCxlReadComplete (e : Nat) (wave : Bool) (block slot : Nat) (data : List Byte) (poison : Nat) (t : Tx d0) : Tx d0 :=
  let bs := (data ++ List.replicate 256 0).take 256
  let ok := t.d.img.act.any (fun im => block < (if wave then im.waveCnt else im.schedCnt)) && slot < (if wave then 6144 else 1024) && t.d.tileOn (e / 2) && t.d.cxlUp
  let from' := (t.d.img.act.map (fun im => im.base + (if wave then im.waveOff else im.schedOff))).getD 0 + 256 * block
  if !ok then t
  else
  let t := t.upd (.cxlReads (t.d.cxlReads.erase (wave, block)))
  let t := t.notePoison ((List.range 4).map (fun i => from' + 64 * i)) (((List.range 4).filter poison.testBit).map (fun i => from' + 64 * i))
  match t.d.evicts e wave block slot with
    | none => t
    | some old =>
      if wave then
        let t := t.each old (fun x t => t.each (List.range 4) (fun i t => t.dropWave x.1 (4 * x.2 + i)))
        let t := t.fillLines e true block (classBase 0 (e / 2) + 4 * slot) bs poison
        t.each (List.range 4) (fun i t => t.upd (.resW (e * 2 ^ 24 + 4 * block + i) (4 * slot + i + 1)))
      else
        let t := t.each old (fun x t => (t.dropSched x.1 x.2).cancelFill x.1 x.2)
        let t := t.fillLines e false block (classBase 1 e + 4 * slot) bs poison
        let t := (t.cancelFill e block).dropSched e block
        if t.d.seqHalted e then t
        else (t.modSeq e (fun s => { s with fills := s.fills ++ [(block, slot)] })).raise e 7 block

def execCxlReadComplete (e : Fin 64) (wave : Bool) (block : BitVec 24) (slot : BitVec 13) (data : List Byte) (poison : BitVec 4)
    (s : State) : Host.Outcome State Fault Refusal :=
  commit (effCxlReadComplete e.val wave block.toNat slot.toNat data poison.toNat) s

end Sys2Proof.Machine
end

