-- ==== Sys2Proof/Machine/WatchCmds.lean ====
section
/-! DEFINITION. The Watch as commands (chapter 20): the request mailbox, safety limits, a Watch reset, and a start of the Watch. -/
namespace Sys2Proof.Machine

variable {d0 : Device}

/-! Answers (R644, R649) -/

/-- A commit was asked for: OK where the Keep took it. -/
def Tx.watchStaged (t : Tx d0) (ok : Bool) : Tx d0 := t.watchDone (if ok then 1 else 5)

/-! SET_LIMIT (R646, R647) -/

/-- SET_LIMIT: at once where no run is in progress, else with the first tick without one. -/
def Tx.reqLimit (t : Tx d0) (a0 a1 : Nat) : Tx d0 :=
  let limit := a0 / 256
  let index := a0 % 256
  if 2 ^ 16 ≤ a0 || limit = 0 || 4 < limit then t.watchDone 3
  else if (limitFlds limit index).isNone || !t.d.limitOk limit index a1 then t.watchDone 4
  else if t.running then (t.upd (.limit (some ⟨limit, index, a1⟩))).w R.WATCH_RESP.RESULT 2
  else (t.limitSet limit index a1).watchDone 1

/-! The other requests -/

/-- KEEP_COMMIT (R648). -/
def Tx.reqCommit (t : Tx d0) (a0 a1 : Nat) : Tx d0 :=
  if 2 ^ 8 ≤ a0 || a1 ≠ 0 || (a0 ≠ 1 && a0 ≠ 6) then t.watchDone 3
  else if t.d.keep.wear = 2 then t.watchDone 7
  else if a0 = 1 then
    let soon := match t.d.calib.commits.getD (t.f R.CAL_STAT.BAND) none with
      | some c => decide (t.d.age < c + 1200000000000)
      | none => false
    if soon then t.watchDone 6
    else
      let (ok, t) := t.calStage
      t.watchStaged ok
  else
    let t := t.countRuns
    let (ok, t) := t.stage 6 0 t.d.lifeBody
    t.watchStaged ok

/-- HOST_FAULT. -/
def Tx.reqFault (t : Tx d0) (a0 a1 : Nat) : Tx d0 :=
  if 2 ^ 16 ≤ a0 || 2 ^ 16 ≤ a1 then t.watchDone 3
  else if a0 < 0x8000 then t.watchDone 4
  else if t.d.keep.wear = 2 then t.watchDone 7
  else
    let ok := t.d.faultRoom
    (t.fault a0 a1).watchStaged ok

/-- READ_FAULT: record k, counted back from the latest. -/
def Tx.reqRead (t : Tx d0) (k a1 : Nat) : Tx d0 :=
  if a1 ≠ 0 then t.watchDone 3
  else match t.d.faults[k]? with
    | none => t.watchDone 9
    | some r => (t.each (List.range 8) (fun i t => t.watchSet (R.WATCH_FLT.WORD i) (rn r.body (4 * i) 4))).watchDone 1

/-- STOP_RUN. -/
def Tx.reqStop (t : Tx d0) (a0 a1 : Nat) : Tx d0 :=
  if 2 ≤ a0 || a1 ≠ 0 then t.watchDone 3
  else if !t.running then t.watchDone 8
  else if a0 = 1 then (t.stopRun).watchDone 1
  else (t.each t.d.streams64 (fun e t => if (t.d.eng e).live then t.modEng e (fun x => { x with stopAtSafe := true }) else t)).watchDone 1

/-- SET_ASSET: four bytes of ASSET. -/
def Tx.reqAsset (t : Tx d0) (a0 a1 : Nat) : Tx d0 :=
  if a0 ≠ 0 && a0 ≠ 8 && a0 ≠ 16 && a0 ≠ 24 then t.watchDone 4
  else if t.d.keep.wear = 2 then t.watchDone 7
  else
    let b := t.d.identBody
    let (ok, t) := t.stage 4 0 (b.take (256 + a0) ++ leBytes 4 a1 ++ b.drop (260 + a0))
    t.watchStaged ok

/-! The mailbox (R644 to R646) -/

/-- A request is taken. -/
def Tx.watchAnswer (t : Tx d0) : Tx d0 :=
  let op := t.f R.WATCH_REQ.OP
  let a0 := t.f R.WATCH_ARG0.ARG
  let a1 := t.f R.WATCH_ARG1.ARG
  let t := ((t.doneS R.WATCH_REQ.GO).wb R.WATCH_RESP.BUSY true).w R.WATCH_RESP.OP op
  match op with
  | 1 => t.reqLimit a0 a1
  | 2 => t.reqCommit a0 a1
  | 3 => t.reqFault a0 a1
  | 4 => t.reqRead a0 a1
  | 5 => t.reqStop a0 a1
  | 6 => t.reqAsset a0 a1
  | _ => t.watchDone 3

/-- A GO that waits is taken, where the Watch takes requests. One written in the clock in which an earlier one is taken is taken next (R23). -/
def Tx.watchTake (t : Tx d0) : Tx d0 :=
  let take := fun (t : Tx d0) => if t.b R.WATCH_REQ.GO && t.d.watchRuns && !t.b R.WATCH_RESP.BUSY then t.watchAnswer else t
  take ((take t).upd (.again []))

/-- A write of WATCH_REQ: OP takes effect; a GO while a request is in progress is discarded (R645). -/
def Tx.watchWrite (t : Tx d0) (data : Nat) : Tx d0 :=
  let t := t.w R.WATCH_REQ.OP (data % 256)
  if !data.testBit 31 then t
  else if t.b R.WATCH_RESP.BUSY then t.ev R.WATCH_RESP.OVERRUN
  else (t.setS R.WATCH_REQ.GO).watchTake

/-- Host software makes a request with the arguments as they stand. -/
def effWatchReq (op : Nat) (t : Tx d0) : Tx d0 := t.hostReg R.WATCH_REQ.GO.off (fun t => t.watchWrite (2 ^ 31 + op))

def effSetLimit (t : Tx d0) : Tx d0 := effWatchReq 1 t
def execSetLimit (s : State) : Host.Outcome State Fault Refusal := commit effSetLimit s

def effKeepCommit (t : Tx d0) : Tx d0 := effWatchReq 2 t
def execKeepCommit (s : State) : Host.Outcome State Fault Refusal := commit effKeepCommit s

def effHostFault (t : Tx d0) : Tx d0 := effWatchReq 3 t
def execHostFault (s : State) : Host.Outcome State Fault Refusal := commit effHostFault s

def effReadFault (t : Tx d0) : Tx d0 := effWatchReq 4 t
def execReadFault (s : State) : Host.Outcome State Fault Refusal := commit effReadFault s

/-- STOP_RUN, with IMMEDIATE written to WATCH_ARG0 first. -/
def effStopReq (imm : Nat) (t : Tx d0) : Tx d0 :=
  t.hostReg R.WATCH_REQ.GO.off (fun t => ((t.w R.WATCH_ARG0.ARG imm).w R.WATCH_ARG1.ARG 0).watchWrite (2 ^ 31 + 5))

def effStopRun (t : Tx d0) : Tx d0 := effStopReq 0 t
def execStopRun (s : State) : Host.Outcome State Fault Refusal := commit effStopRun s

def effStopRunImmediate (t : Tx d0) : Tx d0 := effStopReq 1 t
def execStopRunImmediate (s : State) : Host.Outcome State Fault Refusal := commit effStopRunImmediate s

def effSetAsset (t : Tx d0) : Tx d0 := effWatchReq 6 t
def execSetAsset (s : State) : Host.Outcome State Fault Refusal := commit effSetAsset s

/-- SET_LIMIT_APPLY: the first tick without a run sets the limit that waits; a GO written again meanwhile is taken. -/
def effSetLimitApply (t : Tx d0) : Tx d0 := t.limitDue.watchTake

def execSetLimitApply (s : State) : Host.Outcome State Fault Refusal := commit effSetLimitApply s

/-! Watch resets and starts (R539, R540, R640, R655) -/

/-- WATCH_RESET: a lockstep disagreement, or 10 ms without a service. -/
def effWatchReset (watchdog : Bool) (t : Tx d0) : Tx d0 :=
  let t := ((t.selReset).watchClamp 2).stopRun.stAbort
  let t := ((t.restage).unstage).dropFw
  let t := (t.upd (.limit none)).modFw (fun x => { x with trial := false })
  let t := if t.b R.WATCH_RESP.BUSY then (t.w R.WATCH_RESP.RESULT 0).wb R.WATCH_RESP.BUSY false else t
  let t := if t.b R.FW_STAT.BUSY then (t.w R.FW_STAT.RESULT 0).wb R.FW_STAT.BUSY false else t
  let t := (t.w R.FW_STAT.OWNER 0).watchSet R.WATCH_STAT.STATE 2
  let t := t.watchSet R.WATCH_STAT.RESETS (satInc 8 (t.f R.WATCH_STAT.RESETS))
  let t := if t.d.domOn 5 then t.openFill (classBase 3 0 + 49152) 1008 else t
  let t := (t.w R.PWR_RST.CAUSE 6).inc R.PWR_RST.COUNT
  ((t.fault 0x0701 watchdog.toNat).ev R.WATCH_EVT.WATCH_RESET).showWait

def execWatchReset (watchdog : Bool) (s : State) : Host.Outcome State Fault Refusal := commit (effWatchReset watchdog) s

/-- WATCH_START: the Watch starts on its code, after power-on once the Keep is ready or after a restart or Watch reset, with no program or erase in flight
(R539), and takes what waited. -/
def effWatchStart (t : Tx d0) : Tx d0 :=
  let st := t.f R.WATCH_STAT.STATE
  if (st = 0 || st = 2) && t.b R.KEEP_STAT.READY && t.d.domOn 0 && t.d.keep.flight.isNone then ((t.watchBoot).fwTake).watchTake else t

def execWatchStart (s : State) : Host.Outcome State Fault Refusal := commit effWatchStart s

end Sys2Proof.Machine
end

