-- ==== Sys2Proof/Machine/Host.lean ====
section
/-! DEFINITION. The host port and the CXL port as commands (chapter 17): links, BAR2 reads, DMA queues, MSI-X messages, attestation, and the CXL memory
device. -/
namespace Sys2Proof.Machine

variable {d0 : Device}

/-! Links (R552, R554, R555) -/

/-- The identity and class code that the configuration header presents at its bytes 0 to 3 and 9 to 11 (R551, R553): the Vendor ID of the IDENT factory
record, which no register can change, and the part's own. -/
def pciIdentity : List Byte × List Byte := (identBytes 2 2 ++ leBytes 2 0x4416, leBytes 3 0x120000)

/-- Rates and widths at which the host link runs, and lanes it may keep active under L0p, which Flit mode alone has (R551). -/
def hostLinkOk (rate width active : Nat) (flit : Bool) : Bool :=
  rate != 0 && [1, 2, 4, 8].contains width && (rate != 6 || flit) && (active == 0 || (flit && [1, 2, 4].contains active && decide (active < width)))

/-- DOE Discovery (R551): the data object protocols of the DOE mailbox by index, as vendor and protocol, and the index of the next: Discovery itself, and
CMA/SPDM (PRESUMED, log 217). -/
def doeDiscovery (i : Nat) : Option (Nat × Nat × Nat) := [(1, 0, 1), (1, 1, 0)][i]?

/-- What the host's configuration writes and ASPM have made of the function and its link comes into force (R551). -/
def Tx.setPci (t : Tx d0) (x : PciSettings) : Tx d0 :=
  t.modHost (fun h => { h with
    d3hot := x.d3hot, l1 := x.l1, payload := x.payload.val, request := x.request.val, aer := h.aer &&& (x.clear.toNat ^^^ 0xFFFFFFFF) })

/-- HOST_LINK_UP: the link trains, or enters or leaves L0p with so many lanes `active` (0 outside it), or L1, in which UP reads 0; `rate` as LNK_HOST_STAT
codes it. -/
def effHostLinkUp (rate width active : Nat) (flit : Bool) (pci : PciSettings) (t : Tx d0) : Tx d0 :=
  if !t.d.domOn 1 || !hostLinkOk rate width active flit then t
  else
    let t := if t.f R.LNK_HOST_STAT.RATE = rate && t.f R.LNK_HOST_STAT.WIDTH = width then t else t.ev R.LNK_HOST_EVT.RATE_CHG
    let t := t.setPci pci
    let t := (((t.wb R.LNK_HOST_STAT.UP (!pci.l1)).wb R.LNK_HOST_STAT.FLIT flit).w R.LNK_HOST_STAT.RATE rate).w R.LNK_HOST_STAT.WIDTH width
    let t := t.w R.LNK_HOST_STAT.L0P (if pci.l1 then 0 else active)
    if t.d.host.wasDown then (t.ev R.LNK_HOST_EVT.DOWN).modHost (fun x => { x with wasDown := false }) else t

def execHostLinkUp (rate : Fin 7) (width active : Fin 9) (flit : Bool) (pci : PciSettings) (s : State) : Host.Outcome State Fault Refusal :=
  commit (effHostLinkUp rate.val width.val active.val flit pci) s

/-- A queue stops with no completion. -/
def Tx.queueOff (t : Tx d0) (q : Nat) : Tx d0 :=
  ((((t.wb (R.LNK_Q_CTL.EN q) false).wb (R.LNK_Q_STAT.BUSY q) false).wb (R.LNK_Q_STAT.CQ_FULL q) false).upd (.queue q {})).modHost (fun x =>
    { x with waits := x.waits.filter (fun w => w.1 != q) })

/-- HOST_LINK_DOWN: every queue is disabled and what it had not completed is discarded. -/
def effHostLinkDown (t : Tx d0) : Tx d0 :=
  let t := ((t.wb R.LNK_HOST_STAT.UP false).w R.LNK_HOST_STAT.L0P 0).modHost (fun x => { x with wasDown := true, l1 := false })
  t.each (List.range 64) (fun q t => t.queueOff q)

def execHostLinkDown (s : State) : Host.Outcome State Fault Refusal := commit effHostLinkDown s

/-- FLR: queues, pending bits, window selects, the function's settings and the registers of the chapter return to their reset values; the links keep
theirs, and AER its status. -/
def effFlr (t : Tx d0) : Tx d0 :=
  let t := (t.upd .dropQueues).modHost (fun x => { x with served := 63, waits := [], msixEn := false, funcMask := false, d3hot := false, payload := 0, request := 2 })
  let t := t.each [(0xA00, 0xB14), (0x30004, 0x30008), (0x30104, 0x3010C), (0x1000000, 0x2000000)] (fun r t => t.upd (.dropRegs r.1 r.2))
  ((t.w R.FW_STAT.OWNER 0).w R.PWR_RST.CAUSE 7).inc R.PWR_RST.COUNT

def execFlr (s : State) : Host.Outcome State Fault Refusal := commit effFlr s

/-! BAR2 (R558 to R562) -/

/-- SRAM address that a BAR2 offset shows. -/
def Device.bar2Addr (d : Device) (o : Nat) : Nat := d.f (R.GLB_WIN_SEL.BASE (o / 2 ^ 24 % 4)) * 2 ^ 20 + o % 2 ^ 24

/-- The host reads a line: whether its data are poisoned. -/
def Tx.hostLine (t : Tx d0) (l : Nat) : Bool × Tx d0 :=
  match lineClass l with
  | none => (false, t.ev R.LNK_HOST_EVT.BAR2_UNMAPPED)
  | some (cls, _, n) =>
    if cls = 3 && 49152 ≤ n then (false, t)
    else if t.d.tagOf l ≠ 0 then (true, t.readLine l 4 9)
    else match t.d.lineUe cls l with
      | some ue =>
        let (_, work) := t.d.scrubAction l
        let t := (t.corrected cls l).uncorrectable cls l 4 9 ue
        (true, work ((t.ev R.ECC_EVT.UE_IDLE).ev R.ECC_EVT.UE_READ))
      | none => (false, t.corrected cls l)

/-- The byte that a line which is not poisoned gives the host. -/
def Device.hostByte (d : Device) (a : Nat) : Byte :=
  match lineClass (a / 64) with
  | none => 0
  | some (cls, _, n) => if cls = 3 && 49152 ≤ n then 0 else d.sramByte a

/-- BAR2_READ. -/
def effBar2Read (o len : Nat) (t : Tx d0) : Tx d0 :=
  let as := (List.range len).map (fun i => t.d.bar2Addr (o + i))
  let (bad, t) := ((as.map (fun a => a / 64)).eraseDups).foldl (fun (x : List Nat × Tx d0) l =>
    match x.2.hostLine l with
    | (true, t) => (l :: x.1, t)
    | (false, t) => (x.1, t)) ([], t)
  t.send (.bytes (as.map (fun a => if bad.contains (a / 64) then 0 else t.d.hostByte a)) (!bad.isEmpty))

def execBar2Read (off : BitVec 26) (len : BitVec 13) (s : State) : Host.Outcome State Fault Refusal := commit (effBar2Read off.toNat len.toNat) s

/-- BAR2_WR. -/
def effBar2Wr (t : Tx d0) : Tx d0 := t.ev R.LNK_HOST_EVT.BAR2_WR

def execBar2Wr (_off : BitVec 26) (s : State) : Host.Outcome State Fault Refusal := commit effBar2Wr s

/-! Queues (R564 to R574) -/

/-- The read pointer of a ring moves on (R568). -/
def Tx.ringTaken (t : Tx d0) (n done : Nat) : Tx d0 :=
  let size := (t.d.ring n).size
  if size = 0 then t
  else
    let t := t.w (ringRptr n) ((256 * t.f (ringRptr n) + done) % size / 256)
    if n = 0 then t.showAbove else t.streamOut (n - 1)

/-- An entry in progress ends with a status; a RING entry has taken what it moved. One that still waits has moved nothing. -/
def Tx.endEntry (t : Tx d0) (q status : Nat) : Tx d0 :=
  match (t.d.queue q).cur with
  | none => match t.d.host.waits.find? (fun w => w.1 == q) with
    | some w => t.complete q w.2 status 0
    | none => t
  | some e =>
    let t := if rb e.bytes 0 = 3 then t.ringTaken (rb e.bytes 28) e.done else t
    t.complete q e.bytes status e.done

/-- A write of LNK_Q_CTL. -/
def Tx.qCtl (t : Tx d0) (q data : Nat) : Tx d0 :=
  let t := t.wb (R.LNK_Q_CTL.IEN q) (data.testBit 1)
  if data.testBit 0 then
    if t.b (R.LNK_Q_CTL.EN q) then t
    else
      let t := t.upd (.queue q {
        sqBase := t.f (R.LNK_SQ_BASE_LO.ADDR q) * 4096 + t.f (R.LNK_SQ_BASE_HI.ADDR q) * 2 ^ 32
        cqBase := t.f (R.LNK_CQ_BASE_LO.ADDR q) * 4096 + t.f (R.LNK_CQ_BASE_HI.ADDR q) * 2 ^ 32
        sqLog := t.f (R.LNK_Q_CFG.SQ_LOG q), cqLog := t.f (R.LNK_Q_CFG.CQ_LOG q), phase := true, cur := none })
      let t := ((t.w (R.LNK_Q_STAT.SQ_HEAD q) 0).w (R.LNK_SQ_TAIL.INDEX q) 0).w (R.LNK_Q_STAT.CQ_TAIL q) 0
      (t.wb (R.LNK_Q_CTL.EN q) true).showCq q
  else if t.b (R.LNK_Q_CTL.EN q) then (t.endEntry q 10).queueOff q
  else t

def effQueueEnable (q data : Nat) (t : Tx d0) : Tx d0 := t.hostReg (R.LNK_Q_CTL.EN q).off (fun t => t.qCtl q (data ||| 1))

def execQueueEnable (q : Fin 64) (data : Word) (s : State) : Host.Outcome State Fault Refusal := commit (effQueueEnable q.val data.toNat) s

def effQueueDisable (q data : Nat) (t : Tx d0) : Tx d0 := t.hostReg (R.LNK_Q_CTL.EN q).off (fun t => t.qCtl q (data / 2 * 2))

def execQueueDisable (q : Fin 64) (data : Word) (s : State) : Host.Outcome State Fault Refusal := commit (effQueueDisable q.val data.toNat) s

/-- A doorbell write is discarded; a value out of range is a reserved encoding as well. -/
def Tx.dbRange (t : Tx d0) (q : Nat) (reserved : Bool) : Tx d0 :=
  (if reserved then t.ev R.LNK_HOST_EVT.BAR4_ACC else t).ev (R.LNK_Q_STAT.DB_RANGE q)

/-- A write of LNK_SQ_TAIL. -/
def Tx.sqTail (t : Tx d0) (q data : Nat) : Tx d0 :=
  let v := data % 2 ^ 13
  if !t.b (R.LNK_Q_CTL.EN q) then t.dbRange q false
  else if t.d.sqSize q ≤ v then t.dbRange q true
  else t.w (R.LNK_SQ_TAIL.INDEX q) v

/-- A write of LNK_CQ_HEAD. -/
def Tx.cqHead (t : Tx d0) (q data : Nat) : Tx d0 :=
  let v := data % 2 ^ 13
  if !t.b (R.LNK_Q_CTL.EN q) then t.dbRange q false
  else if t.d.cqSize q ≤ v then t.dbRange q true
  else (t.w (R.LNK_CQ_HEAD.INDEX q) v).showCq q

def effSqDoorbell (q data : Nat) (t : Tx d0) : Tx d0 := t.hostReg (R.LNK_SQ_TAIL.INDEX q).off (fun t => t.sqTail q data)

def execSqDoorbell (q : Fin 64) (data : Word) (s : State) : Host.Outcome State Fault Refusal := commit (effSqDoorbell q.val data.toNat) s

def effCqDoorbell (q data : Nat) (t : Tx d0) : Tx d0 := t.hostReg (R.LNK_CQ_HEAD.INDEX q).off (fun t => t.cqHead q data)

def execCqDoorbell (q : Fin 64) (data : Word) (s : State) : Host.Outcome State Fault Refusal := commit (effCqDoorbell q.val data.toNat) s

/-! Entries -/

/-- Bytes of an entry's fields all 0. -/
def zeros (r : List Byte) (i n : Nat) : Bool := rn r i n == 0

/-- The first check of R566 that fails, before any byte moves; 0 for none. -/
def Device.entryStatus (d : Device) (r : List Byte) : Nat :=
  let op := rb r 0
  let len := rn r 24 4
  let cxl := rn r 16 8
  let ring := rb r 28
  let badOp := op = 0 || 4 < op || 2 ≤ rb r 1 || !zeros r 4 4 || !zeros r 29 3 || !zeros r 40 24 || (op == 3 && (4 < ring || cxl ≠ 0)) ||
    (op ≠ 3 && (ring ≠ 0 || !zeros r 32 8))
  let align := op ≠ 4 && (rn r 8 8 % 64 ≠ 0 || (op ≠ 3 && cxl % 64 ≠ 0) || len = 0 || len % (if op = 3 then 256 else 64) ≠ 0 || (op == 3 && rn r 32 8 % 4 ≠ 0))
  if badOp then 1
  else if align then 2
  else if op = 4 then 0
  else if !d.cxlUp then 3
  else if op ≠ 3 && d.capacity < cxl + len then 4
  else if op = 1 && d.imageRegions.any (overlaps (cxl, len)) then 5
  else if op = 1 && (d.ringRegions 99).any (overlaps (cxl, len)) then 6
  else if op = 3 && !d.ringOn ring then 7
  else 0

/-- Bytes a ring holds between its read and write pointers. -/
def Device.ringFill (d : Device) (n : Nat) : Nat :=
  let size := max 1 (d.ring n).size
  let w := 256 * (if n = 0 then d.f R.ACQ_DRAIN_WPTR.OFF else d.f (R.ACQ_STRM_WPTR.OFF (n - 1)))
  let r := 256 * d.f (ringRptr n)
  (w + size - r % size) % size

/-- The ring named by an entry is in use by another queue's RING entry. -/
def Device.ringTakenBy (d : Device) (q n : Nat) : Bool :=
  d.queues.any (fun x => x.1 != q && x.2.cur.any (fun e => rb e.bytes 0 == 3 && rb e.bytes 28 == n))

/-- CXL memory does not answer: its link is lost (R583), or its test runs (R690). -/
def Device.cxlAway (d : Device) : Bool := d.host.cxlLost || d.cxlTesting

/-- An entry that a queue has reached must wait: for CXL memory, or for a ring that another queue's entry takes, or reached first (R569, R583). One whose
form is refused waits for nothing. -/
def Device.mustWait (d : Device) (q : Nat) (r : List Byte) : Bool :=
  let op := rb r 0
  let before := d.host.waits.takeWhile (fun w => w.1 != q)
  decide (1 ≤ op) && decide (op ≤ 3) && d.entryStatus r != 1 && d.entryStatus r != 2 &&
    (d.cxlAway || (op == 3 && (d.ringTakenBy q (rb r 28) || before.any (fun w => rb w.2 0 == 3 && rb w.2 28 == rb r 28))))

/-- The entry that a queue has reached and that waits. -/
def Device.waitsFor (d : Device) (q : Nat) : Option (List Byte) := (d.host.waits.find? (fun w => w.1 == q)).map Prod.snd

/-- A queue has work that may go on, in D0, since the function makes no memory request in D3hot: an entry in progress or one that waited, whose wait is over, or one to take while the CQ has room (R570, R572). -/
def Device.hasWork (d : Device) (q : Nat) : Bool :=
  d.b (R.LNK_Q_CTL.EN q) && !d.host.d3hot && (match (d.queue q).cur, d.waitsFor q with
    | some e, _ => rb e.bytes 0 == 4 || !d.cxlAway
    | none, some r => !d.mustWait q r
    | none, none => d.f (R.LNK_Q_STAT.SQ_HEAD q) != d.f (R.LNK_SQ_TAIL.INDEX q) && !d.cqFull q)

/-- The queue whose turn is next; one that must wait is passed over (R570). -/
def Device.nextQueue (d : Device) : Option Nat := ((List.range 64).map (fun i => (d.host.served + 1 + i) % 64)).find? d.hasWork

/-- A queue reads its next entry, which waits where it must. -/
def Tx.reachEntry (t : Tx d0) (q : Nat) (r : List Byte) : Tx d0 :=
  let t := t.w (R.LNK_Q_STAT.SQ_HEAD q) ((t.f (R.LNK_Q_STAT.SQ_HEAD q) + 1) % t.d.sqSize q)
  (t.modHost (fun x => { x with waits := x.waits ++ [(q, r)] })).wb (R.LNK_Q_STAT.BUSY q) true

/-- The entry that a queue has reached begins, or ends at once with a failed check. -/
def Tx.beginEntry (t : Tx d0) (q : Nat) (r : List Byte) : Tx d0 :=
  let t := t.modHost (fun x => { x with waits := x.waits.filter (fun w => w.1 != q) })
  let st := t.d.entryStatus r
  if st ≠ 0 then t.complete q r st 0
  else
    let span := if rb r 0 = 3 then min (rn r 24 4) (t.d.ringFill (rb r 28)) else rn r 24 4
    t.modQueue q (fun y => { y with cur := some { bytes := r, span := span } })

/-- The entry in progress has moved so many bytes more. -/
def Tx.moved (t : Tx d0) (q n : Nat) (poison : Bool) : Tx d0 :=
  let t := t.modQueue q (fun y => { y with cur := y.cur.map (fun e => { e with done := e.done + n, poison := e.poison || poison }) })
  match (t.d.queue q).cur with
  | none => t
  | some e => if e.span ≤ e.done then t.endEntry q (if e.poison then 9 else 0) else t

/-- One turn of a H2C entry; data that have not all come move nothing. -/
def Tx.turnH2c (t : Tx d0) (q : Nat) (e : Entry) (data : List Byte) : Tx d0 :=
  let a := rn e.bytes 16 8
  let n := min 4096 (e.span - e.done)
  if t.d.imageRegions.any (overlaps (a, e.span)) then t.endEntry q 5
  else if data.length < n then t
  else (t.upd (.cxl (a + e.done) (data.take n))).moved q n false

/-- Data read from CXL memory go to host memory, 64 bytes at a time. -/
def Tx.toHost (t : Tx d0) (host : Nat) (addrs : List Nat) (poisoned : List Nat) : Bool × Tx d0 :=
  let bad := fun (a : Nat) => poisoned.any (fun p => p / 64 == a / 64)
  let t := t.each addrs.zipIdx (fun (a, i) t => t.send (.hostWrite (host + 64 * i) (t.d.cxlBytes a 64) (bad a)))
  let t := t.notePoison addrs poisoned
  let any := addrs.any bad
  (any, if any then t.ev R.ECC_EVT.CXL_POISON else t)

/-- One turn of a C2H entry. -/
def Tx.turnC2h (t : Tx d0) (q : Nat) (e : Entry) (poisoned : List Nat) : Tx d0 :=
  let n := min 4096 (e.span - e.done)
  let (bad, t) := t.toHost (rn e.bytes 8 8 + e.done) ((List.range (n / 64)).map (fun i => rn e.bytes 16 8 + e.done + 64 * i)) poisoned
  t.moved q n bad

/-- One turn of a RING entry. -/
def Tx.turnRing (t : Tx d0) (q : Nat) (e : Entry) (poisoned : List Nat) : Tx d0 :=
  let n := rb e.bytes 28
  let g := t.d.ring n
  if !t.d.ringOn n then t.endEntry q 0
  else
    let len := min 4096 (e.span - e.done)
    let r := 256 * t.f (ringRptr n)
    let at' := fun (i : Nat) => (r + e.done + i) % max 1 g.size
    let (bad, t) := t.toHost (rn e.bytes 8 8 + e.done) ((List.range (len / 64)).map (fun i => g.base + at' (64 * i))) poisoned
    let checks := (List.range (len / 256)).flatMap (fun i => t.d.cxlBytes (g.base + g.size + 4 * (at' (256 * i) / 256)) 4)
    (if checks.isEmpty then t else t.send (.hostWrite (rn e.bytes 32 8 + e.done / 64) checks false)).moved q len bad

/-- One turn of a queue's work (R570): the entry in progress, or else the one that has waited, or the next one of the queue, as `entry` gives it. `ops`
are the OPCODEs that the command stands for, and `go` is the turn. -/
def Tx.turn (t : Tx d0) (q : Nat) (entry : List Byte) (ops : Nat → Bool) (go : Entry → Tx d0 → Tx d0) : Tx d0 :=
  let fresh := (entry ++ List.replicate 64 (0 : Byte)).take 64
  let r := match (t.d.queue q).cur with | some e => e.bytes | none => (t.d.waitsFor q).getD fresh
  if t.d.nextQueue ≠ some q || !ops (rb r 0) then t
  else
    let t := t.modHost (fun x => { x with served := q })
    let t :=
      if (t.d.queue q).cur.isSome then t
      else
        let t := if (t.d.waitsFor q).isSome then t else t.reachEntry q r
        if t.d.mustWait q r then t else t.beginEntry q r
    match (t.d.queue q).cur with
    | none => t
    | some e => go e t

def effH2c (q : Nat) (entry turn : List Byte) (t : Tx d0) : Tx d0 := t.turn q entry (fun o => o == 1) (fun e t => t.turnH2c q e turn)

def execH2c (q : Fin 64) (entry : List Byte) (turn : List Byte) (s : State) : Host.Outcome State Fault Refusal := commit (effH2c q.val entry turn) s

def effC2h (q : Nat) (entry : List Byte) (poisoned : List Nat) (t : Tx d0) : Tx d0 := t.turn q entry (fun o => o == 2) (fun e t => t.turnC2h q e poisoned)

def execC2h (q : Fin 64) (entry : List Byte) (poisoned : List Nat) (s : State) : Host.Outcome State Fault Refusal := commit (effC2h q.val entry poisoned) s

def effRing (q : Nat) (entry : List Byte) (poisoned : List Nat) (t : Tx d0) : Tx d0 := t.turn q entry (fun o => o == 3) (fun e t => t.turnRing q e poisoned)

def execRing (q : Fin 64) (entry : List Byte) (poisoned : List Nat) (s : State) : Host.Outcome State Fault Refusal := commit (effRing q.val entry poisoned) s

/-- NOP, and an entry whose OPCODE is reserved. -/
def effNop (q : Nat) (entry : List Byte) (t : Tx d0) : Tx d0 := t.turn q entry (fun o => o == 0 || 4 ≤ o) (fun _ t => t.endEntry q 0)

def execNop (q : Fin 64) (entry : List Byte) (s : State) : Host.Outcome State Fault Refusal := commit (effNop q.val entry) s

/-- The uncorrectable error that AER reports of a host-memory read (R551): Completion Timeout or Poisoned TLP Received (PRESUMED, log 217). -/
def aerBits (why : ReadEnd) : Nat :=
  match why with
  | .timeout => 2 ^ 14
  | .poison => 2 ^ 12
  | .error => 0

/-- HOST_READ_TIMEOUT: host memory does not answer the entry in progress within 50 ms, or answers with an error or with poison (R566). -/
def effHostReadTimeout (q : Nat) (why : ReadEnd) (t : Tx d0) : Tx d0 :=
  match (t.d.queue q).cur with
  | some e => if rb e.bytes 0 = 1 then (t.modHost (fun x => { x with aer := x.aer ||| aerBits why })).endEntry q 8 else t
  | none => t

def execHostReadTimeout (q : Fin 64) (why : ReadEnd) (s : State) : Host.Outcome State Fault Refusal := commit (effHostReadTimeout q.val why) s

/-! Interrupts (R576, R577) -/

/-- MSIX_MESSAGE: a pending vector sends its message where MSI-X Enable and the function mask, which the host has set to `en` and `mask` in Message
Control, allow it and its own mask does not forbid it, in D0. -/
def effMsixMessage (v : Nat) (en mask : Bool) (t : Tx d0) : Tx d0 :=
  let t := t.modHost (fun x => { x with msixEn := en, funcMask := mask })
  if t.d.host.msixEn && !t.d.host.funcMask && !t.d.host.d3hot && bget (fun _ => false) t.d.pba v && t.f (R.MSIX.WORD v 3) % 2 = 0 then
    (t.upd (.pba v false)).send (.msix v (t.f (R.MSIX.WORD v 0) + 2 ^ 32 * t.f (R.MSIX.WORD v 1)) (t.f (R.MSIX.WORD v 2)))
  else t

def execMsixMessage (v : Fin 2048) (enable functionMask : Bool) (s : State) : Host.Outcome State Fault Refusal :=
  commit (effMsixMessage v.val enable functionMask) s

/-! Attestation (R578, R579) -/

/-- The Watch answers a request; one that is not running does not. -/
def Tx.spdm (t : Tx d0) (code : Nat) (bs : List Byte) : Tx d0 := if t.d.watchRuns then t.send (.spdm code bs) else t

/-- An answer of `n` bytes that the spec gives no contents for. -/
def Tx.spdmOpen (t : Tx d0) (code : Nat) (head : List Byte) (n : Nat) : Tx d0 :=
  let (v, t) := t.open
  t.spdm code (head ++ leBytes n v)

/-- VERSION: 1.2 and 1.3. -/
def effGetVersion (t : Tx d0) : Tx d0 := t.spdm 0x04 [0x12, 0x13]
def execGetVersion (s : State) : Host.Outcome State Fault Refusal := commit effGetVersion s

/-- CAPABILITIES: its flags are open. -/
def effGetCapabilities (t : Tx d0) : Tx d0 := t.spdmOpen 0x61 [] 4
def execGetCapabilities (s : State) : Host.Outcome State Fault Refusal := commit effGetCapabilities s

/-- ALGORITHMS: ECDSA P-384 (bit 7 of the asymmetric algorithms) and SHA-384 (bit 1 of the hashes) only. -/
def effNegotiateAlgorithms (_req : List Byte) (t : Tx d0) : Tx d0 := t.spdm 0x63 (leBytes 4 0x80 ++ leBytes 4 0x02)
def execNegotiateAlgorithms (req : List Byte) (s : State) : Host.Outcome State Fault Refusal := commit (effNegotiateAlgorithms req) s

/-- The certificate chain of slot 0, from the IDENT factory record. -/
def certChain : List Byte := identBytes 256 (leNat (identBytes 224 2))

/-- DIGESTS: slot 0 alone is provisioned. -/
def effGetDigests (t : Tx d0) : Tx d0 := t.spdm 0x01 (0x01 :: sha384 certChain)
def execGetDigests (s : State) : Host.Outcome State Fault Refusal := commit effGetDigests s

/-- CERTIFICATE: a portion of slot 0's chain; ERROR InvalidRequest for another slot. -/
def effGetCertificate (slot off len : Nat) (t : Tx d0) : Tx d0 :=
  if slot ≠ 0 then t.spdm 0x7F [0x01] else t.spdm 0x02 ((certChain.drop off).take len)
def execGetCertificate (slot : Fin 8) (off len : BitVec 16) (s : State) : Host.Outcome State Fault Refusal :=
  commit (effGetCertificate slot.val off.toNat len.toNat) s

/-- CHALLENGE_AUTH: its signature, under a key the spec does not publish, is open. -/
def effChallenge (slot : Nat) (_nonce : List Byte) (t : Tx d0) : Tx d0 :=
  if slot ≠ 0 then t.spdm 0x7F [0x01] else t.spdmOpen 0x03 (sha384 certChain) 128
def execChallenge (slot : Fin 8) (nonce : List Byte) (s : State) : Host.Outcome State Fault Refusal := commit (effChallenge slot.val nonce) s

/-- A measurement block (R579). -/
def Device.measurement (d : Device) (i : Nat) : List Byte :=
  let r := d.fwRun
  let sect := fun (type : Nat) => sha384 (((d.fwFind r type).map (fun x => d.fwSection r x)).getD [])
  match i with
  | 1 => leBytes 4 (d.f R.ENG_ROM_ID.ID)
  | 2 => sect 1
  | 3 => sha384 d.fw.force
  | 4 => sect 3
  | 5 => sha384 (d.fwBlock r 0)
  | 6 => sha384 (((d.desc r).drop 12).take 4)
  | _ => sha384 ((d.img.act.map (fun im => im.header.take 64)).getD (List.replicate 64 0))

/-- MEASUREMENTS: index 0 gives their number, 0xFF all of them, 1 to 7 one; any other is an ERROR. -/
def effGetMeasurements (index : Nat) (t : Tx d0) : Tx d0 :=
  if index = 0 then t.spdm 0x60 [7]
  else if index = 0xFF then t.spdm 0x60 ((List.range 7).flatMap (fun i => t.d.measurement (i + 1)))
  else if index ≤ 7 then t.spdm 0x60 (t.d.measurement index)
  else t.spdm 0x7F [0x01]
def execGetMeasurements (index : BitVec 8) (s : State) : Host.Outcome State Fault Refusal := commit (effGetMeasurements index.toNat) s

/-- KEY_EXCHANGE: ERROR UnsupportedRequest. -/
def effKeyExchange (t : Tx d0) : Tx d0 := t.spdm 0x7F [0x07]
def execKeyExchange (s : State) : Host.Outcome State Fault Refusal := commit effKeyExchange s

/-! The CXL port (R581 to R583) -/

/-- CXL_ENUMERATE: the link is up at a rate and width it has, and the device is enumerated; blocks that were asked for are asked for again (R583). -/
def effCxlEnumerate (type3 mld : Bool) (capacity : Nat) (timeout : Bool) (rate width : Nat) (t : Tx d0) : Tx d0 :=
  if !t.d.domOn 2 || rate = 0 || !([2, 4, 8].contains width) then t
  else
    let why := if timeout then 4 else if !type3 then 1 else if mld then 2 else if capacity < 2 ^ 30 then 3 else 0
    let t := (((t.wb R.LNK_CXL_STAT.UP true).w R.LNK_CXL_STAT.RATE rate).w R.LNK_CXL_STAT.WIDTH width).w R.LNK_CXL_STAT.WHY why
    let t := t.modHost (fun x => { x with cxlLost := false })
    if why ≠ 0 then (t.ev R.LNK_CXL_EVT.ENUM_FAIL).wb R.ECC_CXL_STAT.PRESENT false
    else
      let t := (t.wb R.ECC_CXL_STAT.PRESENT true).w R.ECC_CXL_STAT.CAP (min 2048 (capacity / 2 ^ 30))
      let t := t.each t.d.cxlReads (fun x t => t.askBlock x.1 x.2)
      t.each (List.range 4) (fun s t => t.streamOut s)

def execCxlEnumerate (type3 mld : Bool) (capacity : BitVec 52) (timeout : Bool) (rate : Fin 7) (width : Fin 9)
    (s : State) : Host.Outcome State Fault Refusal :=
  commit (effCxlEnumerate type3 mld capacity.toNat timeout rate.val width.val) s

/-- CXL_LINK_DOWN. -/
def effCxlLinkDown (t : Tx d0) : Tx d0 :=
  if !t.b R.LNK_CXL_STAT.UP then t
  else
    let used := t.d.cxlUp
    let t := ((t.wb R.LNK_CXL_STAT.UP false).wb R.ECC_CXL_STAT.PRESENT false).ev R.LNK_CXL_EVT.DOWN
    (t.inc R.LNK_CXL_CNT.RETRAINS).modHost (fun x => { x with cxlLost := x.cxlLost || used })

def execCxlLinkDown (s : State) : Host.Outcome State Fault Refusal := commit effCxlLinkDown s

/-- CXL_EVENT_POLL: media events the device's logs held. -/
def effCxlEventPoll (events : Nat) (t : Tx d0) : Tx d0 :=
  if events = 0 || !t.d.cxlUp then t else (t.add R.LNK_CXL_CNT.MEDIA events).ev R.LNK_CXL_EVT.MEDIA

def execCxlEventPoll (events : BitVec 16) (s : State) : Host.Outcome State Fault Refusal := commit (effCxlEventPoll events.toNat) s

end Sys2Proof.Machine
end

