-- ==== Sys2Proof/Machine/Lanes.lean ====
section
/-! DEFINITION. Serial lanes (chapter 18): bring-up phases, what TRAIN cells tell, adaptation, eye measurements, and lane presets. -/
namespace Sys2Proof.Machine

variable {d0 : Device}

/-! Bring-up phases (R600 to R605) -/

/-- Ticks of equalisation by preset source (R595). -/
def equalTime (src : Nat) : Nat := if src = 3 then 2000000 else if src = 1 then 4000000 else 40000000

/-- Limit of the phase a port is in (R600). -/
def Device.phaseLimit (d : Device) (p : Nat) : Nat :=
  match d.f (R.LNK_PORT_STAT.PHASE p) with
  | 1 => 400000
  | 2 => equalTime (d.f (R.LNK_PORT_STAT.SRC p)) + 2000000
  | 3 => 200000
  | 4 => 2000000
  | 5 => 2000000
  | _ => 200000

/-- The lanes of a port that are locked, as a mask. -/
def Device.lockMask (d : Device) (p : Nat) : Nat := (portLanes p).foldl (fun v l => if d.b (R.LNK_LANE_STAT.LOCK p l) then v + 2 ^ l else v) 0

/-- Lanes of a mask. -/
def lanesIn (p m : Nat) : List Nat := (portLanes p).filter m.testBit

/-- A port moves to another phase. -/
def Tx.toPhase (t : Tx d0) (p ph : Nat) : Tx d0 :=
  let now := t.d.age
  let t := t.modPortUp p (fun x => { x with since := now, doneSent := 0 })
  let t := t.each (portLanes p) (fun l t => t.modLane (4 * p + l) (fun x => { x with good := 0, lat := (0, 0) }))
  t.w (R.LNK_PORT_STAT.PHASE p) ph

/-- An attempt fails (R600, R605). -/
def Tx.bringupFails (t : Tx d0) (p why : Nat) : Tx d0 := (t.toPhase p 8).w (R.LNK_PORT_STAT.WHY p) why

/-- SEND is over for a port whose lanes in the mask are locked. -/
def Tx.sendOver (t : Tx d0) (p : Nat) : Tx d0 := t.toPhase p 2

/-- The first reason for which a port may not enter service (R604); 0 where there is none. -/
def Device.serviceWhy (d : Device) (p lanes rate : Nat) : Nat :=
  let link := if p = 8 then 1 else 0
  if rate ≠ 1 then 2
  else if lanes ≠ (if p = 8 then 15 else 3) then 3
  else if !(d.f (R.LNK_PORT_CAP.FORMATS p)).testBit 0 || d.f (R.LNK_PORT_CAP.LINK p) ≠ link then 4
  else if (portLanes p).any (fun l => 144 < (d.lane (4 * p + l)).lat.1) then 5
  else if (portLanes p).any (fun l => d.f (R.LNK_LANE_STAT.EYE_W p l) < d.f R.LNK_SER_CTL.EYE_MIN) then 6
  else 0

/-- A port enters service: its transmitters scramble from the seed they sent, and its latencies are fixed (R589, R594, R603). Its receivers are in step with
the peer's transmitters since the last TRAIN cell that came. -/
def Tx.enterService (t : Tx d0) (p : Nat) : Tx d0 :=
  let t := t.each (portLanes p) (fun l t =>
    let n := 4 * p + l
    let t := t.upd (.lat n (t.d.lane n).lat.1)
    let t := t.w (R.LNK_LANE_STAT.EYE_LOW p l) (t.f (R.LNK_LANE_STAT.EYE_W p l))
    let t := t.wb (R.LNK_LANE_STAT.PRECODE_TX p l) (t.d.lane n).pre
    (t.wb (R.LNK_LANE_STAT.PRECODE_RX p l) (t.d.lane n).set.precode).modLane n (fun x => { x with prev := 0, low := 0, sent := none }))
  let t := (t.w (R.LNK_PORT_STAT.PHASE p) 7).w (R.LNK_PORT_STAT.WHY p) 0
  let t := (t.inc (R.LNK_PORT_STAT.TRAINS p)).wb (R.FAB_PORT_STAT.IN_SERVICE p) true
  let fac := t.f (R.LNK_PORT_STAT.SRC p) == 2
  (t.modPortUp p (fun x => { x with factory := x.factory || fac })).showPorts

/-! Eyes (R609, R610) -/

/-- The widest run of consecutive steps without a mismatch. -/
def widestRun (mask : Nat) : Nat :=
  ((List.range 64).foldl (fun (r : Nat × Nat) i => if mask.testBit i then (r.1, 0) else (max r.1 (r.2 + 1), r.2 + 1)) (0, 0)).1

/-- EYE_W of a sweep: the widest run in the narrowest of its eyes. -/
def eyeWidth (sweep : EyeSweep) : Nat := sweep.foldl (fun m e => min m (widestRun e.1.toNat)) 64

/-- The openings of the eyes that are that narrow: where there are more than one, EYE_H is of any (DESIGN CHOICE, log 248). -/
def eyeHeights (sweep : EyeSweep) : List Nat :=
  (sweep.filter (fun e => widestRun e.1.toNat == eyeWidth sweep)).map (fun e => e.2.toNat)

/-- A lane's eye has been measured: it is shown, and one below EYE_WARN is reported. -/
def Tx.measureEye (t : Tx d0) (p l : Nat) (sweep : EyeSweep) : Tx d0 :=
  let (v, t) := t.open
  let w := eyeWidth sweep
  let hs := eyeHeights sweep
  let t := (t.w (R.LNK_LANE_STAT.EYE_W p l) w).w (R.LNK_LANE_STAT.EYE_H p l) (hs.getD (v % hs.length) 0)
  if w < t.f R.LNK_SER_CTL.EYE_WARN then t.ev (R.LNK_PORT_EVT.EYE_WARN p) else t

/-- DONE ends: the mode is settled (R601), the largest latency is shown (R326), and the port enters service or not (R604). -/
def Tx.settlePort (t : Tx d0) (p : Nat) : Tx d0 :=
  let lanes := t.d.lockMask p &&& t.f (R.LNK_PORT_CAP.LANES p)
  let slow := (lanesIn p (t.d.lockMask p)).any (fun l => (t.d.lane (4 * p + l)).slow)
  let theirs := t.f (R.LNK_PORT_CAP.RATES p)
  let rate := if !slow && theirs.testBit 0 then 1 else if theirs.testBit 1 then 2 else 0
  let t := (t.w (R.LNK_PORT_STAT.LANES p) lanes).w (R.LNK_PORT_STAT.RATE p) rate
  let most := (portLanes p).foldl (fun m l => max m (t.d.lane (4 * p + l)).lat.1) 0
  let t := (t.w (R.FAB_PORT_STAT.LAT p) (min most 255)).wb (R.FAB_PORT_STAT.LAT_RANGE p) (144 < most)
  match t.d.serviceWhy p lanes rate with
  | 0 => t.enterService p
  | why => t.bringupFails p why

/-- The receivers of `mask` detect signal and lock in SEND. -/
def Tx.lockLanes (t : Tx d0) (p mask : Nat) : Tx d0 := t.each (lanesIn p mask) (fun l t => t.wb (R.LNK_LANE_STAT.LOCK p l) true)

/-- Lanes that have not locked run at 56 Gb/s from here on (R601). -/
def Tx.slowLanes (t : Tx d0) (p : Nat) : Tx d0 :=
  t.each (portLanes p) (fun l t => if t.b (R.LNK_LANE_STAT.LOCK p l) then t else t.modLane (4 * p + l) (fun x => { x with slow := true }))

/-- The phase a port is in ends (R600); `mask`: the lanes whose receivers have locked, for SEND; `sweeps`: what the monitor samplers of the
lanes have found, for DONE. -/
def Tx.bringup (t : Tx d0) (p mask : Nat) (sweeps : List EyeSweep) : Tx d0 :=
  let since := (t.d.portUp p).since
  let now := t.d.age
  let lane := fun (l : Nat) => t.d.lane (4 * p + l)
  let own := t.d.lockMask p
  let both := lanesIn p (own &&& t.f (R.LNK_PORT_CAP.LANES p))
  if !t.d.mayTrain p || since + t.d.phaseLimit p < now then t
  else match t.f (R.LNK_PORT_STAT.PHASE p) with
    | 1 =>
      let t := t.lockLanes p mask
      if (portLanes p).all (fun l => t.b (R.LNK_LANE_STAT.LOCK p l)) then t.sendOver p else t
    | 2 =>
      if now < since + equalTime (t.f (R.LNK_PORT_STAT.SRC p)) then t
      else
        let t := t.each (portLanes p) (fun l t =>
          t.modLane (4 * p + l) (fun x => { x with set := { x.set with precode := decide (51 ≤ (x.set.taps.getD 0 0).natAbs) } }))
        t.toPhase p 3
    | 3 => if own ≠ 0 && (lanesIn p own).all (fun l => 64 ≤ (lane l).good) then t.toPhase p 4 else t
    | 4 => if !both.isEmpty && both.all (fun l => 16 ≤ (lane l).good) then t.toPhase p 5 else t
    | 5 =>
      if !both.isEmpty && both.all (fun l => 16 ≤ (lane l).lat.2) then
        let keep := t.d
        let t := t.toPhase p 6
        t.each (portLanes p) (fun l t =>
          let (seed, t) := t.open
          t.modLane (4 * p + l) (fun x => { x with lat := (keep.lane (4 * p + l)).lat, scr := seed % 2 ^ 31 }))
      else t
    | 6 =>
      if !both.isEmpty && 16 * (portLanes p).length ≤ (t.d.portUp p).doneSent && both.all (fun l => (lane l).doneRx) then
        let t := t.each (portLanes p) (fun l t =>
          match sweeps[l]? with
          | some x => t.measureEye p l x
          | none => t)
        t.settlePort p
      else t
    | _ => t

def effPortBringup (p mask : Nat) (sweeps : List EyeSweep) (t : Tx d0) : Tx d0 := t.bringup p mask sweeps

def execPortBringup (p : Fin 9) (lanes : BitVec 4) (sweeps : List EyeSweep) (s : State) : Host.Outcome State Fault Refusal :=
  commit (effPortBringup p.val lanes.toNat sweeps) s

/-- BRINGUP_TIMEOUT: a phase is past its limit. In SEND, lanes that have not locked retry once at 56 Gb/s, and lanes that have locked go on without
those that have not (R601, R611). -/
def effBringupTimeout (p : Nat) (t : Tx d0) : Tx d0 :=
  let ph := t.f (R.LNK_PORT_STAT.PHASE p)
  let now := t.d.age
  if !t.d.mayTrain p || ph = 0 || 7 ≤ ph || now ≤ (t.d.portUp p).since + t.d.phaseLimit p then t
  else if ph = 1 && !(t.d.portUp p).slow then (t.slowLanes p).modPortUp p (fun x => { x with slow := true, since := now })
  else if ph = 1 && t.d.lockMask p ≠ 0 then t.sendOver p
  else t.bringupFails p 1

def execBringupTimeout (p : Fin 9) (s : State) : Host.Outcome State Fault Refusal := commit (effBringupTimeout p.val) s

/-- BRINGUP_RETRY: 100 ms of WAIT_RETRY are over; the same preset source is loaded again (R605). -/
def effBringupRetry (p : Nat) (t : Tx d0) : Tx d0 :=
  if !t.d.mayTrain p || t.f (R.LNK_PORT_STAT.PHASE p) ≠ 8 || t.d.age < (t.d.portUp p).since + 200000000 then t
  else
    let t := t.each (portLanes p) (fun l t => t.modLane (4 * p + l) (fun z => { z with set := z.preset }))
    (t.portAttempt p).ev (R.LNK_PORT_EVT.RETRY p)

def execBringupRetry (p : Fin 9) (s : State) : Host.Outcome State Fault Refusal := commit (effBringupRetry p.val) s

/-- A write of LNK_PORT_CTL (R600, R606): RETRAIN takes the port out of service and starts bring-up, or waits for the run to end. -/
def Tx.portCtl (t : Tx d0) (p data : Nat) : Tx d0 :=
  let was := t.b (R.LNK_PORT_CTL.EN p)
  let t := (t.wb (R.LNK_PORT_CTL.EN p) (data.testBit 31)).wb (R.LNK_PORT_CTL.EXTENDED p) (data.testBit 29)
  let t := if data.testBit 30 then t.setS (R.LNK_PORT_CTL.RETRAIN p) else t
  let serving := t.b (R.FAB_PORT_STAT.IN_SERVICE p)
  if data.testBit 30 && !t.running then (t.portLeave p).portSend p
  else if !data.testBit 31 && !serving then t.w (R.LNK_PORT_STAT.PHASE p) 0
  else if !was && data.testBit 31 && !serving then t.portSend p
  else t

/-- PORT_RETRAIN: LNK_PORT_CTL.RETRAIN is written, with EN and EXTENDED as they are. -/
def effPortRetrain (p : Nat) (t : Tx d0) : Tx d0 :=
  t.hostReg (R.LNK_PORT_CTL.RETRAIN p).off (fun t =>
    t.portCtl p (2 ^ 30 + t.f (R.LNK_PORT_CTL.EN p) * 2 ^ 31 + t.f (R.LNK_PORT_CTL.EXTENDED p) * 2 ^ 29))

def execPortRetrain (p : Fin 9) (s : State) : Host.Outcome State Fault Refusal := commit (effPortRetrain p.val) s

/-! TRAIN cells (R599, R602) -/

/-- The latency result of a TRAIN cell that arrives now and echoes a cell of this end (R602). -/
def trainLat (now cell : Nat) : Nat :=
  let m := 2 ^ 40
  let d := fun (a b : Nat) => (a + m - b % m) % m
  let rtt := d (d (now % m) (bitsOf cell 143 104)) (d (bitsOf cell 183 144) (bitsOf cell 103 64))
  (rtt + 1) / 2 % m

/-- T_ECHO is the T_TX of a TRAIN cell that the lane has sent (R602). -/
def Lane.sentTrain (x : Lane) (echo : Nat) : Bool :=
  x.trains.any (fun r =>
    let k := (echo + 2 ^ 40 - r.1 % 2 ^ 40) % 2 ^ 40
    decide (k ≤ r.2 - r.1) && k % (if x.slow then 8 else 4) == 0)

/-- TRAIN_CELL: a cell whose last bit arrives now on a lane that is locked and not in service. -/
def Tx.trainCellIn (t : Tx d0) (p l cell : Nat) : Tx d0 :=
  let ph := t.f (R.LNK_PORT_STAT.PHASE p)
  let n := 4 * p + l
  let now := t.now.toNat
  let peer := bitsOf cell 219 216
  if !t.d.mayTrain p || ph < 3 || 6 < ph || !t.b (R.LNK_LANE_STAT.LOCK p l) then t
  else if cell / 2 ^ 220 ≠ 15 || !cellGood cell then t.modLane n (fun x => { x with good := 0 })
  else
    let t := ((t.w (R.LNK_PORT_CAP.RATES p) (bitsOf cell 207 204)).w (R.LNK_PORT_CAP.LANES p) (bitsOf cell 211 208)).w (R.LNK_PORT_CAP.FORMATS p) (bitsOf cell 203 200)
    let t := (t.w (R.LNK_PORT_CAP.LINK p) (bitsOf cell 213 213)).w (R.LNK_PORT_CAP.PART p) (bitsOf cell 199 184)
    let late := 4 ≤ peer && peer ≤ 6
    let echo := bitsOf cell 143 104
    let t := t.modLane n (fun x =>
      let x := { x with good := if ph = 3 || late then x.good + 1 else 0, echo := some (bitsOf cell 183 144, now % 2 ^ 40), pre := cell.testBit 212 }
      let x := if peer = 6 then { x with doneRx := true, seedRx := bitsOf cell 63 33 } else x
      if ph = 5 && 3 ≤ peer && peer ≤ 6 && x.sentTrain echo then
        let v := trainLat now cell
        { x with lat := (v, if x.lat.2 ≠ 0 && x.lat.1 = v then x.lat.2 + 1 else 1) }
      else x)
    t

/-- A TRAIN cell is the last that the peer has sent unscrambled: the cell after it is the first that the seed it told scrambles, and precoding starts
there from 0 (R588, R589). -/
def Tx.trainHeard (t : Tx d0) (p l : Nat) : Tx d0 :=
  if t.b (R.LNK_LANE_STAT.LOCK p l) then
    let age := t.d.age
    t.modLane (4 * p + l) (fun x => { x with rxScr := x.seedRx, rxPrev := 0, rxFrom := age })
  else t

def effTrainCell (p l cell : Nat) (t : Tx d0) : Tx d0 := (t.trainCellIn p l cell).trainHeard p l

def execTrainCell (p : Fin 9) (l : Fin 4) (cell : BitVec 224) (s : State) : Host.Outcome State Fault Refusal :=
  commit (effTrainCell p.val l.val cell.toNat) s

/-! Adaptation (R591, R592) -/

/-- One step, down, none or up, within a range. -/
def stepIn (lo hi v s : Int) : Int := satI lo hi (v + satI (-1) 1 s)

/-- DFE_ADAPT: in an interval of 2^16 symbols in which the lane has not yet adapted, each of CTLE code, gain and taps 1 to 12 makes the
step given for it. -/
def effDfeAdapt (p l : Nat) (steps : List Int) (t : Tx d0) : Tx d0 :=
  let n := 4 * p + l
  let x := t.d.lane n
  let slot := t.d.age * (if x.slow then 14 else 28) / 65536 + 1
  if !t.b (R.LNK_LANE_STAT.LOCK p l) || x.adapt = slot then t
  else
    let s := fun (i : Nat) => steps.getD i 0
    let set := { x.set with
      ctle := (stepIn 0 255 x.set.ctle (s 0)).toNat, gain := (stepIn 0 255 x.set.gain (s 1)).toNat
      taps := (List.range 12).map (fun k => let m : Int := if k = 0 then 96 else 32; stepIn (-m) m (x.set.taps.getD k 0) (s (k + 2))) }
    t.modLane n (fun x => { x with set := set, adapt := slot })

def execDfeAdapt (p : Fin 9) (l : Fin 4) (taps : List Int) (s : State) : Host.Outcome State Fault Refusal :=
  commit (effDfeAdapt p.val l.val taps) s

/-! Sweeps and locks (R608 to R610) -/

/-- EYE_SWEEP_DONE: a sweep of a locked lane ends. -/
def effEyeSweepDone (p l : Nat) (sweep : EyeSweep) (t : Tx d0) : Tx d0 :=
  if !t.b (R.LNK_LANE_STAT.LOCK p l) then t
  else
    let n := 4 * p + l
    let serving := t.b (R.FAB_PORT_STAT.IN_SERVICE p)
    let w := eyeWidth sweep
    let t := t.measureEye p l sweep
    let t := if serving && w < t.f (R.LNK_LANE_STAT.EYE_LOW p l) then t.w (R.LNK_LANE_STAT.EYE_LOW p l) w else t
    let low := w < t.f R.LNK_SER_CTL.EYE_MIN
    let run := t.running
    let t := t.modLane n (fun x => { x with low := if !low then 0 else if run then x.low else x.low + 1 })
    if serving && low && !run && 3 ≤ (t.d.lane n).low then t.portDown p 6 else t

def execEyeSweepDone (p : Fin 9) (l : Fin 4) (sweep : EyeSweep) (s : State) : Host.Outcome State Fault Refusal :=
  commit (effEyeSweepDone p.val l.val sweep) s

/-- LOCK_LOST: the clock recovery of a lane loses lock. -/
def effLockLost (p l : Nat) (t : Tx d0) : Tx d0 :=
  if !t.b (R.LNK_LANE_STAT.LOCK p l) then t
  else
    let t := (t.wb (R.LNK_LANE_STAT.LOCK p l) false).ev (R.LNK_PORT_EVT.LOCK_LOST p)
    if t.b (R.FAB_PORT_STAT.IN_SERVICE p) then t.portDown p 7
    else t.modLane (4 * p + l) (fun x => { x with good := 0, lat := (0, 0) })

def execLockLost (p : Fin 9) (l : Fin 4) (s : State) : Host.Outcome State Fault Refusal := commit (effLockLost p.val l.val) s

/-- LANE_PRESET_COMMIT: a FACTORY bring-up has completed and no run is in progress (R597). -/
def effLanePresetCommit (t : Tx d0) : Tx d0 :=
  if !t.running && (List.range 9).any (fun p => (t.d.portUp p).factory) then t.lanePresets else t

def execLanePresetCommit (s : State) : Host.Outcome State Fault Refusal := commit effLanePresetCommit s

end Sys2Proof.Machine
end

