-- ==== Sys2Proof/Machine/SelfTest.lean ====
section
/-! DEFINITION. The commands of the self-test (chapter 22): a request, its deferred start, and the end of a test, with the judgement of its reads and
measurements (R681 to R685, R693, R694). -/
namespace Sys2Proof.Machine

variable {d0 : Device}

/-- A request for the tests of GLB_ST_REQ as it stands: it starts at once, or waits (R686, R687). A request while a self-test runs waits too. -/
def Tx.stRequest (t : Tx d0) : Tx d0 :=
  let m := t.f R.GLB_ST_REQ.TESTS
  let algo := t.f R.GLB_ST_REQ.ALGO
  let data := t.f R.GLB_ST_REQ.DATA
  let stop := t.b R.GLB_ST_REQ.STOP_FIRST
  let run := t.running || t.b R.GLB_RUN_STAT.PENDING
  if run || t.b R.CAL_STAT.FG_BUSY || t.b R.CAL_STAT.INITIAL || t.b R.GLB_ST_STAT.BUSY || t.d.st.later.isSome then
    let all := m ||| (t.d.st.later.map (fun r => r.1)).getD 0
    let t := t.modSt (fun x => { x with later := some (all, algo, data, stop) })
    let t := (t.wb R.GLB_ST_STAT.DEFERRED true).w R.GLB_ST_STAT.DONE all
    if run then t.w R.GLB_ST_STAT.RESULT 5 else t
  else t.stStart m algo data stop

/-- A write of GLB_ST_REQ: reserved values of ALGO and DATA are discarded (R16, R681, R682). -/
def Tx.stReq (t : Tx d0) (data : Nat) : Tx d0 :=
  let algo := bitsOf data 11 8
  let pat := bitsOf data 15 12
  let t := (t.w R.GLB_ST_REQ.TESTS (data % 256)).wb R.GLB_ST_REQ.STOP_FIRST (data.testBit 16)
  let t := if algo < 2 then t.w R.GLB_ST_REQ.ALGO algo else t
  let t := if pat < 4 then t.w R.GLB_ST_REQ.DATA pat else t
  let t := if algo < 2 && pat < 4 then t else t.accErr R.GLB_ST_REQ.GO.off [R.GLB_ACC_ERR.RSVD_ENC]
  if data.testBit 31 then t.stRequest else t

def effSelftestRequest (data : Nat) (t : Tx d0) : Tx d0 := t.hostReg R.GLB_ST_REQ.GO.off (fun t => t.stReq (data ||| 2 ^ 31))

def execSelftestRequest (data : Word) (s : State) : Host.Outcome State Fault Refusal := commit (effSelftestRequest data.toNat) s

/-- SELFTEST_DEFERRED_START: what held the request is over; a deferred calibration goes first. -/
def effSelftestDeferredStart (t : Tx d0) : Tx d0 := t.stDeferred

def execSelftestDeferredStart (s : State) : Host.Outcome State Fault Refusal := commit effSelftestDeferredStart s

/-! Reads of a memory test (R681 to R685) -/

/-- A read that fails: its place in the program's order, its unit, element, line position and operation, the byte address of its word, the differing data
bits and check bits, and whether CXL memory returned poison. -/
structure BadRead where
  key : Nat
  unit : Nat
  elem : Nat
  pos : Nat
  op : Nat
  addr : Nat
  data : Nat
  check : Nat
  poison : Bool

/-- The place of a read in the order of a program: element, line position, operation, and of reads made at once (R680) that of the lower unit first
(DESIGN CHOICE, log 247); the words of a line in order. -/
def readKey (elem pos op unit word : Nat) : Nat := (((elem * 2 ^ 36 + pos) * 4 + op) * 64 + unit) * 8 + word

/-- A read of the test in front is judged: the whole stored codeword against the one that the encoder gives for the expected word (R683); CXL memory has
no check bits, and poison fails (R684). None where it passes, or is no read of the program. -/
def Device.judgeRead (d : Device) (k elem op addr data check : Nat) (poison : Bool) : Option BadRead :=
  match (d.testUnits k).find? (fun u => decide (64 * u.2.1 ≤ addr) && decide (addr < 64 * (u.2.1 + u.2.2))), (testProgram d.st.algo)[elem]? with
  | some (unit, line, n), some (up, ops) =>
    match ops[op]? with
    | some (false, inv) =>
      let i := (addr - 64 * line) / 8
      let want := testWord d.st.data d.st.bg (64 * line) i inv
      let pos := if up then i / 8 else n - 1 - i / 8
      let dd := data ^^^ want
      let cc := if k = 5 then 0 else check % (if perByte (testClass k) then 2 ^ 40 else 2 ^ 8) ^^^ wordChecks (testClass k) want (fun _ => 0)
      let poison := poison && k == 5
      if dd = 0 && cc = 0 && !poison then none
      else some { key := readKey elem pos op unit (i % 8), unit := unit, elem := elem, pos := pos, op := op, addr := addr / 8 * 8, data := dd, check := cc, poison := poison }
    | _ => none
  | _, _ => none

/-- Words of the units under test whose stored bits are not what the test wrote: an injected error has changed them since. -/
def Device.testTouched (d : Device) (k : Nat) : List Nat :=
  let mine := fun (a : Nat) => (d.testUnits k).any (fun u => decide (64 * u.2.1 ≤ a) && decide (a < 64 * (u.2.1 + u.2.2)))
  if k < 5 then (((d.errs.map Prod.fst ++ d.sram.cells.map Prod.fst).filter mine).map (fun a => a / 8 * 8)).eraseDups else []

/-- The last element reads a word as it is stored: an error injected during the test is met there (DESIGN CHOICE, log 247). -/
def Device.lastRead (d : Device) (k a : Nat) : Option BadRead :=
  let data := leNat (d.sram.read a 8)
  d.judgeRead k (lastElement d.st.algo) 0 a data (wordChecks (testClass k) data (fun i => bget (fun _ => 0) d.errs (a + i))) false

/-- The reads of the test in front that fail, each once. -/
def Device.badReads (d : Device) (k : Nat) (items : List TestItem) : List BadRead :=
  let given := items.filterMap (fun x => match x with
    | .read elem op addr data check poison => d.judgeRead k elem.val op.val addr.toNat data.toNat check.toNat poison
    | _ => none)
  (given ++ (d.testTouched k).filterMap (d.lastRead k)).foldl (fun l b => if l.any (fun c => c.key == b.key) then l else l ++ [b]) []

/-- The first of some reads. -/
def firstRead (l : List BadRead) : Option BadRead :=
  l.foldl (fun m b => match m with
    | some c => if c.key ≤ b.key then m else some b
    | none => some b) none

/-- Set bits of a number below 2^`n`. -/
def onesIn (n v : Nat) : Nat := ((List.range n).filter v.testBit).length

/-- The first failure of a request, as GLB_ST_FAIL and GLB_ST_FAIL_ADDR report it. For a per-byte class the spec numbers no check bits within a word of
72: BIT, where they alone differ, and a NBITS above 72 are open (DESIGN CHOICE, log 247). -/
def Tx.stFail (t : Tx d0) (k : Nat) (b : BadRead) : Tx d0 :=
  let bytes := k < 5 && perByte (testClass k)
  let (v, t) := t.open
  let all := b.data + 2 ^ 64 * b.check
  let bit := if bytes && b.data = 0 then v % 72 else ((List.range 72).find? all.testBit).getD 0
  let n := onesIn 104 all
  let t := (((t.w R.GLB_ST_FAIL.TEST k).w R.GLB_ST_FAIL.ELEM b.elem).w R.GLB_ST_FAIL.OP b.op).w R.GLB_ST_FAIL.WORD (b.addr / 8 % 8)
  let t := ((t.w R.GLB_ST_FAIL.BIT bit).w R.GLB_ST_FAIL.NBITS (if n ≤ 72 then n else v / 128)).w R.GLB_ST_FAIL.KIND (if b.poison then 4 else 0)
  t.w64 R.GLB_ST_FAIL_ADDR_LO.ADDR R.GLB_ST_FAIL_ADDR_HI.ADDR b.addr

/-- The reads of the CXL test told which lines of the window return poison (R485): of those it has read, the ones whose last read was poisoned. -/
def Tx.cxlTested (t : Tx d0) (reads : List BadRead) (stop : Option BadRead) : Tx d0 :=
  let (lo, n) := t.d.st.win
  let seen := fun (l : Nat) => match stop with
    | some b => decide (1 < b.elem) || decide (l ≤ b.addr / 64)
    | none => true
  let last := fun (b : BadRead) => stop.isSome || b.elem == lastElement t.d.st.algo
  let bad := (reads.filter (fun b => b.poison && last b)).map (fun b => b.addr / 64)
  let t := t.each ((t.d.cxlBad.map Prod.fst).filter (fun l => decide (lo / 64 ≤ l) && decide (l < (lo + n) / 64) && seen l)) (fun l t => t.upd (.cxlBad l false))
  let t := t.each bad (fun l t => t.upd (.cxlBad l true))
  if reads.any BadRead.poison then t.ev R.ECC_EVT.CXL_POISON else t

/-- A mask with some bits set. -/
def maskOf (l : List Nat) : Nat := l.foldl (fun m i => m ||| 2 ^ i) 0

/-- A test has failed. -/
def Tx.stFailed (t : Tx d0) (k : Nat) : Tx d0 := t.w R.GLB_ST_STAT.FAILED (t.f R.GLB_ST_STAT.FAILED ||| 2 ^ k)

/-- A memory test ends, at its last read or, with STOP_FIRST, at its first failing one (R685): it is judged and reported. The answer says whether it
failed. -/
def Tx.memoryDone (t : Tx d0) (k : Nat) (items : List TestItem) : Bool × Tx d0 :=
  let all := t.d.badReads k items
  match firstRead all with
  | none => (false, if k = 5 then t.cxlTested [] none else t)
  | some b =>
    let stop := t.d.st.stop
    let bad := if stop then [b] else all
    let first := t.f R.GLB_ST_STAT.FAILED = 0
    let t := (t.stFailed k).add R.GLB_ST_FAILCNT.MAP bad.length
    let t := if first then t.stFail k b else t
    let m := maskOf (bad.map BadRead.unit)
    let t := if k = 0 || k = 2 || k = 3 then t.w R.GLB_ST_TMAP.MAP (t.f R.GLB_ST_TMAP.MAP ||| m)
      else if k = 1 then t.w64 R.GLB_ST_EMAP_LO.MAP R.GLB_ST_EMAP_HI.MAP (t.d.f64 R.GLB_ST_EMAP_LO.MAP R.GLB_ST_EMAP_HI.MAP ||| m)
      else t
    let t := if k = 5 then t.cxlTested bad (if stop then some b else none) else t
    (true, if stop then t.testStopped k b.elem b.pos else t)

/-! Loop tests (R693, R694) -/

/-- The tile that a check of LOOP_CONV fails, if it does: level within 1.0 dB and every other component 50 dBc below; comb lines within 1.0 dB of their
factory values; monitor codes within the quadrant's FAULT window of the value R376 expects in range ×1. -/
def Device.convFails (d : Device) (x : TestItem) : Option Nat :=
  match x with
  | .tone c level spur => if level.natAbs ≤ 100 && decide (spur ≤ -5000) then none else some (c.val / 5)
  | .comb tl dev => if dev.natAbs ≤ 100 then none else some tl.val
  | .flux c code monitor =>
    let want : Int := (16384 * ((code.val : Int) - 1) * 2 + 2) / 5
    if (monitor - want).natAbs ≤ d.f (R.MON_WIN.FAULT (c.val / 64)) then none else some (c.val / 8)
  | _ => none

/-- The lane block that LOOP_LANE fails, if it does. -/
def Device.laneFails (d : Device) (x : TestItem) : Option Nat :=
  match x with
  | .lane i errors eyeW => if errors || eyeW.toNat < d.f R.LNK_SER_CTL.EYE_MIN then some i.val else none
  | _ => none

/-- A loop test ends: its map shows the powered tiles, or the lane blocks, that failed. A failure that is the request's first shows its test alone, and
none counts in FAILCNT: no read failed (DESIGN CHOICE, log 247). -/
def Tx.loopDone (t : Tx d0) (k : Nat) (items : List TestItem) : Bool × Tx d0 :=
  let (F, bad) := if k = 6 then (R.GLB_ST_CONV.MAP, (items.filterMap t.d.convFails).filter t.d.tileOn) else (R.GLB_ST_LANE.MAP, items.filterMap t.d.laneFails)
  if bad.isEmpty then (false, t)
  else
    let t := if t.f R.GLB_ST_STAT.FAILED = 0 then t.w R.GLB_ST_FAIL.TEST k else t
    (true, (t.stFailed k).w F (t.f F ||| maskOf bad))

/-- SELFTEST_DONE: the test in front ends and its memory is restored. With STOP_FIRST a failure has the later ones skipped (R685). -/
def effSelftestDone (items : List TestItem) (t : Tx d0) : Tx d0 :=
  if !t.d.st.begun then t
  else match firstTest t.d.st.tests with
    | none => t
    | some k =>
      let (bad, t) := if k < 6 then t.memoryDone k items else t.loopDone k items
      let t := if t.b R.GLB_ST_STAT.DEFERRED then t else t.w R.GLB_ST_STAT.DONE (t.f R.GLB_ST_STAT.DONE ||| 2 ^ k)
      let skip := bad && t.d.st.stop
      let t := t.modSt (fun x => { x with tests := if skip then 0 else x.tests &&& (255 - 2 ^ k) })
      let t := t.stRestore k true
      let t := if k = 5 then t.stRelease else t
      t.stNext

def execSelftestDone (items : List TestItem) (s : State) : Host.Outcome State Fault Refusal := commit (effSelftestDone items) s

end Sys2Proof.Machine
end

