-- ==== Sys2Proof/Machine/Twin.lean ====
section
/-! DEFINITION. The commands of a Cupola's members (chapter 19): attach and detach, mirror cells, digests without a partner, handover, and the loss of
the peer. -/
namespace Sys2Proof.Machine

variable {d0 : Device}

/-- ATTACH: TWIN_CTL.ATTACH is written, with the rest of the register as it is. -/
def Tx.askTwin (t : Tx d0) (F : Fld) : Tx d0 := t.hostReg F.off (fun t => (t.setS F).twinAsked)

def effAttach (t : Tx d0) : Tx d0 := t.askTwin R.TWIN_CTL.ATTACH

def execAttach (s : State) : Host.Outcome State Fault Refusal := commit effAttach s

/-- SEL_SETTLE: the FOLLOW raises its lines SEL_SETTLE ticks after the LEAD's are all high (R618). -/
def effSelSettle (t : Tx d0) : Tx d0 :=
  match t.d.twin.leadHigh with
  | some h => if t.f R.TWIN_STAT.STATE = 1 && t.f R.TWIN_STAT.ROLE = 2 && h + t.f R.TWIN_CFG.SEL_SETTLE ≤ t.d.age then t.drive 15 else t
  | none => t

def execSelSettle (s : State) : Host.Outcome State Fault Refusal := commit effSelSettle s

/-- The first condition of an attach that fails, as WHY codes it; 0 for none (R619). -/
def Device.attachWhy (d : Device) : Nat :=
  let id := (d.img.act.map Image.id).getD 0
  let role := d.f R.TWIN_STAT.ROLE
  if !((d.img.act.map (fun im => im.flags.testBit 0)).getD false) then 1
  else if !d.b (R.FAB_PORT_STAT.IN_SERVICE 8) || !d.b (R.FAB_PORT_STAT.NBR_OK 8) then 2
  else if !d.b R.TB_STAT.SYNC_OK then 3
  else if d.twin.pieces.any Option.isNone then 7
  else if d.twin.pieces ≠ (List.range 4).map (fun i => some (id / 2 ^ (16 * i) % 2 ^ 16)) then 4
  else if role + d.twin.peerRole ≠ 3 then 5
  else if (if role = 2 then d.f R.TWIN_STAT.SEL else d.f R.TWIN_STAT.PEER_SEL) ≠ 15 then 6
  else 0

/-- ATTACHED: every condition holds within 100 ms of the start of ATTACHING. -/
def effAttached (t : Tx d0) : Tx d0 :=
  if t.f R.TWIN_STAT.STATE = 1 && t.d.attachWhy = 0 && t.d.age ≤ t.d.twin.began + 200000000 then
    let now := t.d.age
    let t := (t.w R.TWIN_STAT.STATE 2).ev R.TWIN_EVT.ATTACHED
    let t := (t.upd (.dropDigs 0 32)).modTwin (fun x => { x with last := now, sendQ := [], own := [], peer := [], reqs := [], codes := [], handed := 0, mute := 0, lostTime := false })
    (t.putTwinRec 1 0).showQok
  else t

def execAttached (s : State) : Host.Outcome State Fault Refusal := commit effAttached s

/-- ATTACH_TIMEOUT: 100 ms are over. -/
def effAttachTimeout (t : Tx d0) : Tx d0 :=
  if t.f R.TWIN_STAT.STATE = 1 && t.d.attachWhy ≠ 0 && t.d.twin.began + 200000000 < t.d.age then
    let why := t.d.attachWhy
    ((t.toSolo).ev R.TWIN_EVT.ATTACH_REFUSED).w R.TWIN_STAT.WHY why
  else t

def execAttachTimeout (s : State) : Host.Outcome State Fault Refusal := commit effAttachTimeout s

/-- DETACH: TWIN_CTL.DETACH is written, with the rest of the register as it is. -/
def effDetach (t : Tx d0) : Tx d0 := t.askTwin R.TWIN_CTL.DETACH

def execDetach (s : State) : Host.Outcome State Fault Refusal := commit effDetach s

/-- MIRROR_CELL: a copy of a mirror cell comes on a lane, as the symbols of it; what it says takes effect on tick S + 180. -/
def effMirrorCell (l line : Nat) (t : Tx d0) : Tx d0 := t.hear 8 l line (fun bits t => (t.mirrorIn l bits).mirrorDue)

def execMirrorCell (l : Fin 4) (line : BitVec 224) (s : State) : Host.Outcome State Fault Refusal := commit (effMirrorCell l.val line.toNat) s

/-- MIRROR_REQUEST_APPLY: the requests whose tick w this is are applied, in the order in which they were made. -/
def effMirrorRequestApply (t : Tx d0) : Tx d0 := t.mirrorReqs

def execMirrorRequestApply (s : State) : Host.Outcome State Fault Refusal := commit effMirrorRequestApply s

/-- DIGEST_MISSING: the first digest of a tile that has found no partner within 65,536 ticks (R628). -/
def effDigestMissing (tl : Nat) (t : Tx d0) : Tx d0 :=
  let now := t.d.age
  let old := fun (c : Nat × Nat × Nat × Nat) => c.1 == tl && decide (c.2.2.2 + 65536 < now)
  match (t.d.twin.own ++ t.d.twin.peer).find? old with
  | some c =>
    if t.f R.TWIN_STAT.STATE = 2 then
      (t.modTwin (fun x => { x with own := x.own.erase c, peer := if x.own.contains c then x.peer else x.peer.erase c })).diverge tl c.2.1 true
    else t
  | none => t

def execDigestMissing (tl : Fin 32) (s : State) : Host.Outcome State Fault Refusal := commit (effDigestMissing tl.val) s

/-- A reason for which the LEAD's Watch hands a quadrant over (R629). -/
def Device.handoverDue (d : Device) (q : Nat) : Bool :=
  d.quadFaulted q || d.twin.lostTime || d.b R.THM_STAT.SHUTDOWN ||
  (List.range 8).any (fun i =>
    let tl := 8 * q + i
    d.b (R.FLX_EVT.CLAMP_FAULT tl) || (tileOutputs tl).any (fun k => (d.clampOf k).testBit 2))

/-- HANDOVER: the LEAD's Watch decides on a quadrant (R629, R631, R652); a decision on the tick on which the heartbeat is lost stands (R636). -/
def effHandover (q : Nat) (t : Tx d0) : Tx d0 :=
  let lost := t.f R.TWIN_STAT.STATE = 3 && t.d.f64 R.TWIN_HO_EPOCH_LO.EPOCH R.TWIN_HO_EPOCH_HI.EPOCH == t.now.toNat
  if !(t.f R.TWIN_STAT.STATE = 2 || lost) || t.f R.TWIN_STAT.ROLE ≠ 1 || t.d.twin.handed.testBit q || !t.d.handoverDue q then t
  else if !(t.f R.TWIN_STAT.PEER_QOK).testBit q then t.ev R.TWIN_EVT.HANDOVER_REFUSED
  else
    let t := t.drive (t.f R.TWIN_STAT.SEL &&& (15 - 2 ^ q))
    let t := ((t.w64 R.TWIN_HO_EPOCH_LO.EPOCH R.TWIN_HO_EPOCH_HI.EPOCH t.now.toNat).ev R.TWIN_EVT.HANDOVER).fault 0x0501 q
    let t := (t.modTwin (fun x => { x with handed := x.handed ||| 2 ^ q })).muteQuads (2 ^ q)
    ((t.voidQuads (2 ^ q)).putTwinRec 0 1).showQok

def execHandover (q : Fin 4) (s : State) : Host.Outcome State Fault Refusal := commit (effHandover q.val) s

/-- HB_LOST: no good MIRROR cell for HB_LIMIT ticks (R633); in ATTACHING, once one has come (R636). -/
def effHbLost (t : Tx d0) : Tx d0 :=
  let state := t.f R.TWIN_STAT.STATE
  let late := t.d.twin.last + t.f R.TWIN_CFG.HB_LIMIT ≤ t.d.age
  if late && (state = 2 || state = 1 && t.d.twin.began < t.d.twin.last) then t.lostPeer else t

def execHbLost (s : State) : Host.Outcome State Fault Refusal := commit effHbLost s

end Sys2Proof.Machine
end

