-- ==== Sys2Proof/Machine/RegAccess.lean ====
section
/-! DEFINITION. Host access to the registers of BAR0 and BAR4 (R8 to R24, R696 to R699): which register an offset names, its access codes, reserved
encodings, Watch-locked fields, the groups that a read latches, held low words, and the registers whose writes act. -/
namespace Sys2Proof.Machine

variable {d0 : Device}

/-! Access errors (R9, R14, R15, R698, R557) -/


/-- A dword of the Pending Bit Array of BAR4 (R556): its number. -/
def pbaWord (off : Nat) : Option Nat := if bar4 + 0x18000 ≤ off && off < bar4 + 0x18100 then some ((off - bar4 - 0x18000) / 4) else none

/-- The errors of an access that reaches `off`. -/
def Device.accFaults (d : Device) (off : Nat) (narrow : Bool) : List Fld :=
  (if narrow then [R.GLB_ACC_ERR.NARROW] else []) ++
    (if (regAt off).isNone && (pbaWord off).isNone then [R.GLB_ACC_ERR.UNMAPPED]
     else if d.domOn (domainOf off) then [] else [R.GLB_ACC_ERR.OFF])

/-! What a register reads as now -/

/-- A cause bit of the register file: W1C, and 1 (R575). -/
def causeBit (key v : Nat) : Bool := v != 0 && (regAt (key / 32)).any (fun r => r.flds.any (fun F => F.key == key && F.acc == .w1c))

/-- A cause of a vector is present now. -/
def Device.causeOn (d : Device) (v : Nat) : Bool :=
  d.flds.any (fun c => vectorOf c.1 == some v && causeBit c.1 c.2) ||
  (v == 194 && d.b R.ACQ_DRAIN_STAT.ABOVE) ||
  (64 ≤ v && v < 192 && v % 4 < 2 && (d.f (R.SCH_STAT.STATE ((v - 64) / 4 * 2 + v % 4)) == 3 || d.seqHalted ((v - 64) / 4 * 2 + v % 4)))

/-- The epoch that TB_EPOCH reads (R93, R94). -/
def Device.epochRead (d : Device) : Nat := ((d.time.before).getD d.now).toNat

/-- The word a register's fields make up; write-only fields read 0 (R16, R17). -/
def Device.fldWord (d : Device) (fs : List Fld) : Nat := fs.foldl (fun w F => if F.acc == .wo then w else w + d.f F * 2 ^ F.lo) 0

/-- DFE taps 4k + 1 to 4k + 4 of the selected lane. -/
def Device.tapWord (d : Device) (k : Nat) : Nat :=
  let p := d.f R.LNK_TAP_SEL.PORT
  let l := d.f R.LNK_TAP_SEL.LANE
  if (portLanes p).contains l then
    leNat ((List.range 4).map (fun i => BitVec.ofNat 8 (patternOf 8 ((d.lane (4 * p + l)).set.taps.getD (4 * k + i) 0))))
  else 0

/-- The word a register holds now. -/
def Device.live32 (d : Device) (r : RegAt) : Nat :=
  let k := r.idx.getD 0 0
  match r.reg with
  | .TB_EPOCH_LO => d.epochRead % 2 ^ 32
  | .TB_EPOCH_HI => d.epochRead / 2 ^ 32
  | .GLB_INT_STAT => (List.range 32).foldl (fun w i => if d.causeOn (32 * k + i) then w + 2 ^ i else w) 0
  | .ENG_PATCH_RD_DATA => bget (fun _ => 0) d.patch (d.f R.ENG_PATCH_RD_SEL.ADDR) / 2 ^ (32 * k) % 2 ^ 32
  | .LNK_TAP_DATA => d.tapWord k
  | _ => d.fldWord r.flds

/-- The word at an offset now; 0 where none is. -/
def Device.liveAt (d : Device) (off : Nat) : Nat := match regAt off with
  | some r => d.live32 r
  | none => 0

/-! Reading (R12, R50, R142, R250, R272, R489, R613) -/

/-- Registers that hold the low word of a 64-bit quantity whose read latches the high word. QEPOCH, REF and the log's epoch belong to groups of their
own. -/
def lowWord (r : Reg) : Bool :=
  match r with
  | .TB_EPOCH_LO | .GLB_IMG_BASE_LO | .GLB_IMG_ACT_ID_LO | .GLB_IMG_PEND_ID_LO | .GLB_IMG_COMMIT_EPOCH_LO | .TB_SYNC_LOAD_LO | .ACQ_DRAIN_BASE_LO
  | .ACQ_STRM_BASE_LO | .GLB_ST_BG_LO | .GLB_ST_CXL_BASE_LO | .GLB_ST_FAIL_ADDR_LO | .GLB_ST_EMAP_LO | .ECC_FLIP_DATA_LO | .TWIN_HO_EPOCH_LO
  | .FAB_START_LO | .SCH_SHOT_LO | .SCH_JUMP_EPOCH_LO | .LNK_SQ_BASE_LO | .LNK_CQ_BASE_LO => true
  | _ => false

/-- Offsets that a read of a register latches, from the register's own offset. -/
def latchedBy (r : RegAt) (off : Nat) : List Nat :=
  if lowWord r.reg then [off + 4]
  else match r.reg with
    | .NCO_FREQ_LO => [off + 4, off + 8, off + 12, off + 16]
    | .ENG_PATCH_RD_DATA => if r.idx = [0] then [off + 4, off + 8, off + 12, off + 16, off + 20] else []
    | .RD_LAST_I => [off + 4, off - 4]
    | .ECC_LOG_W0 => [off + 4, off + 8, off + 12]
    | .LNK_TAP_DATA => if r.idx = [0] then [off + 4, off + 8] else []
    | _ => []

/-- The word a register reads as: what its group latched, or what it holds now. Of RD_DSTAT only CODE, CLIP and OSAT are latched (R272). -/
def Device.readWord (d : Device) (r : RegAt) (off : Nat) : Nat :=
  match bget (fun _ => none) d.latch off with
  | none => d.live32 r
  | some w =>
    if r.reg = .RD_DSTAT then
      r.flds.foldl (fun v F =>
        let x := if F = R.RD_DSTAT.CODE (r.idx.getD 0 0) || F = R.RD_DSTAT.CLIP (r.idx.getD 0 0) || F = R.RD_DSTAT.OSAT (r.idx.getD 0 0)
          then bitsOf w F.hi F.lo else d.f F
        v + x * 2 ^ F.lo) 0
    else w

/-- A read of GLB_UNIT_QSTAT (R50, R51): the summary of the selected unit, with its epoch view and unit information latched. -/
def Tx.unitQuery (t : Tx d0) : Nat × Tx d0 :=
  let n := t.f R.GLB_UNIT_QSEL.NAME
  let now := t.now.toNat
  let u := t.d.queried n
  let x := match u with
    | some k => t.d.unitSummary k
    | none => (0, none)
  let past := match x.2 with
    | some f => t.d.age - f
    | none => 0
  let age := min 0xFFFF past
  let members := match u with
    | some k => min 0xFF (t.d.tree.children k).length
    | none => 0
  let t := t.w64 R.GLB_UNIT_QEPOCH_LO.EPOCH R.GLB_UNIT_QEPOCH_HI.EPOCH (now - past)
  let t := ((t.wb R.GLB_UNIT_QINFO.NOUNIT u.isNone).wb R.GLB_UNIT_QINFO.REMOTE x.2.isSome).w R.GLB_UNIT_QINFO.MEMBERS members
  (x.1, (t.w R.GLB_UNIT_QINFO.AGE age).w R.GLB_UNIT_QSTAT.SUMMARY x.1)

/-- A host read of a register (R10, R12, R16). -/
def Tx.readReg (t : Tx d0) (r : RegAt) (off : Nat) : Nat × Tx d0 :=
  if r.reg = .GLB_UNIT_QSTAT then t.unitQuery
  else
    let v := t.d.readWord r off
    (v, t.each (latchedBy r off) (fun o t => t.upd (.latch o (some (t.d.liveAt o)))))

/-- A host read of the word at an offset of BAR0, or of BAR4. -/
def Tx.hostRead (t : Tx d0) (off : Nat) : Nat × Tx d0 :=
  let off := off / 4 * 4
  match t.d.accFaults off false with
  | [] =>
    match regAt off, pbaWord off with
    | some r, _ => t.readReg r off
    | none, some k => ((List.range 32).foldl (fun w i => if bget (fun _ => false) t.d.pba (32 * k + i) then w + 2 ^ i else w) 0, t)
    | none, none => (0, t)
  | errs => (0, t.report off errs)

/-- A host read, its word sent back. -/
def Tx.readOut (t : Tx d0) (off : Nat) : Tx d0 :=
  t.access (fun t =>
    let (v, t) := t.hostRead off
    t.send (.read v))

/-! Writing (R13, R16 to R20, R641, R643) -/

/-- A value is no reserved encoding of a field that only holds it (R19). -/
def Device.encOk (d : Device) (r : RegAt) (F : Fld) (v : Nat) : Bool :=
  let k := r.idx.getD 0 0
  match r.reg with
  | .GLB_UNIT_QSEL => !nameReserved v
  | .TB_SYNC_DELAY | .ACQ_DRAIN_SIZE | .ACQ_STRM_SIZE | .CAL_TCFG => v != 0
  | .MON_WIN => decide (v < d.f (R.MON_WIN.FAULT k))
  | .THM_RATE_LIM => v != 0 && decide (v < d.f R.THM_RATE_LIM.CLAMP)
  | .GLB_WIN_SEL => decide (v ≤ 0x70)
  | .SCRUB_CTL => F != R.SCRUB_CTL.INTERVAL || decide (8 ≤ v)
  | .LNK_TAP_SEL => F != R.LNK_TAP_SEL.PORT || decide (v ≤ 8)
  | .TWIN_CFG => decide (400 ≤ v)
  | .LNK_Q_CFG => decide (4 ≤ v) && decide (v ≤ 12)
  | _ => true

/-- A write reaches one field by its access code (R16); a W1C bit that an event sets in the same clock stays set, and its vector is pending (R21,
R576). -/
def Tx.putFld (t : Tx d0) (F : Fld) (v : Nat) (ok : Bool) : Tx d0 :=
  match F.acc with
  | .rw | .wo => if ok then t.w F v else t
  | .w1c =>
    let u := t.w F (t.f F &&& ((2 ^ F.width - 1 - v) ||| t.d.evBits F))
    (match vectorOf F.key with
     | some n => if v &&& t.d.evBits F = 0 then u else u.pend n
     | none => u)
  | .w1s => t.w F (t.f F ||| v)
  | .ro | .wl => t

/-- A write of the fields of a register that only holds values. A WL field denies a write of other bits than it holds, and any in the clock of an update of
it by the Watch (R20, R642). -/
def Tx.putReg (t : Tx d0) (r : RegAt) (off data : Nat) : Tx d0 :=
  let part := fun (F : Fld) => bitsOf data F.hi F.lo
  let good := fun (F : Fld) => t.d.encOk r F (part F)
  let bad := r.flds.any (fun F => (F.acc == .rw || F.acc == .wo) && !good F)
  let deny := r.flds.any (fun F => F.acc == .wl && (t.f F != part F || t.d.evNow.contains F.key))
  let t := t.each r.flds (fun F t => t.putFld F (part F) (good F))
  let t := if bad then t.report off [R.GLB_ACC_ERR.RSVD_ENC] else t
  if deny then ((t.inc R.WATCH_DENY_CNT.COUNT).w R.WATCH_DENY_ADDR.OFFSET off).ev R.WATCH_EVT.DENY else t

/-- A write of GLB_RUN_CTL (R700, R703). -/
def Tx.runCtl (t : Tx d0) (data : Nat) : Tx d0 :=
  if data.testBit 31 && data.testBit 30 then t.accErr R.GLB_RUN_CTL.START.off [R.GLB_ACC_ERR.RSVD_ENC]
  else if data.testBit 31 then t.startRequest
  else if data.testBit 30 then t.runCancel
  else t

/-- A write of GLB_IMG_CTL (R72). -/
def Tx.imgCtl (t : Tx d0) (data : Nat) : Tx d0 :=
  match data % 8 with
  | 0 => t
  | 1 => t.imgLoad
  | 2 => t.imgCommit
  | 4 => t.imgDiscard
  | _ => t.accErr R.GLB_IMG_CTL.LOAD.off [R.GLB_ACC_ERR.RSVD_ENC]

/-- A write of TB_CTL (R96, R102). A SYNC_GEN in the word of a new SOUT_MODE acts in the new mode (DESIGN CHOICE, log 199). -/
def Tx.tbCtl (t : Tx d0) (data : Nat) : Tx d0 :=
  let m := bitsOf data 5 4
  let t := if m = 3 then t.accErr R.TB_CTL.SYNC_ARM.off [R.GLB_ACC_ERR.RSVD_ENC] else t.soutMode m
  let t := t.wb R.TB_CTL.SYNC_ARM (data.testBit 0)
  if data.testBit 3 then t.syncGen else t

/-- A write of PWR_CTL (R666, R670). -/
def Tx.pwrCtl (t : Tx d0) (data : Nat) : Tx d0 :=
  let t := (t.wb R.PWR_CTL.AUTO_SLEEP (data.testBit 29)).w R.PWR_CTL.SLEEP_DELAY (data % 65536)
  let t := if data.testBit 31 then t.wakeWrite else t
  if data.testBit 30 then t.sleepWrite else t

/-- A write of THM_CTL (R448, R452). -/
def Tx.thmCtl (t : Tx d0) (data : Nat) : Tx d0 :=
  let t := t.w R.THM_CTL.THERM_MASK (data % 16)
  if data.testBit 31 then t.resume else t

/-- A write of a ring's RPTR, discarded while a RING entry takes that ring (R569): ring 0 is the drain ring, 1 + s stream slot s. -/
def Tx.ringRptr (t : Tx d0) (n data : Nat) : Tx d0 :=
  if t.d.ringTakenBy 99 n then t.ev R.LNK_HOST_EVT.RPTR_BUSY
  else
    let F := if n = 0 then R.ACQ_DRAIN_RPTR.OFF else R.ACQ_STRM_RPTR.OFF (n - 1)
    ((t.w F (bitsOf data 31 8)).showAbove).when (n != 0) (fun t => t.streamOut (n - 1))

/-- A write of ENG_CTL: either or both requests (R247). -/
def Tx.engWrite (t : Tx d0) (e data : Nat) : Tx d0 :=
  let t := if data.testBit 1 then t.engCtl e (R.ENG_CTL.QMAX_CLR e) else t
  if data.testBit 0 then t.engCtl e (R.ENG_CTL.CNT_CLR e) else t

/-- A whole-word write of a register in a domain that is on. -/
def Tx.writeReg (t : Tx d0) (r : RegAt) (off data : Nat) : Tx d0 :=
  let k := r.idx.getD 0 0
  match r.reg with
  | .GLB_RUN_CTL => t.runCtl data
  | .GLB_IMG_CTL => t.imgCtl data
  | .TB_CTL => t.tbCtl data
  | .ACQ_SWTRIG => t.hostTrig data
  | .ACQ_DRAIN_RPTR => t.ringRptr 0 data
  | .ACQ_STRM_RPTR => t.ringRptr (k + 1) data
  | .ACQ_DRAIN_CTL => t.drainCtl data
  | .ACQ_STRM_CTL => t.strmCtl k data
  | .CAL_REQ => t.calReq data
  | .WATCH_REQ => t.watchWrite data
  | .GLB_ST_REQ => t.stReq data
  | .THM_CTL => t.thmCtl data
  | .PWR_CTL => t.pwrCtl data
  | .PWR_TILE_CTL => (t.w R.PWR_TILE_CTL.EN (data % 65536)).showPairs
  | .PWR_RST_CTL => t.rstCtl data
  | .ECC_LOG_POP => t.popLog data
  | .ECC_FLIP_CTL => t.flipCtl data
  | .SCRUB_CTL =>
    let t := t.putReg r off data
    t.wb R.SCRUB_STAT.RUNNING (t.b R.SCRUB_CTL.EN && t.b R.TB_STAT.AWAKE)
  | .LNK_PORT_CTL => t.portCtl k data
  | .TWIN_CTL => t.twinCtl data
  | .FW_CMD => t.fwWrite data
  | .FW_BUF => if t.b R.FW_STAT.BUSY then t else t.putReg r off data
  | .ACQ_FORCE => (t.putReg r off data).noteForce k
  | .NCO_OUT_CFG => t.outCfgWrite k data
  | .SCH_JUMP_REQ => t.hostJump k data
  | .ENG_CTL => t.engWrite k data
  | .LNK_Q_CTL => t.qCtl k data
  | .LNK_SQ_TAIL => t.sqTail k data
  | .LNK_CQ_HEAD => t.cqHead k data
  | _ => t.putReg r off data

/-- The low word of a writable 64-bit quantity (R13). -/
def heldLow (r : RegAt) : Bool := lowWord r.reg && r.flds.any (fun F => F.acc == .rw)

/-- The low word beside a high word, where one may be held. -/
def lowOf (off : Nat) : Option RegAt := if off < 4 then none else (regAt (off - 4)).filter heldLow

/-- A host write of a word (R9, R13, R15, R698). -/
def Tx.hostWrite (t : Tx d0) (off be data : Nat) : Tx d0 :=
  let off := off / 4 * 4
  match t.d.accFaults off (be != 15) with
  | [] =>
    match regAt off with
    | none => t
    | some r =>
      if heldLow r then t.upd (.held off (some data))
      else match lowOf off, bget (fun _ => none) t.d.held (off - 4) with
        | some lo, some v => ((t.upd (.held (off - 4) none)).putReg lo (off - 4) v).putReg r off data
        | _, _ => t.writeReg r off data
  | errs => t.report off errs

/-! The commands -/

/-- REG_WRITE: a host write. -/
def effRegWrite (off be data : Nat) (t : Tx d0) : Tx d0 := t.access (fun t => t.hostWrite off be data)

def execRegWrite (off : BitVec 25) (be : BitVec 4) (data : Word) (s : State) : Host.Outcome State Fault Refusal :=
  commit (effRegWrite off.toNat be.toNat data.toNat) s

/-- LOW_WORD_WRITE: a host write, to the low word of a 64-bit quantity. -/
def effLowWordWrite (off be data : Nat) (t : Tx d0) : Tx d0 := t.access (fun t => t.hostWrite off be data)

def execLowWordWrite (off : BitVec 25) (be : BitVec 4) (data : Word) (s : State) : Host.Outcome State Fault Refusal :=
  commit (effLowWordWrite off.toNat be.toNat data.toNat) s

/-- HIGH_WORD_WRITE: a host write, to the high word. -/
def effHighWordWrite (off be data : Nat) (t : Tx d0) : Tx d0 := t.access (fun t => t.hostWrite off be data)

def execHighWordWrite (off : BitVec 25) (be : BitVec 4) (data : Word) (s : State) : Host.Outcome State Fault Refusal :=
  commit (effHighWordWrite off.toNat be.toNat data.toNat) s

/-- UNMAPPED_READ: a host read, of an offset where no register may be. -/
def effUnmappedRead (off : Nat) (t : Tx d0) : Tx d0 := t.readOut off

def execUnmappedRead (off : BitVec 25) (s : State) : Host.Outcome State Fault Refusal := commit (effUnmappedRead off.toNat) s

/-- LOW_WORD_READ: a host read, of a register that may be the low word of a 64-bit quantity. -/
def effLowWordRead (off : Nat) (t : Tx d0) : Tx d0 := t.readOut off

def execLowWordRead (off : BitVec 25) (s : State) : Host.Outcome State Fault Refusal := commit (effLowWordRead off.toNat) s

/-- UNIT_QUERY: GLB_UNIT_QSTAT is read. -/
def effUnitQuery (t : Tx d0) : Tx d0 := t.readOut R.GLB_UNIT_QSTAT.SUMMARY.off

def execUnitQuery (s : State) : Host.Outcome State Fault Refusal := commit effUnitQuery s

/-- NCO_FREQ_READ: NCO_FREQ_LO[f] is read. -/
def effNcoFreqRead (f : Nat) (t : Tx d0) : Tx d0 := t.readOut (tileOff 32 0x1000 0x20 f)

def execNcoFreqRead (f : Fin 1024) (s : State) : Host.Outcome State Fault Refusal := commit (effNcoFreqRead f.val) s

/-- PATCH_RD_DATA_READ: ENG_PATCH_RD_DATA[0] is read. -/
def effPatchRdDataRead (t : Tx d0) : Tx d0 := t.readOut (R.ENG_PATCH_RD_DATA.DATA 0).off

def execPatchRdDataRead (s : State) : Host.Outcome State Fault Refusal := commit effPatchRdDataRead s

/-- RD_LAST_I_READ: RD_LAST_I[d] is read. -/
def effRdLastIRead (n : Nat) (t : Tx d0) : Tx d0 := t.readOut (tileOff 16 0x4004 0x10 n)

def execRdLastIRead (d : Fin 512) (s : State) : Host.Outcome State Fault Refusal := commit (effRdLastIRead d.val) s

/-- ECC_LOG_READ: ECC_LOG_W0 is read. -/
def effEccLogRead (t : Tx d0) : Tx d0 := t.readOut R.ECC_LOG_W0.VALID.off

def execEccLogRead (s : State) : Host.Outcome State Fault Refusal := commit effEccLogRead s

/-- TAP_DATA_READ: LNK_TAP_DATA[0] is read. -/
def effTapDataRead (t : Tx d0) : Tx d0 := t.readOut (R.LNK_TAP_DATA.TAPS 0).off

def execTapDataRead (s : State) : Host.Outcome State Fault Refusal := commit effTapDataRead s

/-- JUMP_REQUEST: SCH_JUMP_REQ[e] is written with REQ. -/
def effJumpRequest (e data : Nat) (t : Tx d0) : Tx d0 := t.hostReg (R.SCH_JUMP_REQ.REQ e).off (fun t => t.hostJump e (data ||| 2 ^ 31))

def execJumpRequest (e : Fin 64) (data : Word) (s : State) : Host.Outcome State Fault Refusal := commit (effJumpRequest e.val data.toNat) s

/-- JUMP_CANCEL: SCH_JUMP_REQ[e] is written with CANCEL alone; J and PAIR are written as they stand. -/
def effJumpCancel (e : Nat) (t : Tx d0) : Tx d0 :=
  t.hostReg (R.SCH_JUMP_REQ.REQ e).off (fun t =>
    t.hostJump e (2 ^ 29 + t.f (R.SCH_JUMP_REQ.J e) + t.f (R.SCH_JUMP_REQ.PAIR e) * 2 ^ 30))

def execJumpCancel (e : Fin 64) (s : State) : Host.Outcome State Fault Refusal := commit (effJumpCancel e.val) s

/-- SWTRIG: ACQ_SWTRIG is written. -/
def effSwtrig (data : Nat) (t : Tx d0) : Tx d0 := t.hostReg R.ACQ_SWTRIG.FIRE.off (fun t => t.hostTrig data)

def execSwtrig (data : Word) (s : State) : Host.Outcome State Fault Refusal := commit (effSwtrig data.toNat) s

/-- SVC_READ_REG: the unlocked service port reads a register of BAR0 as the host does (R547). -/
def effSvcReadReg (a n : Nat) (t : Tx d0) : Tx d0 :=
  t.svcRead n (fun t =>
    let (v, t) := if bar4 ≤ a then (0, t.accErr (a % bar4) [R.GLB_ACC_ERR.UNMAPPED]) else t.hostRead a
    (leBytes 4 v, t))

def execSvcReadReg (addr : Word) (len : BitVec 16) (s : State) : Host.Outcome State Fault Refusal := commit (effSvcReadReg addr.toNat len.toNat) s

end Sys2Proof.Machine
end

