-- ==== Sys2Proof/Machine/Dispatch.lean ====
section
/-! DEFINITION. The dispatch: one arm per command of the table, each one direct call of its meaning. -/
namespace Sys2Proof.Machine

def exec (i : Instr) (s : State) : Host.Outcome State Fault Refusal :=
  match i with
  | .regWrite off be data => Sys2Proof.Machine.execRegWrite off be data s
  | .unmappedRead off => Sys2Proof.Machine.execUnmappedRead off s
  | .lowWordRead off => Sys2Proof.Machine.execLowWordRead off s
  | .lowWordWrite off be data => Sys2Proof.Machine.execLowWordWrite off be data s
  | .highWordWrite off be data => Sys2Proof.Machine.execHighWordWrite off be data s
  | .unitQuery => Sys2Proof.Machine.execUnitQuery s
  | .ncoFreqRead f => Sys2Proof.Machine.execNcoFreqRead f s
  | .patchRdDataRead => Sys2Proof.Machine.execPatchRdDataRead s
  | .rdLastIRead d => Sys2Proof.Machine.execRdLastIRead d s
  | .eccLogRead => Sys2Proof.Machine.execEccLogRead s
  | .tapDataRead => Sys2Proof.Machine.execTapDataRead s
  | .refclkEdge syncIn => Sys2Proof.Machine.execRefclkEdge syncIn s
  | .syncInPulse pos => Sys2Proof.Machine.execSyncInPulse pos s
  | .syncLoad => Sys2Proof.Machine.execSyncLoad s
  | .syncGen => Sys2Proof.Machine.execSyncGen s
  | .syncOutPulseEnd => Sys2Proof.Machine.execSyncOutPulseEnd s
  | .refclkLost => Sys2Proof.Machine.execRefclkLost s
  | .refclkRestored => Sys2Proof.Machine.execRefclkRestored s
  | .pllLockLost => Sys2Proof.Machine.execPllLockLost s
  | .imgLoad => Sys2Proof.Machine.execImgLoad s
  | .imgCheckDone poisoned => Sys2Proof.Machine.execImgCheckDone poisoned s
  | .imgCommit => Sys2Proof.Machine.execImgCommit s
  | .imgDiscard => Sys2Proof.Machine.execImgDiscard s
  | .committingStart => Sys2Proof.Machine.execCommittingStart s
  | .commitTick => Sys2Proof.Machine.execCommitTick s
  | .runStartRequest => Sys2Proof.Machine.execRunStartRequest s
  | .runCancel => Sys2Proof.Machine.execRunCancel s
  | .runStart => Sys2Proof.Machine.execRunStart s
  | .runEnd => Sys2Proof.Machine.execRunEnd s
  | .play e => Sys2Proof.Machine.execPlay e s
  | .playEnd m => Sys2Proof.Machine.execPlayEnd m s
  | .envLineTest m line => Sys2Proof.Machine.execEnvLineTest m line s
  | .setf e => Sys2Proof.Machine.execSetf e s
  | .shiftp e => Sys2Proof.Machine.execShiftp e s
  | .flux e => Sys2Proof.Machine.execFlux e s
  | .mark e => Sys2Proof.Machine.execMark e s
  | .acq e => Sys2Proof.Machine.execAcq e s
  | .disc e => Sys2Proof.Machine.execDisc e s
  | .send e => Sys2Proof.Machine.execSend e s
  | .forkDeadline e => Sys2Proof.Machine.execForkDeadline e s
  | .fork e => Sys2Proof.Machine.execFork e s
  | .wait e => Sys2Proof.Machine.execWait e s
  | .waitResume e => Sys2Proof.Machine.execWaitResume e s
  | .waitTimeout e => Sys2Proof.Machine.execWaitTimeout e s
  | .loop e => Sys2Proof.Machine.execLoop e s
  | .safe e => Sys2Proof.Machine.execSafe e s
  | .endOp e => Sys2Proof.Machine.execEndOp e s
  | .safeVote e => Sys2Proof.Machine.execSafeVote e s
  | .safePointPass e => Sys2Proof.Machine.execSafePointPass e s
  | .holdTimeout e => Sys2Proof.Machine.execHoldTimeout e s
  | .shotVoid e => Sys2Proof.Machine.execShotVoid e s
  | .voidNotice e => Sys2Proof.Machine.execVoidNotice e s
  | .voidLimit e => Sys2Proof.Machine.execVoidLimit e s
  | .jumpRequest e data => Sys2Proof.Machine.execJumpRequest e data s
  | .jumpCancel e => Sys2Proof.Machine.execJumpCancel e s
  | .outcomeDelivery port => Sys2Proof.Machine.execOutcomeDelivery port s
  | .lineFill e => Sys2Proof.Machine.execLineFill e s
  | .invalidate e => Sys2Proof.Machine.execInvalidate e s
  | .safePass e => Sys2Proof.Machine.execSafePass e s
  | .voidRoutine e => Sys2Proof.Machine.execVoidRoutine e s
  | .runStartRoutine e => Sys2Proof.Machine.execRunStartRoutine e s
  | .runEndRoutine e => Sys2Proof.Machine.execRunEndRoutine e s
  | .stopRoutine e => Sys2Proof.Machine.execStopRoutine e s
  | .house e => Sys2Proof.Machine.execHouse e s
  | .qmaxClr e => Sys2Proof.Machine.execQmaxClr e s
  | .cntClr e => Sys2Proof.Machine.execCntClr e s
  | .microword e word err => Sys2Proof.Machine.execMicroword e word err s
  | .escalate e => Sys2Proof.Machine.execEscalate e s
  | .routineLong e => Sys2Proof.Machine.execRoutineLong e s
  | .sampleGap e => Sys2Proof.Machine.execSampleGap e s
  | .commitOverrun e => Sys2Proof.Machine.execCommitOverrun e s
  | .patchLoad => Sys2Proof.Machine.execPatchLoad s
  | .integrationEnd d adc => Sys2Proof.Machine.execIntegrationEnd d adc s
  | .triggerEdge k rising back => Sys2Proof.Machine.execTriggerEdge k rising back s
  | .levelCrossing c last xs => Sys2Proof.Machine.execLevelCrossing c last xs s
  | .swtrig data => Sys2Proof.Machine.execSwtrig data s
  | .timerTrigger c => Sys2Proof.Machine.execTimerTrigger c s
  | .segmentEnd t samples => Sys2Proof.Machine.execSegmentEnd t samples s
  | .rearm t => Sys2Proof.Machine.execRearm t s
  | .streamBlock slot samples => Sys2Proof.Machine.execStreamBlock slot samples s
  | .streamEnd slot samples => Sys2Proof.Machine.execStreamEnd slot samples s
  | .drainRecord => Sys2Proof.Machine.execDrainRecord s
  | .drainEnable data => Sys2Proof.Machine.execDrainEnable data s
  | .streamRingEnable slot data => Sys2Proof.Machine.execStreamRingEnable slot data s
  | .decisionSend slot => Sys2Proof.Machine.execDecisionSend slot s
  | .decisionCell port lane cell => Sys2Proof.Machine.execDecisionCell port lane cell s
  | .slotDelivery slot => Sys2Proof.Machine.execSlotDelivery slot s
  | .relaySend slot => Sys2Proof.Machine.execRelaySend slot s
  | .statusCell port lane cell => Sys2Proof.Machine.execStatusCell port lane cell s
  | .voteCell port lane cell => Sys2Proof.Machine.execVoteCell port lane cell s
  | .aniseSend port => Sys2Proof.Machine.execAniseSend port s
  | .aniseRequest port lane cell => Sys2Proof.Machine.execAniseRequest port lane cell s
  | .aniseGrant port lane cell => Sys2Proof.Machine.execAniseGrant port lane cell s
  | .aniseCredit port lane cell => Sys2Proof.Machine.execAniseCredit port lane cell s
  | .aniseForkResolve e => Sys2Proof.Machine.execAniseForkResolve e s
  | .aniseTimeout e sel => Sys2Proof.Machine.execAniseTimeout e sel s
  | .rangeGainSwitch c => Sys2Proof.Machine.execRangeGainSwitch c s
  | .rangeClampRelease c => Sys2Proof.Machine.execRangeClampRelease c s
  | .monitorVisit c measured => Sys2Proof.Machine.execMonitorVisit c measured s
  | .outCfgWrite c be data => Sys2Proof.Machine.execOutCfgWrite c be data s
  | .outCfgApply c => Sys2Proof.Machine.execOutCfgApply c s
  | .settleEnd c => Sys2Proof.Machine.execSettleEnd c s
  | .bgEstimate cls path values => Sys2Proof.Machine.execBgEstimate cls path values s
  | .calStep cls path => Sys2Proof.Machine.execCalStep cls path s
  | .calStepDone cls path first second => Sys2Proof.Machine.execCalStepDone cls path first second s
  | .calMaxint cls => Sys2Proof.Machine.execCalMaxint cls s
  | .gapStarved cls => Sys2Proof.Machine.execGapStarved cls s
  | .calRequest data => Sys2Proof.Machine.execCalRequest data s
  | .calDeferredStart => Sys2Proof.Machine.execCalDeferredStart s
  | .fgCalDone => Sys2Proof.Machine.execFgCalDone s
  | .calRecordCommit => Sys2Proof.Machine.execCalRecordCommit s
  | .sensorSample temps => Sys2Proof.Machine.execSensorSample temps s
  | .rateClampStop => Sys2Proof.Machine.execRateClampStop s
  | .sensorFault n => Sys2Proof.Machine.execSensorFault n s
  | .bandPend => Sys2Proof.Machine.execBandPend s
  | .bandWdrawn => Sys2Proof.Machine.execBandWdrawn s
  | .bandChg => Sys2Proof.Machine.execBandChg s
  | .shutdownTrip n => Sys2Proof.Machine.execShutdownTrip n s
  | .keepAbort => Sys2Proof.Machine.execKeepAbort s
  | .shutdownPowerDown => Sys2Proof.Machine.execShutdownPowerDown s
  | .resume => Sys2Proof.Machine.execResume s
  | .ceWriteback line => Sys2Proof.Machine.execCeWriteback line s
  | .scrubVisit unit => Sys2Proof.Machine.execScrubVisit unit s
  | .flipArm data => Sys2Proof.Machine.execFlipArm data s
  | .flipInject => Sys2Proof.Machine.execFlipInject s
  | .eccLogPop data => Sys2Proof.Machine.execEccLogPop data s
  | .cxlReadComplete e wave block slot data poison => Sys2Proof.Machine.execCxlReadComplete e wave block slot data poison s
  | .keepRecordCommit readBackOk => Sys2Proof.Machine.execKeepRecordCommit readBackOk s
  | .logReclaim eraseOk => Sys2Proof.Machine.execLogReclaim eraseOk s
  | .keepBootScan => Sys2Proof.Machine.execKeepBootScan s
  | .lifeHour => Sys2Proof.Machine.execLifeHour s
  | .pwrfailFall => Sys2Proof.Machine.execPwrfailFall s
  | .pwrfailRise => Sys2Proof.Machine.execPwrfailRise s
  | .keepWriteResume => Sys2Proof.Machine.execKeepWriteResume s
  | .begin readBackOk => Sys2Proof.Machine.execBegin readBackOk s
  | .lit readBackOk => Sys2Proof.Machine.execLit readBackOk s
  | .copy readBackOk => Sys2Proof.Machine.execCopy readBackOk s
  | .activate => Sys2Proof.Machine.execActivate s
  | .confirm => Sys2Proof.Machine.execConfirm s
  | .rollback => Sys2Proof.Machine.execRollback s
  | .abort => Sys2Proof.Machine.execAbort s
  | .restart => Sys2Proof.Machine.execRestart s
  | .watchStart => Sys2Proof.Machine.execWatchStart s
  | .svcId len => Sys2Proof.Machine.execSvcId len s
  | .svcNonce len => Sys2Proof.Machine.execSvcNonce len s
  | .svcUnlock sig => Sys2Proof.Machine.execSvcUnlock sig s
  | .svcReadKeep addr len => Sys2Proof.Machine.execSvcReadKeep addr len s
  | .svcReadOtp addr len => Sys2Proof.Machine.execSvcReadOtp addr len s
  | .svcReadReg addr len => Sys2Proof.Machine.execSvcReadReg addr len s
  | .svcFwCmd op args block => Sys2Proof.Machine.execSvcFwCmd op args block s
  | .svcFwStat len => Sys2Proof.Machine.execSvcFwStat len s
  | .svcRst => Sys2Proof.Machine.execSvcRst s
  | .hostLinkUp rate width active flit pci => Sys2Proof.Machine.execHostLinkUp rate width active flit pci s
  | .hostLinkDown => Sys2Proof.Machine.execHostLinkDown s
  | .flr => Sys2Proof.Machine.execFlr s
  | .bar2Read off len => Sys2Proof.Machine.execBar2Read off len s
  | .bar2Wr off => Sys2Proof.Machine.execBar2Wr off s
  | .queueEnable q data => Sys2Proof.Machine.execQueueEnable q data s
  | .queueDisable q data => Sys2Proof.Machine.execQueueDisable q data s
  | .sqDoorbell q data => Sys2Proof.Machine.execSqDoorbell q data s
  | .cqDoorbell q data => Sys2Proof.Machine.execCqDoorbell q data s
  | .h2c q entry turn => Sys2Proof.Machine.execH2c q entry turn s
  | .c2h q entry poisoned => Sys2Proof.Machine.execC2h q entry poisoned s
  | .ring q entry poisoned => Sys2Proof.Machine.execRing q entry poisoned s
  | .nop q entry => Sys2Proof.Machine.execNop q entry s
  | .hostReadTimeout q why => Sys2Proof.Machine.execHostReadTimeout q why s
  | .msixMessage v enable functionMask => Sys2Proof.Machine.execMsixMessage v enable functionMask s
  | .getVersion => Sys2Proof.Machine.execGetVersion s
  | .getCapabilities => Sys2Proof.Machine.execGetCapabilities s
  | .negotiateAlgorithms req => Sys2Proof.Machine.execNegotiateAlgorithms req s
  | .getDigests => Sys2Proof.Machine.execGetDigests s
  | .getCertificate slot off len => Sys2Proof.Machine.execGetCertificate slot off len s
  | .challenge slot nonce => Sys2Proof.Machine.execChallenge slot nonce s
  | .getMeasurements index => Sys2Proof.Machine.execGetMeasurements index s
  | .keyExchange => Sys2Proof.Machine.execKeyExchange s
  | .cxlEnumerate type3 mld capacity timeout rate width => Sys2Proof.Machine.execCxlEnumerate type3 mld capacity timeout rate width s
  | .cxlLinkDown => Sys2Proof.Machine.execCxlLinkDown s
  | .cxlEventPoll events => Sys2Proof.Machine.execCxlEventPoll events s
  | .portBringup p lanes sweeps => Sys2Proof.Machine.execPortBringup p lanes sweeps s
  | .trainCell p l cell => Sys2Proof.Machine.execTrainCell p l cell s
  | .bringupTimeout p => Sys2Proof.Machine.execBringupTimeout p s
  | .bringupRetry p => Sys2Proof.Machine.execBringupRetry p s
  | .portRetrain p => Sys2Proof.Machine.execPortRetrain p s
  | .dfeAdapt p l taps => Sys2Proof.Machine.execDfeAdapt p l taps s
  | .eyeSweepDone p l sweep => Sys2Proof.Machine.execEyeSweepDone p l sweep s
  | .lockLost p l => Sys2Proof.Machine.execLockLost p l s
  | .lanePresetCommit => Sys2Proof.Machine.execLanePresetCommit s
  | .attach => Sys2Proof.Machine.execAttach s
  | .selSettle => Sys2Proof.Machine.execSelSettle s
  | .attached => Sys2Proof.Machine.execAttached s
  | .attachTimeout => Sys2Proof.Machine.execAttachTimeout s
  | .detach => Sys2Proof.Machine.execDetach s
  | .mirrorCell l cell => Sys2Proof.Machine.execMirrorCell l cell s
  | .mirrorRequestApply => Sys2Proof.Machine.execMirrorRequestApply s
  | .digestMissing t => Sys2Proof.Machine.execDigestMissing t s
  | .handover q => Sys2Proof.Machine.execHandover q s
  | .hbLost => Sys2Proof.Machine.execHbLost s
  | .watchReset watchdog => Sys2Proof.Machine.execWatchReset watchdog s
  | .setLimit => Sys2Proof.Machine.execSetLimit s
  | .setLimitApply => Sys2Proof.Machine.execSetLimitApply s
  | .keepCommit => Sys2Proof.Machine.execKeepCommit s
  | .hostFault => Sys2Proof.Machine.execHostFault s
  | .readFault => Sys2Proof.Machine.execReadFault s
  | .stopRun => Sys2Proof.Machine.execStopRun s
  | .stopRunImmediate => Sys2Proof.Machine.execStopRunImmediate s
  | .setAsset => Sys2Proof.Machine.execSetAsset s
  | .powerOnReset => Sys2Proof.Machine.execPowerOnReset s
  | .powerupStep k => Sys2Proof.Machine.execPowerupStep k s
  | .railDrop rail below85 => Sys2Proof.Machine.execRailDrop rail below85 s
  | .fundamentalReset perst => Sys2Proof.Machine.execFundamentalReset perst s
  | .deviceReset data => Sys2Proof.Machine.execDeviceReset data s
  | .tilePairSwitch k => Sys2Proof.Machine.execTilePairSwitch k s
  | .tilePairUp k => Sys2Proof.Machine.execTilePairUp k s
  | .wake => Sys2Proof.Machine.execWake s
  | .wakeStart => Sys2Proof.Machine.execWakeStart s
  | .pllLock => Sys2Proof.Machine.execPllLock s
  | .clockGroupEnable g => Sys2Proof.Machine.execClockGroupEnable g s
  | .awake => Sys2Proof.Machine.execAwake s
  | .sleep => Sys2Proof.Machine.execSleep s
  | .autoSleep => Sys2Proof.Machine.execAutoSleep s
  | .sleeping => Sys2Proof.Machine.execSleeping s
  | .selftestRequest data => Sys2Proof.Machine.execSelftestRequest data s
  | .selftestDeferredStart => Sys2Proof.Machine.execSelftestDeferredStart s
  | .selftestDone items => Sys2Proof.Machine.execSelftestDone items s
  | .perstNRise => Sys2Proof.Machine.execPerstNRise s
  | .resetEnd => Sys2Proof.Machine.execResetEnd s
  | .transactionCut => Sys2Proof.Machine.execTransactionCut s
  | .programOrEraseEnd => Sys2Proof.Machine.execProgramOrEraseEnd s

end Sys2Proof.Machine
end

