-- ==== Sys2Proof/Safety.lean ====
section
/-! DEFINITION. The terms in which claims speak of a step: that it completes, which register fields it leaves as they were, and the canonical form of
every table and memory of the block (Canonical). -/
namespace Sys2Proof.Machine

/-- The outcome is a next state. -/
def Completes (o : Host.Outcome State Fault Refusal) : Prop := ∃ t, o = .next t

/-- `n` steps from `s` all answer a next state. -/
def SafeRun : Nat → State → Prop
  | 0, _ => True
  | n + 1, s => ∃ t, step s = .next t ∧ SafeRun n t

/-- No run, foreground calibration or self-test is under way. -/
def Idle (d : Device) : Prop :=
  d.running = false ∧ d.b R.CAL_STAT.FG_BUSY = false ∧ d.b R.CAL_STAT.INITIAL = false ∧ d.st.begun = false

/-- The operation at the head of an engine's queue takes effect on this tick, LINE_FILL has not marked it, it is valid for the engine, and has the
opcode `code`. -/
def Heads (d : Device) (e code : Nat) (q : QOp) (rest : List QOp) : Prop :=
  d.headOp e = some (q, rest) ∧ q.invalid = false ∧ d.opBad e q.bits = false ∧ opCode q.bits = code

/-- No FORK of an engine has latched a host jump that its boundary is still to take or refuse. -/
def Unlatched (d : Device) (e : Nat) : Prop :=
  (d.eng e).latch.any (fun l => l.jump.isSome && !l.retake) = false ∧ (d.eng e).anise.any AniseWait.jump = false

/-- The calibration steps that reach a path on this tick are cut: what they leave in the classes' own state (R414, R432). -/
def cutFields : List Fld := [R.CAL_EVT.STEP_CUT, R.CAL_STAT.PEND_TEMP, R.CAL_STAT.STALE]

/-- From `d` to `t` the pending queue of engine `e` has become `rest`. -/
def Released (e : Nat) (rest : List QOp) (t : Device) : Prop :=
  (t.eng e).queue = rest ∧ t.f (R.ENG_QUEUE.DEPTH e) = rest.length % 2 ^ (R.ENG_QUEUE.DEPTH e).width

/-- From `d` to `t` only engine `e` of the engines may have changed. -/
def OnlyEngine (e : Nat) (d t : Device) : Prop := ∀ k, k ≠ e → t.eng k = d.eng k

/-- From `d` to `t` only lane `n` of the lanes, four to a port, may have changed. -/
def OnlyLane (n : Nat) (d t : Device) : Prop := ∀ k, k ≠ n → t.lane k = d.lane k

/-- Engine `e` has entered STATE FAULT with a code. -/
def Halted (e code : Nat) (t : Device) : Prop :=
  t.f (R.SCH_STAT.STATE e) = 3 ∧ t.f (R.SCH_STAT.FAULT e) = code ∧ (t.eng e).live = false ∧ (t.eng e).queue = []

/-- Engine `e` has voided its shot: it holds for the repeat's candidate with nothing queued, and the void is counted and reported. -/
def Voids (e : Nat) (d t : Device) : Prop :=
  t.f (R.SCH_STAT.STATE e) = 2 ∧ t.f (R.SCH_STAT.VOIDED e) = 1 ∧ t.f (R.SCH_EVT.VOID e) = 1 ∧
  t.f (R.SCH_CNT.VOIDS e) = satInc (R.SCH_CNT.VOIDS e).width (d.f (R.SCH_CNT.VOIDS e)) ∧ (t.eng e).queue = [] ∧ (t.eng e).voids = (d.eng e).voids + 1 ∧
  (t.eng e).safe = some { cand := BitVec.ofNat 64 (repeatCand (d.eng e).snap.b0.toNat (leadOf (d.eng e).snap.dom) d.now.toNat), dom := (d.eng e).snap.dom,
                          res := (d.eng e).snap.res, ptr := (d.eng e).snap.ptr, rep := true }

/-- A segment of engine `e` has started on this tick at operation `ptr`. -/
def Enters (e ptr : Nat) (d t : Device) : Prop :=
  t.f (R.SCH_SEG.POINTER e) = ptr % 2 ^ 32 ∧ t.f (R.SCH_STAT.STATE e) = 1 ∧ t.f (R.SCH_STAT.WAITING e) = 0 ∧ (t.eng e).segStart = d.now

/-- Condition `c` has an event on tick `tick`: it is counted, and the condition is in holdoff for `h` ticks. -/
def Fires (c tick h : Nat) (d t : Device) : Prop :=
  t.f (R.ACQ_TRIG_CNT.EVENTS c) = satInc (R.ACQ_TRIG_CNT.EVENTS c).width (d.f (R.ACQ_TRIG_CNT.EVENTS c)) ∧
  t.run.hold.getD c 0 = tick + h ∧ t.run.evs.getD c 0 = tick + 1

/-- No engine waits and no capture unit is armed or capturing. -/
def NoneListens (d : Device) : Prop := (∀ e : Fin 64, (d.eng e).waiting = none) ∧ ∀ tl : Fin 32, (d.tile tl).cap = none

/-- The state SRAM's copy of the image tables holds no line that a reader would have to reload (R468). -/
def TablesGood (d : Device) : Prop := d.badLine (classBase 3 0 + 16384) (classBase 3 0 + 40960) = none

/-- The receiver of a lane has kept the last symbol of a cell that came, and of the lanes nothing else has changed (R588). -/
def HeardOn (p l line : Nat) (d t : Device) : Prop :=
  t.lane (4 * p + l) = { d.lane (4 * p + l) with rxHeard := some (line % 4) } ∧ OnlyLane (4 * p + l) d t

/-- The first good copy of an ANISE cell of a kind comes by a lane of a port in service, on an awake device (R312, R321, R343). -/
def AniseGood (d : Device) (p l bits kind : Nat) : Prop :=
  d.hears p = true ∧ (portLanes p).contains l = true ∧ cellGood bits = true ∧ bits / 2 ^ 220 = 4 ∧ bitsOf bits 219 216 = kind ∧ posAt (d.startTick p l) ≤ 13 ∧
  (d.portRec p).map (fun r => rb r 3) = some (bitsOf bits 215 210) ∧ (p, laneHead p l, d.startTick p l) ∉ d.anise.seen

/-- The WAVE line that holds directory entry `n` for an engine, where it is resident, is free of tags and errors, and so is its block where the line's read
checks it (R130, R468, R478). -/
def DirClean (d : Device) (e n : Nat) : Prop :=
  ∀ l, d.waveLine e (4 + n / 4) = some l → d.tagOf l = 0 ∧ d.lineErrs l = [] ∧ ((4 + n / 4) % 4 = 0 → d.waveGood e ((4 + n / 4) / 4) = true)

/-- A received ANISE cell is noted, its credits have come back, and a place in the port's buffer is owed (R344). -/
def AniseTaken (p l bits : Nat) (d t : Device) : Prop :=
  (p, laneHead p l, d.startTick p l) ∈ t.anise.seen ∧
  bget (fun _ => 0) t.credit p = min (d.f (R.FAB_PORT_STAT.CREDITS p)) (bget (fun _ => 0) d.credit p + bitsOf bits 70 68) ∧
  bget (fun _ => 0) t.credit (16 + p) = min 8 (bget (fun _ => 0) d.credit (16 + p) + 1)

/-- The counters of bad copies on a port's lanes. -/
def laneErrs (p : Nat) : List Fld := [R.FAB_PORT_ERR.LANE0 p, R.FAB_PORT_ERR.LANE1 p, R.FAB_PORT_ERR.LANE2 p, R.FAB_PORT_ERR.LANE3 p]

/-- A bad copy on a lane of a port is counted and reported (R322). -/
def BadCopy (p l : Nat) (d t : Device) : Prop :=
  let F := if l = 0 then R.FAB_PORT_ERR.LANE0 p else if l = 1 then R.FAB_PORT_ERR.LANE1 p else if l = 2 then R.FAB_PORT_ERR.LANE2 p else R.FAB_PORT_ERR.LANE3 p
  t.f F = satInc F.width (d.f F) ∧ t.f R.FAB_EVT.COPY_ERR = 1

/-! What a command leaves as it was -/

/-- From `d` to `e` only the register fields listed may have changed: a field at any other place is as it was. -/
def OnlyFields (Gs : List Fld) (d e : Device) : Prop := ∀ F : Fld, F.key ∉ Gs.map Fld.key → e.f F = d.f F

/-- From `d` to `e` only fields of the registers at the offsets `[lo, hi)` may have changed. -/
def OnlyRegs (lo hi : Nat) (d e : Device) : Prop := ∀ F : Fld, (F.key < lo * 32 ∨ hi * 32 ≤ F.key) → e.f F = d.f F

/-- The registers whose write only changes their own fields: the rest start an action, or let one of their fields decide. -/
def holdsOnly (r : Reg) : Bool :=
  match r with
  | .GLB_RUN_CTL | .GLB_IMG_CTL | .TB_CTL | .ACQ_SWTRIG | .ACQ_DRAIN_RPTR | .ACQ_STRM_RPTR | .ACQ_DRAIN_CTL | .ACQ_STRM_CTL | .CAL_REQ
  | .WATCH_REQ | .GLB_ST_REQ | .THM_CTL | .PWR_CTL | .PWR_TILE_CTL | .PWR_RST_CTL | .ECC_LOG_POP | .ECC_FLIP_CTL | .SCRUB_CTL | .ACQ_FORCE
  | .LNK_PORT_CTL | .TWIN_CTL | .FW_CMD | .FW_BUF | .NCO_OUT_CFG | .SCH_JUMP_REQ | .ENG_CTL | .LNK_Q_CTL | .LNK_SQ_TAIL | .LNK_CQ_HEAD => false
  | _ => true

/-- A firmware command of an interface is in progress: the Watch takes commands, firmware pages may be programmed, and the Watch holds both
slots' descriptors (R528, R533). -/
def FwAt (d : Device) (iface op : Nat) (args : List Nat) (block : List Byte) : Prop :=
  d.fw.cur = some (iface, op, args, block) ∧ d.watchRuns = true ∧ d.fwReady = true ∧ d.keep.wear = 0 ∧ d.fw.descs.map List.length = some 2 ∧
  (∀ k : Fin 2, (d.desc k).length = 64) ∧ 1 ≤ iface ∧ iface ≤ 2 ∧ d.b R.FW_CMD.GO = false

/-- BEGIN, LIT or COPY has a block to program at NEXT: it has passed its checks, or passes them now (R530 to R532). -/
def FwWrites (d : Device) (iface op : Nat) (args : List Nat) (block : List Byte) : Prop :=
  FwAt d iface op args block ∧ d.f R.FW_STAT.NEXT < 7680 ∧
  (d.fw.going = 1 ∨ (d.fw.going = 0 ∧ d.fwGate iface = 0 ∧ args.getD 0 0 = d.f R.FW_STAT.NEXT ∧
    ((op = 2 ∧ d.f R.FW_STAT.NEXT < d.fwLen ∧ blockGood block = true) ∨
     (op = 3 ∧ 1 ≤ args.getD 2 0 ∧ args.getD 2 0 ≤ 256 ∧ d.f R.FW_STAT.NEXT + args.getD 2 0 ≤ d.fwLen)))) ∧
  (op = 3 → args.getD 1 0 + d.f R.FW_STAT.NEXT - args.getD 0 0 < rn (d.desc d.fwRun) 16 4 ∧ blockGood d.fwData = true)

/-- The service port answers with a status byte and `len` data bytes: those of `bs`, and open bytes where it has no more (R546). -/
def SvcAnswers (d t : Device) (status len : Nat) (bs : List Byte) : Prop :=
  t.out = [.svc (BitVec.ofNat 8 status :: (bs.take len ++ (List.range (len - bs.length)).map (Config.freeByte d.freeN)))] ∧
  t.freeN = if len ≤ bs.length then d.freeN else d.freeN + 1

/-- The firmware command has ended with a result. -/
def FwEnds (r : Nat) (t : Device) : Prop :=
  t.fw.cur = none ∧ t.f R.FW_STAT.RESULT = r ∧ t.f R.FW_STAT.BUSY = 0 ∧ t.f R.GLB_DEV_EVT.FW_DONE = 1

/-- A firmware command changes nothing but what its end does, and the fields listed. -/
def FwOnly (Gs : List Fld) (d t : Device) : Prop :=
  OnlyFields (Gs ++ [R.FW_STAT.RESULT, R.FW_STAT.BUSY, R.GLB_DEV_EVT.FW_DONE]) d t

/-- A firmware command of an interface is in progress, and the Watch takes commands and holds both slots' descriptors. -/
def FwIn (d : Device) (iface op : Nat) (args : List Nat) (block : List Byte) : Prop :=
  d.fw.cur = some (iface, op, args, block) ∧ d.watchRuns = true ∧ d.fw.descs.map List.length = some 2 ∧ (∀ k : Fin 2, (d.desc k).length = 64) ∧
  d.fw.going = 0 ∧ d.b R.FW_CMD.GO = false

/-- A firmware command is over: none is in progress. -/
def Fw.over (x : Fw) : Fw := { x with cur := none, going := 0, pages := none }

/-- The fields that show the slots' descriptors and the commit of one. -/
def descFields : List Fld :=
  [R.FW_SLOT.STATE 0, R.FW_SLOT.STATE 1, R.FW_SLOT.TRIES 0, R.FW_SLOT.TRIES 1, R.FW_SLOT.SVN 0, R.FW_SLOT.SVN 1, R.FW_VER.FW_VER 0, R.FW_VER.FW_VER 1,
   R.FW_MINSVN.MIN_SVN, R.KEEP_STAT.QUEUE]

/-- A place lies in one of the offset ranges `rs`. -/
def inRanges (rs : List (Nat × Nat)) (key : Nat) : Bool := rs.any (fun r => decide (r.1 * 32 ≤ key) && decide (key < r.2 * 32))

/-- The fields at the offset ranges `rs` hold their reset values, but for those listed. -/
def AtReset (rs : List (Nat × Nat)) (Gs : List Fld) (t : Device) : Prop := ∀ F : Fld, F.key ∉ Gs.map Fld.key → inRanges rs F.key = true → t.f F = F.rst

/-- From `d` to `t` a field outside the offset ranges `rs` that is not listed is as it was. -/
def ElseSame (rs : List (Nat × Nat)) (Gs : List Fld) (d t : Device) : Prop := ∀ F : Fld, F.key ∉ Gs.map Fld.key → inRanges rs F.key = false → t.f F = d.f F

/-- The completion entry of a queue's entry (R565). -/
def Device.cqEntry (d : Device) (q : Nat) (e : List Byte) (status done : Nat) : List Byte :=
  (e.drop 2).take 2 ++ leBytes 2 (d.f (R.LNK_Q_STAT.SQ_HEAD q)) ++ [BitVec.ofNat 8 status, BitVec.ofNat 8 (d.queue q).phase.toNat, 0, 0] ++ leBytes 4 done ++ leBytes 4 0

/-- The request mailbox is ready: domain 0 is powered, the Watch takes requests, and none is in progress or waits (R644, R645). -/
def MailReady (d : Device) : Prop :=
  d.domOn (domainOf R.WATCH_REQ.GO.off) = true ∧ d.watchRuns = true ∧ d.b R.WATCH_RESP.BUSY = false ∧ d.b R.WATCH_REQ.GO = false

/-- Request `op` has been answered with a final result (R644, R649). -/
def Answered (op r : Nat) (t : Device) : Prop :=
  t.f R.WATCH_REQ.GO = 0 ∧ t.f R.WATCH_RESP.OP = op ∧ t.f R.WATCH_RESP.RESULT = r ∧ t.f R.WATCH_RESP.BUSY = 0 ∧ t.f R.WATCH_EVT.REQ_DONE = 1

/-- The fields of the request mailbox. -/
def mailFields : List Fld := [R.WATCH_REQ.GO, R.WATCH_REQ.OP, R.WATCH_RESP.OP, R.WATCH_RESP.RESULT, R.WATCH_RESP.BUSY, R.WATCH_EVT.REQ_DONE]

/-- Fields that show what other state says, brought up to date when that state changes: what a held wake waits for, whether the ports in use are
in step, and which bands the Keep holds. -/
def shownFields : List Fld := [R.PWR_STAT.WAIT, R.TB_STAT.SYNC_OK, R.FAB_STAT.PORTS_OK, R.GLB_IMG_STAT.PLAN_MISMATCH, R.CAL_SRC.VALID, R.TWIN_STAT.QOK]

/-- The fields that the refusal of a start may write (R701). -/
def refuseFields : List Fld :=
  [R.GLB_RUN_STAT.PENDING, R.GLB_RUN_STAT.REFUSED, R.GLB_RUN_STAT.REFUSE, R.TB_STAT.NOSYNC_RUN, R.THM_EVT.RUN_REFUSED, R.PWR_EVT.RUN_REFUSED,
   R.PWR_STAT.REFUSE, R.ACQ_DRAIN_STAT.NORUN, R.CAL_EVT.RUN_REFUSED, R.GLB_ST_STAT.RUN_REFUSED, R.TWIN_EVT.RUN_REFUSED, R.TWIN_STAT.WHY,
   R.FAB_EVT.START_REFUSED, R.FAB_STAT.REFUSE]

/-- Every output is clamped for a reason, given as its bit (R367). -/
def AllClamped (bit : Nat) (t : Device) : Prop := ∀ tl : Fin 32, ∀ k ∈ tileOutputs tl, (t.clampOf k).testBit bit = true

/-- The lines of the range of a memory's address space have lost power: each carries UNINIT (R464, R658). -/
def Uninit (lo hi : Nat) (t : Device) : Prop := ∀ l, lo ≤ l → l < hi → t.tagOf l = 2

/-! The canonical form -/

/-- Every table of the device and both memories are in their canonical form: keys strictly rising, and no entry equal to what an unlisted key
reads as. -/
structure Canonical (d : Device) : Prop where
  flds : bwf (fun _ => 0) d.flds = true
  latch : bwf (fun _ => none) d.latch = true
  held : bwf (fun _ => none) d.held = true
  queues : bwf (fun _ => {}) d.queues = true
  pba : bwf (fun _ => false) d.pba = true
  engines : bwf (fun _ => {}) d.engines = true
  seqs : bwf (fun _ => {}) d.seqs = true
  bus : bwf (fun _ => 0) d.bus = true
  patch : bwf (fun _ => 0) d.patch = true
  patchErr : bwf (fun _ => 0) d.patchErr = true
  ports : bwf (fun _ => {}) d.ports = true
  mixers : bwf (fun _ => {}) d.mixers = true
  markers : bwf (fun _ => {}) d.markers = true
  clamps : bwf clampReset d.clamps = true
  steady : bwf (fun _ => 0) d.steady = true
  ranged : bwf (fun _ => false) d.ranged = true
  rangeT0 : bwf (fun _ => none) d.rangeT0 = true
  outCfgs : bwf (fun _ => {}) d.outCfgs = true
  mons : bwf (fun _ => {}) d.mons = true
  monErr : bwf (fun _ => 0) d.monErr = true
  recorded : bwf (fun _ => []) d.recorded = true
  wins : bwf (fun _ => none) d.wins = true
  tiles : bwf (fun _ => {}) d.tiles = true
  txq : bwf (fun _ => []) d.txq = true
  rx : bwf (fun _ => []) d.rx = true
  votes : bwf (fun _ => none) d.votes = true
  stats : bwf (fun _ => {}) d.stats = true
  sums : bwf (fun _ => none) d.sums = true
  credit : bwf (fun _ => 0) d.credit = true
  codes : bwf (fun _ => none) d.codes = true
  lat : bwf (fun _ => 0) d.lat = true
  rings : bwf (fun _ => {}) d.rings = true
  streams : bwf (fun _ => {}) d.streams = true
  flags : bwf (fun _ => 0) d.flags = true
  tags : bwf (fillTag d.sram.fills) d.tags = true
  errs : bwf (fun _ => 0) d.errs = true
  scrubs : bwf (fun _ => {}) d.scrubs = true
  calPaths : bwf (fun _ => {}) d.calPaths = true
  calForce : bwf (fun _ => []) d.calForce = true
  lanes : bwf (fun _ => {}) d.lanes = true
  portUps : bwf (fun _ => {}) d.portUps = true
  digs : bwf (fun _ => none) d.digs = true
  badFetch : bwf (fun _ => 0) d.badFetch = true
  resS : bwf (fun _ => 0) d.resS = true
  resW : bwf (fun _ => 0) d.resW = true
  cxlBad : bwf (fun _ => false) d.cxlBad = true
  chks : bwf (fun _ => (0, false)) d.chks = true
  tagBad : bwf (fun _ => false) d.tagBad = true
  tins : bwf (fun _ => {}) d.tins = true
  dtags : bwf (fun _ => 0) d.dtags = true
  sram : d.sram.wf = true
  cxl : d.cxl.wf = true

end Sys2Proof.Machine
end

