-- ==== Sys2Proof/Certificates/Slice0/Obligations.lean ====
section
/-! DEFINITION. The statements for the provers: what the commands, the queue and the state's canonical form do, by the rules of the spec. -/
section
open Sys2Proof Sys2Proof.Machine

/-- A step runs the command at the front of the queue. -/
def Obligations.StepRunsFront : Prop :=
  ∀ (s : State) (c : Instr) (r : List Instr), step { s with pending := c :: r } = exec c { s with pending := r }

/-- Every command answers a next state and leaves the queue's rest. -/
def Obligations.EveryCommandAnswers : Prop :=
  (∀ (c : Instr) (s : State), ∃ t, exec c s = .next t ∧ t.pending = s.pending) ∧
  ∀ s : State, s.pending = [] → ∃ t, step s = .next t ∧ t.pending = []

/-- The queue is first in, first out. The order of the queue is the model's choice (log entry on the queue). -/
def Obligations.QueueInOrder : Prop :=
  ∀ (cs : List Instr) (s : State) (r : List Instr), s.pending = cs ++ r →
    ∃ t, Host.Core.run Sys2Proof.core cs.length s = .next t ∧ t.pending = r ∧
      cs.foldl (fun o c => match o with
        | .next u => exec c u
        | .fault x => .fault x
        | .refused x => .refused x) (.next { s with pending := r }) = Host.Outcome.next t

/-- Every step keeps the canonical form of tables and memories. The canonical form is the model's own; it makes equal contents equal data. -/
def Obligations.StepKeepsCanonical : Prop :=
  ∀ s t : State, Canonical s.dev → step s = .next t → Canonical t.dev

/-- The state after reset is canonical. -/
def Obligations.ResetCanonical : Prop := Canonical State.reset.dev

/-- An access to an undefined offset. -/
def Obligations.UndefinedOffset : Prop :=
  ∀ (s : State) (off : BitVec 25) (data : Word) (c : Instr),
    off.toNat % 4 = 0 → off.toNat < 0x1000000 → regAt off.toNat = none →
    c = .unmappedRead off ∨ c = .regWrite off 15 data →
    let d := s.dev
    ∃ t, exec c s = .next t ∧
      t.dev.out = (if c = .unmappedRead off then [.read 0] else []) ∧
      t.dev.f R.GLB_ACC_ERR.UNMAPPED = 1 ∧
      t.dev.f R.GLB_ACC_ADDR.OFFSET = (if d.errStands then d.f R.GLB_ACC_ADDR.OFFSET else off.toNat) ∧
      t.dev.f R.GLB_ACC_ERR.MULTI = (if d.errStands then 1 else d.f R.GLB_ACC_ERR.MULTI) ∧
      OnlyFields [R.GLB_ACC_ERR.UNMAPPED, R.GLB_ACC_ERR.MULTI, R.GLB_ACC_ADDR.OFFSET] d t.dev ∧
      t = { s with dev := { d with flds := t.dev.flds, again := [], evNow := [], out := t.dev.out, pba := t.dev.pba } }

/-- A narrow write is discarded, of any offset of BAR0. That an undefined offset reports UNMAPPED beside NARROW and a domain that is off OFF, with one
capture of the offset and with MULTI of a later access alone, is the model's choice (logs 15 and 17). -/
def Obligations.NarrowWrite : Prop :=
  ∀ (s : State) (off : BitVec 25) (be : BitVec 4) (data : Word),
    off.toNat % 4 = 0 → off.toNat < 0x1000000 → be ≠ 15 →
    let d := s.dev
    let there := (regAt off.toNat).isSome
    let on := d.domOn (domainOf off.toNat)
    ∃ t, exec (.regWrite off be data) s = .next t ∧ t.dev.out = [] ∧
      t.dev.f R.GLB_ACC_ERR.NARROW = 1 ∧
      t.dev.f R.GLB_ACC_ADDR.OFFSET = (if d.errStands then d.f R.GLB_ACC_ADDR.OFFSET else off.toNat) ∧
      t.dev.f R.GLB_ACC_ERR.MULTI = (if d.errStands then 1 else d.f R.GLB_ACC_ERR.MULTI) ∧
      OnlyFields ([R.GLB_ACC_ERR.NARROW, R.GLB_ACC_ERR.MULTI, R.GLB_ACC_ADDR.OFFSET] ++ (if there then [] else [R.GLB_ACC_ERR.UNMAPPED]) ++
        (if there && !on then [R.GLB_ACC_ERR.OFF] else [])) d t.dev ∧
      t = { s with dev := { d with flds := t.dev.flds, again := [], evNow := [], out := [], pba := t.dev.pba } }

/-- An access to a register whose power domain is off. -/
def Obligations.DomainOffAccess : Prop :=
  ∀ (s : State) (off : BitVec 25) (data : Word) (c : Instr),
    off.toNat % 4 = 0 → off.toNat < 0x1000000 → (regAt off.toNat).isSome → s.dev.domOn (domainOf off.toNat) = false →
    c = .unmappedRead off ∨ c = .lowWordRead off ∨ c = .regWrite off 15 data ∨ c = .lowWordWrite off 15 data ∨ c = .highWordWrite off 15 data →
    let d := s.dev
    ∃ t, exec c s = .next t ∧
      t.dev.out = (if c = .unmappedRead off ∨ c = .lowWordRead off then [.read 0] else []) ∧
      t.dev.f R.GLB_ACC_ERR.OFF = 1 ∧
      t.dev.f R.GLB_ACC_ADDR.OFFSET = (if d.errStands then d.f R.GLB_ACC_ADDR.OFFSET else off.toNat) ∧
      OnlyFields [R.GLB_ACC_ERR.OFF, R.GLB_ACC_ERR.MULTI, R.GLB_ACC_ADDR.OFFSET] d t.dev ∧
      t = { s with dev := { d with flds := t.dev.flds, again := [], evNow := [], out := t.dev.out, pba := t.dev.pba } }

/-- A write reaches each field of a register by its access code. -/
def Obligations.WriteByAccessCode : Prop :=
  ∀ (s : State) (off : BitVec 25) (data : Word) (r : RegAt),
    off.toNat % 4 = 0 → regAt off.toNat = some r → s.dev.domOn (domainOf off.toNat) = true →
    holdsOnly r.reg = true → heldLow r = false → lowOf off.toNat = none → (r.flds.map Fld.key).Nodup →
    (∀ F ∈ r.flds, (F.acc = .rw ∨ F.acc = .wo → s.dev.encOk r F (bitsOf data.toNat F.hi F.lo) = true) ∧
      (F.acc = .wl → s.dev.f F = bitsOf data.toNat F.hi F.lo ∧ s.dev.evNow.contains F.key = false)) →
    ∃ t, exec (.regWrite off 15 data) s = .next t ∧
      (∀ F ∈ r.flds, t.dev.f F = match F.acc with
        | .rw | .wo => bitsOf data.toNat F.hi F.lo % 2 ^ F.width
        | .w1c => (s.dev.f F &&& ((2 ^ F.width - 1 - bitsOf data.toNat F.hi F.lo) ||| s.dev.evBits F)) % 2 ^ F.width
        | .w1s => (s.dev.f F ||| bitsOf data.toNat F.hi F.lo) % 2 ^ F.width
        | .ro | .wl => s.dev.f F) ∧
      (∀ F ∈ r.flds, ∀ v, F.acc = .w1c → bitsOf data.toNat F.hi F.lo &&& s.dev.evBits F ≠ 0 → vectorOf F.key = some v →
        bget (fun _ => false) t.dev.pba v = true) ∧
      OnlyFields r.flds s.dev t.dev ∧
      t = { s with dev := { s.dev with flds := t.dev.flds, pba := t.dev.pba, again := [], evNow := [], out := [] } }

/-- Reserved encodings and Watch-locked bits. -/
def Obligations.ReservedAndLocked : Prop :=
  ∀ (s : State) (q : Fin 4) (off : BitVec 25) (data : Word),
    off.toNat = 0x700 + 0x10 * q.val → s.dev.domOn (domainOf off.toNat) = true →
    let d := s.dev
    let warn := bitsOf data.toNat 15 0
    let fault := bitsOf data.toNat 31 16
    ∃ t, exec (.regWrite off 15 data) s = .next t ∧
      t.dev.f (R.MON_WIN.WARN q) = (if warn < d.f (R.MON_WIN.FAULT q) then warn else d.f (R.MON_WIN.WARN q)) ∧
      t.dev.f (R.MON_WIN.FAULT q) = d.f (R.MON_WIN.FAULT q) ∧
      (¬ warn < d.f (R.MON_WIN.FAULT q) → t.dev.f R.GLB_ACC_ERR.RSVD_ENC = 1 ∧
        (d.errStands = false → t.dev.f R.GLB_ACC_ADDR.OFFSET = off.toNat)) ∧
      (warn < d.f (R.MON_WIN.FAULT q) → t.dev.f R.GLB_ACC_ERR.RSVD_ENC = d.f R.GLB_ACC_ERR.RSVD_ENC) ∧
      (d.f R.WATCH_DENY_CNT.COUNT < 2 ^ 32 → t.dev.f R.WATCH_DENY_CNT.COUNT =
        if fault = d.f (R.MON_WIN.FAULT q) ∧ d.evNow.contains (R.MON_WIN.FAULT q).key = false then d.f R.WATCH_DENY_CNT.COUNT else satInc 32 (d.f R.WATCH_DENY_CNT.COUNT)) ∧
      t = { s with dev := { d with flds := t.dev.flds, again := [], evNow := [], out := [], pba := t.dev.pba } }

/-- A read of a low word latches the high word. -/
def Obligations.LowWordReadLatches : Prop :=
  (∀ (s : State) (off : BitVec 25) (r : RegAt), off.toNat % 4 = 0 → regAt off.toNat = some r → lowWord r.reg = true →
    s.dev.domOn (domainOf off.toNat) = true → bget (fun _ => none) s.dev.latch off.toNat = none →
    ∃ t, exec (.lowWordRead off) s = .next t ∧ t.dev.out = [.read (s.dev.live32 r)] ∧
      bget (fun _ => none) t.dev.latch (off.toNat + 4) = some (s.dev.liveAt (off.toNat + 4)) ∧
      (∀ k, k ≠ off.toNat + 4 → bget (fun _ => none) t.dev.latch k = bget (fun _ => none) s.dev.latch k) ∧
      t = { s with dev := { s.dev with again := [], evNow := [], out := t.dev.out, latch := t.dev.latch } }) ∧
  ∀ (s : State) (off : BitVec 25) (r : RegAt) (w : Nat), off.toNat % 4 = 0 → regAt off.toNat = some r → latchedBy r off.toNat = [] →
    r.reg ≠ .RD_DSTAT → r.reg ≠ .GLB_UNIT_QSTAT → s.dev.domOn (domainOf off.toNat) = true → bget (fun _ => none) s.dev.latch off.toNat = some w →
    ∃ t, exec (.lowWordRead off) s = .next t ∧ t.dev.out = [.read w] ∧ t = { s with dev := { s.dev with again := [], evNow := [], out := t.dev.out } }

/-- A low word written is held until the high word is written. -/
def Obligations.HeldLowWord : Prop :=
  ∀ (s : State) (L H : Fld) (lo hi : BitVec 25) (data : Word),
    (L = R.TB_SYNC_LOAD_LO.LOAD ∧ H = R.TB_SYNC_LOAD_HI.LOAD) ∨ (L = R.FAB_START_LO.START ∧ H = R.FAB_START_HI.START) →
    lo.toNat = L.off → hi.toNat = H.off → s.dev.domOn (domainOf L.off) = true →
    (∃ t, exec (.lowWordWrite lo 15 data) s = .next t ∧ bget (fun _ => none) t.dev.held L.off = some data.toNat ∧
      (∀ F, t.dev.f F = s.dev.f F) ∧ (∀ k, k ≠ L.off → bget (fun _ => none) t.dev.held k = bget (fun _ => none) s.dev.held k) ∧
      t = { s with dev := { s.dev with held := t.dev.held, again := [], evNow := [], out := [] } }) ∧
    ∃ t, exec (.highWordWrite hi 15 data) s = .next t ∧ t.dev.f H = data.toNat ∧
      t.dev.f L = (match bget (fun _ => none) s.dev.held L.off with
        | some v => v % 2 ^ 32
        | none => s.dev.f L) ∧
      bget (fun _ => none) t.dev.held L.off = none ∧ OnlyFields [L, H] s.dev t.dev ∧
      t = { s with dev := { s.dev with flds := t.dev.flds, held := t.dev.held, again := [], evNow := [], out := [] } }

/-- Group reads latch the group, and a unit query latches its snapshot. -/
def Obligations.GroupReads : Prop :=
  (∀ (s : State) (c : Instr) (off : Nat) (r : RegAt) (ks : List Nat),
    (∃ f, c = .ncoFreqRead f ∧ off = tileOff 32 0x1000 0x20 f.val ∧ r.reg = .NCO_FREQ_LO ∧ ks = [off + 4, off + 8, off + 12, off + 16]) ∨
    (c = .patchRdDataRead ∧ off = (R.ENG_PATCH_RD_DATA.DATA 0).off ∧ r.reg = .ENG_PATCH_RD_DATA ∧ r.idx = [0] ∧ ks = [off + 4, off + 8, off + 12, off + 16, off + 20]) ∨
    (∃ d, c = .rdLastIRead d ∧ off = tileOff 16 0x4004 0x10 d.val ∧ r.reg = .RD_LAST_I ∧ ks = [off + 4, off - 4]) ∨
    (c = .eccLogRead ∧ off = R.ECC_LOG_W0.VALID.off ∧ r.reg = .ECC_LOG_W0 ∧ ks = [off + 4, off + 8, off + 12]) ∨
    (c = .tapDataRead ∧ off = (R.LNK_TAP_DATA.TAPS 0).off ∧ r.reg = .LNK_TAP_DATA ∧ r.idx = [0] ∧ ks = [off + 4, off + 8]) →
    regAt off = some r → s.dev.domOn (domainOf off) = true → bget (fun _ => none) s.dev.latch off = none →
    ∃ t, exec c s = .next t ∧ t.dev.out = [.read (s.dev.live32 r)] ∧
      (∀ k ∈ ks, bget (fun _ => none) t.dev.latch k = some (s.dev.liveAt k)) ∧
      t = { s with dev := { s.dev with again := [], evNow := [], out := t.dev.out, latch := t.dev.latch } }) ∧
  ∀ s : State, s.dev.domOn (domainOf R.GLB_UNIT_QSTAT.SUMMARY.off) = true →
    let d := s.dev
    let u := d.queried (d.f R.GLB_UNIT_QSEL.NAME)
    let x := (u.map d.unitSummary).getD (0, none)
    let past := (x.2.map (fun formed => d.age - formed)).getD 0
    ∃ t, exec .unitQuery s = .next t ∧ t.dev.out = [.read x.1] ∧ t.dev.f R.GLB_UNIT_QSTAT.SUMMARY = x.1 % 2 ^ 32 ∧
      t.dev.b R.GLB_UNIT_QINFO.NOUNIT = u.isNone ∧ t.dev.b R.GLB_UNIT_QINFO.REMOTE = x.2.isSome ∧
      t.dev.f R.GLB_UNIT_QINFO.MEMBERS = (u.map (fun k => min 0xFF (d.tree.children k).length)).getD 0 ∧ t.dev.f R.GLB_UNIT_QINFO.AGE = min 0xFFFF past ∧
      t.dev.f64 R.GLB_UNIT_QEPOCH_LO.EPOCH R.GLB_UNIT_QEPOCH_HI.EPOCH = d.now.toNat - past ∧
      OnlyFields [R.GLB_UNIT_QSTAT.SUMMARY, R.GLB_UNIT_QEPOCH_LO.EPOCH, R.GLB_UNIT_QEPOCH_HI.EPOCH, R.GLB_UNIT_QINFO.NOUNIT,
        R.GLB_UNIT_QINFO.REMOTE, R.GLB_UNIT_QINFO.MEMBERS, R.GLB_UNIT_QINFO.AGE] d t.dev ∧
      t = { s with dev := { d with flds := t.dev.flds, again := [], evNow := [], out := t.dev.out } }

/-- A REFCLK edge while the fast clocks sleep: an edge on which a load of the epoch falls comes after that load, and the checks of a start that
is pending are made at it. That a failure refuses the start at once where no hold stands, and else with the hold's end, is the model's choice (log 243). -/
def Obligations.RefclkEdgeAsleep : Prop :=
  (∀ (s u : State) (level : Bool), s.dev.domOn 0 = true → s.dev.b R.TB_STAT.AWAKE = false → exec .syncLoad s = .next u →
    exec (.refclkEdge level) s = exec (.refclkEdge level) u) ∧
  (∀ (s : State) (level : Bool), s.dev.domOn 0 = false → exec (.refclkEdge level) s = .next { s with dev := { s.dev with out := [] } }) ∧
  ∀ (s : State) (level : Bool), s.dev.domOn 0 = true → s.dev.b R.TB_STAT.AWAKE = false → s.dev.syncsDue = [] →
    let d := s.dev
    let waits := d.b R.GLB_RUN_STAT.PENDING && !d.running
    let refused := waits && d.startRefuse != 0 && d.startsNext
    let x := d.time
    let rise := level && !x.syncIn
    ∃ t, exec (.refclkEdge level) s = .next t ∧
      t.dev.time = { x with
        coarse := x.coarse + 20, ticks := x.ticks + 20, refclk := true, held := false, before := none, good := min 1000 (if x.refclk then x.good + 1 else 0)
        syncIn := level, syncRise := rise, sync := x.sync.map (fun y => { y with left := y.left - 1 })
        sout := x.sout || x.soutNext, soutNext := rise && d.f R.TB_CTL.SOUT_MODE == 1, soutLeft := if x.soutNext then 4 else x.soutLeft - 1 } ∧
      t.dev.f R.TB_CTL.SYNC_GEN = (if x.soutNext then 0 else d.f R.TB_CTL.SYNC_GEN) ∧
      t.dev.power = { d.power with atEdge := true, wakeEdges := if d.f R.PWR_STAT.STATE = 1 then d.power.wakeEdges + 1 else d.power.wakeEdges } ∧
      t.dev.run = { d.run with before := none, found := if waits && !refused then some d.startRefuse else none } ∧
      (refused = true → t.dev.b R.GLB_RUN_STAT.PENDING = false ∧ t.dev.f R.GLB_RUN_STAT.REFUSED = 1 ∧ t.dev.f R.GLB_RUN_STAT.REFUSE = d.startRefuse) ∧
      (refused = false → t.dev.outCfgs = d.outCfgs ∧ t.dev.pba = d.pba) ∧
      OnlyFields ([R.TB_CTL.SYNC_GEN, R.PWR_STAT.WAIT] ++ (if refused then refuseFields else [])) d t.dev ∧
      t = { s with dev := { d with flds := t.dev.flds, time := t.dev.time, power := t.dev.power, run := t.dev.run, outCfgs := t.dev.outCfgs, pba := t.dev.pba,
                                   evNow := [], again := [], out := [] } }

/-- A sync is taken at its sampling edge and loads the epoch at its load edge. That a sync is taken beside one in flight, and that the later of two
on one edge decides the epoch, is the model's choice (log 78). -/
def Obligations.SyncTakenAndLoaded : Prop :=
  (∀ (s : State) (pos : Fin 32), 1 ≤ pos.val → pos.val ≤ 20 → s.dev.time.syncRise = true →
    s.dev.b R.TB_CTL.SYNC_ARM = true → s.dev.running = false →
    let d := s.dev
    let awake := d.b R.TB_STAT.AWAKE
    ∃ t, exec (.syncInPulse pos) s = .next t ∧
      t.dev.time = { d.time with syncRise := false, sync := d.time.sync ++ [⟨BitVec.ofNat 64 (d.f64 R.TB_SYNC_LOAD_LO.LOAD R.TB_SYNC_LOAD_HI.LOAD), d.f R.TB_SYNC_DELAY.DELAY⟩] } ∧
      t.dev.f R.TB_CTL.SYNC_ARM = 0 ∧ t.dev.f R.TB_SYNC_POS.VALID = awake.toNat ∧
      (awake = true → t.dev.f R.TB_SYNC_POS.POS = pos.val) ∧
      t.dev.f R.TB_STAT.SYNC_MARGIN = (if awake = true ∧ (pos.val = 1 ∨ pos.val = 20) then 1 else d.f R.TB_STAT.SYNC_MARGIN) ∧
      OnlyFields [R.TB_CTL.SYNC_ARM, R.TB_SYNC_POS.VALID, R.TB_SYNC_POS.POS, R.TB_STAT.SYNC_MARGIN] d t.dev ∧
      t = { s with dev := { d with flds := t.dev.flds, time := t.dev.time, pba := t.dev.pba, evNow := t.dev.evNow, out := [] } }) ∧
  (∀ (s : State) (pos : Fin 32), s.dev.time.syncRise = true → s.dev.b R.TB_CTL.SYNC_ARM = false ∨ s.dev.running = true →
    ∃ t, exec (.syncInPulse pos) s = .next t ∧ t.dev.time = { s.dev.time with syncRise := false } ∧
      t.dev.f R.TB_STAT.SYNC_IGNORED = 1 ∧ OnlyFields [R.TB_STAT.SYNC_IGNORED] s.dev t.dev ∧
      t = { s with dev := { s.dev with flds := t.dev.flds, time := t.dev.time, pba := t.dev.pba, evNow := t.dev.evNow, out := [] } }) ∧
  ∀ (s : State) (y : SyncTaken), s.dev.syncsDue.getLast? = some y →
    let d := s.dev
    let u := (Tx.start d).syncLoad y.load
    exec .syncLoad s = .next { s with dev := if d.b R.TB_STAT.AWAKE then u.openTick.d else u.d } ∧
    u.d.time = { d.time with sync := d.time.sync.filter (fun z => z.left ≠ 0), coarse := y.load, fine := if d.b R.TB_STAT.AWAKE then y.load else d.time.fine,
                             before := some d.now } ∧
    u.d.f R.TB_STAT.SYNCED = 1 ∧ u.d.f R.GLB_DEV_EVT.TB_SYNC = 1 ∧
    (d.f R.TB_STAT.SYNC_COUNT < 2 ^ R.TB_STAT.SYNC_COUNT.width → d.syncsDue = [y] →
      u.d.f R.TB_STAT.SYNC_COUNT = satInc R.TB_STAT.SYNC_COUNT.width (d.f R.TB_STAT.SYNC_COUNT)) ∧
    OnlyFields [R.TB_STAT.SYNCED, R.TB_STAT.SYNC_COUNT, R.GLB_DEV_EVT.TB_SYNC, R.TB_STAT.SYNC_OK, R.FAB_STAT.PORTS_OK, R.GLB_IMG_STAT.PLAN_MISMATCH] d u.d ∧
    (∀ tl : Fin 32, u.d.tile tl = { d.tile tl with hist := [] }) ∧
    u.d = { d with flds := u.d.flds, time := u.d.time, tiles := u.d.tiles, pba := u.d.pba, evNow := u.d.evNow, out := [] }

/-- SYNC_OUT in SOURCE mode. A write in the clock on which a pulse starts asks for another. -/
def Obligations.SyncOut : Prop :=
  (∀ s : State, s.dev.domOn (domainOf R.TB_CTL.SYNC_GEN.off) = true →
    let d := s.dev
    let src := d.f R.TB_CTL.SOUT_MODE = 2
    ∃ t, exec .syncGen s = .next t ∧
      (src ∧ (d.time.sout = false ∨ d.soutStarts = true) → t.dev.f R.TB_CTL.SYNC_GEN = 1 ∧ t.dev.time = { d.time with soutNext := true } ∧ OnlyFields [R.TB_CTL.SYNC_GEN] d t.dev) ∧
      (src ∧ d.time.sout = true ∧ d.soutStarts = false → t.dev.f R.TB_STAT.SYNC_IGNORED = 1 ∧ t.dev.time = d.time ∧ OnlyFields [R.TB_STAT.SYNC_IGNORED] d t.dev) ∧
      (¬ src → t = { s with dev := { d with again := [], evNow := [], out := [] } }) ∧
      t = { s with dev := { d with flds := t.dev.flds, time := t.dev.time, pba := t.dev.pba, again := [], evNow := [], out := [] } }) ∧
  ∀ s : State, s.dev.time.sout = true → s.dev.time.soutLeft = 0 →
    exec .syncOutPulseEnd s = .next { s with dev := { s.dev with time := { s.dev.time with sout := false }, out := [] } }

/-- REFCLK is lost and restored, and the PLL loses lock: with no work under way, in a wake, while AWAKE, and in a run. That the fast clocks stay AWAKE
where the PLL loses lock with REFCLK present is the model's choice (log 233). -/
def Obligations.RefclkAndLock : Prop :=
  (∀ s : State, Idle s.dev → s.dev.b R.TB_STAT.AWAKE = false → s.dev.f R.PWR_STAT.STATE ≠ 1 → s.dev.time.held = false → s.dev.syncsDue = [] →
    let d := s.dev
    ∃ t, exec .refclkLost s = .next t ∧ t.dev.f R.TB_STAT.REF_LOST = 1 ∧ t.dev.f R.TB_STAT.REF_OK = 0 ∧ t.dev.f R.TB_STAT.SYNCED = 0 ∧
      t.dev.twin = (if d.f R.TWIN_STAT.STATE = 2 then { d.twin with lostTime := true } else d.twin) ∧ t.dev.f R.TB_STAT.SYNC_OK = 0 ∧ t.dev.time = { d.time with held := true, refclk := false, good := 0, sync := [], syncRise := false } ∧
      t.dev.f R.TB_STAT.SYNC_IGNORED = (if d.time.sync = [] then d.f R.TB_STAT.SYNC_IGNORED else 1) ∧
      OnlyFields [R.TB_STAT.REF_LOST, R.TB_STAT.REF_OK, R.TB_STAT.SYNCED, R.TB_STAT.SYNC_OK, R.TB_STAT.SYNC_IGNORED, R.FAB_STAT.PORTS_OK,
        R.GLB_IMG_STAT.PLAN_MISMATCH, R.PWR_STAT.WAIT, R.KEEP_STAT.QUEUE, R.KEEP_CNT.FAULT_DROPPED, R.KEEP_EVT.FAULT_DROP] d t.dev ∧
      t = { s with dev := { d with flds := t.dev.flds, time := t.dev.time, keep := t.dev.keep, twin := t.dev.twin, pba := t.dev.pba, evNow := t.dev.evNow, out := [] } }) ∧
  (∀ s : State, Idle s.dev → s.dev.b R.TB_STAT.AWAKE = false → s.dev.f R.PWR_STAT.STATE = 1 → s.dev.time.held = false → s.dev.syncsDue = [] →
    ∃ t, exec .refclkLost s = .next t ∧ t.dev.f R.TB_STAT.REF_LOST = 1 ∧ t.dev.f R.TB_STAT.REF_OK = 0 ∧ t.dev.f R.TB_STAT.SYNCED = 0 ∧
      t.dev.f R.TB_STAT.LOCKED = 0 ∧ t.dev.f R.PWR_STAT.STATE = 0 ∧ t.dev.f R.PWR_EVT.WAKE_ABORT = 1 ∧ (t.dev.f R.PWR_STAT.WAIT).testBit 0 = true ∧
      t.dev.power = { s.dev.power with wakeEdges := 0, clocks := 0, wakeReq := true } ∧
      t.dev.time = { s.dev.time with held := true, refclk := false, good := 0, sync := [], syncRise := false } ∧
      t = { s with dev := { s.dev with flds := t.dev.flds, time := t.dev.time, power := t.dev.power, keep := t.dev.keep, twin := t.dev.twin, pba := t.dev.pba,
                                       evNow := t.dev.evNow, out := [] } }) ∧
  (∀ s : State, s.dev.b R.TB_STAT.AWAKE = true → s.dev.time.held = false → s.dev.syncsDue = [] →
    let d := s.dev
    ∃ t, exec .refclkLost s = .next t ∧ t.pending = s.pending ∧ t.dev.f R.TB_STAT.REF_LOST = 1 ∧ t.dev.f R.TB_STAT.REF_OK = 0 ∧ t.dev.f R.TB_STAT.SYNCED = 0 ∧
      t.dev.f R.TB_STAT.AWAKE = 0 ∧ t.dev.f R.TB_STAT.LOCKED = 0 ∧ t.dev.f R.PWR_STAT.STATE = 0 ∧
      (∀ p : Fin 9, t.dev.f (R.FAB_PORT_STAT.IN_SERVICE p) = 0) ∧
      t.dev.time = { d.time with held := true, refclk := false, good := 0, sync := [], syncRise := false } ∧
      (d.running = true → t.dev.running = false ∧ AllClamped 1 t.dev ∧
        ∀ e : Fin 64, d.tileOn (e.val / 2) = true → t.dev.f (R.SCH_STAT.STATE e) = 3 ∧ (d.f (R.SCH_STAT.STATE e) ≠ 3 → t.dev.f (R.SCH_STAT.FAULT e) = 8)) ∧
      (d.running = false → d.b R.CAL_STAT.FG_BUSY = true → t.dev.b R.CAL_STAT.FG_BUSY = false ∧ t.dev.f R.CAL_REQ_STAT.RESULT = 4)) ∧
  (∀ s : State, 1000 ≤ s.dev.time.good →
    ∃ t, exec .refclkRestored s = .next t ∧ t.dev.f R.TB_STAT.REF_OK = 1 ∧ OnlyFields [R.TB_STAT.REF_OK, R.PWR_STAT.WAIT] s.dev t.dev ∧
      t = { s with dev := { s.dev with flds := t.dev.flds, out := [] } }) ∧
  (∀ s : State, s.dev.running = true → s.dev.b R.TB_STAT.LOCKED = true →
    let d := s.dev
    ∃ t, exec .pllLockLost s = .next t ∧ t.pending = s.pending ∧ t.dev.f R.TB_STAT.LOCKED = 0 ∧ t.dev.f R.TB_STAT.SYNCED = 0 ∧
      t.dev.b R.TB_STAT.AWAKE = d.b R.TB_STAT.AWAKE ∧ t.dev.running = false ∧ AllClamped 1 t.dev ∧ t.dev.time = d.time ∧ t.dev.run.ended = d.now ∧
      ∀ e : Fin 64, d.tileOn (e.val / 2) = true → t.dev.f (R.SCH_STAT.STATE e) = 3 ∧ (d.f (R.SCH_STAT.STATE e) ≠ 3 → t.dev.f (R.SCH_STAT.FAULT e) = 8)) ∧
  ∀ s : State, Idle s.dev → s.dev.b R.TB_STAT.LOCKED = true →
    ∃ t, exec .pllLockLost s = .next t ∧ t.dev.f R.TB_STAT.LOCKED = 0 ∧ t.dev.f R.TB_STAT.SYNCED = 0 ∧
      t.dev.twin = (if s.dev.f R.TWIN_STAT.STATE = 2 then { s.dev.twin with lostTime := true } else s.dev.twin) ∧
      OnlyFields [R.TB_STAT.LOCKED, R.TB_STAT.SYNCED, R.TB_STAT.SYNC_OK, R.FAB_STAT.PORTS_OK, R.GLB_IMG_STAT.PLAN_MISMATCH, R.KEEP_STAT.QUEUE, R.KEEP_CNT.FAULT_DROPPED, R.KEEP_EVT.FAULT_DROP] s.dev t.dev ∧
      t = { s with dev := { s.dev with flds := t.dev.flds, keep := t.dev.keep, twin := t.dev.twin, pba := t.dev.pba, evNow := t.dev.evNow, out := [] } }

/-- Requests for a tower image; while the CXL test of a self-test runs, a LOAD is held. -/
def Obligations.ImageRequests : Prop :=
  (∀ s : State, s.dev.domOn (domainOf R.GLB_IMG_CTL.LOAD.off) = true → s.dev.cxlTesting = true →
    exec .imgLoad s = .next { s with dev := { s.dev with
      st := { s.dev.st with held := if s.dev.st.held.contains 0 then s.dev.st.held else s.dev.st.held ++ [0] }, again := [], evNow := [], out := [] } }) ∧
  (∀ s : State, s.dev.domOn (domainOf R.GLB_IMG_CTL.LOAD.off) = true → s.dev.cxlTesting = false →
    let d := s.dev
    let ls := d.f R.GLB_IMG_STAT.LOAD_STATE
    ∃ t, exec .imgLoad s = .next t ∧
      ((ls = 0 ∨ ls = 2) ∧ d.b R.GLB_IMG_STAT.COMMIT_HELD = false →
        t.dev.f R.GLB_IMG_STAT.LOAD_STATE = 1 ∧ t.dev.f R.GLB_IMG_STAT.SECTION = 0 ∧ t.dev.f R.GLB_IMG_ERR_OFF.OFFSET = 0 ∧
        t.dev.f64 R.GLB_IMG_PEND_ID_LO.VALUE R.GLB_IMG_PEND_ID_HI.VALUE = 0 ∧
        t.dev.img = { d.img with pend := none, latBase := d.f R.GLB_IMG_BASE_LO.ADDR * 4096 + d.f R.GLB_IMG_BASE_HI.ADDR * 2 ^ 32, latLen := d.f R.GLB_IMG_LEN.LEN } ∧
        OnlyFields [R.GLB_IMG_STAT.LOAD_STATE, R.GLB_IMG_STAT.SECTION, R.GLB_IMG_ERR_OFF.OFFSET, R.GLB_IMG_PEND_ID_LO.VALUE, R.GLB_IMG_PEND_ID_HI.VALUE,
          R.GLB_IMG_STAT.COMMIT_HELD] d t.dev) ∧
      (ls = 1 ∨ ls = 3 ∨ d.b R.GLB_IMG_STAT.COMMIT_HELD = true → t.dev.f R.GLB_IMG_STAT.CODE = 0x20 ∧ t.dev.img = d.img ∧ OnlyFields [R.GLB_IMG_STAT.CODE] d t.dev) ∧
      t = { s with dev := { d with flds := t.dev.flds, img := t.dev.img, again := [], evNow := [], out := [] } }) ∧
  (∀ s : State, s.dev.domOn (domainOf R.GLB_IMG_CTL.COMMIT.off) = true →
    let d := s.dev
    let ls := d.f R.GLB_IMG_STAT.LOAD_STATE
    let held := d.b R.GLB_IMG_STAT.COMMIT_HELD
    ∃ t, exec .imgCommit s = .next t ∧
      (ls = 0 → t.dev.f R.GLB_IMG_STAT.CODE = 0x21) ∧ (3 ≤ ls → t.dev.f R.GLB_IMG_STAT.CODE = 0x20) ∧
      (ls = 1 → t.dev.f R.GLB_IMG_STAT.COMMIT_HELD = 1 ∧ t.dev.f R.GLB_IMG_STAT.CODE = d.f R.GLB_IMG_STAT.CODE) ∧
      (ls = 2 ∧ held = false → t.dev.f R.GLB_IMG_STAT.CODE = 0 ∧ t.dev.f R.GLB_IMG_STAT.COMMIT_HELD = d.running.toNat ∧
        t.dev.f R.GLB_IMG_STAT.LOAD_STATE = (if d.running then 2 else 3)) ∧
      (ls = 2 ∧ held = true → ∀ F, t.dev.f F = d.f F) ∧
      (ls ≠ 2 → t.dev.f R.GLB_IMG_STAT.LOAD_STATE = ls) ∧
      OnlyFields [R.GLB_IMG_STAT.CODE, R.GLB_IMG_STAT.COMMIT_HELD, R.GLB_IMG_STAT.LOAD_STATE] d t.dev ∧
      t = { s with dev := { d with flds := t.dev.flds, again := [], evNow := [], out := [] } }) ∧
  (∀ s : State, s.dev.domOn (domainOf R.GLB_IMG_CTL.DISCARD.off) = true →
    let d := s.dev
    let ls := d.f R.GLB_IMG_STAT.LOAD_STATE
    ∃ t, exec .imgDiscard s = .next t ∧
      (ls = 0 → t.dev.f R.GLB_IMG_STAT.CODE = 0x21) ∧ (3 ≤ ls → t.dev.f R.GLB_IMG_STAT.CODE = 0x20) ∧
      (ls = 1 ∨ ls = 2 → t.dev.img = { d.img with pend := none } ∧ t.dev.f R.GLB_IMG_STAT.LOAD_STATE = 0 ∧ t.dev.f R.GLB_IMG_STAT.COMMIT_HELD = 0 ∧
        t.dev.f64 R.GLB_IMG_PEND_ID_LO.VALUE R.GLB_IMG_PEND_ID_HI.VALUE = 0 ∧ t.dev.f R.GLB_IMG_STAT.CODE = (if ls = 1 then 0x22 else 0) ∧
        t.dev.f R.GLB_DEV_EVT.IMG_DONE = (if ls = 1 then 1 else d.f R.GLB_DEV_EVT.IMG_DONE)) ∧
      (¬ (ls = 1 ∨ ls = 2) → t.dev.img = d.img ∧ OnlyFields [R.GLB_IMG_STAT.CODE] d t.dev) ∧
      OnlyFields [R.GLB_IMG_STAT.CODE, R.GLB_IMG_STAT.COMMIT_HELD, R.GLB_IMG_STAT.LOAD_STATE, R.GLB_IMG_PEND_ID_LO.VALUE, R.GLB_IMG_PEND_ID_HI.VALUE,
        R.GLB_DEV_EVT.IMG_DONE] d t.dev ∧
      t = { s with dev := { d with flds := t.dev.flds, img := t.dev.img, pba := t.dev.pba, again := [], evNow := [], out := [] } }) ∧
  ∀ s : State, s.dev.f R.GLB_IMG_STAT.LOAD_STATE = 2 → s.dev.b R.GLB_IMG_STAT.COMMIT_HELD = true → s.dev.running = false →
    ∃ t, exec .committingStart s = .next t ∧ t.dev.f R.GLB_IMG_STAT.LOAD_STATE = 3 ∧ t.dev.f R.GLB_IMG_STAT.COMMIT_HELD = 0 ∧
      OnlyFields [R.GLB_IMG_STAT.COMMIT_HELD, R.GLB_IMG_STAT.LOAD_STATE] s.dev t.dev ∧ t = { s with dev := { s.dev with flds := t.dev.flds, out := [] } }

/-- The check of an image ends, and the commit tick installs it. That a line of the image reads from then on as the check found it is the model's choice (log 212). -/
def Obligations.ImageCheckAndCommit : Prop :=
  (∀ (s : State) (poisoned : List Nat), s.dev.f R.GLB_IMG_STAT.LOAD_STATE = 1 →
    let d := s.dev
    let fail := d.imgCheck poisoned
    let bad := poisoned.any (fun o => o < d.img.latLen)
    ∃ t, exec (.imgCheckDone poisoned) s = .next t ∧ t.dev.f R.GLB_DEV_EVT.IMG_DONE = 1 ∧
      (bad = true → fail.isSome = true ∧ t.dev.f R.ECC_EVT.CXL_POISON = 1) ∧ (bad = false → t.dev.f R.ECC_EVT.CXL_POISON = d.f R.ECC_EVT.CXL_POISON) ∧
      (∀ i, i < d.img.latLen / 64 →
        t.dev.cxlPoison (d.img.latBase + 64 * i) = poisoned.any (fun o => (d.img.latBase + o) / 64 == (d.img.latBase + 64 * i) / 64)) ∧
      (fail.isSome = true → t.dev.f R.GLB_IMG_STAT.LOAD_STATE = 0 ∧ t.dev.f R.GLB_IMG_STAT.CODE = (fail.map (fun x => x.1)).getD 0 % 2 ^ R.GLB_IMG_STAT.CODE.width ∧
        t.dev.f R.GLB_IMG_STAT.SECTION = (fail.map (fun x => x.2.2)).getD 0 % 2 ^ R.GLB_IMG_STAT.SECTION.width ∧
        t.dev.f R.GLB_IMG_ERR_OFF.OFFSET = (fail.map (fun x => x.2.1)).getD 0 % 2 ^ 32 ∧ t.dev.img = { d.img with pend := none }) ∧
      (fail = none → t.dev.f R.GLB_IMG_STAT.LOAD_STATE = (if d.b R.GLB_IMG_STAT.COMMIT_HELD && !d.running then 3 else 2) ∧ t.dev.f R.GLB_IMG_STAT.CODE = 0 ∧
        t.dev.b R.GLB_IMG_STAT.COMMIT_HELD = (d.b R.GLB_IMG_STAT.COMMIT_HELD && d.running) ∧ t.dev.img = { d.img with pend := some d.parseImage } ∧
        t.dev.f64 R.GLB_IMG_PEND_ID_LO.VALUE R.GLB_IMG_PEND_ID_HI.VALUE = d.parseImage.id % 2 ^ 64) ∧
      OnlyFields [R.GLB_IMG_STAT.LOAD_STATE, R.GLB_IMG_STAT.CODE, R.GLB_IMG_STAT.SECTION, R.GLB_IMG_STAT.COMMIT_HELD, R.GLB_IMG_ERR_OFF.OFFSET,
        R.GLB_IMG_PEND_ID_LO.VALUE, R.GLB_IMG_PEND_ID_HI.VALUE, R.GLB_DEV_EVT.IMG_DONE, R.ECC_EVT.CXL_POISON] d t.dev ∧
      t = { s with dev := { d with flds := t.dev.flds, img := t.dev.img, cxlBad := t.dev.cxlBad, pba := t.dev.pba, evNow := t.dev.evNow, out := [] } }) ∧
  ∀ (s : State) (im : Image), s.dev.img.pend = some im → s.dev.f R.GLB_IMG_STAT.LOAD_STATE = 3 → im.id < 2 ^ 64 → im.dev < 64 → s.dev.patchWait = none →
    s.dev.fw.started = true →
    ∃ t, exec .commitTick s = .next t ∧ t.dev.img = { s.dev.img with pend := none, act := some im } ∧ t.dev.f R.GLB_IMG_STAT.ACTIVE = 1 ∧
      t.dev.f R.GLB_IMG_STAT.LOAD_STATE = 0 ∧ t.dev.f64 R.GLB_IMG_ACT_ID_LO.VALUE R.GLB_IMG_ACT_ID_HI.VALUE = im.id ∧
      t.dev.f64 R.GLB_IMG_COMMIT_EPOCH_LO.VALUE R.GLB_IMG_COMMIT_EPOCH_HI.VALUE = s.dev.now.toNat ∧
      t.dev.f R.GLB_UNIT_SELF.VALID = 1 ∧ t.dev.f R.GLB_UNIT_SELF.DEV = im.dev ∧ t.dev.f R.GLB_DEV_EVT.IMG_COMMIT = 1 ∧
      (∀ e : Fin 64, t.dev.f (R.SCH_STAT.STATE e) ≠ 3) ∧ t.pending = s.pending ∧ t.dev.running = s.dev.running ∧ t.dev.run = s.dev.run ∧
      t.dev.time = s.dev.time ∧ t.dev.power = s.dev.power ∧ t.dev.thermal = s.dev.thermal ∧ t.dev.calib = s.dev.calib ∧ t.dev.st = s.dev.st ∧
      t.dev.keep = s.dev.keep ∧ t.dev.fw = s.dev.fw ∧ t.dev.svc = s.dev.svc ∧ t.dev.host = s.dev.host ∧ t.dev.cxl = s.dev.cxl

/-- A run start is requested, refused, withdrawn. The order in which the request is taken and checked is the rule's; the field list is the reports of the table
of R701. That the checks see calibration and self-tests which start on this very tick (logs 175 and 188), and that settings held for a start that is refused or
withdrawn take effect then (log 169), is the model's choice. -/
def Obligations.RunRequests : Prop :=
  (∀ s : State, s.dev.domOn (domainOf R.GLB_RUN_CTL.START.off) = true →
    let d := s.dev
    let busy := d.running || d.b R.GLB_RUN_STAT.PENDING
    let code := ({ d with run := { d.run with asked := d.now } } : Device).startRefuseFor d.calNext d.testNext
    let bit := fun (k : Nat) (F : Fld) (e : Device) => code = k → e.f F = 1
    ∃ t, exec .runStartRequest s = .next t ∧
      (busy = true → t.dev.f R.GLB_RUN_STAT.DUP = 1 ∧ OnlyFields [R.GLB_RUN_STAT.DUP] d t.dev ∧ t = { s with dev := { d with flds := t.dev.flds, pba := t.dev.pba, again := [], evNow := [], out := [] } }) ∧
      (busy = false → t.dev.run = { d.run with asked := d.now }) ∧
      (busy = false ∧ code = 0 → t.dev.f R.GLB_RUN_STAT.PENDING = 1 ∧ OnlyFields [R.GLB_RUN_STAT.PENDING, R.PWR_STAT.WAIT] d t.dev ∧ t.dev.outCfgs = d.outCfgs ∧
        t.dev.power = (if d.fabric.isEmpty && (d.f R.PWR_STAT.STATE == 0 || d.f R.PWR_STAT.STATE == 3) then { d.power with wakeReq := true } else d.power) ∧
        (d.fabric.isEmpty = true → d.f R.PWR_STAT.STATE = 0 → t.dev.f R.PWR_STAT.WAIT = d.wakeMiss)) ∧
      (busy = false ∧ code ≠ 0 → t.dev.f R.GLB_RUN_STAT.PENDING = 0 ∧ t.dev.f R.GLB_RUN_STAT.REFUSED = 1 ∧ t.dev.f R.GLB_RUN_STAT.REFUSE = code ∧
        (∀ c : Fin 160, t.dev.outCfg c = { d.outCfg c with ripe := (d.outCfg c).ripe || d.b (R.NCO_OUT_CFG.PENDING c) }) ∧
        bit 3 R.TB_STAT.NOSYNC_RUN t.dev ∧ bit 5 R.THM_EVT.RUN_REFUSED t.dev ∧ bit 6 R.PWR_EVT.RUN_REFUSED t.dev ∧ bit 7 R.ACQ_DRAIN_STAT.NORUN t.dev ∧
        bit 8 R.CAL_EVT.RUN_REFUSED t.dev ∧ bit 9 R.GLB_ST_STAT.RUN_REFUSED t.dev ∧ bit 10 R.TWIN_EVT.RUN_REFUSED t.dev ∧ bit 11 R.FAB_EVT.START_REFUSED t.dev ∧
        OnlyFields [R.GLB_RUN_STAT.PENDING, R.GLB_RUN_STAT.REFUSED, R.GLB_RUN_STAT.REFUSE, R.TB_STAT.NOSYNC_RUN, R.THM_EVT.RUN_REFUSED, R.PWR_EVT.RUN_REFUSED,
          R.PWR_STAT.REFUSE, R.ACQ_DRAIN_STAT.NORUN, R.CAL_EVT.RUN_REFUSED, R.GLB_ST_STAT.RUN_REFUSED, R.TWIN_EVT.RUN_REFUSED, R.TWIN_STAT.WHY,
          R.FAB_EVT.START_REFUSED, R.FAB_STAT.REFUSE] d t.dev) ∧
      t = { s with dev := { d with flds := t.dev.flds, run := t.dev.run, power := t.dev.power, outCfgs := t.dev.outCfgs, pba := t.dev.pba, again := [], evNow := [], out := [] } }) ∧
  ∀ s : State, s.dev.domOn (domainOf R.GLB_RUN_CTL.CANCEL.off) = true →
    let d := s.dev
    (d.b R.GLB_RUN_STAT.PENDING = false ∨ d.firstIsNow = true → exec .runCancel s = .next { s with dev := { d with again := [], evNow := [], out := [] } }) ∧
    (d.b R.GLB_RUN_STAT.PENDING = true ∧ d.firstIsNow = false →
      ∃ t, exec .runCancel s = .next t ∧ t.dev.f R.GLB_RUN_STAT.PENDING = 0 ∧ OnlyFields [R.GLB_RUN_STAT.PENDING] d t.dev ∧
        (∀ c : Fin 160, t.dev.outCfg c = { d.outCfg c with ripe := (d.outCfg c).ripe || d.b (R.NCO_OUT_CFG.PENDING c) }) ∧
        t = { s with dev := { d with flds := t.dev.flds, outCfgs := t.dev.outCfgs, again := [], evNow := [], out := [] } })

/-- A pending start is checked as a tick ends, becomes a run on its first tick, and a run ends. Where a hold stands as the tick ends, what the check found is
kept until the hold's end; that, and that a start which RUN_START finds unchecked stays pending, is the model's choice (log 243). -/
def Obligations.RunStartAndEnd : Prop :=
  (∀ d : Device, d.b R.GLB_RUN_STAT.PENDING = true → d.running = false →
    let t := (Tx.start d).startCheck
    let refused := d.startRefuse != 0 && d.startsNext
    (refused = true → t.d.b R.GLB_RUN_STAT.PENDING = false ∧ t.d.f R.GLB_RUN_STAT.REFUSED = 1 ∧ t.d.f R.GLB_RUN_STAT.REFUSE = d.startRefuse ∧
      t.d.run.found = none ∧ OnlyFields refuseFields d t.d) ∧
    (refused = false → t.d = { d with run := { d.run with found := some d.startRefuse }, out := [] })) ∧
  (∀ s : State, s.dev.b R.GLB_RUN_STAT.PENDING = true → s.dev.running = false → s.dev.f R.GLB_RUN_STAT.RUNS < 2 ^ R.GLB_RUN_STAT.RUNS.width →
    let d := s.dev
    let found := d.run.found.getD 0
    let late := !d.firstTickNow && !d.fabric.isEmpty && decide (d.fabStart ≤ d.now.toNat)
    let refuse := if d.firstTickNow then found else if late then (if found ≠ 0 then found else 12) else 0
    ∃ t, exec .runStart s = .next t ∧
      (d.firstIsNow = false ∧ refuse = 0 → t = { s with dev := { d with out := [] } }) ∧
      (refuse ≠ 0 → t.dev.f R.GLB_RUN_STAT.PENDING = 0 ∧ t.dev.f R.GLB_RUN_STAT.RUNNING = d.f R.GLB_RUN_STAT.RUNNING ∧
        t.dev.f R.GLB_RUN_STAT.REFUSED = 1 ∧ t.dev.f R.GLB_RUN_STAT.REFUSE = refuse % 2 ^ R.GLB_RUN_STAT.REFUSE.width ∧ t.dev.run = d.run ∧
        OnlyFields refuseFields d t.dev) ∧
      (d.firstIsNow = true → t.dev.f R.GLB_RUN_STAT.PENDING = 0 ∧ t.dev.f R.GLB_RUN_STAT.RUNNING = 1 ∧
        t.dev.f R.GLB_RUN_STAT.RUNS = satInc R.GLB_RUN_STAT.RUNS.width (d.f R.GLB_RUN_STAT.RUNS) ∧ t.dev.run.first = d.now ∧ t.dev.run.quiet = d.now)) ∧
  ∀ s : State, s.dev.running = true → s.dev.streams64.any (fun e => (s.dev.eng e).live) = false → s.dev.run.quiet ≠ s.dev.now →
    ∃ t, exec .runEnd s = .next t ∧ t.dev.f R.GLB_RUN_STAT.RUNNING = 0 ∧ t.dev.run = { s.dev.run with ended := s.dev.now, afterEnd := true } ∧
      t.dev.flight = [] ∧ ∀ e : Fin 64, (t.dev.eng e).live = false

/-- SETF, SHIFTP and LOOP. -/
def Obligations.FramesAndLoop : Prop :=
  (∀ (s : State) (e : Fin 64) (q : QOp) (rest : List QOp), Heads s.dev e 0x02 q rest →
    let d := s.dev
    let lf := opTarget q.bits
    let f := 32 * (e.val / 2) + lf
    let o := opOperand q.bits
    ∃ t, exec (.setf e) s = .next t ∧
      t.dev.frame f = (o % 2 ^ 48, (d.frame f).2.1, if o.testBit 63 then d.now.toNat else (d.frame f).2.2) ∧
      t.dev.f (R.NCO_STAT.COLLIDE f) = (if (d.eng e).setTick.any (fun c => c.1 == lf && c.2 == d.now) then 1 else d.f (R.NCO_STAT.COLLIDE f)) ∧
      Released e rest t.dev ∧ OnlyEngine e d t.dev ∧
      OnlyFields [R.NCO_FREQ_LO.F_LO f, R.NCO_FREQ_HI.F_HI f, R.NCO_REF_LO.REF f, R.NCO_REF_HI.REF f, R.NCO_STAT.COLLIDE f, R.ENG_QUEUE.DEPTH e,
        R.ENG_QUEUE.MAX e] d t.dev ∧
      t = { s with dev := { d with flds := t.dev.flds, engines := t.dev.engines, tiles := t.dev.tiles, pba := t.dev.pba, evNow := t.dev.evNow, out := [] } }) ∧
  (∀ (s : State) (e : Fin 64) (q : QOp) (rest : List QOp), Heads s.dev e 0x03 q rest →
    let d := s.dev
    let f := 32 * (e.val / 2) + opTarget q.bits
    ∃ t, exec (.shiftp e) s = .next t ∧
      t.dev.frame f = ((d.frame f).1, ((d.frame f).2.1 + opOperand q.bits) % 2 ^ 32, (d.frame f).2.2) ∧
      Released e rest t.dev ∧ OnlyEngine e d t.dev ∧ OnlyFields [R.NCO_PHASE.THETA f, R.ENG_QUEUE.DEPTH e, R.ENG_QUEUE.MAX e] d t.dev ∧
      t = { s with dev := { d with flds := t.dev.flds, engines := t.dev.engines, tiles := t.dev.tiles, out := [] } }) ∧
  (∀ (s : State) (e : Fin 64) (q : QOp) (rest : List QOp), Heads s.dev e 0x12 q rest →
    let d := s.dev
    let o := opOperand q.bits
    let c := loopCopy { active := d.f (R.SCH_STAT.LOOP_ACTIVE e), left := (d.eng e).left } (opTarget q.bits % 4) (o % 2 ^ 32)
    ∃ t, exec (.loop e) s = .next t ∧ t.dev.f (R.SCH_STAT.LOOP_ACTIVE e) = c.2.active % 16 ∧ (t.dev.eng e).left = c.2.left ∧
      Enters e (if c.1 then o / 2 ^ 32 else q.idx + 1) d t.dev ∧ Released e rest t.dev ∧ OnlyEngine e d t.dev ∧
      OnlyFields [R.SCH_STAT.LOOP_ACTIVE e, R.SCH_SEG.POINTER e, R.SCH_STAT.STATE e, R.SCH_STAT.WAITING e, R.ENG_QUEUE.DEPTH e, R.ENG_QUEUE.MAX e] d t.dev ∧
      t = { s with dev := { d with flds := t.dev.flds, engines := t.dev.engines, out := [] } }) ∧
  ∀ (f : Fetch) (r : Fin 4) (count : Nat), f.left.length = 4 → f.active < 16 →
    let c := loopCopy f r count
    let n := if f.active.testBit r then f.left.getD r 0 else count
    (count = 0 → c = (true, f)) ∧
    (count ≠ 0 → c.1 = decide (1 < n) ∧ c.2.left = f.left.set r (n - 1) ∧ c.2.active.testBit r = decide (1 < n))

/-- FLUX and MARK. That a late MARK is noted here and MARK_STRETCH reported as the tick ends, on the MARKs that stand then, is the model's choice (log 168). -/
def Obligations.FluxAndMark : Prop :=
  (∀ (s : State) (e : Fin 64) (q : QOp) (rest : List QOp), Heads s.dev e 0x04 q rest →
    let d := s.dev
    let o := opOperand q.bits
    let c := 8 * (e.val / 2) + (opTarget q.bits % 32 - 6)
    let g := d.groupOf c
    let fire := o.testBit 16 || (d.eng e).strobed.contains (g, d.now.toNat)
    ∃ t, exec (.flux e) s = .next t ∧ Released e rest t.dev ∧ OnlyEngine e d t.dev ∧
      (fire = false → t.dev.f (R.FLX_HELD.HELD c) = 1 ∧ t.dev.f (R.FLX_HELD.CODE c) = o % 2 ^ 16) ∧
      (fire = false ∧ TablesGood d →
        OnlyFields [R.FLX_HELD.HELD c, R.FLX_HELD.CODE c, R.ENG_QUEUE.DEPTH e, R.ENG_QUEUE.MAX e] d t.dev ∧
        t = { s with dev := { d with flds := t.dev.flds, engines := t.dev.engines, out := [] } }) ∧
      (fire = true → t.dev.f (R.FLX_OUT_STAT.CODE c) = o % 2 ^ 16 ∧ t.dev.f (R.FLX_HELD.HELD c) = 0 ∧
        ∀ i : Fin 8, let k := 8 * (e.val / 2) + i.val
          d.groupOf k = g ∧ d.b (R.FLX_HELD.HELD k) = true ∧ k ≠ c → t.dev.f (R.FLX_OUT_STAT.CODE k) = d.f (R.FLX_HELD.CODE k) % 2 ^ 16 ∧
            t.dev.f (R.FLX_HELD.HELD k) = 0) ∧
        (fire = true → ∀ k : Fin 256, k.val / 8 ≠ c / 8 ∨ d.groupOf k ≠ g ∨ d.b (R.FLX_HELD.HELD k) = false ∧ k.val ≠ c →
          t.dev.f (R.FLX_OUT_STAT.CODE k) = d.f (R.FLX_OUT_STAT.CODE k))) ∧
  ∀ (s : State) (e : Fin 64) (q : QOp) (rest : List QOp), Heads s.dev e 0x05 q rest →
    let d := s.dev
    let tl := e.val / 2
    let m := d.marker tl
    m.queue = [] → m.tick ≠ d.age ∨ m.reqs = [] →
    let o := opOperand q.bits
    let sample := 8 * d.age + o / 2 % 8
    let when' := (m.last.map (fun l => max sample (l + 4))).getD sample
    let stays := o.testBit 0 = d.b (R.FLX_MARK.LEVEL tl)
    ∃ t, exec (.mark e) s = .next t ∧ Released e rest t.dev ∧ OnlyEngine e d t.dev ∧
      (t.dev.marker tl).queue = (if stays then [] else [(when', o.testBit 0)]) ∧
      (t.dev.marker tl).last = (if stays then m.last else some when') ∧
      (t.dev.marker tl).late = decide (¬ stays ∧ sample < when') ∧
      OnlyFields [R.FLX_MARK.CLAMPED tl, R.ENG_QUEUE.DEPTH e, R.ENG_QUEUE.MAX e] d t.dev ∧
      t = { s with dev := { d with flds := t.dev.flds, engines := t.dev.engines, markers := t.dev.markers, clamps := t.dev.clamps, out := [] } }

/-- PLAY, the end of a PLAY, and the test of an envelope line. That the directory line of the envelope is read too, and what poison in it does, is the model's
choice (log 235); so is the first line's test as a PLAY starts that the engine did not know of in time (log 200), and the lines kept as stored of a block that
is fetched again (log 234). -/
def Obligations.PlayAndEnvelope : Prop :=
  (∀ (s : State) (e : Fin 64) (q : QOp) (rest : List QOp), Heads s.dev e 0x01 q rest →
    let d := s.dev
    let tl := e.val / 2
    let g := opTarget q.bits
    let o := opOperand q.bits
    let m := 20 * tl + g / 256
    let fr := g % 256
    let c := 5 * tl + min 4 (g / 256 / 4)
    let env := d.envelope e (o % 2 ^ 16)
    let dir := d.dirKind e (o % 2 ^ 16)
    d.b (R.NCO_MIX_STAT.BUSY m) = false → d.f (R.NCO_MIX_STAT.PLAYS m) < 2 ^ (R.NCO_MIX_STAT.PLAYS m).width → d.f (R.SCH_STAT.STATE e) ≠ 3 →
    ∃ t, exec (.play e) s = .next t ∧
      (dir = 0 ∧ env.isSome = true ∧ (d.eng e).tested.contains (d.now.toNat, g / 256) = true →
        t.dev.mixer m = { start := d.now, len := (env.getD (0, 0)).2, gain := signedOf 16 (o / 2 ^ 48), frame := fr, first := (env.getD (0, 0)).1,
                          base := (d.eng e).snap.b0 } ∧
        t.dev.f (R.NCO_MIX_STAT.BUSY m) = 1 ∧ t.dev.f (R.NCO_MIX_STAT.FRAME m) = fr ∧ (t.dev.f (R.NCO_STAT.OCC (32 * tl + fr))).testBit (g / 256) = true ∧
        t.dev.f (R.NCO_MIX_STAT.PLAYS m) = satInc (R.NCO_MIX_STAT.PLAYS m).width (d.f (R.NCO_MIX_STAT.PLAYS m)) ∧ t.dev.clampOf c &&& 0x28 = 0 ∧
        Released e rest t.dev ∧ OnlyEngine e d t.dev) ∧
      (DirClean d e (o % 2 ^ 16) ∧ env.isSome = true ∧ (d.eng e).tested.contains (d.now.toNat, g / 256) = true →
        OnlyFields ([R.NCO_MIX_STAT.BUSY m, R.NCO_MIX_STAT.BOUND m, R.NCO_MIX_STAT.FRAME m, R.NCO_MIX_STAT.PLAYS m, R.NCO_STAT.OCC (32 * tl + fr),
          R.ENG_QUEUE.DEPTH e, R.ENG_QUEUE.MAX e] ++ cutFields) d t.dev ∧
        t = { s with dev := { d with flds := t.dev.flds, engines := t.dev.engines, mixers := t.dev.mixers, clamps := t.dev.clamps, calib := t.dev.calib, calPaths := t.dev.calPaths,
                                     badFetch := t.dev.badFetch, pba := t.dev.pba, evNow := t.dev.evNow, out := [] } }) ∧
      (dir ≠ 0 ∧ (d.eng e).safe.any SafePoint.rep = false ∧ d.f (R.SCH_CNT.VOIDS e) < 2 ^ (R.SCH_CNT.VOIDS e).width →
        t.dev.f (R.NCO_MIX_STAT.ZERO_SUB m) = 1 ∧ t.dev.f (R.NCO_MIX_STAT.PLAYS m) = d.f (R.NCO_MIX_STAT.PLAYS m) ∧ Voids e d t.dev) ∧
      (dir = 0 ∧ env.isSome = true ∧ (d.eng e).tested.contains (d.now.toNat, g / 256) = false ∧ d.waveLine e (4 * (env.getD (0, 0)).1) = none ∧
        (d.eng e).safe.any SafePoint.rep = false ∧ d.f (R.SCH_CNT.VOIDS e) < 2 ^ (R.SCH_CNT.VOIDS e).width → Voids e d t.dev) ∧
      (dir = 0 ∧ env = none → t.dev.f (R.NCO_MIX_STAT.ENV_RANGE m) = 1 ∧ Halted e 7 t.dev)) ∧
  (∀ (s : State) (m : Fin 640), s.dev.b (R.NCO_MIX_STAT.BUSY m) = true → (s.dev.mixer m).start.toNat + (s.dev.mixer m).len ≤ s.dev.now.toNat →
    let d := s.dev
    let fr := 32 * (m.val / 20) + (d.mixer m).frame
    ∃ t, exec (.playEnd m) s = .next t ∧ t.dev.mixer m = {} ∧ t.dev.f (R.NCO_MIX_STAT.BUSY m) = 0 ∧ (t.dev.f (R.NCO_STAT.OCC fr)).testBit (m.val % 20) = false ∧
      OnlyFields [R.NCO_MIX_STAT.BUSY m, R.NCO_STAT.OCC fr] d t.dev ∧ t = { s with dev := { d with flds := t.dev.flds, mixers := t.dev.mixers, out := [] } }) ∧
  ∀ (s : State) (m : Fin 640) (i : Fin 16384), s.dev.running = true →
    let d := s.dev
    let e := 2 * (m.val / 20)
    ∀ p, d.testedPlays m i = [p] →
    let line := 4 * p.2.1 + i.val
    let kept := if p.2.2 then (d.mixer m).kept.find? (fun c => c.1 == i.val) else none
    ∃ t, exec (.envLineTest m i) s = .next t ∧
      (i.val = 0 → (t.dev.eng e).tested.contains (p.1, m.val % 20) = true) ∧
      (kept = none ∧ line % 4 ≠ 0 ∧ (d.waveLine e line).any (fun l => d.tagOf l == 0 && (d.lineErrs l).isEmpty) = true → t = { s with dev := { d with out := [] } }) ∧
      (kept.any (fun c => d.tagOf c.2 == 0 && (d.lineErrs c.2).isEmpty) = true ∧ i.val ≠ 0 → t = { s with dev := { d with out := [] } }) ∧
      (kept = none ∧ d.waveLine e line = none ∧ (d.eng e).live = true ∧ (d.eng e).safe.any SafePoint.rep = false ∧ d.f (R.SCH_CNT.VOIDS e) < 2 ^ (R.SCH_CNT.VOIDS e).width → Voids e d t.dev)

/-- ACQ, DISC and SEND. -/
def Obligations.AcqDiscSend : Prop :=
  (∀ (s : State) (e : Fin 64) (q : QOp) (rest : List QOp) (r : List Byte), Heads s.dev e 0x06 q rest →
    let d := s.dev
    let tl := e.val / 2
    d.acqNamed tl (opOperand q.bits % 2 ^ 16) = some r →
    let evs := d.run.known.filter (fun k => k.1 == rb r 4 && decide (d.now.toNat ≤ k.2.1))
    let arms := rb r 0 = 1 ∧ d.lengthRefused tl = false ∧ (d.tile tl).cap = none ∧ rb r 4 ≠ 8
    ∃ t, exec (.acq e) s = .next t ∧ Released e rest t.dev ∧ OnlyEngine e d t.dev ∧
      (arms ∧ evs ≠ [] → (t.dev.tile tl).cap.map (fun c => (c.crec, c.arm, c.stage)) = some (r, d.now.toNat, 2) ∧ t.dev.f (R.ACQ_STAT.STATE tl) = 2 ∧
        ∃ k ∈ evs, (∀ j ∈ evs, k.2.1 ≤ j.2.1) ∧ (t.dev.tile tl).cap.map Capture.tick = some (k.2.2.1 / 64).toNat) ∧
      (arms ∧ evs = [] →
        (t.dev.tile tl).cap.map (fun c => (c.crec, c.arm, c.stage, c.segs)) = some (r, d.now.toNat, 1, 0) ∧
        t.dev.f (R.ACQ_STAT.STATE tl) = 1 ∧ t.dev.f (R.ACQ_STAT.SEGDONE tl) = 0 ∧ t.dev.f (R.ACQ_STAT.INDEX tl) = rn r 2 2 % 2 ^ (R.ACQ_STAT.INDEX tl).width ∧
        (TablesGood d →
          OnlyFields ([R.ACQ_STAT.STATE tl, R.ACQ_STAT.SEGDONE tl, R.ACQ_STAT.INDEX tl, R.ENG_QUEUE.DEPTH e, R.ENG_QUEUE.MAX e] ++ cutFields) d t.dev)) ∧
      (rb r 0 = 2 ∧ (d.stream (rb r 4 % 4)).active = false ∧ d.b (R.ACQ_STRM_CTL.EN (rb r 4 % 4)) = true →
        t.dev.stream (rb r 4 % 4) = { active := true, tile := tl, start := d.now.toNat, len := rn r 8 8,
                                       buffer := (d.stream (rb r 4 % 4)).buffer, gap := (d.stream (rb r 4 % 4)).gap } ∧
        t.dev.f (R.ACQ_STRM_STAT.ACTIVE (rb r 4 % 4)) = 1 ∧ t.dev.f (R.ACQ_STRM_STAT.TILE (rb r 4 % 4)) = tl ∧
        t.dev.f (R.ACQ_STAT.STREAM tl) = 1 ∧ t.dev.f (R.ACQ_STAT.SLOT tl) = rb r 4 % 4)) ∧
  (∀ (s : State) (e : Fin 64) (q : QOp) (rest : List QOp), Heads s.dev e 0x07 q rest →
    let d := s.dev
    let tl := e.val / 2
    let o := opOperand q.bits
    ∃ t, exec (.disc e) s = .next t ∧ (t.dev.eng e).queue = rest ∧ OnlyEngine e d t.dev ∧
      ∀ i : Fin 16, let n := 16 * tl + i.val
        let r := (d.weightRec tl (bitsOf o 55 40) i).getD []
        o.testBit i = true → (d.weightRec tl (bitsOf o 55 40) i).isSome = true → d.win n = none →
          t.dev.f (R.RD_DSTAT.OPEN n) = 1 ∧ t.dev.f (R.RD_DSTAT.FRAME n) = (rb r 5 - 16) % 2 ^ (R.RD_DSTAT.FRAME n).width ∧
          (t.dev.win n).map (fun w => (w.start, w.len, w.wrec, w.frame, w.cut)) = some (d.now.toNat, bitsOf o 39 16, r, rb r 5, false)) ∧
  ∀ (s : State) (e : Fin 64) (q : QOp) (rest : List QOp), Heads s.dev e 0x08 q rest →
    let d := s.dev
    let tl := e.val / 2
    let mask := opOperand q.bits
    ∃ t, exec (.send e) s = .next t ∧ Released e rest t.dev ∧ OnlyEngine e d t.dev ∧
      (∀ i : Fin 16, mask.testBit i = true → (i.val, d.now.toNat) ∈ (t.dev.tile tl).sends) ∧
      (t.dev.tile tl).sends.filter (fun c => !mask.testBit c.1) = (d.tile tl).sends.filter (fun c => !mask.testBit c.1) ∧
      OnlyFields [R.ENG_QUEUE.DEPTH e, R.ENG_QUEUE.MAX e] d t.dev ∧
      t = { s with dev := { d with flds := t.dev.flds, engines := t.dev.engines, tiles := t.dev.tiles, out := [] } }

/-- WAIT, its event and its timeout. How far the stream is fetched on past a TIMEOUT (log 52), which outputs go idle and which stay (log 58), and that the marker's
idle level falls on sample 0 of the tick or comes behind an earlier change (log 209), is the model's choice. -/
def Obligations.WaitEvents : Prop :=
  (∀ (s : State) (e : Fin 64) (q : QOp) (rest : List QOp), Heads s.dev e 0x11 q rest →
    let d := s.dev
    let o := opOperand q.bits
    let tl := e.val / 2
    let b := d.now.toNat
    let tmo := o % 2 ^ 32
    (bitsOf o 63 62 = 0 → d.run.evs.getD (bitsOf o 61 59) 0 ≤ d.now.toNat) →
    (bitsOf o 63 62 ≠ 0 → (d.eng e).jump = none ∧ (d.eng e).retaken q.idx = none) →
    ∃ t, exec (.wait e) s = .next t ∧ (t.dev.eng e).waiting = some { b := d.now, operand := o, idx := q.idx } ∧
      t.dev.f (R.SCH_STAT.STATE e) = 2 ∧ t.dev.f (R.SCH_STAT.WAITING e) = 1 ∧ Released e rest t.dev ∧ OnlyEngine e d t.dev ∧
      (t.dev.eng e).fetch = (if tmo = 0 then (d.eng e).fetch else
        { ptr := q.idx + 1, base := b + tmo, wait := 0, active := d.f (R.SCH_STAT.LOOP_ACTIVE e), left := (d.eng e).left, stop := false, start := max b (b + tmo - 19) }) ∧
      (e.val % 2 = 1 →
        (∀ i : Fin 8, let c := 8 * tl + i.val
          t.dev.f (R.FLX_OUT_STAT.CODE c) = if bget (fun _ => false) d.ranged c then d.f (R.FLX_OUT_STAT.CODE c) else d.idleCode c % 2 ^ 16) ∧
        OnlyFields ([R.SCH_STAT.STATE e, R.SCH_STAT.WAITING e, R.ENG_QUEUE.DEPTH e, R.ENG_QUEUE.MAX e] ++
          (List.range 8).map (fun i => R.FLX_OUT_STAT.CODE (8 * tl + i))) d t.dev ∧
        t = { s with dev := { d with flds := t.dev.flds, engines := t.dev.engines, steady := t.dev.steady, out := [] } }) ∧
      (e.val % 2 = 0 →
        (∀ i : Fin 20, t.dev.b (R.NCO_MIX_STAT.BUSY (20 * tl + i.val)) = false) ∧
        ((d.marker tl).queue = [] → (d.marker tl).tick ≠ d.age ∨ (d.marker tl).reqs = [] →
          let now' := d.b (R.FLX_MARK.LEVEL tl) = d.midle tl ∨ (d.marker tl).last.all (fun l => decide (l + 4 ≤ 8 * d.age)) = true
          (now' → t.dev.b (R.FLX_MARK.LEVEL tl) = d.midle tl ∧ (t.dev.marker tl).queue = [] ∧ t.dev.f (R.FLX_EVT.MARK_STRETCH tl) = d.f (R.FLX_EVT.MARK_STRETCH tl)) ∧
          (¬ now' → t.dev.b (R.FLX_MARK.LEVEL tl) = d.b (R.FLX_MARK.LEVEL tl) ∧ (t.dev.marker tl).queue = [((d.marker tl).last.getD 0 + 4, d.midle tl)] ∧
            t.dev.f (R.FLX_EVT.MARK_STRETCH tl) = 1)) ∧
        OnlyFields ([R.SCH_STAT.STATE e, R.SCH_STAT.WAITING e, R.ENG_QUEUE.DEPTH e, R.ENG_QUEUE.MAX e, R.FLX_MARK.LEVEL tl, R.FLX_MARK.CHANGES tl,
          R.FLX_EVT.MARK_STRETCH tl] ++
          (List.range 20).flatMap (fun i => [R.NCO_MIX_STAT.BUSY (20 * tl + i), R.NCO_STAT.OCC (32 * tl + (d.mixer (20 * tl + i)).frame)])) d t.dev ∧
        t = { s with dev := { d with flds := t.dev.flds, engines := t.dev.engines, mixers := t.dev.mixers, markers := t.dev.markers, pba := t.dev.pba,
                                     evNow := t.dev.evNow, out := [] } })) ∧
  (∀ (s : State) (e : Fin 64) (ptr : Nat), s.dev.running = true → (s.dev.eng e).live = true →
    ((s.dev.eng e).waiting).bind Waiting.resume = some (s.dev.now, ptr) →
    ∃ t, exec (.waitResume e) s = .next t ∧ (t.dev.eng e).waiting = none ∧ Enters e ptr s.dev t.dev ∧ OnlyEngine e s.dev t.dev ∧
      OnlyFields [R.SCH_SEG.POINTER e, R.SCH_STAT.STATE e, R.SCH_STAT.WAITING e] s.dev t.dev ∧
      t = { s with dev := { s.dev with flds := t.dev.flds, engines := t.dev.engines, out := [] } }) ∧
  ∀ (s : State) (e : Fin 64) (w : Waiting), s.dev.running = true → (s.dev.eng e).live = true → (s.dev.eng e).waiting = some w → w.resume = none →
    w.operand % 2 ^ 32 ≠ 0 → w.b.toNat + w.operand % 2 ^ 32 = s.dev.now.toNat →
    ∃ t, exec (.waitTimeout e) s = .next t ∧ (t.dev.eng e).waiting = none ∧ t.dev.f (R.SCH_EVT.WAIT_TIMEOUT e) = 1 ∧ Enters e (w.idx + 1) s.dev t.dev ∧
      OnlyEngine e s.dev t.dev ∧ OnlyFields [R.SCH_SEG.POINTER e, R.SCH_STAT.STATE e, R.SCH_STAT.WAITING e, R.SCH_EVT.WAIT_TIMEOUT e] s.dev t.dev ∧
      t = { s with dev := { s.dev with flds := t.dev.flds, engines := t.dev.engines, pba := t.dev.pba, evNow := t.dev.evNow, out := [] } }

/-- Forks, deliveries and the end of a stream. -/
def Obligations.ForksAndEnd : Prop :=
  (∀ (s : State) (e : Fin 64) (idx bits : Nat), s.dev.running = true → (s.dev.eng e).live = true → (s.dev.eng e).latch = none → s.dev.aniseMode = false →
    s.dev.forkDue e = some (idx, bits) →
    let d := s.dev
    let o := opOperand bits
    let ps := forkPorts e o
    ∃ t, exec (.forkDeadline e) s = .next t ∧
      (t.dev.eng e).latch.map (fun l => (l.b, l.ok, l.v)) = some (BitVec.ofNat 64 (d.now.toNat + 24), ps.all (fun p => d.portOk o (d.now.toNat + 24) p),
        ps.zipIdx.foldl (fun v (p, i) => v + (d.port p).val.toNat * 2 ^ i) 0) ∧
      (∀ p ∈ ps, (t.dev.port p).present = false ∧ (t.dev.port p).lost = false) ∧ OnlyEngine e d t.dev ∧
      OnlyFields [R.SCH_PORT_PRES.PRESENT e] d t.dev ∧
      t = { s with dev := { d with flds := t.dev.flds, engines := t.dev.engines, ports := t.dev.ports, out := [] } }) ∧
  (∀ (s : State) (e : Fin 64) (q : QOp) (rest : List QOp), Heads s.dev e 0x10 q rest →
    let d := s.dev
    let o := opOperand q.bits
    let ptr := ((d.eng e).latch.bind ForkLatch.ptr).getD 0
    let ready := (d.eng e).latch.any (fun l => l.ok && l.jump.isNone && l.ptr.isSome) && (d.eng e).anise.isNone
    ∃ t, exec (.fork e) s = .next t ∧
      (o.testBit 63 = true ∨ ready = true →
        Enters e (if o.testBit 63 then o % 2 ^ 32 else ptr) d t.dev ∧ Released e rest t.dev ∧ OnlyEngine e d t.dev ∧
        (o.testBit 63 = false → (t.dev.eng e).latch = none) ∧
        OnlyFields [R.SCH_SEG.POINTER e, R.SCH_STAT.STATE e, R.SCH_STAT.WAITING e, R.ENG_QUEUE.DEPTH e, R.ENG_QUEUE.MAX e] d t.dev ∧
        t = { s with dev := { d with flds := t.dev.flds, engines := t.dev.engines, out := [] } })) ∧
  (∀ (s : State) (e : Fin 64) (w : AniseWait) (l : ForkLatch) (g : Epoch) (ptr : Nat), s.dev.running = true → (s.dev.eng e).live = true →
    (s.dev.eng e).anise = some w → (s.dev.eng e).latch = some l → w.ready = some g → g.toNat + 24 = s.dev.now.toNat → l.ok = true → l.jump = none →
    l.ptr = some ptr →
    ∃ t, exec (.aniseForkResolve e) s = .next t ∧ Enters e ptr s.dev t.dev ∧ (t.dev.eng e).anise = none ∧ (t.dev.eng e).latch = none ∧
      OnlyEngine e s.dev t.dev ∧ OnlyFields [R.SCH_SEG.POINTER e, R.SCH_STAT.STATE e, R.SCH_STAT.WAITING e] s.dev t.dev ∧
      t = { s with dev := { s.dev with flds := t.dev.flds, engines := t.dev.engines, out := [] } }) ∧
  (∀ (s : State) (p : Fin 2048) (c : Delivery), s.dev.running = true → s.dev.flight.filter (fun x => x.port == p.val && x.due == s.dev.now.toNat) = [c] →
    let d := s.dev
    let e := 2 * (p.val / 64) + p.val % 64 / 32
    ∃ t, exec (.outcomeDelivery p) s = .next t ∧ t.dev.port p = { val := c.value, present := true, lost := false, stamp := BitVec.ofNat 64 c.stamp } ∧
      (t.dev.f (R.SCH_PORT_PRES.PRESENT e)).testBit (p.val % 32) = true ∧
      t.dev.f (R.SCH_EVT.PORT_OVERRUN e) = (if (d.port p).present then 1 else d.f (R.SCH_EVT.PORT_OVERRUN e)) ∧ c ∉ t.dev.flight ∧
      (∀ k, k ≠ p.val → t.dev.port k = d.port k) ∧ OnlyFields [R.SCH_PORT_PRES.PRESENT e, R.SCH_EVT.PORT_OVERRUN e] d t.dev ∧
      t = { s with dev := { d with flds := t.dev.flds, ports := t.dev.ports, flight := t.dev.flight, pba := t.dev.pba, evNow := t.dev.evNow, out := [] } }) ∧
  ∀ (s : State) (e : Fin 64) (q : QOp) (rest : List QOp), Heads s.dev e 0x1F q rest →
    ∃ t, exec (.endOp e) s = .next t ∧ t.dev.f (R.SCH_STAT.STATE e) = 0 ∧ t.dev.f (R.SCH_STAT.WAITING e) = 0 ∧ (t.dev.eng e).live = false ∧
      (t.dev.eng e).queue = [] ∧ (t.dev.eng e).jump = none ∧ (t.dev.eng e).ended = true ∧ t.dev.run = { s.dev.run with quiet := s.dev.now } ∧ OnlyEngine e s.dev t.dev

/-- SAFE and the vote on a safe point. That readiness counts an open VOID routine is R217's. -/
def Obligations.SafeAndVote : Prop :=
  (∀ (s : State) (e : Fin 64) (q : QOp) (rest : List QOp), Heads s.dev e 0x13 q rest → (s.dev.eng e).safe = none →
    ∃ t, exec (.safe e) s = .next t ∧
      t.dev.eng e = { s.dev.eng e with safe := some { cand := BitVec.ofNat 64 q.due, dom := opOperand q.bits / 2 ^ 62, res := opOperand q.bits % 2 ^ 32, ptr := q.idx + 1, vote := some false } } ∧
      OnlyEngine e s.dev t.dev ∧ t = { s with dev := { s.dev with engines := t.dev.engines, out := [] } }) ∧
  ∀ (s : State) (e : Fin 64) (x : SafePoint), s.dev.running = true → (s.dev.eng e).live = true → (s.dev.eng e).safe = some x →
    x.cand = s.dev.now + BitVec.ofNat 64 (leadOf x.dom) →
    let d := s.dev
    let tl := e.val / 2
    let res := d.recordIn e x.res && !(d.seq e).voidOpen
    let need := (d.tileCfg tl).map (fun r => rn r 4 4)
    let room := (d.tile tl).resv.isSome || decide ((d.tile tl).usedLines + need.getD 0 ≤ 16384)
    ∃ t, exec (.safeVote e) s = .next t ∧
      (t.dev.eng e).safe = some { x with vote := some (res && (e.val % 2 = 0 || need.isNone || room)) } ∧
      (∀ k : Fin 64, k ≠ e → (t.dev.eng k).safe = (d.eng k).safe) ∧
      (e.val % 2 = 1 ∧ need.isSome = true ∧ room = false → t.dev.f (R.ACQ_EVT.REC_FULL tl) = 1) ∧
      (e.val % 2 = 1 ∧ need.isSome = true ∧ (d.tile tl).resv = none ∧ room = true → (t.dev.tile tl).resv = need) ∧
      (TablesGood d ∨ e.val % 2 = 0 ∨ need = none →
        OnlyFields [R.ACQ_EVT.REC_FULL tl, R.ACQ_RECMEM.FREE tl, R.ACQ_RECMEM.MAX_USED tl] d t.dev ∧
        t = { s with dev := { d with flds := t.dev.flds, engines := t.dev.engines, tiles := t.dev.tiles, pba := t.dev.pba, evNow := t.dev.evNow, out := [] } })

/-- A safe point passes or every engine holds. The statement is about a domain of one engine; R190 to R192 state the larger domains. -/
def Obligations.SafePointPass : Prop :=
  ∀ (s : State) (e : Fin 64) (x : SafePoint), s.dev.running = true → (s.dev.eng e).live = true → (s.dev.eng e).safe = some x → x.cand = s.dev.now →
    x.dom = 0 → s.dev.members e 0 = [e.val] → (s.dev.eng e).stopAtSafe = false → (s.dev.eng e).notice = false →
    s.dev.f (R.SCH_HOLD.QUANTA e) < 2 ^ (R.SCH_HOLD.QUANTA e).width →
    let d := s.dev
    let tl := e.val / 2
    let shot := d.f64 (R.SCH_SHOT_LO.SHOT (2 * tl)) (R.SCH_SHOT_HI.SHOT (2 * tl))
    let pass := d.combined e 0 x.cand
    ∃ t, exec (.safePointPass e) s = .next t ∧ (d.f R.TWIN_STAT.STATE ≠ 2 ∨ pass = false → OnlyEngine e d t.dev) ∧
      (pass = true → Enters e x.ptr d t.dev ∧ (t.dev.eng e).safe = none ∧ (t.dev.eng e).curRec = x.res ∧ t.dev.f (R.SCH_STAT.VOIDED e) = 0 ∧
        (t.dev.eng e).snap.b0 = d.now ∧ (t.dev.eng e).snap.frames = d.frameWords e ∧ (t.dev.eng e).snap.left = (d.eng e).left ∧
        (t.dev.eng e).snap.active = d.f (R.SCH_STAT.LOOP_ACTIVE e) ∧
        t.dev.f64 (R.SCH_SHOT_LO.SHOT e) (R.SCH_SHOT_HI.SHOT e) = (if x.rep then shot else shot + 1) % 2 ^ 64) ∧
      (pass = false → (t.dev.eng e).safe = some { x with cand := x.cand + 2048, vote := none, fails := x.fails + 1 } ∧
        t.dev.f (R.SCH_HOLD.QUANTA e) = satInc (R.SCH_HOLD.QUANTA e).width (d.f (R.SCH_HOLD.QUANTA e)) ∧ t.dev.f (R.SCH_EVT.HOLD e) = 1 ∧
        t.dev.f (R.SCH_STAT.STATE e) = 2 ∧ OnlyFields [R.SCH_HOLD.QUANTA e, R.SCH_EVT.HOLD e, R.SCH_STAT.STATE e] d t.dev ∧
        t = { s with dev := { d with flds := t.dev.flds, engines := t.dev.engines, pba := t.dev.pba, evNow := t.dev.evNow, out := [] } })

/-- A shot is voided, and a domain halts. -/
def Obligations.VoidsAndLimits : Prop :=
  (∀ (s : State) (e : Fin 64), s.dev.running = true → (s.dev.eng e).live = true → (s.dev.eng e).safe.any SafePoint.rep = false →
    s.dev.f (R.SCH_CNT.VOIDS e) < 2 ^ (R.SCH_CNT.VOIDS e).width →
    let d := s.dev
    let due := (d.eng e).voidDue.any (fun v => decide (v.toNat ≤ d.now.toNat)) || (e.val % 2 == 1 && d.weightDue (e.val / 2))
    (due = true ∨ (d.opMissing e).isSome = true →
      ∃ t, exec (.shotVoid e) s = .next t ∧ Voids e d t.dev ∧
        (due = false ∧ d.opMissing e = some true → t.dev.f (R.ENG_EVT.ISSUE_LATE e) = 1)) ∧
    ((d.eng e).notice = true → ∃ t, exec (.voidNotice e) s = .next t ∧ Voids e d t.dev)) ∧
  (∀ (s : State) (e : Fin 64) (x : SafePoint), s.dev.running = true → (s.dev.eng e).safe = some x → 65536 ≤ x.fails →
    ∃ t, exec (.holdTimeout e) s = .next t ∧
      ∀ k ∈ s.dev.fellows e x.dom, (s.dev.eng k).live = true → s.dev.f (R.SCH_STAT.STATE k) ≠ 3 → Halted k 5 t.dev) ∧
  ∀ (s : State) (e : Fin 64), s.dev.running = true → (s.dev.eng e).live = true → 8 ≤ (s.dev.eng e).voids →
    ∃ t, exec (.voidLimit e) s = .next t ∧
      ∀ k ∈ s.dev.fellows e (s.dev.eng e).snap.dom, (s.dev.eng k).live = true → s.dev.f (R.SCH_STAT.STATE k) ≠ 3 → Halted k 6 t.dev

/-- Host jumps. -/
def Obligations.HostJumps : Prop :=
  (∀ (s : State) (e : Fin 64) (data : Word), s.dev.domOn (domainOf (R.SCH_JUMP_REQ.REQ e).off) = true → s.dev.f R.TWIN_STAT.STATE ≠ 2 →
    data.toNat.testBit 29 = false → (s.dev.eng e).waiting = none → (s.dev.eng (e.val / 2 * 2 + (1 - e.val % 2))).waiting = none →
    let d := s.dev
    let e' := e.val / 2 * 2 + (1 - e.val % 2)
    let pair := data.toNat.testBit 30
    let j := data.toNat % 16
    ∃ t, exec (.jumpRequest e data) s = .next t ∧ (t.dev.eng e).jump = some (j, d.now) ∧
      t.dev.f (R.SCH_JUMP_REQ.REQ e) = 1 ∧ t.dev.f (R.SCH_JUMP_REQ.J e) = j ∧
      (pair = true → (t.dev.eng e').jump = some (j, d.now) ∧ t.dev.f (R.SCH_JUMP_REQ.REQ e') = 1 ∧ t.dev.f (R.SCH_JUMP_REQ.J e') = j) ∧
      (Unlatched d e → pair = false ∨ Unlatched d e' →
        t.dev.eng e = { d.eng e with jump := some (j, d.now) } ∧
        t.dev.eng e' = (if pair then { d.eng e' with jump := some (j, d.now) } else d.eng e') ∧
        (∀ k, k ≠ e.val → k ≠ e' → t.dev.eng k = d.eng k) ∧
        OnlyFields [R.SCH_JUMP_REQ.REQ e, R.SCH_JUMP_REQ.J e, R.SCH_JUMP_REQ.PAIR e, R.SCH_JUMP_REQ.REQ e', R.SCH_JUMP_REQ.J e'] d t.dev ∧
        t = { s with dev := { d with flds := t.dev.flds, engines := t.dev.engines, again := [], evNow := [], out := [] } })) ∧
  ∀ (s : State) (e : Fin 64), s.dev.domOn (domainOf (R.SCH_JUMP_REQ.REQ e).off) = true → s.dev.f R.TWIN_STAT.STATE ≠ 2 → (s.dev.eng e).jump.isSome = true →
    s.dev.f (R.SCH_JUMP_REQ.J e) < 16 → s.dev.f (R.SCH_JUMP_REQ.PAIR e) < 2 →
    let d := s.dev
    ∃ t, exec (.jumpCancel e) s = .next t ∧ (t.dev.eng e).jump = none ∧ t.dev.f (R.SCH_JUMP_REQ.REQ e) = 0 ∧
      t.dev.f (R.SCH_JUMP_STATUS.RESULT e) = 2 ∧ OnlyEngine e d t.dev ∧
      (Unlatched d e → t.dev.eng e = { d.eng e with jump := none } ∧
        OnlyFields [R.SCH_JUMP_REQ.REQ e, R.SCH_JUMP_STATUS.RESULT e] d t.dev ∧
        t = { s with dev := { d with flds := t.dev.flds, engines := t.dev.engines, again := [], evNow := [], out := [] } })

/-- The micro-sequencer's routines: none runs while the engine clocks stand. What a routine's event itself did is stated with the command that raised it. -/
def Obligations.RoutinesRun : Prop :=
  (∀ (s : State) (e : Fin 64), s.dev.b R.TB_STAT.AWAKE = false →
    ∀ c ∈ [Instr.lineFill e, .invalidate e, .safePass e, .voidRoutine e, .stopRoutine e, .runStartRoutine e, .runEndRoutine e, .house e],
      exec c s = .next { s with dev := { s.dev with out := [] } }) ∧
  ∀ (s : State) (e : Fin 64) (x : SeqEvent), s.dev.b R.TB_STAT.AWAKE = true → s.dev.seqHalted e = false → (s.dev.seq e).routine = none → nextEvent (s.dev.seq e).events = some x →
    (∀ y ∈ (s.dev.seq e).events, y.tries < 4) → (nextEvent ((s.dev.seq e).events.erase x)).map SeqEvent.code ≠ some 9 →
    let d := s.dev
    let q := (d.seq e).events.erase x
    let sq : Seq := { d.seq e with events := q, voidOpen := (d.seq e).voidOpen && (x.code != 2 || q.any (fun y => y.code == 2)) }
    let shown := [R.ENG_STAT.SEQ_STATE e, R.ENG_STAT.PRIO e, R.ENG_STAT.COMMITTED e, R.ENG_STAT.EVENT e, R.ENG_STAT.SHADOW e]
    let idle := fun (t : Device) => ∀ F ∈ shown, t.f F = 0
    let base := 32 * (e.val / 2) + 16 * (e.val % 2)
    let snap := (d.eng e).snap
    let next := rn (d.resRec (d.eng e).curRec) 12 4
    (x.code = 7 → ∀ sl, (d.seq e).fills.find? (fun y => y.1 == x.arg) = some (x.arg, sl) → d.f (R.ENG_LINES.LINES e) < 2 ^ (R.ENG_LINES.LINES e).width →
      ∃ t, exec (.lineFill e) s = .next t ∧ t.dev.seq e = { sq with fills := sq.fills.filter (fun y => y.1 != x.arg) } ∧ idle t.dev ∧
        t.dev.schedSlot e x.arg = some sl ∧ (∀ n, n ≠ x.arg → t.dev.schedSlot e n = d.schedSlot e n) ∧
        t.dev.f (R.ENG_LINES.LINES e) = satInc (R.ENG_LINES.LINES e).width (d.f (R.ENG_LINES.LINES e)) ∧
        (∀ i : Fin 16, t.dev.markedBad e (16 * x.arg + i) = (d.markedBad e (16 * x.arg + i) || d.checkBad e (d.slotOp e sl i)) ∧
          (d.checkBad e (d.slotOp e sl i) = true → t.dev.f (R.ENG_EVT.LINE_BAD e) = 1)) ∧
        OnlyFields ([R.ENG_LINES.LINES e, R.ENG_EVT.LINE_BAD e] ++ shown) d t.dev ∧
        t = { s with dev := { d with flds := t.dev.flds, seqs := t.dev.seqs, resS := t.dev.resS, dtags := t.dev.dtags, pba := t.dev.pba, evNow := t.dev.evNow, out := [] } }) ∧
    (x.code = 5 →
      ∃ t, exec (.invalidate e) s = .next t ∧ t.dev.seq e = sq ∧ idle t.dev ∧ (∀ n, n ≠ x.arg → t.dev.schedSlot e n = d.schedSlot e n) ∧
        t.dev.schedSlot e x.arg = none ∧ (∀ i : Fin 16, t.dev.markedBad e (16 * x.arg + i) = false) ∧
        OnlyFields shown d t.dev ∧ t = { s with dev := { d with flds := t.dev.flds, seqs := t.dev.seqs, resS := t.dev.resS, dtags := t.dev.dtags, out := [] } }) ∧
    (x.code = 4 → ∀ im, d.img.act = some im →
      ∃ t, exec (.safePass e) s = .next t ∧ t.dev.seq e = sq ∧ idle t.dev ∧
        (next ≠ 0xFFFFFFFF → (d.eng e).curRec ≠ 0xFFFFFFFF → ∀ b ∈ recSched (d.resRec next), d.schedSlot e b = none → (false, b) ∈ t.dev.cxlReads ∧
          (d.b R.ECC_CXL_STAT.PRESENT = true → Out.cxlRead (im.base + im.schedOff + 256 * b) 256 ∈ t.dev.out)) ∧
        (∀ b ∈ d.keptBlocks e false, t.dev.schedSlot e b = d.schedSlot e b) ∧ (∀ b ∈ d.keptBlocks e true, t.dev.waveBlock e b = d.waveBlock e b) ∧
        (∀ (k : Fin 64) (b : Fin 16777216), k ≠ e → t.dev.schedSlot k b = d.schedSlot k b ∧ t.dev.waveLine k b = d.waveLine k b) ∧
        OnlyFields shown d t.dev ∧
        t = { s with dev := { d with flds := t.dev.flds, seqs := t.dev.seqs, resS := t.dev.resS, resW := t.dev.resW, dtags := t.dev.dtags, cxlReads := t.dev.cxlReads, freeN := t.dev.freeN, out := t.dev.out } }) ∧
    (x.code = 2 → snap.frames.length = 16 → snap.active < 16 → (∀ w ∈ snap.frames, w.1 < 2 ^ 48 ∧ w.2.1 < 2 ^ 32 ∧ w.2.2 < 2 ^ 64) →
      (∀ i : Fin 16, (d.frame (base + i)).1 < 2 ^ 48 ∧ (d.frame (base + i)).2.1 < 2 ^ 32 ∧ (d.frame (base + i)).2.2 < 2 ^ 64) →
      ∃ t, exec (.voidRoutine e) s = .next t ∧ t.dev.seq e = sq ∧ idle t.dev ∧ (∀ i : Fin 16, some (t.dev.frame (base + i)) = snap.frames[i.val]?) ∧
        t.dev.eng e = { d.eng e with left := snap.left } ∧ OnlyEngine e d t.dev ∧ t.dev.f (R.SCH_STAT.LOOP_ACTIVE e) = snap.active ∧
        t.dev.b (R.SCH_STAT.VOIDED e) = (d.eng e).live ∧ t.dev.f (R.SCH_PORT_PRES.PRESENT e) = 0 ∧
        OnlyFields ([R.SCH_STAT.LOOP_ACTIVE e, R.SCH_STAT.VOIDED e, R.SCH_PORT_PRES.PRESENT e] ++ shown ++ (List.range 16).flatMap (fun i => [R.NCO_FREQ_LO.F_LO (base + i), R.NCO_FREQ_HI.F_HI (base + i), R.NCO_PHASE.THETA (base + i), R.NCO_REF_LO.REF (base + i), R.NCO_REF_HI.REF (base + i)])) d t.dev ∧
        t = { s with dev := { d with flds := t.dev.flds, seqs := t.dev.seqs, engines := t.dev.engines, tiles := t.dev.tiles, ports := t.dev.ports, out := [] } }) ∧
    (x.code = 1 →
      ∃ t, exec (.stopRoutine e) s = .next t ∧ t.dev.seq e = { sq with events := [], fills := [] } ∧ t.dev.f (R.ENG_STAT.SEQ_STATE e) = 2 ∧
        (∀ F ∈ shown.tail, t.dev.f F = 0) ∧ OnlyFields shown d t.dev ∧ t = { s with dev := { d with flds := t.dev.flds, seqs := t.dev.seqs, out := [] } }) ∧
    ∀ c ∈ [(3, Instr.runStartRoutine e), (6, Instr.runEndRoutine e), (8, Instr.house e)], x.code = c.1 →
      ∃ t, exec c.2 s = .next t ∧ t.dev.seq e = sq ∧ idle t.dev ∧ OnlyFields shown d t.dev ∧
        t = { s with dev := { d with flds := t.dev.flds, seqs := t.dev.seqs, out := [] } }

/-- Micro-cycles, limits, escalation and patch sets; none of the first three passes while the engine clocks stand. The step of a routine with bus
accesses, sampling or branches is Tx.execWord's. -/
def Obligations.MicroCycles : Prop :=
  (∀ (s : State) (e : Fin 64) (w : BitVec 192) (x : Fin 3), s.dev.b R.TB_STAT.AWAKE = false →
    ∀ c ∈ [Instr.microword e w x, .routineLong e, .sampleGap e, .commitOverrun e, .escalate e], exec c s = .next { s with dev := { s.dev with out := [] } }) ∧
  (∀ (s : State) (e : Fin 64) (w : BitVec 192) (r : Routine), s.dev.b R.TB_STAT.AWAKE = true → s.dev.seqHalted e = false → (s.dev.seq e).routine = some r → (s.dev.seq e).upc < 2 ^ 14 - 1 →
    (s.dev.seq e).xs.length = 32 → r.cycles < 4096 → (r.committed = false → r.gap < 48) → (r.committed = true → r.post < 48) →
    let d := s.dev
    let v := w.toNat
    mwReserved v = false → mwBus v = 0 → mwCause v = 0 → mwCommit v = false → mwSample v = false → mwOpadv v = false → mwSeq v = 0 → mwBr v = 0 → mwCinv v = false →
    let res := aluResult (mwAlu v) (mwWidth v) ((d.seq e).opA r.ev.arg v) ((d.seq e).opB v)
    ∃ t, exec (.microword e w 0) s = .next t ∧ (t.dev.seq e).upc = d.matched e ((d.seq e).upc + 1) ∧
      (∀ i : Fin 32, (t.dev.seq e).x i = (if mwDstWe v ∧ mwAlu v ≠ 9 ∧ mwDst v = i.val ∧ i.val ≠ 0 then res else (d.seq e).x i)) ∧
      (mwFlagsWe v = true → (t.dev.seq e).flagZ = (res == 0) ∧ (t.dev.seq e).flagN = res.testBit (mwWidth v - 1)) ∧
      (t.dev.seq e).events = (d.seq e).events ∧ (t.dev.seq e).routine.map (fun y => (y.ev, y.cycles, y.shadow, y.stack)) = some (r.ev, r.cycles + 1, r.shadow, r.stack) ∧
      OnlyFields [R.ENG_STAT.SEQ_STATE e, R.ENG_STAT.PRIO e, R.ENG_STAT.COMMITTED e, R.ENG_STAT.EVENT e, R.ENG_STAT.SHADOW e, R.ENG_STAT.SPACE e, R.ENG_STAT.UPC e] d t.dev ∧
      t = { s with dev := { d with flds := t.dev.flds, seqs := t.dev.seqs, freeN := t.dev.freeN, out := [] } }) ∧
  (∀ (s : State) (e : Fin 64) (r : Routine), (s.dev.seq e).routine = some r → s.dev.f (R.SCH_STAT.STATE e) ≠ 3 →
    ∀ c ∈ [(8, Instr.routineLong e, decide (4096 ≤ r.cycles)), (6, Instr.sampleGap e, !r.committed && decide (48 ≤ r.gap)),
        (7, Instr.commitOverrun e, r.committed && decide (48 ≤ r.post))],
      (c.2.2 = false → exec c.2.1 s = .next { s with dev := { s.dev with out := [] } }) ∧
      (c.2.2 = true → s.dev.b R.TB_STAT.AWAKE = true → ∃ t, exec c.2.1 s = .next t ∧ t.dev.f (R.ENG_FAULT.CODE e) = c.1 ∧ t.dev.f (R.ENG_STAT.SEQ_STATE e) = 2 ∧
        (t.dev.seq e).events = [] ∧ (t.dev.seq e).routine = none ∧ Halted e 15 t.dev)) ∧
  (∀ (s : State) (e : Fin 64) (i : Nat), s.dev.b R.TB_STAT.AWAKE = true → (s.dev.seq e).events.findIdx? (fun x => decide (4 ≤ x.tries) && !x.esc) = some i →
    s.dev.f (R.ENG_CNT.ESCALATIONS e) < 2 ^ (R.ENG_CNT.ESCALATIONS e).width →
    let d := s.dev
    ∃ t, exec (.escalate e) s = .next t ∧ t.dev.f (R.ENG_CNT.ESCALATIONS e) = satInc (R.ENG_CNT.ESCALATIONS e).width (d.f (R.ENG_CNT.ESCALATIONS e)) ∧
      t.dev.f (R.ENG_EVT.ESCALATE e) = 1 ∧ t.dev.seq e = { d.seq e with events := (d.seq e).events.modify i (fun x => { x with esc := true }) } ∧
      OnlyFields [R.ENG_CNT.ESCALATIONS e, R.ENG_EVT.ESCALATE e] d t.dev ∧
      t = { s with dev := { d with flds := t.dev.flds, seqs := t.dev.seqs, pba := t.dev.pba, evNow := t.dev.evNow, out := [] } }) ∧
  (∀ (s : State) (e : Fin 64), s.dev.domOn (domainOf (R.ENG_CTL.QMAX_CLR e).off) = true → s.dev.seqHalted e = false → (s.dev.seq e).routine = none →
    (s.dev.seq e).events = [] → s.dev.f (R.ENG_CTL.QMAX_CLR e) = 0 → s.dev.f (R.ENG_CTL.CNT_CLR e) = 0 →
    let d := s.dev
    let shown := [R.ENG_STAT.SEQ_STATE e, R.ENG_STAT.PRIO e, R.ENG_STAT.COMMITTED e, R.ENG_STAT.EVENT e, R.ENG_STAT.SHADOW e]
    (d.b R.TB_STAT.AWAKE = false → ∃ t, exec (.qmaxClr e) s = .next t ∧ t.dev.f (R.ENG_CTL.QMAX_CLR e) = 1 ∧ t.dev.f (R.ENG_QUEUE.MAX e) = d.f (R.ENG_QUEUE.MAX e)) ∧
    (d.b R.TB_STAT.AWAKE = true → ∃ t, exec (.qmaxClr e) s = .next t ∧ t.dev.f (R.ENG_QUEUE.MAX e) = 0 ∧ (t.dev.seq e).events = [] ∧ OnlyFields (R.ENG_QUEUE.MAX e :: shown) d t.dev ∧
      t = { s with dev := { d with flds := t.dev.flds, seqs := t.dev.seqs, again := [], evNow := [], out := [] } }) ∧
    (d.b R.TB_STAT.AWAKE = true → ∃ t, exec (.cntClr e) s = .next t ∧ t.dev.f (R.ENG_CNT.RESTARTS e) = 0 ∧ t.dev.f (R.ENG_CNT.ESCALATIONS e) = 0 ∧ t.dev.f (R.ENG_LINES.LINES e) = 0 ∧
      (t.dev.seq e).events = [] ∧ OnlyFields ([R.ENG_CNT.RESTARTS e, R.ENG_CNT.ESCALATIONS e, R.ENG_LINES.LINES e] ++ shown) d t.dev ∧
      t = { s with dev := { d with flds := t.dev.flds, seqs := t.dev.seqs, again := [], evNow := [], out := [] } })) ∧
  (∀ s : State, s.dev.patchWait.isSome = true → s.dev.running = true → ∃ t, exec .patchLoad s = .next t ∧
    t.dev.b R.ENG_PATCH_STAT.PENDING = !s.dev.patchWait.any noPatch ∧ OnlyFields [R.ENG_PATCH_STAT.PENDING] s.dev t.dev ∧
    t = { s with dev := { s.dev with flds := t.dev.flds, evNow := t.dev.evNow, out := [] } }) ∧
  ∀ (s : State) (id : Nat) (ws ms : List Nat) (why : Nat), s.dev.patchWait = some (id, ws, ms, why) → s.dev.running = false →
    (∀ e : Fin 64, (s.dev.seq e).routine = none ∧ s.dev.seqHalted e = false) → id < 2 ^ 32 → why < 8 → id ≠ 0 →
    let d := s.dev
    let reason := if why ≠ 0 then why else patchRefuse ws ms
    ∃ t, exec .patchLoad s = .next t ∧ t.dev.patchWait = none ∧ t.dev.f R.ENG_PATCH_STAT.PENDING = 0 ∧ t.dev.f R.ENG_PATCH_STAT.REASON = reason ∧
      (reason ≠ 0 → t.dev.f R.ENG_PATCH_STAT.LOADED = 0 ∧ t.dev.f R.ENG_PATCH_STAT.REFUSED = 1 ∧ ∀ (e : Fin 64) (i : Fin 32), t.dev.f (R.ENG_MATCH.EN e i) = 0) ∧
      (reason = 0 → t.dev.f R.ENG_PATCH_STAT.LOADED = 1 ∧ t.dev.f R.ENG_PATCH_STAT.REFUSED = 0 ∧ t.dev.f R.ENG_PATCH_ID.ID = id ∧ t.dev.f R.ENG_PATCH_STAT.WORDS = ws.length ∧
        (∀ i w, ws[i]? = some w → bget (fun _ => 0) t.dev.patch i = w) ∧
        ∀ (e : Fin 64) (i m : Nat), ms[i]? = some m → m < 2 ^ 32 → t.dev.f (R.ENG_MATCH.EN e i) = m / 2 ^ 31 ∧ t.dev.f (R.ENG_MATCH.ROM_ADDR e i) = m % 2 ^ 14) ∧
      t.dev.fw = { d.fw with force := if reason = 0 then d.fw.offered else [] } ∧
      t = { s with dev := { d with flds := t.dev.flds, patch := t.dev.patch, patchErr := t.dev.patchErr, patchWait := none, fw := t.dev.fw, evNow := t.dev.evNow, out := [] } }

/-- A demodulator's result appears. -/
def Obligations.ResultAppears : Prop :=
  ∀ (s : State) (n : Fin 512) (adc : List Int) (w : Win),
    let d := s.dev
    let tl := n.val / 16
    let dm := n.val % 16
    let here := fun (c : Nat × Win) => c.1 == dm && c.2.start + c.2.len + 84 == d.now.toNat
    (d.tile tl).closing.find? here = some (dm, w) → d.combed tl = false →
    let r := d.winResult tl w adc
    let wq := (d.tile tl).wq
    let new := if (d.tile tl).wqAt = d.now.toNat then (d.tile tl).wqN else 0
    let sent := !w.cut && (d.tile tl).sends.any (fun c => c.1 == dm && decide (c.2 < d.now.toNat))
    let norec := (rb w.wrec 6).testBit 2
    ∃ t, exec (.integrationEnd n adc) s = .next t ∧ t.dev.f (R.RD_DSTAT.VALID n) = 1 ∧ t.dev.f (R.RD_DSTAT.CODE n) = r.2.2.1 % 4 ∧
      t.dev.b (R.RD_DSTAT.CLIP n) = r.2.2.2.1 ∧ t.dev.b (R.RD_DSTAT.OSAT n) = r.2.2.2.2 ∧
      t.dev.f (R.RD_LAST_I.I n) = patternOf 32 r.1 % 2 ^ 32 ∧ t.dev.f (R.RD_LAST_Q.Q n) = patternOf 32 r.2.1 % 2 ^ 32 ∧
      (t.dev.tile tl).closing = (d.tile tl).closing.erase (dm, w) ∧
      (norec = false → (t.dev.tile tl).wq = (wq.take (wq.length - new) ++
        insertResult (w.shot, w.attempt, resultBytes dm r.1 r.2.1 r.2.2.1 sent r.2.2.2.1 r.2.2.2.2 (w.flags ||| (if r.2.2.1 = 2 then 2 else 0)) w.shot)
          (wq.drop (wq.length - new))).take 64) ∧
      (norec = false ∧ 64 ≤ wq.length → t.dev.f (R.RD_EVT.REC_OVF tl) = 1) ∧ (norec = true → (t.dev.tile tl).wq = wq) ∧
      (∀ k : Fin 512, k ≠ n → t.dev.f (R.RD_DSTAT.CODE k) = d.f (R.RD_DSTAT.CODE k) ∧ t.dev.f (R.RD_LAST_I.I k) = d.f (R.RD_LAST_I.I k) ∧
        t.dev.f (R.RD_LAST_Q.Q k) = d.f (R.RD_LAST_Q.Q k)) ∧
      (w.cut = true → OnlyFields [R.RD_DSTAT.VALID n, R.RD_DSTAT.CODE n, R.RD_DSTAT.CLIP n, R.RD_DSTAT.OSAT n, R.RD_LAST_I.I n, R.RD_LAST_Q.Q n, R.RD_EVT.CLIP tl,
          R.RD_EVT.OSAT tl, R.RD_EVT.REC_OVF tl, R.RD_CNT.LEAK n, R.RD_CNT.INVALID n, R.RD_RECQ.DEPTH tl, R.RD_RECQ.MAX tl] d t.dev ∧
        t = { s with dev := { d with flds := t.dev.flds, tiles := t.dev.tiles, flags := t.dev.flags, drainQ := t.dev.drainQ, pba := t.dev.pba, evNow := t.dev.evNow, out := [] } })

/-- Trigger events. -/
def Obligations.TriggerEvents : Prop :=
  (∀ (s : State) (k : Fin 8) (rising : Bool) (back : Fin 2048), s.dev.b R.TB_STAT.AWAKE = true → s.dev.running = true →
    let d := s.dev
    let raw : Int := 64 * (d.now.toNat : Int) + 63 - back.val
    let u := raw - signedOf 16 (d.f (R.ACQ_TIN_SKEW.CAL k)) - d.trim k
    let tick := (u / 64).toNat
    let held := decide (raw + 128 ≤ 64 * (d.now.toNat : Int))
    64 * (d.run.first.toNat : Int) ≤ raw → (d.tin k).cand = none → (d.tin k).level ≠ rising →
    ∃ t, exec (.triggerEdge k rising back) s = .next t ∧ (t.dev.f R.ACQ_TIN_STAT.LEVEL).testBit k = rising ∧
      (∀ j : Fin 8, j ≠ k → (t.dev.f R.ACQ_TIN_STAT.LEVEL).testBit j = (d.f R.ACQ_TIN_STAT.LEVEL).testBit j ∧ t.dev.tin j = d.tin j) ∧
      (held = false → t.dev.tin k = { level := !rising, cand := some (raw.toNat, rising) } ∧ OnlyFields [R.ACQ_TIN_STAT.LEVEL] d t.dev ∧
        t = { s with dev := { d with flds := t.dev.flds, tins := t.dev.tins, out := [] } }) ∧
      (held = true → t.dev.tin k = { level := rising } ∧
        (if rising then t.dev.f R.ACQ_TIN_STAT.RISE else t.dev.f R.ACQ_TIN_STAT.FALL).testBit k = true) ∧
      (held = true → ∀ c : Fin 8, (d.trigRec c).any (fun r => rb r 2 == 0 && rb r 3 == k.val && (rb r 4).testBit (if rising then 0 else 1)) = true → d.run.hold.getD c 0 ≤ tick →
        Fires c tick (((d.trigRec c).map (fun r => rn r 12 4)).getD 0) d t.dev) ∧
      (NoneListens d → OnlyFields ([R.ACQ_TIN_STAT.LEVEL, R.ACQ_TIN_STAT.RISE, R.ACQ_TIN_STAT.FALL] ++ (List.range 8).map (fun c => R.ACQ_TRIG_CNT.EVENTS c)) d t.dev ∧
        t = { s with dev := { d with flds := t.dev.flds, run := t.dev.run, tins := t.dev.tins, evNow := t.dev.evNow, out := [] } })) ∧
  (∀ (s : State) (data : Word), s.dev.domOn (domainOf R.ACQ_SWTRIG.FIRE.off) = true → s.dev.running = true →
    let d := s.dev
    let now := d.now.toNat
    ∃ t, exec (.swtrig data) s = .next t ∧
      (∀ c : Fin 8, data.toNat.testBit c = true → (d.trigRec c).any (fun r => rb r 2 == 3) = true → d.run.hold.getD c 0 ≤ now →
        Fires c now (((d.trigRec c).map (fun r => rn r 12 4)).getD 0) d t.dev) ∧
      (NoneListens d → OnlyFields ((List.range 8).map (fun c => R.ACQ_TRIG_CNT.EVENTS c)) d t.dev ∧
        t = { s with dev := { d with flds := t.dev.flds, run := t.dev.run, again := [], evNow := [], out := [] } })) ∧
  (∀ (s : State) (c : Fin 8), s.dev.running = true →
    let d := s.dev
    let now := d.now.toNat
    (d.trigRec c).any (fun r => rb r 2 == 4 && ((now : Int) - rn r 24 8) % (rn r 16 8 : Int) == 0) = true → d.run.hold.getD c 0 ≤ now →
    ∃ t, exec (.timerTrigger c) s = .next t ∧ Fires c now (((d.trigRec c).map (fun r => rn r 12 4)).getD 0) d t.dev ∧
      (NoneListens d → OnlyFields [R.ACQ_TRIG_CNT.EVENTS c] d t.dev ∧ t = { s with dev := { d with flds := t.dev.flds, run := t.dev.run, out := [] } })) ∧
  ∀ (s : State) (c : Fin 8) (last : Fin 4) (r : List Byte) (p x : Int), s.dev.running = true → s.dev.trigRec c = some r → rb r 2 = 1 → rb r 4 = 1 →
    4 * s.dev.run.first.toNat + 1 ≤ 4 * s.dev.now.toNat + last.val → s.dev.combed (rb r 3) = false → s.dev.run.dets.getD c (false, none) = (true, none) → p < ri r 6 2 → ri r 6 2 ≤ x →
    let d := s.dev
    let n := 4 * d.now.toNat + last.val
    let u := 16 * ((n : Int) - 1) + 16 * (ri r 6 2 - p) / (x - p) - (signedOf 16 (d.f (R.ACQ_SKEW_ADC.CAL (rb r 3))) + d.trim (8 + rb r 3))
    let tick := (u / 64).toNat
    d.run.hold.getD c 0 ≤ tick →
    ∃ t, exec (.levelCrossing c last [p, x]) s = .next t ∧ Fires c tick (rn r 12 4) d t.dev ∧ t.dev.run.dets.getD c (false, none) = (false, some (n, x)) ∧
      (NoneListens d → TablesGood d →
        OnlyFields [R.ACQ_TRIG_CNT.EVENTS c] d t.dev ∧ t = { s with dev := { d with flds := t.dev.flds, run := t.dev.run, out := [] } })

/-- Segments, re-arming and stream blocks. -/
def Obligations.SegmentsAndStreams : Prop :=
  (∀ (s : State) (tl : Fin 32) (samples : List Int) (c : Capture) (rest : List Capture), (s.dev.tile tl).segQ = c :: rest → c.last ≤ s.dev.now.toNat →
    s.dev.f (R.ACQ_CNT.SEGMENTS tl) < 2 ^ (R.ACQ_CNT.SEGMENTS tl).width →
    let d := s.dev
    let bytes := if (rb c.crec 34).testBit 0 then 0 else 2 * min c.count samples.length
    let lines := 1 + (bytes + 63) / 64
    let segs := fun (e : Device) => (e.shotOf tl c.shot c.attempt).map (fun x => x.segs.length)
    let own := (d.tile tl).cap.all (fun y => y.shot == c.shot && y.attempt == c.attempt)
    let capDone := own && rest.isEmpty && (d.tile tl).cap.any (fun y => y.stage == 3 && decide (rn y.crec 6 2 ≤ y.segs))
    d.combed tl = false →
    ∃ t, exec (.segmentEnd tl samples) s = .next t ∧ (t.dev.tile tl).segQ = rest ∧
      t.dev.f (R.ACQ_EVT.TRUNC tl) = (if c.flags &&& 4 = 0 then d.f (R.ACQ_EVT.TRUNC tl) else 1) ∧
      (∀ x, d.shotOf tl c.shot c.attempt = some x →
        (recordLines x.results.length (x.segLines + lines) ≤ x.lines →
          segs t.dev = some (x.segs.length + 1) ∧ t.dev.f (R.ACQ_CNT.SEGMENTS tl) = satInc (R.ACQ_CNT.SEGMENTS tl).width (d.f (R.ACQ_CNT.SEGMENTS tl)) ∧
          (own = true → d.f (R.ACQ_STAT.SEGDONE tl) < 2 ^ (R.ACQ_STAT.SEGDONE tl).width →
            t.dev.f (R.ACQ_STAT.SEGDONE tl) = satInc (R.ACQ_STAT.SEGDONE tl).width (d.f (R.ACQ_STAT.SEGDONE tl)))) ∧
        (x.lines < recordLines x.results.length (x.segLines + lines) → segs t.dev = some x.segs.length ∧ t.dev.f (R.ACQ_EVT.RESV_OVF tl) = 1)) ∧
      (∀ k : Nat, k ≠ tl.val → t.dev.tile k = d.tile k) ∧
      (∀ a, (a / 64 < classBase 2 tl ∨ classBase 2 tl + 16384 ≤ a / 64) → (a / 64 < classBase 4 tl ∨ classBase 4 tl + 256 ≤ a / 64) → t.dev.sram.get a = d.sram.get a) ∧
      (t.dev.tile tl).cap = (if capDone then none else (d.tile tl).cap) ∧ (capDone = true → t.dev.f (R.ACQ_STAT.STATE tl) = 0) ∧
      (d.eccLog.all (fun x => x.epoch != d.now.toNat) = true →
      OnlyFields [R.ACQ_EVT.TRUNC tl, R.ACQ_EVT.RESV_OVF tl, R.ACQ_CNT.SEGMENTS tl, R.ACQ_STAT.SEGDONE tl, R.ACQ_STAT.STATE tl] d t.dev ∧
      t = { s with dev := { d with flds := t.dev.flds, tiles := t.dev.tiles, sram := t.dev.sram, tags := t.dev.tags, tagBad := t.dev.tagBad, wback := t.dev.wback, errs := t.dev.errs, flags := t.dev.flags, drainQ := t.dev.drainQ, freeN := t.dev.freeN, pba := t.dev.pba, evNow := t.dev.evNow, out := [] } })) ∧
  (∀ (s : State) (tl : Fin 32) (c : Capture), (s.dev.tile tl).cap = some c → c.stage = 3 → c.segs < rn c.crec 6 2 → c.last + 48 = s.dev.now.toNat → rb c.crec 4 ≠ 8 →
    let d := s.dev
    let evs := d.run.known.filter (fun k => k.1 == rb c.crec 4 && decide (d.now.toNat ≤ k.2.1))
    (evs ≠ [] → ∃ t, exec (.rearm tl) s = .next t ∧ (t.dev.tile tl).cap.map (fun x => (x.arm, x.stage, x.segs)) = some (d.now.toNat, 2, c.segs) ∧
      t.dev.f (R.ACQ_STAT.STATE tl) = 2 ∧ ∀ k : Nat, k ≠ tl.val → t.dev.tile k = d.tile k) ∧
    (evs = [] → ∃ t, exec (.rearm tl) s = .next t ∧ t.dev.tile tl = { d.tile tl with busy := some (rb c.crec 4, c.tick, d.now.toNat), cap := some { c with stage := 1, arm := d.now.toNat } } ∧
      t.dev.f (R.ACQ_STAT.STATE tl) = 1 ∧ (∀ k : Nat, k ≠ tl.val → t.dev.tile k = d.tile k) ∧
      OnlyFields [R.ACQ_STAT.STATE tl, R.ACQ_STAT.INDEX tl] d t.dev ∧
      t = { s with dev := { d with flds := t.dev.flds, tiles := t.dev.tiles, out := [] } })) ∧
  (∀ (s : State) (n : Fin 4) (samples : List Int), (s.dev.stream n).active = true → s.dev.now.toNat = (s.dev.stream n).start + 40 * ((s.dev.stream n).seq + 1) →
    s.dev.b (R.ACQ_STRM_CTL.EN n) = false → s.dev.f (R.ACQ_STRM_STAT.GAPS n) < 2 ^ (R.ACQ_STRM_STAT.GAPS n).width →
    let d := s.dev
    let x := d.stream n
    let last := !d.running || (x.len != 0 && decide (x.len ≤ 40 * (x.seq + 1)))
    let left := if d.running then 40 else min 40 (d.run.ended.toNat - (x.start + 40 * x.seq))
    let full := decide (256 ≤ x.buffer.length) && left != 0
    d.combed x.tile = false →
    ∃ t, exec (.streamBlock n samples) s = .next t ∧
      (left = 0 → t.dev.stream n = { x with active := false }) ∧
      (left ≠ 0 → t.dev.stream n = { x with
        active := !last, seq := x.seq + 1, gap := full, fresh := if full then x.fresh else !last
        buffer := if full then x.buffer else x.buffer ++ [streamBytes (x.start + 40 * x.seq) x.tile (x.seq % 2 ^ 32) x.gap last (samples.take (4 * left))] }) ∧
      t.dev.f (R.ACQ_STRM_STAT.GAPS n) = (if full then satInc (R.ACQ_STRM_STAT.GAPS n).width (d.f (R.ACQ_STRM_STAT.GAPS n)) else d.f (R.ACQ_STRM_STAT.GAPS n)) ∧
      (full = true → t.dev.f (R.ACQ_STRM_STAT.GAP n) = 1) ∧ (last = true → t.dev.f (R.ACQ_STRM_STAT.ACTIVE n) = 0) ∧
      OnlyFields [R.ACQ_STRM_STAT.GAPS n, R.ACQ_STRM_STAT.GAP n, R.ACQ_STRM_STAT.ACTIVE n, R.ACQ_STAT.STREAM x.tile, R.ACQ_STAT.SLOT x.tile] d t.dev ∧
      t = { s with dev := { d with flds := t.dev.flds, streams := t.dev.streams, pba := t.dev.pba, evNow := t.dev.evNow, out := [] } }) ∧
  ∀ (s : State) (n : Fin 4) (samples : List Int), (s.dev.stream n).active = true →
    let d := s.dev
    let x := d.stream n
    let atLen := x.len != 0 && decide (x.start + x.len ≤ d.now.toNat)
    let other := (List.range 4).find? (fun k => k != n.val && (d.stream k).active && (d.stream k).tile == x.tile)
    d.running = false ∨ atLen = true → d.combed x.tile = false →
    ∃ t, exec (.streamEnd n samples) s = .next t ∧ (t.dev.stream n).active = false ∧ t.dev.f (R.ACQ_STRM_STAT.ACTIVE n) = 0 ∧
      t.dev.f (R.ACQ_STAT.STREAM x.tile) = (if other = none then 0 else d.f (R.ACQ_STAT.STREAM x.tile)) ∧
      t.dev.f (R.ACQ_STAT.SLOT x.tile) = (if d.f (R.ACQ_STAT.SLOT x.tile) = n.val then other.getD n else d.f (R.ACQ_STAT.SLOT x.tile)) ∧
      OnlyFields [R.ACQ_STRM_STAT.GAPS n, R.ACQ_STRM_STAT.GAP n, R.ACQ_STRM_STAT.ACTIVE n, R.ACQ_STAT.STREAM x.tile, R.ACQ_STAT.SLOT x.tile, R.ACQ_STRM_WPTR.OFF n] d t.dev ∧
      t = { s with dev := { d with flds := t.dev.flds, streams := t.dev.streams, cxl := t.dev.cxl, pba := t.dev.pba, evNow := t.dev.evNow, out := [] } }

/-- The drain and the rings. -/
def Obligations.DrainAndRings : Prop :=
  (∀ s : State, s.dev.drainQ = [] → ∃ t, exec .drainRecord s = .next t ∧ t.dev.f R.ACQ_DRAIN_STAT.WAITING = 0 ∧ OnlyFields [R.ACQ_DRAIN_STAT.WAITING] s.dev t.dev ∧
    t = { s with dev := { s.dev with flds := t.dev.flds, out := [] } }) ∧
  (∀ (s : State) (x : Shot), s.dev.drainQ.head?.bind (fun c => s.dev.shotOf c.1 c.2.1 c.2.2) = some x → s.dev.hsBad x (s.dev.drainQ.headD (0, 0, 0)).1 = none →
    let d := s.dev
    let size := (d.ring 0).size
    let w := 256 * d.f R.ACQ_DRAIN_WPTR.OFF
    let r := 256 * d.f R.ACQ_DRAIN_RPTR.OFF
    let pad := if size < w + x.length then size - w else 0
    let stays := !d.b R.ACQ_DRAIN_CTL.EN || !d.cxlUp || size == 0 || decide ((r % size + 2 * size - w - 256) % size < pad + x.length)
    size < 2 ^ 32 →
    ∃ t, exec .drainRecord s = .next t ∧
      (stays = true → t.dev.f R.ACQ_DRAIN_STAT.WAITING = 1 ∧ OnlyFields [R.ACQ_DRAIN_STAT.WAITING] d t.dev ∧ t = { s with dev := { d with flds := t.dev.flds, out := [] } }) ∧
      (stays = false → t.dev.f R.ACQ_DRAIN_STAT.WAITING = 0 ∧ t.dev.drainQ = d.drainQ.tail ∧
        t.dev.f R.ACQ_DRAIN_WPTR.OFF = ((if pad = 0 then w else 0) + x.length) % size / 256 ∧
        t = { s with dev := { d with flds := t.dev.flds, drainQ := t.dev.drainQ, tiles := t.dev.tiles, cxl := t.dev.cxl, flags := t.dev.flags, sram := t.dev.sram, tags := t.dev.tags, tagBad := t.dev.tagBad, errs := t.dev.errs, eccLog := t.dev.eccLog, wback := t.dev.wback, pba := t.dev.pba, evNow := t.dev.evNow, out := [] } })) ∧
  (∀ (s : State) (data : Word), s.dev.domOn (domainOf R.ACQ_DRAIN_CTL.EN.off) = true → s.dev.cxlTesting = false →
    let d := s.dev
    let why := d.mapWhy 0
    ∃ t, exec (.drainEnable data) s = .next t ∧ t.dev.f R.ACQ_DRAIN_CTL.THRESH = data.toNat / 4096 % 2 ^ R.ACQ_DRAIN_CTL.THRESH.width ∧
      (d.b R.ACQ_DRAIN_CTL.EN = false ∧ data.toNat.testBit 0 = true ∧ why = 0 →
        t.dev.f R.ACQ_DRAIN_CTL.EN = 1 ∧ t.dev.ring 0 = d.ringRegs 0 ∧ t.dev.f R.ACQ_DRAIN_WPTR.OFF = 0) ∧
      (d.b R.ACQ_DRAIN_CTL.EN = false ∧ data.toNat.testBit 0 = true ∧ why ≠ 0 →
        t.dev.b R.ACQ_DRAIN_CTL.EN = false ∧ t.dev.f R.ECC_EVT.MAP_ERR = 1 ∧ t.dev.f R.ECC_CXL_STAT.MAP_WHY = why) ∧
      (d.b R.ACQ_DRAIN_CTL.EN = true ∧ data.toNat.testBit 0 = false ∧ d.running = false → t.dev.b R.ACQ_DRAIN_CTL.EN = false ∧ t.dev.ring 0 = {}) ∧
      (d.b R.ACQ_DRAIN_CTL.EN = true ∧ data.toNat.testBit 0 = false ∧ d.running = true → t.dev.b R.ACQ_DRAIN_CTL.EN = true ∧ t.dev.f R.ACQ_DRAIN_STAT.EN_DENIED = 1) ∧
      (∀ k, k ≠ 0 → t.dev.ring k = d.ring k) ∧
      (d.ringTakenBy 99 0 = false → OnlyFields [R.ACQ_DRAIN_CTL.EN, R.ACQ_DRAIN_CTL.THRESH, R.ACQ_DRAIN_WPTR.OFF, R.ACQ_DRAIN_STAT.ABOVE, R.ACQ_DRAIN_STAT.EN_DENIED, R.ECC_EVT.MAP_ERR,
        R.ECC_CXL_STAT.MAP_WHY] d t.dev ∧
        t = { s with dev := { d with flds := t.dev.flds, rings := t.dev.rings, pba := t.dev.pba, again := [], evNow := [], out := [] } }) ∧
      (∀ (q : Fin 64) (e : Entry), d.b R.ACQ_DRAIN_CTL.EN = true → data.toNat.testBit 0 = false → d.running = false → (d.queue q).cur = some e → rb e.bytes 0 = 3 →
        rb e.bytes 28 = 0 → (∀ (p : Fin 64) (x : Entry), p ≠ q → (d.queue p).cur = some x → ¬ (rb x.bytes 0 = 3 ∧ rb x.bytes 28 = 0)) →
        t.dev.f (R.ACQ_DRAIN_RPTR.OFF) = (256 * d.f (R.ACQ_DRAIN_RPTR.OFF) + e.done) % max 1 (d.ring (0)).size / 256 % 2 ^ (R.ACQ_DRAIN_RPTR.OFF).width ∧ (t.dev.queue q).cur = none ∧
        t.dev.f (R.LNK_Q_STAT.BUSY q) = 0 ∧
        t.dev.out = [.hostWrite ((d.queue q).cqBase + 16 * d.f (R.LNK_Q_STAT.CQ_TAIL q)) (d.cqEntry q e.bytes (if e.poison then 9 else 0) e.done) false] ∧
        OnlyFields [R.ACQ_DRAIN_CTL.EN, R.ACQ_DRAIN_CTL.THRESH, R.ACQ_DRAIN_WPTR.OFF, R.ACQ_DRAIN_STAT.ABOVE, R.ACQ_DRAIN_STAT.EN_DENIED, R.ECC_EVT.MAP_ERR,
        R.ECC_CXL_STAT.MAP_WHY, R.ACQ_DRAIN_RPTR.OFF,
          R.LNK_Q_STAT.CQ_TAIL q, R.LNK_Q_STAT.BUSY q, R.LNK_Q_STAT.CQ_FULL q] d t.dev ∧
        t = { s with dev := { d with flds := t.dev.flds, rings := t.dev.rings, queues := t.dev.queues, pba := t.dev.pba, again := [], evNow := [], out := t.dev.out } })) ∧
  ∀ (s : State) (n : Fin 4) (data : Word), s.dev.domOn (domainOf (R.ACQ_STRM_CTL.EN n).off) = true → s.dev.cxlTesting = false →
    let d := s.dev
    let why := d.mapWhy (n + 1)
    ∃ t, exec (.streamRingEnable n data) s = .next t ∧
      (d.b (R.ACQ_STRM_CTL.EN n) = false ∧ data.toNat.testBit 0 = true ∧ why = 0 →
        t.dev.f (R.ACQ_STRM_CTL.EN n) = 1 ∧ t.dev.ring (n + 1) = d.ringRegs (n + 1) ∧ t.dev.f (R.ACQ_STRM_WPTR.OFF n) = 0 ∧ t.dev.f (R.ACQ_STRM_STAT.GAPS n) = 0) ∧
      (d.b (R.ACQ_STRM_CTL.EN n) = false ∧ data.toNat.testBit 0 = true ∧ why ≠ 0 →
        t.dev.b (R.ACQ_STRM_CTL.EN n) = false ∧ t.dev.f R.ECC_EVT.MAP_ERR = 1 ∧ t.dev.f R.ECC_CXL_STAT.MAP_WHY = why) ∧
      (d.b (R.ACQ_STRM_CTL.EN n) = true ∧ data.toNat.testBit 0 = false ∧ d.running = false → t.dev.b (R.ACQ_STRM_CTL.EN n) = false ∧ t.dev.ring (n + 1) = {}) ∧
      (d.b (R.ACQ_STRM_CTL.EN n) = true ∧ data.toNat.testBit 0 = false ∧ d.running = true →
        t.dev.b (R.ACQ_STRM_CTL.EN n) = true ∧ t.dev.f (R.ACQ_STRM_STAT.EN_DENIED n) = 1) ∧
      (∀ k, k ≠ n.val + 1 → t.dev.ring k = d.ring k) ∧
      (d.ringTakenBy 99 (n.val + 1) = false → OnlyFields [R.ACQ_STRM_CTL.EN n, R.ACQ_STRM_WPTR.OFF n, R.ACQ_STRM_STAT.GAPS n, R.ACQ_STRM_STAT.EN_DENIED n, R.ECC_EVT.MAP_ERR,
        R.ECC_CXL_STAT.MAP_WHY] d t.dev ∧
        t = { s with dev := { d with flds := t.dev.flds, rings := t.dev.rings, pba := t.dev.pba, again := [], evNow := [], out := [] } }) ∧
      (∀ (q : Fin 64) (e : Entry), d.b (R.ACQ_STRM_CTL.EN n) = true → data.toNat.testBit 0 = false → d.running = false → (d.queue q).cur = some e → rb e.bytes 0 = 3 →
        rb e.bytes 28 = n.val + 1 → (∀ (p : Fin 64) (x : Entry), p ≠ q → (d.queue p).cur = some x → ¬ (rb x.bytes 0 = 3 ∧ rb x.bytes 28 = n.val + 1)) →
        t.dev.f (R.ACQ_STRM_RPTR.OFF n) = (256 * d.f (R.ACQ_STRM_RPTR.OFF n) + e.done) % max 1 (d.ring (n.val + 1)).size / 256 % 2 ^ (R.ACQ_STRM_RPTR.OFF n).width ∧ (t.dev.queue q).cur = none ∧
        t.dev.f (R.LNK_Q_STAT.BUSY q) = 0 ∧
        t.dev.out = [.hostWrite ((d.queue q).cqBase + 16 * d.f (R.LNK_Q_STAT.CQ_TAIL q)) (d.cqEntry q e.bytes (if e.poison then 9 else 0) e.done) false] ∧
        OnlyFields [R.ACQ_STRM_CTL.EN n, R.ACQ_STRM_WPTR.OFF n, R.ACQ_STRM_STAT.GAPS n, R.ACQ_STRM_STAT.EN_DENIED n, R.ECC_EVT.MAP_ERR,
        R.ECC_CXL_STAT.MAP_WHY, R.ACQ_STRM_RPTR.OFF n,
          R.LNK_Q_STAT.CQ_TAIL q, R.LNK_Q_STAT.BUSY q, R.LNK_Q_STAT.CQ_FULL q] d t.dev ∧
        t = { s with dev := { d with flds := t.dev.flds, rings := t.dev.rings, queues := t.dev.queues, pba := t.dev.pba, again := [], evNow := [], out := t.dev.out } })

/-- DECISION messages. That a code stays pending while its port is out of service is the model's choice (log 195). -/
def Obligations.DecisionMessages : Prop :=
  (∀ (s : State) (n : Fin 65536) (r : List Byte), s.dev.slotRec n = some r → rb r 1 = 0 → s.dev.running = true → s.dev.now.toNat % 4 = 0 →
    posAt s.dev.now.toNat = rb r 8 → TablesGood s.dev →
    let d := s.dev
    let S := d.now.toNat
    let q := bget (fun _ => []) d.txq n
    let go := q.filter (fun c => decide (c.2.1 ≤ S))
    let p := linkPort (rb r 6) (rb r 7)
    let cell := sealCell (2 ^ 220 + posAt S * 2 ^ 216 + rb r 12 % 64 * 2 ^ 210 + cycAt S % 256 * 2 ^ 200 +
      go.foldl (fun b c => b + (2 ^ 13 + c.2.2.1.toNat * 2 ^ 12 + c.2.2.2 % 4096) * 2 ^ (32 + 14 * c.1)) 0)
    (go = [] ∨ d.b (R.FAB_PORT_STAT.IN_SERVICE p) = false → exec (.decisionSend n) s = .next { s with dev := { d with out := [] } }) ∧
    (go ≠ [] → d.b (R.FAB_PORT_STAT.IN_SERVICE p) = true →
      ∃ t, exec (.decisionSend n) s = .next t ∧ t.dev.out = (copyLanes p (rb r 9)).map (fun l => Out.cell p l cell) ∧
        bget (fun _ => []) t.dev.txq n = q.filter (fun c => decide (S < c.2.1)) ∧ (∀ l ∈ copyLanes p (rb r 9), (t.dev.lane (4 * p + l)).sent = some cell) ∧
        t = { s with dev := { d with txq := t.dev.txq, lanes := t.dev.lanes, out := t.dev.out } })) ∧
  (∀ (s : State) (p : Fin 9) (l : Fin 4) (c : BitVec 224) (r : List Byte), s.dev.hears p = true →
    let d := s.dev
    let S := d.startTick p l
    let b := d.readLine p l c.toNat
    let n := rn r 2 2
    d.slotAt p l (posAt S) = some r → posAt S ≤ 13 → d.now.toNat ≤ S + 160 →
    (cellGood b = true → b / 2 ^ 220 = 1 → bitsOf b 219 216 = posAt S → bitsOf b 207 200 = cycAt S % 256 → bitsOf b 215 210 = rb r 12 % 64 →
      (bget (fun _ => []) d.rx n).find? (fun m => m.start == S) = none →
      ∃ t, exec (.decisionCell p l c) s = .next t ∧ HeardOn p l c.toNat d t.dev ∧
        (bget (fun _ => []) t.dev.rx n).find? (fun m => m.start == S) = some { start := S, copies := [(l.val, b)] } ∧
        (∀ k, k ≠ n → bget (fun _ => []) t.dev.rx k = bget (fun _ => []) d.rx k) ∧ t = { s with dev := { d with rx := t.dev.rx, lanes := t.dev.lanes, out := [] } }) ∧
    (cellGood b = false →
      ∃ t, exec (.decisionCell p l c) s = .next t ∧ HeardOn p l c.toNat d t.dev ∧ BadCopy p l d t.dev ∧
        OnlyFields (R.FAB_EVT.COPY_ERR :: laneErrs p) d t.dev ∧
        t = { s with dev := { d with flds := t.dev.flds, rx := t.dev.rx, lanes := t.dev.lanes, pba := t.dev.pba, evNow := t.dev.evNow, out := [] } })) ∧
  (∀ (s : State) (n : Fin 65536) (r : List Byte) (m : Option Nat), s.dev.slotRec n = some r → rb r 1 = 2 → s.dev.running = true → 180 ≤ s.dev.now.toNat →
    TablesGood s.dev →
    s.dev.message r (s.dev.now.toNat - 180) = some m →
    let d := s.dev
    let now := d.now.toNat
    let p := linkPort (rb r 4) (rb r 5)
    let ports := (d.slotRoutes n).map (fun x => d.routeTo x)
    let lost := m.all (fun b => b.testBit 31)
    d.f R.FAB_CNT.LOST < 2 ^ R.FAB_CNT.LOST.width → d.f (R.FAB_PORT_LOST.LOST p) < 2 ^ (R.FAB_PORT_LOST.LOST p).width →
    ∃ t, exec (.slotDelivery n) s = .next t ∧
      (lost = true → (∀ x ∈ ports.flatten, t.dev.port x = { d.port x with lost := true }) ∧ t.dev.f R.FAB_CNT.LOST = satInc R.FAB_CNT.LOST.width (d.f R.FAB_CNT.LOST) ∧
        t.dev.f (R.FAB_PORT_LOST.LOST p) = satInc (R.FAB_PORT_LOST.LOST p).width (d.f (R.FAB_PORT_LOST.LOST p)) ∧ t.dev.f R.FAB_EVT.LOST = 1 ∧
        OnlyFields [R.FAB_CNT.LOST, R.FAB_EVT.LOST, R.FAB_PORT_LOST.LOST p] d t.dev) ∧
      (lost = false → ∀ (i : Fin 12) (x : Fin 2048), x.val ∈ ports.getD i [] → (∀ j : Fin 12, j ≠ i → x.val ∉ ports.getD j []) →
        let ent := m.getD 0 / 2 ^ (32 + 14 * i.val) % 2 ^ 14
        (ent.testBit 13 = true → t.dev.port x = { val := ent.testBit 12, present := true, lost := false, stamp := BitVec.ofNat 64 (fullStamp now ent) }) ∧
        (ent.testBit 13 = false → ports.length ≤ 12 → t.dev.port x = d.port x)) ∧
      t = { s with dev := { d with flds := t.dev.flds, rx := t.dev.rx, ports := t.dev.ports, pba := t.dev.pba, evNow := t.dev.evNow, out := [] } }) ∧
  ∀ (s : State) (n : Fin 65536) (r : List Byte) (m : Option Nat), s.dev.slotRec n = some r → rb r 1 = 1 → s.dev.running = true → 184 ≤ s.dev.now.toNat →
    TablesGood s.dev →
    s.dev.message r (s.dev.now.toNat - 184) = some m →
    let d := s.dev
    let S := d.now.toNat
    let p := linkPort (rb r 6) (rb r 7)
    let head := fun (hops : Nat) => 2 ^ 220 + posAt S * 2 ^ 216 + rb r 12 % 64 * 2 ^ 210 + hops % 4 * 2 ^ 208 + cycAt S % 256 * 2 ^ 200
    ∃ t, exec (.relaySend n) s = .next t ∧
      (d.b (R.FAB_PORT_STAT.IN_SERVICE p) = false → t.dev.out = []) ∧
      (d.b (R.FAB_PORT_STAT.IN_SERVICE p) = true →
        (∀ b, m = some b → t.dev.out = (copyLanes p (rb r 9)).map (fun l => Out.cell p l (sealCell (head (bitsOf b 209 208 + 1) + b % 2 ^ 200)))) ∧
        (m = none → t.dev.out = (copyLanes p (rb r 9)).map (fun l => Out.cell p l (sealCell (head (Config.freeValue d.freeN) + 2 ^ 31))))) ∧
      t = { s with dev := { d with rx := t.dev.rx, lanes := t.dev.lanes, freeN := t.dev.freeN, out := t.dev.out } }

/-- STATUS and VOTE cells, given as the symbols that come. A cell tells something new where it is the latest one and this is the copy of it that is taken;
that a vote which repeats what the one before it named tells of no new decision is the model's choice (log 237). -/
def Obligations.StatusAndVotes : Prop :=
  (∀ (s : State) (p : Fin 9) (l : Fin 4) (c : BitVec 224), s.dev.hears p = true →
    let d := s.dev
    let S := d.startTick p l
    let b := d.readLine p l c.toNat
    let x := d.statIn p
    let ok := d.statusGood p l b
    let y := x.next S l b
    let news := decide (y.cells.head? ≠ x.cells.head? ∧ y.cells.head? = some (S, l.val, b))
    let src := bitsOf b 215 210
    let told := [R.FAB_PORT_STAT.PLAN_OK p, R.TB_STAT.SYNC_OK, R.FAB_STAT.PORTS_OK, R.GLB_IMG_STAT.PLAN_MISMATCH, R.FAB_EVT.COPY_ERR] ++ laneErrs p
    ∃ t, exec (.statusCell p l c) s = .next t ∧ HeardOn p l c.toNat d t.dev ∧
      (ok = true → t.dev.statIn p = y ∧ (∀ k, k ≠ p.val → t.dev.statIn k = d.statIn k) ∧ t.dev.b (R.FAB_PORT_STAT.PLAN_OK p) =
          (if y.whole.isSome then y.whole == some d.planId else d.b (R.FAB_PORT_STAT.PLAN_OK p)) ∧
        (∀ k b', x.copy S = some (k, b') → b' ≠ b → BadCopy p (max k l) d t.dev) ∧
        (∀ k, news = false → x.copy S = some (k, b) → OnlyFields (told.take 4) d t.dev)) ∧
      (ok = true → news = false → t.dev.sums = d.sums ∧ OnlyFields told d t.dev) ∧
      (ok = true → news = true → t.dev.f (R.FAB_PORT_STAT.NBR_DEV p) = bitsOf b 215 210 ∧ t.dev.f (R.FAB_PORT_STAT.CREDITS p) = bitsOf b 19 16 ∧
        t.dev.b (R.FAB_PORT_STAT.NBR_OK p) = ((d.portRec p).map (fun r => rb r 3) == some (bitsOf b 215 210)) ∧
        t.dev.b (R.FAB_PORT_STAT.EPOCH_OK p) = (bitsOf b 207 144 == S % 2 ^ 64) ∧
        (src < 32 → bitsOf b 111 88 ≠ devName src → bget (fun _ => none) t.dev.sums (p * 2 ^ 24 + devName src) =
          some (if d.running = true ∧ S < d.run.first.toNat then dropFlags (bitsOf b 143 112) else bitsOf b 143 112, d.age - (d.now.toNat - S))) ∧
        OnlyFields ([R.FAB_PORT_STAT.NBR_DEV p, R.FAB_PORT_STAT.NBR_OK p, R.FAB_PORT_STAT.EPOCH_OK p, R.FAB_PORT_STAT.CREDITS p] ++ told) d t.dev) ∧
      (ok = false → BadCopy p l d t.dev ∧ t.dev.stats = d.stats ∧ t.dev.sums = d.sums ∧ OnlyFields (R.FAB_EVT.CYC_ERR :: told.drop 4) d t.dev ∧
        (cellGood b = true → b / 2 ^ 220 = 2 → bitsOf b 219 216 ≠ posAt S → t.dev.f R.FAB_EVT.CYC_ERR = 1)) ∧
      t = { s with dev := { d with flds := t.dev.flds, stats := t.dev.stats, sums := t.dev.sums, lanes := t.dev.lanes, pba := t.dev.pba, evNow := t.dev.evNow, out := [] } }) ∧
  ∀ (s : State) (p : Fin 9) (l : Fin 4) (c : BitVec 224), s.dev.hears p = true →
    let d := s.dev
    let b := d.readLine p l c.toNat
    let v := voteOf b (d.startTick p l) l
    let old := bget (fun _ => none) d.votes p
    let split := d.voted.any (fun x => decide (x.1 < v.start) && v.prev == x.1 % 65536 && v.pass != x.2) && old.all (fun o => o.prev != v.prev || o.pass != v.pass)
    ∃ t, exec (.voteCell p l c) s = .next t ∧ HeardOn p l c.toNat d t.dev ∧
      (d.voteGood p l b = false → BadCopy p l d t.dev ∧
        (cellGood b = true → b / 2 ^ 220 = 3 → bitsOf b 219 216 ≠ posAt v.start → t.dev.f R.FAB_EVT.CYC_ERR = 1) ∧
        OnlyFields ([R.FAB_EVT.CYC_ERR, R.FAB_EVT.COPY_ERR] ++ laneErrs p) d t.dev ∧
        t = { s with dev := { d with flds := t.dev.flds, lanes := t.dev.lanes, pba := t.dev.pba, evNow := t.dev.evNow, out := [] } }) ∧
      (d.voteGood p l b = true →
        ((v.start + 64 < v.cand ∨ v.cand ≤ v.start) → (∀ x, old = some x → x.start < v.start ∨ v.start + 512 < x.start ∨ (x.start = v.start ∧ l < x.copy.1)) →
          bget (fun _ => none) t.dev.votes p = some v) ∧
        (d.running = true ∧ split = true → ∀ e ∈ d.streams64, (d.eng e).live = true → d.f (R.SCH_STAT.STATE e) ≠ 3 → Halted e 4 t.dev) ∧
        (d.running = true ∧ split = false ∧ v.void = true → ∀ e ∈ d.streams64, (d.eng e).live = true → (d.eng e).snap.dom = 2 →
          (d.eng e).snap.b0.toNat = v.vbase → (d.eng e).safe.any SafePoint.rep = false → (t.dev.eng e).notice = true) ∧
        (d.running = false → (∀ x, old = some x → x.start = v.start → x.copy.2 ≠ b → BadCopy p (max x.copy.1 l) d t.dev) ∧
          OnlyFields (R.FAB_EVT.COPY_ERR :: laneErrs p) d t.dev ∧
          t = { s with dev := { d with flds := t.dev.flds, votes := t.dev.votes, lanes := t.dev.lanes, pba := t.dev.pba, evNow := t.dev.evNow, out := [] } }))

/-- Anise mode's cells, given as the symbols that come. The GRANT and timeout clauses are of an engine with no fork waiting on its handshakes; R347's forks are
ForksAndEnd's. The lanes a CREDIT cell takes (log 166), that it spends a credit (log 134), and which handshake a GRANT answers (log 196), is the model's choice. -/
def Obligations.AniseCells : Prop :=
  (∀ (s : State) (p : Fin 9), s.dev.b R.TB_STAT.AWAKE = true → s.dev.now.toNat % 4 = 0 → posAt s.dev.now.toNat ≤ 13 →
    s.dev.b (R.FAB_PORT_STAT.IN_SERVICE p) = true → bget (fun _ => 0) s.dev.credit p ≠ 0 →
    let d := s.dev
    let owed := bget (fun _ => 0) d.credit (16 + p)
    let sent := fun (lane c : Nat) (a : Anise) (t : State) =>
      t.dev.out = (copyLanes p lane).map (fun l => Out.cell p l (sealCell (c + min 7 owed * 2 ^ 68))) ∧
      bget (fun _ => 0) t.dev.credit p = bget (fun _ => 0) d.credit p - 1 ∧ bget (fun _ => 0) t.dev.credit (16 + p) = owed - min 7 owed ∧
      t.dev.anise = a ∧ t = { s with dev := { d with credit := t.dev.credit, anise := t.dev.anise, lanes := t.dev.lanes, out := t.dev.out } }
    (∀ (ln c : Nat), d.anise.out.find? (fun x => x.1 == p.val && d.laneFree p x.2.1) = some (p.val, ln, c) →
      ∃ t, exec (.aniseSend p) s = .next t ∧ sent ln c { d.anise with out := d.anise.out.erase (p.val, ln, c) } t) ∧
    (d.anise.out.any (fun x => x.1 == p.val) = false → owed ≠ 0 → d.laneFree p (d.aniseLane p) = true →
      ∃ t, exec (.aniseSend p) s = .next t ∧ sent (d.aniseLane p) (aniseCell 3 d.dev 0 0 0 0 0 0 0 false) d.anise t)) ∧
  (∀ (s : State) (p : Fin 9) (l : Fin 4) (c : BitVec 224),
    let d := s.dev
    let b := d.readLine p l c.toNat
    (AniseGood d p l b 3 → ∃ t, exec (.aniseCredit p l c) s = .next t ∧ AniseTaken p l b d t.dev ∧ HeardOn p l c.toNat d t.dev ∧
      t = { s with dev := { d with lanes := t.dev.lanes, credit := t.dev.credit, anise := { d.anise with seen := t.dev.anise.seen }, out := [] } }) ∧
    (∀ n, AniseGood d p l b 1 → d.reqPort b = some n →
      let now := (bget (fun _ => none) d.codes n).filter (fun x => decide (bitsOf b 135 72 ≤ x.2))
      let grant := fun (x : Bool × Nat) => aniseCell 2 d.dev 0 (bitsOf b 207 200) (bitsOf b 199 176) (bitsOf b 175 168) (bitsOf b 167 144) (bitsOf b 143 136) x.2 x.1
      ∃ t, exec (.aniseRequest p l c) s = .next t ∧ AniseTaken p l b d t.dev ∧ HeardOn p l c.toNat d t.dev ∧
        t.dev.anise.out = d.anise.out ++ (now.map (fun x => (p.val, laneHead p l, grant x))).toList ∧ t.dev.anise.asked = d.anise.asked ++ (if now.isSome then [] else [(p.val, laneHead p l, b)]) ∧
        t = { s with dev := { d with lanes := t.dev.lanes, credit := t.dev.credit, anise := { d.anise with seen := t.dev.anise.seen, out := t.dev.anise.out, asked := t.dev.anise.asked }, out := [] } }) ∧
    (AniseGood d p l b 2 → bitsOf b 167 160 % 64 = d.dev % 64 →
      (d.granted b = none →
        ∃ t, exec (.aniseGrant p l c) s = .next t ∧ AniseTaken p l b d t.dev ∧ HeardOn p l c.toNat d t.dev ∧ t.dev.f R.FAB_EVT.ANISE_STRAY = 1 ∧ OnlyFields [R.FAB_EVT.ANISE_STRAY] d t.dev ∧
          t = { s with dev := { d with flds := t.dev.flds, lanes := t.dev.lanes, credit := t.dev.credit, anise := { d.anise with seen := t.dev.anise.seen }, pba := t.dev.pba, evNow := t.dev.evNow, out := [] } }) ∧
      ∀ h, d.granted b = some h → (d.eng h.e).anise = none →
        ∃ t, exec (.aniseGrant p l c) s = .next t ∧ AniseTaken p l b d t.dev ∧ HeardOn p l c.toNat d t.dev ∧
          t.dev.port h.port = { val := b.testBit 71, present := true, lost := false, stamp := BitVec.ofNat 64 (bitsOf b 135 72) } ∧
          t.dev.anise.shakes.length + 1 = d.anise.shakes.length ∧
          t = { s with dev := { d with flds := t.dev.flds, lanes := t.dev.lanes, credit := t.dev.credit, anise := t.dev.anise, ports := t.dev.ports, pba := t.dev.pba, evNow := t.dev.evNow, out := [] } })) ∧
  ∀ (s : State) (e : Fin 64) (sel : Fin 32) (h : Shake), s.dev.anise.shakes.find? (fun h => h.asked && h.e == e.val && h.port == 32 * e.val + sel.val && decide (h.since + 32000 ≤ s.dev.now.toNat)) = some h →
    (s.dev.eng e).anise = none → s.dev.f R.FAB_ANISE.TIMEOUTS < 2 ^ R.FAB_ANISE.TIMEOUTS.width →
    let d := s.dev
    ∃ t, exec (.aniseTimeout e sel) s = .next t ∧ t.dev.port h.port = { d.port h.port with lost := true } ∧ t.dev.f R.FAB_EVT.ANISE_TIMEOUT = 1 ∧
      t.dev.f R.FAB_ANISE.TIMEOUTS = satInc R.FAB_ANISE.TIMEOUTS.width (d.f R.FAB_ANISE.TIMEOUTS) ∧ t.dev.anise.shakes.length + 1 = d.anise.shakes.length ∧
      OnlyFields [R.FAB_ANISE.TIMEOUTS, R.FAB_ANISE.MAX_OUT, R.FAB_EVT.ANISE_TIMEOUT] d t.dev ∧
      t = { s with dev := { d with flds := t.dev.flds, anise := t.dev.anise, ports := t.dev.ports, pba := t.dev.pba, evNow := t.dev.evNow, out := [] } }

/-- Range switches and monitor visits. -/
def Obligations.RangesAndMonitor : Prop :=
  (∀ (s : State) (c : Fin 256) (t0 : Nat), bget (fun _ => none) s.dev.rangeT0 c = some t0 → t0 + 1000 ≤ s.dev.age →
    let d := s.dev
    (∃ t, exec (.rangeGainSwitch c) s = .next t ∧ t.dev.b (R.FLX_OUT_STAT.RANGE c) = d.rangeOf c ∧ OnlyFields [R.FLX_OUT_STAT.RANGE c] d t.dev ∧
      t = { s with dev := { d with flds := t.dev.flds, out := [] } }) ∧
    (t0 + 3000 ≤ d.age → d.b (R.FLX_OUT_STAT.RANGE c) = d.rangeOf c →
      ∃ t, exec (.rangeClampRelease c) s = .next t ∧ bget (fun _ => none) t.dev.rangeT0 c = none ∧
        t.dev.clampOf (fluxKey c) = d.clampOf (fluxKey c) &&& 0xEF ∧ (∀ k, k ≠ fluxKey c → t.dev.clampOf k = d.clampOf k) ∧
        OnlyFields [R.FLX_OUT_STAT.CLAMPED c, R.FLX_OUT_STAT.CLAMP_WHY c, R.FLX_OUT_STAT.MON_FAULT c] d t.dev ∧
        t = { s with dev := { d with flds := t.dev.flds, rangeT0 := t.dev.rangeT0, clamps := t.dev.clamps, steady := t.dev.steady, out := [] } })) ∧
  ∀ (s : State) (c : Fin 256) (v : Int), s.dev.b R.TB_STAT.AWAKE = true → s.dev.domOn 7 = true → s.dev.monNext (c / 64) (s.dev.mon (c / 64)).next = some (c % 64) →
    let d := s.dev
    let q := c.val / 64
    let k := fluxKey c
    let err := (v - d.monExpect c).natAbs
    let second := fun (n : Nat) => bget (fun _ => 0) d.monErr c = n
    let lap := [R.MON_STAT.LAP q, R.MON_LAPS.LAPS q, R.FLX_MON_CNT.UNSTABLE c]
    let meas := [R.FLX_MON.MEAS c, R.FLX_MON.EXPECT c, R.FLX_MON_CNT.VALID c] ++ lap
    let warn := [R.FLX_OUT_STAT.MON_WARN c, R.FLX_EVT.MON_WARN (c / 8), R.FLX_MON_CNT.WARNS c]
    (d.age < bget (fun _ => 0) d.steady c + 2000 →
      ∃ t, exec (.monitorVisit c v) s = .next t ∧ t.dev.f (R.FLX_MON_CNT.UNSTABLE c) = 1 ∧ OnlyFields lap d t.dev ∧
        t = { s with dev := { d with flds := t.dev.flds, mons := t.dev.mons, out := [] } }) ∧
    (bget (fun _ => 0) d.steady c + 2000 ≤ d.age → d.f (R.FLX_MON_CNT.WARNS c) < 2 ^ (R.FLX_MON_CNT.WARNS c).width →
      ∃ t, exec (.monitorVisit c v) s = .next t ∧ t.dev.f (R.FLX_MON.MEAS c) = patternOf 16 v % 2 ^ 16 ∧
        t.dev.f (R.FLX_MON.EXPECT c) = patternOf 16 (d.monExpect c) % 2 ^ 16 ∧ t.dev.f (R.FLX_MON_CNT.VALID c) = 1 ∧ t.dev.f (R.FLX_MON_CNT.UNSTABLE c) = 0 ∧
        (clamped (d.clampOf k) = false →
          (d.f (R.MON_WIN.WARN q) < err → t.dev.f (R.FLX_OUT_STAT.MON_WARN c) = 1 ∧ t.dev.f (R.FLX_EVT.MON_WARN (c / 8)) = 1 ∧
            t.dev.f (R.FLX_MON_CNT.WARNS c) = satInc (R.FLX_MON_CNT.WARNS c).width (d.f (R.FLX_MON_CNT.WARNS c))) ∧
          (err ≤ d.f (R.MON_WIN.WARN q) → t.dev.f (R.FLX_MON_CNT.WARNS c) = d.f (R.FLX_MON_CNT.WARNS c)) ∧
          (d.f (R.MON_WIN.FAULT q) < err ∧ second 1 → (t.dev.clampOf k).testBit 2 = true ∧ t.dev.f (R.FLX_EVT.MON_FAULT (c / 8)) = 1 ∧ bget (fun _ => 0) t.dev.monErr c = 0) ∧
          (d.f (R.MON_WIN.FAULT q) < err ∧ ¬ second 1 → t.dev.clamps = d.clamps ∧ bget (fun _ => 0) t.dev.monErr c = 1) ∧
          (err ≤ d.f (R.MON_WIN.FAULT q) → bget (fun _ => 0) t.dev.monErr c = 0 ∧ OnlyFields (meas ++ warn) d t.dev ∧
            (t.dev.calPath (calKey 2 c)).visits = (d.calPath (calKey 2 c)).visits + 1 ∧
            t = { s with dev := { d with flds := t.dev.flds, mons := t.dev.mons, monErr := t.dev.monErr, calPaths := t.dev.calPaths, pba := t.dev.pba, evNow := t.dev.evNow, out := [] } })) ∧
        (clamped (d.clampOf k) = true →
          (26 < err ∧ second 2 → t.dev.f (R.FLX_EVT.CLAMP_FAULT (c / 8)) = 1 ∧ bget (fun _ => 0) t.dev.monErr c = 0 ∧
            ((d.clampOf k).testBit 0 = false → (t.dev.clampOf k).testBit 0 = true ∧ (t.dev.f (R.WATCH_DISC.OPEN (c / 32))).testBit (c % 32) = true)) ∧
          (26 < err ∧ ¬ second 2 → t.dev.clamps = d.clamps ∧ bget (fun _ => 0) t.dev.monErr c = 2) ∧
          (err ≤ 26 → bget (fun _ => 0) t.dev.monErr c = 0 ∧ OnlyFields meas d t.dev ∧
            t = { s with dev := { d with flds := t.dev.flds, mons := t.dev.mons, monErr := t.dev.monErr, out := [] } })))

/-- Settings of the RF outputs. That a held value takes effect also after a start that was withdrawn or refused, and which tick may apply it, is the model's choice
(log 169). -/
def Obligations.OutputSettings : Prop :=
  (∀ (s : State) (c : Fin 160) (data : Word), s.dev.domOn (domainOf (R.NCO_OUT_CFG.MODE c).off) = true → data.toNat % 4 < 2 →
    let d := s.dev
    let v := (bitsOf data.toNat 25 16, bitsOf data.toNat 13 8, data.toNat % 4)
    let held := d.running || d.b R.GLB_RUN_STAT.PENDING
    let force := (d.outCfg c).force
    ∃ t, exec (.outCfgWrite c 15 data) s = .next t ∧ (t.dev.f (R.NCO_OUT_CFG.DLY c), t.dev.f (R.NCO_OUT_CFG.FS_TRIM c), t.dev.f (R.NCO_OUT_CFG.MODE c)) = v ∧
      t.dev.b (R.NCO_OUT_CFG.PENDING c) = (held && v != force) ∧
      t.dev.outCfg c = (if held ∨ v = force then { d.outCfg c with ripe := false } else { force := v, since := d.age }) ∧
      t.dev.f (R.NCO_OUT_CFG.SETTLING c) = (if held ∨ v = force then d.f (R.NCO_OUT_CFG.SETTLING c) else 1) ∧
      (∀ k, k ≠ c.val → t.dev.outCfg k = d.outCfg k) ∧
      OnlyFields [R.NCO_OUT_CFG.DLY c, R.NCO_OUT_CFG.FS_TRIM c, R.NCO_OUT_CFG.MODE c, R.NCO_OUT_CFG.PENDING c, R.NCO_OUT_CFG.SETTLING c] d t.dev ∧
      t = { s with dev := { d with flds := t.dev.flds, outCfgs := t.dev.outCfgs, again := [], evNow := [], out := [] } }) ∧
  (∀ (s : State) (c : Fin 160),
    let d := s.dev
    let v := (d.f (R.NCO_OUT_CFG.DLY c), d.f (R.NCO_OUT_CFG.FS_TRIM c), d.f (R.NCO_OUT_CFG.MODE c))
    let due := d.b (R.NCO_OUT_CFG.PENDING c) = true ∧ (d.outCfg c).ripe = true ∧ d.running = false ∧ d.endTick = false
    (¬ due → exec (.outCfgApply c) s = .next { s with dev := { d with out := [] } }) ∧
    (due →
      ∃ t, exec (.outCfgApply c) s = .next t ∧ t.dev.f (R.NCO_OUT_CFG.PENDING c) = 0 ∧ (∀ k, k ≠ c.val → t.dev.outCfg k = d.outCfg k) ∧
        t.dev.outCfg c = (if v = (d.outCfg c).force then { d.outCfg c with ripe := false } else { force := v, since := d.age }) ∧
        t.dev.f (R.NCO_OUT_CFG.SETTLING c) = (if v = (d.outCfg c).force then d.f (R.NCO_OUT_CFG.SETTLING c) else 1) ∧
        OnlyFields [R.NCO_OUT_CFG.PENDING c, R.NCO_OUT_CFG.SETTLING c] d t.dev ∧ t = { s with dev := { d with flds := t.dev.flds, outCfgs := t.dev.outCfgs, out := [] } })) ∧
  ∀ (s : State) (c : Fin 160), s.dev.b (R.NCO_OUT_CFG.SETTLING c) = true → (s.dev.outCfg c).since + 2000 ≤ s.dev.age →
    ∃ t, exec (.settleEnd c) s = .next t ∧ t.dev.f (R.NCO_OUT_CFG.SETTLING c) = 0 ∧ OnlyFields [R.NCO_OUT_CFG.SETTLING c] s.dev t.dev ∧
      t = { s with dev := { s.dev with flds := t.dev.flds, out := [] } }

/-- Calibration's estimates and steps. It is the model's choice that an estimate that is rejected ends the movement towards the pair before it (log 210), that
the goal is either of the two estimates (log 170), that a class which stops does so for the triggers that hold (log 173), and that what a window of LOOP_CONV's
time gives is open (log 246). -/
def Obligations.CalibrationSteps : Prop :=
  (∀ (s : State) (c : Fin 8) (p : Fin 512) (vs : List Int), s.dev.loopIn c p = true →
    ∃ t, exec (.bgEstimate c p vs) s = .next t ∧ (∀ i, i ≠ calKey c p → t.dev.calPath i = s.dev.calPath i) ∧
      (Config.freeValue s.dev.freeN % 2 = 1 → t = { s with dev := { s.dev with freeN := s.dev.freeN + 1, out := [] } })) ∧
  (∀ (s : State) (c : Fin 8) (p : Fin 512) (vs : List Int), c.val < 3 → p.val < calPathsOf c → s.dev.b R.TB_STAT.AWAKE = true → s.dev.pathOn c p = true →
    s.dev.loopIn c p = false → s.dev.bgOver c p = true → s.dev.f R.CAL_CNT.REJECTS < 2 ^ R.CAL_CNT.REJECTS.width →
    let d := s.dev
    let k := calKey c p
    let x := { d.calPath k with win := d.power.awakeTicks, visits := 0, low := 0, high := 0 }
    let new := d.bgQuantities c p vs
    ∃ t, exec (.bgEstimate c p vs) s = .next t ∧ (∀ i, i ≠ k → t.dev.calPath i = d.calPath i) ∧
      (vs = [] → t.dev.calPath k = { x with goal := none } ∧ t = { s with dev := { d with calPaths := t.dev.calPaths, out := [] } }) ∧
      (vs ≠ [] → x.est = none → t.dev.calPath k = { x with est := some new }) ∧
      (∀ e, vs ≠ [] → x.est = some e →
        let n := min new.length e.length
        let agree := (new.length = calQuantities c ∨ c.val = 2 ∧ new.length = 1) ∧ ∀ i, i < n → quantityAgrees c i (e.getD i 0) (new.getD i 0) = true
        let next := some (new ++ e.drop new.length)
        (agree → (t.dev.calPath k).goal.isSome = true ∧ t.dev.calPath k = { x with est := next, rej := 0, stale := false, goal := (t.dev.calPath k).goal } ∧
          ((t.dev.calPath k).goal.getD []).length = n ∧
          ∀ i, i < n → ((t.dev.calPath k).goal.getD []).getD i 0 = new.getD i 0 ∨ ((t.dev.calPath k).goal.getD []).getD i 0 = e.getD i 0) ∧
        (¬ agree → t.dev.calPath k = { x with est := next, rej := min 3 (x.rej + 1), stale := x.stale || decide (3 ≤ x.rej + 1), goal := none } ∧
          t.dev.f R.CAL_EVT.CAL_REJECT = 1 ∧ t.dev.f R.CAL_CNT.REJECTS = satInc R.CAL_CNT.REJECTS.width (d.f R.CAL_CNT.REJECTS))) ∧
      OnlyFields ((if c.val = 0 then [R.CAL_ADC_Q.IL_SPUR p] else []) ++ [R.CAL_CNT.REJECTS, R.CAL_EVT.CAL_REJECT, R.CAL_STAT.PEND_TEMP, R.CAL_STAT.STALE]) d t.dev ∧
      t = { s with dev := { d with flds := t.dev.flds, calPaths := t.dev.calPaths, freeN := t.dev.freeN, pba := t.dev.pba, evNow := t.dev.evNow, out := [] } }) ∧
  (∀ (s : State) (c : Fin 8) (p : Fin 512), s.dev.b R.TB_STAT.AWAKE = true → s.dev.calib.steps.any (fun x => x.1 == 6) = false →
    let d := s.dev
    let tl := calTile c p
    (3 ≤ c.val ∧ c.val ≤ 5 ∧ d.tileOn tl = true ∧ d.calib.steps.any (fun x => calTile x.1 x.2.1 == tl) = false ∧
      (calOrder tl).find? (fun x => d.calWants x.1 x.2 && d.calPermits x.1 x.2) = some (c.val, p.val)) ∨
    (c.val = 6 ∧ p.val = 0 ∧ d.calWants 6 0 = true ∧ d.running = false ∧ d.calib.steps = []) →
    ∃ t, exec (.calStep c p) s = .next t ∧ t.dev.calib = { d.calib with steps := d.calib.steps ++ [(c.val, p.val, d.age)] } ∧
      t.dev.calPath (calKey c p) = { d.calPath (calKey c p) with since := d.calib.runTicks } ∧ (∀ i, i ≠ calKey c p → t.dev.calPath i = d.calPath i) ∧
      t = { s with dev := { d with calib := t.dev.calib, calPaths := t.dev.calPaths, out := [] } }) ∧
  (∀ (s : State) (c : Fin 8) (p : Fin 512) (a b : List Int) (x : Nat × Nat × Nat), s.dev.calib.steps.find? (fun y => y.1 == c.val && y.2.1 == p.val) = some x →
    s.dev.stepOn x = false → (s.dev.calPath (calKey c p)).again = false → s.dev.f R.CAL_CNT.REJECTS < 2 ^ R.CAL_CNT.REJECTS.width → s.dev.f R.CAL_CNT.COMPLETIONS < 2 ^ R.CAL_CNT.COMPLETIONS.width →
    let d := s.dev
    let k := calKey c p
    let y := d.calPath k
    let ok := calAgree c (d.measured c) a b
    let lastStep := decide (calSteps c ≤ y.step + 1)
    let others := fun (t : State) => ∀ i, i ≠ k → t.dev.calPath i = d.calPath i
    ∃ t, exec (.calStepDone c p a b) s = .next t ∧ t.dev.calib.steps = d.calib.steps.filter (fun z => z != x) ∧
      (ok = true ∧ lastStep = false → t.dev.calPath k = { y with step := y.step + 1, rej := 0 } ∧ others t ∧ (c.val ≠ 3 → t.dev.tiles = d.tiles) ∧
        t = { s with dev := { d with calib := t.dev.calib, calPaths := t.dev.calPaths, tiles := t.dev.tiles, out := [] } }) ∧
      (ok = true ∧ lastStep = true → d.running = true ∨ d.coeffBad = none →
        t.dev.calPath k = { y with pend := false, fg := false, step := 0, rej := 0, stale := false, stopT := false, stopM := false,
                                   tref := some (d.pathTemp c p), last := some d.age } ∧ others t ∧
        t.dev.calib.done = (if y.fg then d.calib.done ||| 2 ^ c.val else d.calib.done) ∧ (c.val = 3 → p.val < 32 → t.dev.f (R.CAL_AGE.ADC p) = 0) ∧
        t.dev.calib.changed = d.calib.changed ||| 2 ^ d.f R.CAL_STAT.BAND ∧
        t.dev.f R.CAL_CNT.COMPLETIONS = satInc R.CAL_CNT.COMPLETIONS.width (d.f R.CAL_CNT.COMPLETIONS)) ∧
      (ok = false → t.dev.f R.CAL_EVT.CAL_REJECT = 1 ∧ t.dev.f R.CAL_CNT.REJECTS = satInc R.CAL_CNT.REJECTS.width (d.f R.CAL_CNT.REJECTS) ∧
        t.dev.calPath k = (if y.rej + 1 < 3 then { y with rej := y.rej + 1 }
          else { y with pend := false, fg := false, step := 0, rej := 0, stale := true, stopT := d.tempTrigger c p, stopM := d.maxintTrigger c p }) ∧ others t ∧
        (3 ≤ y.rej + 1 ∧ d.b R.CAL_STAT.FG_BUSY = true ∧ y.fg = true ∧ (d.calib.req.testBit c || d.calib.req.testBit 7) = true → (t.dev.f R.CAL_REQ_STAT.REJECTED).testBit c = true) ∧
        OnlyFields [R.CAL_CNT.REJECTS, R.CAL_EVT.CAL_REJECT, R.CAL_REQ_STAT.REJECTED, R.CAL_STAT.PEND_TEMP, R.CAL_STAT.STALE] d t.dev ∧
        t = { s with dev := { d with flds := t.dev.flds, calib := t.dev.calib, calPaths := t.dev.calPaths, tiles := t.dev.tiles, pba := t.dev.pba, evNow := t.dev.evNow, out := [] } })) ∧
  (∀ (s : State) (c : Fin 8), 3 ≤ c.val → c.val ≤ 5 →
    let d := s.dev
    ∃ t, exec (.calMaxint c) s = .next t ∧
      (∀ p, p < calPathsOf c → (t.dev.calPath (calKey c p)).pend =
        ((d.calPath (calKey c p)).pend || (d.maxintTrigger c p && !(d.calPath (calKey c p)).stopM))) ∧
      OnlyFields [R.CAL_STAT.PEND_TEMP, R.CAL_STAT.STALE] d t.dev ∧ t = { s with dev := { d with flds := t.dev.flds, calPaths := t.dev.calPaths, out := [] } }) ∧
  ∀ (s : State) (c : Fin 8) (p : Nat), s.dev.running = true → p < calPathsOf c → (s.dev.calPath (calKey c p)).pend = true →
    (s.dev.calPath (calKey c p)).since + s.dev.maxint ≤ s.dev.calib.runTicks →
    ∃ t, exec (.gapStarved c) s = .next t ∧ t.dev.f R.CAL_EVT.GAP_STARVED = 1 ∧ OnlyFields [R.CAL_EVT.GAP_STARVED] s.dev t.dev ∧
      t = { s with dev := { s.dev with flds := t.dev.flds, pba := t.dev.pba, evNow := t.dev.evNow, out := [] } }

/-- Calibration requests and the record. Which classes DONE names is the model's reading (log 211), and that a request while another is under way adds its
classes is its choice (log 72). -/
def Obligations.CalibrationRequests : Prop :=
  (∀ (s : State) (data : Word), s.dev.domOn (domainOf R.CAL_REQ.GO.off) = true → data.toNat.testBit 31 = true →
    let d := s.dev
    let m := 8 * bitsOf data.toNat 7 3
    let held := d.running || d.b R.GLB_RUN_STAT.PENDING
    ∃ t, exec (.calRequest data) s = .next t ∧ t.dev.f R.CAL_REQ.CLASSES = bitsOf data.toNat 7 3 ∧
      (held = true → t.dev.f R.CAL_REQ_STAT.RESULT = 2 ∧ t.dev.f R.CAL_REQ_STAT.PENDING = (d.f R.CAL_REQ_STAT.PENDING ||| m) % 256 ∧
        OnlyFields [R.CAL_REQ.CLASSES, R.CAL_REQ_STAT.RESULT, R.CAL_REQ_STAT.PENDING] d t.dev ∧ t = { s with dev := { d with flds := t.dev.flds, again := [], evNow := [], out := [] } }) ∧
      (held = false → t.dev.f R.CAL_REQ_STAT.RESULT = 1 ∧ t.dev.f R.CAL_STAT.FG_BUSY = 1 ∧ t.dev.calib.req = d.calib.req ||| m ∧
        (d.b R.CAL_STAT.FG_BUSY = false → t.dev.f R.CAL_REQ_STAT.DONE = 0 ∧ t.dev.calib.done = 0) ∧
        (d.b R.TB_STAT.AWAKE = true → t.dev.calib.wait = false ∧ ∀ c ∈ [3, 4, 5, 6], ∀ p, p < calPathsOf c → (m.testBit c || m.testBit 7) = true → d.pathOn c p = true →
          (t.dev.calPath (calKey c p)).fg = true ∧ (t.dev.calPath (calKey c p)).step = 0) ∧
        (d.b R.TB_STAT.AWAKE = false → t.dev.calib.wait = true ∧ t.dev.calPaths = d.calPaths ∧
          t.dev.power = (if d.f R.PWR_STAT.STATE = 0 ∨ d.f R.PWR_STAT.STATE = 3 then { d.power with wakeReq := true } else d.power)) ∧
        OnlyFields [R.CAL_REQ.CLASSES, R.CAL_REQ_STAT.RESULT, R.CAL_REQ_STAT.DONE, R.CAL_REQ_STAT.REJECTED, R.CAL_STAT.FG_BUSY, R.CAL_STAT.PEND_TEMP, R.CAL_STAT.STALE,
          R.PWR_STAT.WAIT] d t.dev ∧
        t = { s with dev := { d with flds := t.dev.flds, calib := t.dev.calib, calPaths := t.dev.calPaths, power := t.dev.power, again := [], evNow := [], out := [] } })) ∧
  (∀ s : State, s.dev.f R.CAL_REQ_STAT.PENDING ≠ 0 → s.dev.running = false → s.dev.b R.GLB_RUN_STAT.PENDING = false →
    s.dev.endTick = false →
    let d := s.dev
    ∃ t, exec .calDeferredStart s = .next t ∧ t.dev.f R.CAL_REQ_STAT.PENDING = 0 ∧ t.dev.f R.CAL_REQ_STAT.RESULT = 1 ∧ t.dev.f R.CAL_STAT.FG_BUSY = 1 ∧
      t.dev.calib.req = d.calib.req ||| d.f R.CAL_REQ_STAT.PENDING ∧
      OnlyFields [R.CAL_REQ_STAT.PENDING, R.CAL_REQ_STAT.RESULT, R.CAL_REQ_STAT.DONE, R.CAL_REQ_STAT.REJECTED, R.CAL_STAT.FG_BUSY, R.CAL_STAT.PEND_TEMP, R.CAL_STAT.STALE,
        R.PWR_STAT.WAIT] d t.dev ∧
      t = { s with dev := { d with flds := t.dev.flds, calib := t.dev.calib, calPaths := t.dev.calPaths, power := t.dev.power, out := [] } }) ∧
  (∀ s : State, (s.dev.b R.CAL_STAT.FG_BUSY || s.dev.b R.CAL_STAT.INITIAL) = true → s.dev.calib.wait = false → s.dev.fgOpen = false → s.dev.calib.steps = [] →
    s.dev.calib.req < 256 →
    let d := s.dev
    ∃ t, exec .fgCalDone s = .next t ∧ t.dev.f R.CAL_STAT.FG_BUSY = 0 ∧ t.dev.f R.CAL_STAT.INITIAL = 0 ∧ t.dev.calib.req = 0 ∧
      (d.b R.CAL_STAT.FG_BUSY = true → t.dev.f R.CAL_REQ_STAT.RESULT = 3 ∧ t.dev.f R.CAL_REQ_STAT.DONE = d.calib.req &&& (d.calib.done ||| 128)) ∧
      OnlyFields [R.CAL_STAT.FG_BUSY, R.CAL_STAT.INITIAL, R.CAL_REQ_STAT.RESULT, R.CAL_REQ_STAT.DONE, R.CAL_STAT.PEND_TEMP, R.CAL_STAT.STALE] d t.dev ∧
      t = { s with dev := { d with flds := t.dev.flds, calib := t.dev.calib, calPaths := t.dev.calPaths, out := [] } }) ∧
  ∀ s : State, s.dev.calib.changed.testBit (s.dev.f R.CAL_STAT.BAND) = true → s.dev.running = false → s.dev.f R.CAL_STAT.BAND < 5 →
    s.dev.calib.commits.length = 5 →
    (s.dev.calib.commits.getD (s.dev.f R.CAL_STAT.BAND) none).all (fun c => decide (c + 1200000000000 ≤ s.dev.age)) = true →
    let d := s.dev
    let band := d.f R.CAL_STAT.BAND
    let room := d.keep.wear ≠ 2 ∧ (d.keep.queue.length < 16 ∨ d.keep.queue.any (fun r => r.cls == 1 && r.key == band && r.phase == 0) = true)
    (room → ∃ t, exec .calRecordCommit s = .next t ∧ t.dev.keep.queue.any (fun r => r.cls == 1 && r.key == band && r.body == d.calBody) = true ∧
      t.dev.calib.changed.testBit band = false ∧ t.dev.calib.commits.getD band none = some d.age ∧ OnlyFields [R.KEEP_STAT.QUEUE] d t.dev ∧
      t = { s with dev := { d with flds := t.dev.flds, calib := t.dev.calib, keep := t.dev.keep, portUps := t.dev.portUps, out := [] } }) ∧
    (¬ room → exec .calRecordCommit s = .next { s with dev := { d with out := [] } })

/-- Temperature samples and bands. -/
def Obligations.SamplesAndBands : Prop :=
  (∀ (s : State) (temps : List Int), s.dev.thermal.hist.length = 12 →
    let d := s.dev
    ∃ t, exec (.sensorSample temps) s = .next t ∧
      (∀ i : Fin 12, t.dev.f (R.THM_SENS.TEMP i) = patternOf 16 (temps.getD i 0) % 2 ^ 16 ∧ t.dev.readings i = (temps.getD i 0 :: d.readings i).take 64 ∧
        t.dev.b (R.THM_SENS.VALID i) = t.dev.sensorOk i) ∧ t.dev.thermal.fresh = min 64 (d.thermal.fresh + 1) ∧
      (∀ i : Fin 12, t.dev.hottest = some i.val →
        let temp := temps.getD i 0
        let b := d.f R.THM_STAT.BAND
        let k := targetBand b temp
        t.dev.f R.THM_MAX.ID = i.val ∧ t.dev.f R.THM_MAX.TEMP = patternOf 16 temp % 2 ^ 16 ∧
        (d.thermal.first = false → t.dev.f R.THM_STAT.BAND = risen 0 temp ∧ t.dev.thermal.first = true) ∧
        (d.thermal.first = true → t.dev.f R.THM_STAT.BAND = b ∧ t.dev.thermal.target = k ∧
          t.dev.f R.THM_STAT.DWELL = (if k = b then 0 else if k = d.thermal.target then min 250 (d.f R.THM_STAT.DWELL + 1) else 1))) ∧
      (t.dev.maxRate = none → t.dev.f R.THM_MAX.RATE = 0 ∧ OnlyFields ([R.THM_MAX.ID, R.THM_MAX.TEMP, R.THM_MAX.RATE, R.THM_PEAK.PEAK, R.THM_STAT.BAND, R.THM_STAT.DWELL, R.THM_STAT.RATE_SUPP, R.THM_STAT.RATE_WARN,
          R.THM_STAT.RATE_CLAMP, R.CAL_STAT.PEND_TEMP, R.CAL_STAT.STALE] ++ (List.range 12).flatMap (fun i => [R.THM_SENS.TEMP i, R.THM_SENS.VALID i]) ++
          (List.range 32).flatMap (fun i => [R.CAL_ADC_Q.TDIFF i, R.CAL_AGE.ADC i, R.CAL_AGE.DAC i]) ++ (List.range 160).map (fun i => R.CAL_DAC_Q.TDIFF i)) d t.dev ∧
        t = { s with dev := { d with flds := t.dev.flds, thermal := t.dev.thermal, calPaths := t.dev.calPaths, out := [] } })) ∧
  (∀ s : State, s.dev.f R.THM_STAT.DWELL = 250 → s.dev.thermal.target < 5 → s.dev.thermal.target ≠ s.dev.f R.THM_STAT.BAND →
    ∃ t, exec .bandPend s = .next t ∧ t.dev.f R.THM_STAT.BAND_PEND = 1 ∧ t.dev.f R.THM_STAT.NEXT_BAND = s.dev.thermal.target ∧
      OnlyFields [R.THM_STAT.BAND_PEND, R.THM_STAT.NEXT_BAND] s.dev t.dev ∧ t = { s with dev := { s.dev with flds := t.dev.flds, out := [] } }) ∧
  (∀ s : State, s.dev.b R.THM_STAT.BAND_PEND = true → s.dev.thermal.home = 250 →
    ∃ t, exec .bandWdrawn s = .next t ∧ t.dev.f R.THM_STAT.BAND_PEND = 0 ∧ t.dev.f R.THM_EVT.BAND_WDRAWN = 1 ∧
      OnlyFields [R.THM_STAT.BAND_PEND, R.THM_EVT.BAND_WDRAWN] s.dev t.dev ∧ t = { s with dev := { s.dev with flds := t.dev.flds, pba := t.dev.pba, evNow := t.dev.evNow, out := [] } }) ∧
  (∀ s : State, s.dev.b R.THM_STAT.BAND_PEND = true → s.dev.gapStart = true → s.dev.f R.THM_STAT.NEXT_BAND < 5 →
    let d := s.dev
    ∃ t, exec .bandChg s = .next t ∧ t.dev.f R.THM_STAT.BAND = d.f R.THM_STAT.NEXT_BAND ∧ t.dev.f R.THM_STAT.BAND_PEND = 0 ∧ t.dev.f R.THM_EVT.BAND_CHG = 1 ∧
      t.dev.f R.THM_STAT.DWELL = d.f R.THM_STAT.DWELL ∧
      (t.dev.f R.CAL_STAT.BAND = d.f R.THM_STAT.NEXT_BAND ∧
        ∀ c ∈ [3, 4, 5], ∀ p, p < calPathsOf c →
          if d.calib.steps.any (fun z => z.1 == c && z.2.1 == p) then (t.dev.calPath (calKey c p)).again = true
          else (t.dev.calPath (calKey c p)).pend = true ∧ (t.dev.calPath (calKey c p)).step = 0) ∧
      (d.calib.body = [] → OnlyFields [R.THM_STAT.BAND, R.THM_STAT.BAND_PEND, R.THM_EVT.BAND_CHG, R.CAL_STAT.BAND, R.CAL_STAT.PEND_TEMP, R.CAL_STAT.STALE] d t.dev ∧
        t = { s with dev := { d with flds := t.dev.flds, calPaths := t.dev.calPaths, thermal := { d.thermal with home := 0 }, pba := t.dev.pba, evNow := t.dev.evNow, out := [] } })) ∧
  ∀ (s : State) (i : Fin 12), s.dev.b (R.THM_SENS.FAULT i) = false → s.dev.sensorBad i = true →
    let d := s.dev
    let both := i.val < 8 ∧ d.b (R.THM_SENS.FAULT (i / 2 * 2 + (1 - i % 2))) = true
    ∃ t, exec (.sensorFault i) s = .next t ∧ t.dev.f (R.THM_SENS.FAULT i) = 1 ∧ t.dev.f (R.THM_SENS.VALID i) = 0 ∧ t.dev.f R.THM_EVT.SENS_FAULT = 1 ∧
      (both → d.b R.THM_STAT.SHUTDOWN = false → t.dev.f R.THM_STAT.SHUTDOWN = 1 ∧ t.dev.f R.THM_STAT.SHUT_WHY = 2) ∧
      (¬ both → OnlyFields [R.THM_SENS.FAULT i, R.THM_SENS.VALID i, R.THM_EVT.SENS_FAULT, R.KEEP_STAT.QUEUE, R.KEEP_CNT.FAULT_DROPPED, R.KEEP_EVT.FAULT_DROP] d t.dev ∧
        t = { s with dev := { d with flds := t.dev.flds, keep := t.dev.keep, pba := t.dev.pba, evNow := t.dev.evNow, out := [] } })

/-- Rate clamp and shutdown. That the clamps of a shutdown have the reason POWERUP is the model's choice (log 73). -/
def Obligations.ShutdownAndResume : Prop :=
  (∀ (s : State) (t0 : Nat), s.dev.thermal.rateT0 = some t0 → s.dev.running = true → t0 + 20000000 ≤ s.dev.age →
    ∃ t, exec .rateClampStop s = .next t ∧ t.dev.running = false ∧ t.dev.b R.TB_STAT.AWAKE = false ∧ t.dev.thermal.rateT0 = none ∧
      ∀ tl : Fin 32, ∀ k ∈ tileOutputs tl, (t.dev.clampOf k).testBit 3 = true) ∧
  (∀ (s : State) (i : Fin 12),
    let d := s.dev
    (d.sensorOk i = false → exec (.shutdownTrip i) s = .next { s with dev := { d with out := [] } }) ∧
    (d.sensorOk i = true → d.b R.THM_STAT.SHUTDOWN = false →
      ∃ t, exec (.shutdownTrip i) s = .next t ∧ t.dev.f R.THM_STAT.SHUTDOWN = 1 ∧ t.dev.f R.THM_STAT.SHUT_WHY = 1 ∧ t.dev.f R.THM_EVT.SHUTDOWN = 1 ∧
        t.dev.keep.held = true ∧ t.dev.thermal.shutT0 = some d.age ∧
        (d.f R.PWR_STAT.STATE ≠ 0 → t.dev.running = false ∧ ∀ tl : Fin 32, ∀ k ∈ tileOutputs tl, (t.dev.clampOf k).testBit 3 = true) ∧
        (d.f R.PWR_STAT.STATE = 0 → t.dev.clamps = d.clamps ∧ t.dev.engines = d.engines ∧ t.dev.tiles = d.tiles ∧ t.dev.run = d.run) ∧
        (Idle d → t.dev.img = d.img ∧ t.dev.sram = d.sram ∧ t.dev.cxl = d.cxl))) ∧
  (∀ s : State, s.dev.b R.THM_STAT.SHUTDOWN = true → s.dev.keep.flight.isSome = true →
    let d := s.dev
    ∃ t, exec .keepAbort s = .next t ∧ t.dev.keep.flight = none ∧ t.dev.f R.KEEP_STAT.BUSY = 0 ∧ t.dev.f R.THM_EVT.KEEP_ABORT = 1 ∧
      (∀ f, d.keep.flight = some f → (t.dev.unit f.unit).suspect = true ∧ ∀ j k bs, f.what = .fwPage j k bs → t.dev.fw.pages = none) ∧
      t.dev.thermal = { d.thermal with ended := some d.age } ∧ OnlyFields [R.KEEP_STAT.BUSY, R.THM_EVT.KEEP_ABORT] d t.dev ∧
      t = { s with dev := { d with flds := t.dev.flds, keep := t.dev.keep, fw := { d.fw with pages := t.dev.fw.pages }, freeN := t.dev.freeN, thermal := t.dev.thermal,
                                   pba := t.dev.pba, evNow := t.dev.evNow, out := [] } }) ∧
  (∀ (s : State) (e : Nat), s.dev.thermal.ended = some e → s.dev.b R.THM_STAT.SHUTDOWN = true → e + 20000 ≤ s.dev.age → s.dev.f R.PWR_DOM_STAT.ON ≠ 3 →
    ∃ t, exec .shutdownPowerDown s = .next t ∧ t.dev.f R.PWR_DOM_STAT.ON = 3 ∧ t.dev.b R.TB_STAT.AWAKE = false ∧ t.dev.f R.PWR_TILE_STAT.UP = 0 ∧
      t.dev.power.ups = [] ∧ AllClamped 3 t.dev ∧
      (∀ (k : Fin 64) (n : Nat), n < 2 ^ 24 → t.dev.schedSlot k n = none ∧ t.dev.waveLine k n = none) ∧
      ∀ (tl : Fin 32) (i : Nat), i < 16384 → t.dev.tagOf (classBase 2 tl + i) = 2) ∧
  ∀ s : State, s.dev.domOn (domainOf R.THM_CTL.RESUME.off) = true → s.dev.b R.THM_STAT.SHUTDOWN = true →
    let d := s.dev
    (1440 < signedOf 16 (d.f R.THM_MAX.TEMP) → exec .resume s = .next { s with dev := { d with again := [], evNow := [], out := [] } }) ∧
    (signedOf 16 (d.f R.THM_MAX.TEMP) ≤ 1440 →
      ∃ t, exec .resume s = .next t ∧ t.dev.f R.THM_STAT.SHUTDOWN = 0 ∧ t.dev.f R.THM_STAT.SHUT_WHY = 0 ∧ t.dev.power.reset = some (2, false) ∧
        t.dev.f R.PWR_RST.CAUSE = 5 ∧ t.dev.keep.held = false ∧ t.dev.img.act = none ∧ t.dev.running = false ∧ t.dev.f R.THM_MAX.RATE = 0 ∧
        t.dev.thermal = { d.thermal with fresh := 0, rateT0 := none, shutT0 := none, ended := none })

/-- Error correction, write-backs, injection and the log. -/
def Obligations.ErrorCorrection : Prop :=
  (∀ c : Fin 5, let n := if perByte c then 8 else 64
    (∀ j, j < n → eccDecode c (flipDelta c (2 ^ j) 0) = some (some j)) ∧
    (∀ j, j ≤ synWidth c → eccDecode c (flipDelta c 0 (2 ^ j)) = some none) ∧
    ∀ j k, j < n → k < n → j ≠ k → eccDecode c (flipDelta c (2 ^ j ^^^ 2 ^ k) 0) = none) ∧
  (∀ (s : State) (l : BitVec 21), s.dev.wback.contains l.toNat = true → Canonical s.dev → ∀ c : Nat × Nat × Nat, lineClass l.toNat = some c →
    let d := s.dev
    ∃ t, exec (.ceWriteback l) s = .next t ∧ (∀ a, t.dev.sram.get a = if a / 64 = l.toNat then d.sramByte a else d.sram.get a) ∧
      (∀ a, t.dev.sramByte a = d.sramByte a) ∧ t.dev.lineErrs l.toNat = (d.lineErrs l.toNat).filter (fun x => (eccDecode c.1 x.2).isNone) ∧ (∀ k, k ≠ l.toNat → t.dev.lineErrs k = d.lineErrs k) ∧
      t.dev.wback = d.wback.filter (fun x => x != l.toNat) ∧
      t = { s with dev := { d with wback := t.dev.wback, sram := t.dev.sram, errs := t.dev.errs, out := [] } }) ∧
  (∀ (s : State) (data : Word), s.dev.domOn (domainOf R.ECC_FLIP_CTL.ARM.off) = true → data.toNat.testBit 31 = true →
    let d := s.dev
    let cls := bitsOf data.toNat 26 24
    ∃ t, exec (.flipArm data) s = .next t ∧ (t.dev.f R.ECC_FLIP_CTL.CLASS, t.dev.f R.ECC_FLIP_CTL.UNIT, t.dev.f R.ECC_FLIP_CTL.LINE) =
        (if cls ≤ 4 then cls else d.f R.ECC_FLIP_CTL.CLASS, bitsOf data.toNat 21 16, bitsOf data.toNat 15 0) ∧
      (4 < cls ∨ t.dev.flipReserved = true → t.dev.f R.GLB_ACC_ERR.RSVD_ENC = 1) ∧
      (t.dev.flipReserved = true → t.dev.b R.ECC_FLIP_CTL.ARM = d.b R.ECC_FLIP_CTL.ARM ∧ t.dev.flip = d.flip) ∧
      (t.dev.flipReserved = false → t.dev.b R.ECC_FLIP_CTL.ARM = !t.dev.flipDenied ∧ t.dev.flip = (if t.dev.flipDenied then d.flip else t.dev.flipAddr) ∧ (t.dev.flipDenied = true → t.dev.f R.ECC_EVT.FLIP_DENIED = 1) ∧
        (cls ≤ 4 → OnlyFields [R.ECC_FLIP_CTL.CLASS, R.ECC_FLIP_CTL.UNIT, R.ECC_FLIP_CTL.LINE, R.ECC_FLIP_CTL.ARM, R.ECC_EVT.FLIP_DENIED] d t.dev)) ∧
      t.dev.again = (if d.b R.ECC_FLIP_CTL.ARM && !t.dev.flipReserved && !t.dev.flipDenied then [R.ECC_FLIP_CTL.ARM.key] else []) ∧
      t = { s with dev := { d with flds := t.dev.flds, flip := t.dev.flip, pba := t.dev.pba, again := t.dev.again, evNow := [], out := [] } }) ∧
  (∀ s : State, s.dev.b R.ECC_FLIP_CTL.ARM = true →
    let d := s.dev
    let a := d.flip
    let c := ((lineClass (a / 64)).map Prod.fst).getD 0
    let n := if perByte c then 1 else 8
    ∃ t, exec .flipInject s = .next t ∧ t.dev.b R.ECC_FLIP_CTL.ARM = d.again.contains R.ECC_FLIP_CTL.ARM.key ∧
      (∀ i, i < n → t.dev.sram.get (a + i) = d.sram.get (a + i) ^^^ BitVec.ofNat 8 (d.flipMask / 2 ^ (8 * i))) ∧
      (∀ b, b < a ∨ a + n ≤ b → t.dev.sram.get b = d.sram.get b) ∧
      bget (fun _ => 0) t.dev.errs a = bget (fun _ => 0) d.errs a ^^^ flipDelta c d.flipMask (d.f R.ECC_FLIP_POS.CHK) ∧
      (∀ b, b ≠ a → bget (fun _ => 0) t.dev.errs b = bget (fun _ => 0) d.errs b) ∧ OnlyFields [R.ECC_FLIP_CTL.ARM] d t.dev ∧
      t = { s with dev := { d with flds := t.dev.flds, sram := t.dev.sram, errs := t.dev.errs, out := [] } }) ∧
  ∀ (s : State) (data : Word), s.dev.domOn (domainOf R.ECC_LOG_POP.POP.off) = true → s.dev.eccLog.length ≤ 16 →
    let d := s.dev
    (data.toNat.testBit 0 = false → exec (.eccLogPop data) s = .next { s with dev := { d with again := [], evNow := [], out := [] } }) ∧
    (data.toNat.testBit 0 = true →
      ∃ t, exec (.eccLogPop data) s = .next t ∧ t.dev.eccLog = d.eccLog.drop 1 ∧ t.dev.f R.ECC_LOG_STAT.COUNT = (d.eccLog.drop 1).length ∧
        t.dev.b R.ECC_LOG_W0.VALID = ((d.eccLog.drop 1).head?).isSome ∧
        OnlyFields [R.ECC_LOG_STAT.COUNT, R.ECC_LOG_W0.VALID, R.ECC_LOG_W0.KIND, R.ECC_LOG_W0.SOURCE, R.ECC_LOG_W0.CLASS, R.ECC_LOG_W0.UNIT, R.ECC_LOG_W0.LINE,
          R.ECC_LOG_W1.SYNDROME, R.ECC_LOG_W1.POS, R.ECC_LOG_W1.ACTION, R.ECC_LOG_EPOCH_LO.EPOCH, R.ECC_LOG_EPOCH_HI.EPOCH] d t.dev ∧
        t = { s with dev := { d with flds := t.dev.flds, eccLog := t.dev.eccLog, again := [], evNow := [], out := [] } })

/-- Scrubbing, and blocks that arrive. -/
def Obligations.ScrubAndFetch : Prop :=
  (∀ (s : State) (u : Fin 33) (i : Nat) (c : Nat × Nat × Nat), s.dev.b R.TB_STAT.AWAKE = true → s.dev.b R.SCRUB_CTL.EN = true → (s.dev.scrub u).next ≤ s.dev.power.awakeTicks →
    (if u.val = 32 then s.dev.domOn 5 else s.dev.tileOn u) = true →
    ((List.range (scrubLines u - (s.dev.scrub u).pos)).map (fun k => (s.dev.scrub u).pos + k)).find? (fun k => s.dev.scrubbed (scrubLine u k)) = some i →
    i + 1 ≠ scrubLines u → lineClass (scrubLine u i) = some c → let d := s.dev
    let l := scrubLine u i
    let bad := (d.lineUe c.1 l).isSome
    ∃ t, exec (.scrubVisit u) s = .next t ∧ t.dev.scrub u = { d.scrub u with next := d.power.awakeTicks + 2 * d.f R.SCRUB_CTL.INTERVAL, pos := i + 1,
                                                                                               began := some ((d.scrub u).began.getD d.power.awakeTicks) } ∧
      (∀ k, k ≠ u.val → t.dev.scrub k = d.scrub k) ∧
      (d.lineErrs l = [] → t = { s with dev := { d with scrubs := t.dev.scrubs, out := [] } }) ∧
      (d.lineErrs l ≠ [] ∧ bad = false → t.dev.f (R.ECC_CNT.CE c.1) = satAdd (R.ECC_CNT.CE c.1).width (d.f (R.ECC_CNT.CE c.1)) (d.lineErrs l).length ∧ t.dev.f R.ECC_EVT.CE = 1 ∧ t.dev.wback.contains l = true ∧
        OnlyFields [R.ECC_CNT.CE c.1, R.ECC_EVT.CE] d t.dev ∧
        t = { s with dev := { d with flds := t.dev.flds, scrubs := t.dev.scrubs, wback := t.dev.wback, pba := t.dev.pba, evNow := t.dev.evNow, out := [] } }) ∧
      (bad = true → (c.1 ≠ 3 → t.dev.tagOf l = 1) ∧ t.dev.f (R.ECC_CNT.UE c.1) = satInc (R.ECC_CNT.UE c.1).width (d.f (R.ECC_CNT.UE c.1)) ∧ t.dev.f R.ECC_EVT.UE_IDLE = 1)) ∧
  ∀ (s : State) (e : Fin 64) (wave : Bool) (b : BitVec 24) (slot : BitVec 13) (data : List Byte), data.length = 256 →
    slot.toNat < (if wave then 6144 else 1024) → s.dev.img.act.any (fun im => decide (b.toNat < (if wave then im.waveCnt else im.schedCnt))) = true →
    s.dev.tileOn (e / 2) = true → s.dev.cxlUp = true → (wave = true → 4 * b.toNat + 3 < 2 ^ 24) → s.dev.eccLog.all (fun x => x.epoch != s.dev.now.toNat) = true →
    let d := s.dev
    let line := if wave then classBase 0 (e / 2) + 4 * slot.toNat else classBase 1 e + 4 * slot.toNat
    ∀ old, d.evicts e wave b.toNat slot.toNat = some old →
    ∃ t, exec (.cxlReadComplete e wave b slot data 0) s = .next t ∧ t.dev.sram.read (64 * line) 256 = data ∧ (∀ i, i < 4 → t.dev.tagOf (line + i) = 0 ∧ t.dev.wback.contains (line + i) = false) ∧
      t.dev.cxlReads = d.cxlReads.erase (wave, b.toNat) ∧ bget (fun _ => (0, false)) t.dev.chks (blockKey e wave b.toNat) = (d.checkValue wave b.toNat, false) ∧
      (∀ im, d.img.act = some im → ∀ i, i < 4 → t.dev.cxlPoison (im.base + (if wave then im.waveOff else im.schedOff) + 256 * b.toNat + 64 * i) = false) ∧
      (∀ a, a / 64 < line ∨ line + 4 ≤ a / 64 → t.dev.sram.get a = d.sram.get a) ∧
      (wave = true → ∀ i : Fin 4, t.dev.waveLine e (4 * b.toNat + i) = some (line + i)) ∧
      (wave = false → t.dev.schedSlot e b.toNat = none ∧ (d.seqHalted e = false → (t.dev.seq e).fills.contains (b.toNat, slot.toNat) = true ∧
        (t.dev.seq e).events.any (fun x => x.code == 7 && x.arg == b.toNat) = true)) ∧
      t = { s with dev := { d with sram := t.dev.sram, tags := t.dev.tags, errs := t.dev.errs, resS := t.dev.resS, resW := t.dev.resW, dtags := t.dev.dtags,
                                   seqs := t.dev.seqs, tagBad := t.dev.tagBad, wback := t.dev.wback, chks := t.dev.chks, cxlReads := t.dev.cxlReads, cxlBad := t.dev.cxlBad,
                                   out := [] } }

/-- Commits of the Keep, reclaim, the boot scan and LIFE. Where the staging lines stand and what they hold (log 105), that the whole hour counts for the band in force
(log 74), and that a relocation is one command (log 221), is the model's choice. -/
def Obligations.KeepCommits : Prop :=
  (∀ (s : State) (ok : Bool) (q : KReq) (rest : List KReq), s.dev.keep.queue = q :: rest → s.dev.keepFree = true → s.dev.keep.todo = [] →
    q.slot = none → (∀ x ∈ rest, x.slot.isSome = true) → q.phase = 0 → q.lines ≤ 961 → (s.dev.unit s.dev.keep.head).fits { cls := q.cls, key := q.key, seq := 0, body := q.body } = true →
    ∀ k, (List.range 16).find? (fun k => !rest.any (fun x => x.slot == some k)) = some k →
    ∃ t, exec (.keepRecordCommit ok) s = .next t ∧ (t.dev.keep.queue.head?.bind KReq.slot) = some k ∧ t.dev.keep.queue.map KReq.body = s.dev.keep.queue.map KReq.body ∧
      (∀ i, i < q.lines → t.dev.tagOf (stageLine k + i) = 0 ∧ t.dev.lineErrs (stageLine k + i) = []) ∧
      ∀ x, t.dev.keep.queue.head? = some x → ∀ i, i < q.lines → t.dev.sram.read (64 * (stageLine k + i)) 64 = x.line i) ∧
  (∀ (s : State) (ok : Bool) (q : KReq) (rest : List KReq) (sl : Fin 16), s.dev.keep.queue = q :: rest → s.dev.keepFree = true → s.dev.keep.todo = [] →
    q.slot = some sl.val → (∀ x ∈ rest, x.slot.isSome = true) → s.dev.eccLog.all (fun x => x.epoch != s.dev.now.toNat) = true →
    let d := s.dev
    let base := stageLine sl
    let seq := q.seq.getD d.keep.nextSeq
    let r : KRec := { cls := q.cls, key := q.key, seq := seq, body := q.body, fill := 0, good := false }
    let h := d.keep.head
    (q.phase = 0 → (∀ i, i < q.lines → d.tagOf (base + i) = 0 ∧ d.lineErrs (base + i) = []) → (d.unit h).fits r = true →
      ∃ t, exec (.keepRecordCommit ok) s = .next t ∧ t.dev.unit h = { d.unit h with recs := (d.unit h).recs ++ [r] } ∧ (∀ u, u ≠ h → t.dev.unit u = d.unit u) ∧
        t.dev.keep.queue = { q with seq := some seq, phase := 1 } :: rest ∧ t.dev.keep.flight = some { what := .record ((t.dev.unit h).pageEnd r 0), unit := h } ∧
        t.dev.keep.nextSeq = (if q.seq.isNone then d.keep.nextSeq + 1 else d.keep.nextSeq) ∧ t.dev.f R.KEEP_STAT.BUSY = 1 ∧
        (q.seq.isSome = true → t.dev.sram = d.sram) ∧ (q.seq = none → t.dev.sram.read (64 * base) 64 = ({ q with seq := some seq } : KReq).line 0) ∧
        (∀ a, a / 64 ≠ base → t.dev.sram.get a = d.sram.get a) ∧ (∀ l, t.dev.tagOf l = d.tagOf l) ∧ (∀ l, l ≠ base → t.dev.wback.contains l = d.wback.contains l) ∧
        OnlyFields [R.KEEP_STAT.BUSY] d t.dev ∧
        t = { s with dev := { d with flds := t.dev.flds, keep := t.dev.keep, sram := t.dev.sram, tags := t.dev.tags, errs := t.dev.errs, tagBad := t.dev.tagBad,
                                     wback := t.dev.wback, out := [] } }) ∧
    (∀ l, q.phase = 0 → d.badStage q = some l →
      ∃ t, exec (.keepRecordCommit ok) s = .next t ∧ t.dev.keep = d.keep ∧ t.dev.badStage q = none ∧
        (∀ i, i < q.lines → t.dev.sram.read (64 * (base + i)) 64 = q.line i) ∧ ∀ a, a / 64 < base ∨ base + q.lines ≤ a / 64 → t.dev.sram.get a = d.sram.get a) ∧
    (q.phase = 1 → d.recordWhole = true → ok = true →
      ∃ t, exec (.keepRecordCommit ok) s = .next t ∧
        t.dev.keep = { d.keep with queue := { q with phase := 2 } :: rest, flight := some { what := .com, unit := h } } ∧ t.dev.f R.KEEP_STAT.BUSY = 1 ∧
        OnlyFields [R.KEEP_STAT.BUSY] d t.dev ∧ t = { s with dev := { d with flds := t.dev.flds, keep := t.dev.keep, out := [] } }) ∧
    (q.phase = 2 → ok = true →
      ∃ t, exec (.keepRecordCommit ok) s = .next t ∧ t.dev.keep = { d.keep with queue := rest, ringFails := 0 } ∧
        t.dev.f R.KEEP_CNT.COMMITS = satInc R.KEEP_CNT.COMMITS.width (d.f R.KEEP_CNT.COMMITS) ∧ t.dev.f R.KEEP_SEQ.SEQ = q.seq.getD 0 % 2 ^ 32 ∧
        OnlyFields [R.KEEP_CNT.COMMITS, R.KEEP_SEQ.SEQ, R.KEEP_STAT.QUEUE, R.CAL_EVT.COMMIT, R.CAL_KEEP_SEQ.SEQ, R.CAL_SRC.VALID, R.WATCH_EVT.FAULT_LOGGED] d t.dev ∧
        t = { s with dev := { d with flds := t.dev.flds, keep := t.dev.keep, pba := t.dev.pba, evNow := t.dev.evNow, out := [] } }) ∧
    (q.phase = 2 ∨ q.phase = 1 ∧ d.recordWhole = true → ok = false →
      ∃ t, exec (.keepRecordCommit ok) s = .next t ∧ t.dev.keep.queue = { q with phase := 0, retries := q.retries + 1 } :: rest ∧ t.dev.f R.KEEP_EVT.PROG_RETRY = 1 ∧
        (t.dev.unit h).fails = (d.unit h).fails + 1 ∧ (∀ u, u ≠ h → t.dev.unit u = d.unit u) ∧
        t = { s with dev := { d with flds := t.dev.flds, keep := t.dev.keep, freeN := t.dev.freeN, pba := t.dev.pba, evNow := t.dev.evNow, out := [] } })) ∧
  (∀ (s : State) (f : KFlight), s.dev.keep.flight = some f → s.dev.b R.THM_STAT.SHUTDOWN = false → f.unit = s.dev.keep.head ∨ f.program = false →
    (∃ m, f.what = .record m) ∨ (f.what = .com ∧ (s.dev.unit f.unit).suspect = false) ∨ (f.what = .erase ∧ f.ok = true) →
    let d := s.dev
    let u := f.unit
    let last := (d.unit u).recs.getLast?
    let free := ({ d with keep := { d.keep with flight := none } } : Device).keepFree && d.keep.queue.head?.any (fun q => q.phase == 1)
    ∃ t, exec .programOrEraseEnd s = .next t ∧ t.dev.keep.queue = d.keep.queue ∧ (∀ k, k ≠ u → t.dev.unit k = d.unit k) ∧
      (∀ m, f.what = .record m →
        t.dev.unit u = { d.unit u with recs := (d.unit u).recs.dropLast ++ (last.map (fun r => { r with fill := m, good := decide (r.total ≤ m) })).toList } ∧
        (∀ r, last = some r →
          t.dev.keep.flight = if free && decide (m < r.total) then some { what := .record ((t.dev.unit u).pageEnd { r with fill := m, good := false } m), unit := u } else none) ∧
        OnlyFields [R.KEEP_STAT.BUSY] d t.dev) ∧
      (f.what = .com → t.dev.unit u = { d.unit u with recs := (d.unit u).recs.dropLast ++ (last.map (fun r => { r with committed := true })).toList } ∧
        t.dev.keep.flight = none ∧ t.dev.f R.KEEP_STAT.BUSY = 0 ∧ OnlyFields [R.KEEP_STAT.BUSY] d t.dev) ∧
      (f.what = .erase → (t.dev.unit u).recs = [] ∧ (t.dev.unit u).erases = (d.unit u).erases + 1 ∧ (t.dev.unit u).gen = d.nextGen (d.unit u) 0 false ∧
        ((t.dev.unit u).role, (t.dev.unit u).logical) = ((d.unit u).role, (d.unit u).logical) ∧ t.dev.keep.flight = none ∧ t.dev.f R.KEEP_STAT.BUSY = 0) ∧
      t = { s with dev := { d with flds := t.dev.flds, keep := t.dev.keep, out := [] } }) ∧
  (∀ (s : State) (ok : Bool) (x : Nat × Nat), s.dev.keepFree = true → s.dev.committing = false → s.dev.keep.todo = [] → s.dev.oldest = some x →
    x.1 ≤ aheadOf s.dev.logRole → (s.dev.unit x.2).fails < 3 → (s.dev.unit x.2).erases < 100000 → x.2 ≠ s.dev.keep.head →
    let d := s.dev
    let h := d.keep.head
    let copy := fun (r : KRec) => ({ cls := r.cls, key := r.key, seq := r.seq, body := r.body, committed := true } : KRec)
    ∀ rs, d.toMove x.2 = rs → rs = [] ∨ (∃ r, rs = [r] ∧ (d.unit h).fits r = true) →
    ∃ t, exec (.logReclaim ok) s = .next t ∧ t.dev.keep.flight = some { what := .erase, unit := x.2, ok := ok } ∧ t.dev.f R.KEEP_STAT.BUSY = 1 ∧
      t.dev.keep.queue = d.keep.queue ∧ t.dev.unit x.2 = d.unit x.2 ∧ t.dev.unit h = { d.unit h with recs := (d.unit h).recs ++ rs.map copy } ∧
      OnlyFields [R.KEEP_STAT.BUSY] d t.dev ∧ t = { s with dev := { d with flds := t.dev.flds, keep := t.dev.keep, out := [] } }) ∧
  (∀ s : State, s.dev.b R.KEEP_STAT.READY = false → s.dev.domOn 6 = true → s.dev.keep.held = false → s.dev.power.pwrfailN = true → s.dev.power.pwrfailOk = true →
    ∃ t, exec .keepBootScan s = .next t ∧ t.dev.b R.KEEP_STAT.READY = true ∧ t.dev.keep.downOk = false ∧
      (s.dev.keep.units = [] → t.dev.keep.units = [] ∧ t.dev.keep.nextSeq = 1 ∧ t.dev.f R.KEEP_EVT.LIFE_GAP = s.dev.f R.KEEP_EVT.LIFE_GAP ∧
        t.dev.keep.life = s.dev.keep.life.set 1 (satAdd 32 (s.dev.keep.life.getD 1 0) 1))) ∧
  ∀ s : State, s.dev.running = false → s.dev.keep.runAcc < 7200000000000 → s.dev.f R.THM_STAT.BAND < 5 → s.dev.keep.life.length = 13 →
    s.dev.keep.wear ≠ 2 → s.dev.keep.queue.length < 16 →
    let d := s.dev
    let l := d.keep.life
    ∃ t, exec .lifeHour s = .next t ∧
      (∀ i : Fin 13, t.dev.keep.life.getD i 0 = (if i.val = 0 ∨ i.val = 6 + d.f R.THM_STAT.BAND then satAdd 32 (l.getD i 0) 1 else if i.val = 2 then satAdd 32 (l.getD i 0) 0 else l.getD i 0)) ∧
      t.dev.keep.hourMark = d.age ∧ t.dev.keep.queue.any (fun r => r.cls == 6 && r.key == 0 && r.body == t.dev.lifeBody) = true ∧ OnlyFields [R.KEEP_STAT.QUEUE] d t.dev ∧
      t = { s with dev := { d with flds := t.dev.flds, keep := t.dev.keep, out := [] } }

/-- Power failure of the Keep. When VDD_SVC counts as absent is the model's choice (log 244). -/
def Obligations.PowerFailure : Prop :=
  (∀ s : State, s.dev.power.pwrfailN = true → s.dev.domOn 0 = true →
    let d := s.dev
    ∃ t, exec .pwrfailFall s = .next t ∧ t.dev.power.pwrfailN = false ∧ t.dev.power.pwrfailOk = false ∧ t.dev.running = false ∧ t.dev.b R.TB_STAT.AWAKE = false ∧
      t.dev.f R.KEEP_STAT.PWRFAIL = 1 ∧ t.dev.f R.PWR_EVT.PWRFAIL = 1 ∧ t.dev.f R.TWIN_STAT.SEL = 0 ∧ (∀ tl : Fin 32, ∀ k ∈ tileOutputs tl, (t.dev.clampOf k).testBit 3 = true) ∧
      t.dev.keep.flight = (d.keep.flight.filter (fun f => f.program)) ∧ (Idle d → t.dev.sram = d.sram ∧ t.dev.cxl = d.cxl ∧ t.dev.img = d.img)) ∧
  (∀ s : State, s.dev.domOn 0 = false →
    exec .pwrfailFall s = .next { s with dev := { s.dev with power := { s.dev.power with pwrfailN := false, pwrfailOk := false }, out := [] } }) ∧
  (∀ s : State, s.dev.power.svc = false → exec .pwrfailRise s = .next { s with dev := { s.dev with out := [] } }) ∧
  (∀ s : State, s.dev.power.pwrfailN = false → s.dev.power.svc = true →
    let d := s.dev
    ∃ t, exec .pwrfailRise s = .next t ∧ t.dev.power = { d.power with pwrfailN := true } ∧ t.dev.f R.KEEP_STAT.PWRFAIL = 0 ∧
      OnlyFields [R.KEEP_STAT.PWRFAIL, R.PWR_STAT.WAIT] d t.dev ∧ t = { s with dev := { d with flds := t.dev.flds, power := t.dev.power, out := [] } }) ∧
  ∀ s : State, s.dev.power.pwrfailN = true → s.dev.power.pwrfailOk = false →
    let d := s.dev
    ∃ t, exec .keepWriteResume s = .next t ∧ t.dev.power = { d.power with pwrfailOk := true } ∧ t.dev.keep.downOk = false ∧
      (t.dev.keep.queue = (d.keep.queue.take 1).map (fun q => { q with phase := 0 }) ++ d.keep.queue.drop 1) ∧ OnlyFields [R.PWR_STAT.WAIT] d t.dev ∧
      t = { s with dev := { d with flds := t.dev.flds, power := t.dev.power, keep := t.dev.keep, out := [] } }

/-- Blocks of a firmware update. Whether the signature is good is left as a case of the conclusion: the key is the part's own (R525, an open value of Config), so no
header can be shown to be signed by it. That OWNER and STATE are checked before the header (log 106), and that a slot's new state shows when its descriptor is
staged (log 109), is the model's choice. -/
def Obligations.FirmwareBlocks : Prop :=
  (∀ (s : State) (iface : Nat) (args : List Nat) (h : List Byte) (ok : Bool), FwAt s.dev iface 1 args h → s.dev.fw.going = 0 →
    let d := s.dev
    let k := d.fwTarget
    let x := d.resumeAt k (rn h 8 4)
    let same := ((d.desc k).drop 20).take 32 = (sha384 h).take 32
    let why := if d.f R.FW_STAT.OWNER ≠ 0 ∧ d.f R.FW_STAT.OWNER ≠ iface then 14
      else if d.slotState k = 3 ∧ d.b R.FW_STAT.RECOVERY = false then 12
      else if blockGood h = false then 4
      else if headerGood h = false then 6
      else if headerSigned h = false then 7
      else if rn h 16 2 < d.minSvn then 9 else 0
    ∃ t, exec (.begin ok) s = .next t ∧
      (why ≠ 0 → FwEnds why t.dev ∧ FwOnly [] d t.dev ∧
        t = { s with dev := { d with flds := t.dev.flds, fw := d.fw.over, pba := t.dev.pba, evNow := t.dev.evNow, out := [] } }) ∧
      (why = 0 → d.slotState k = 1 → same →
        t.dev.f R.FW_STAT.OWNER = iface ∧ t.dev.f R.FW_STAT.NEXT = x.1 ∧ (x.2 = false → FwEnds 2 t.dev) ∧
        (∀ p, x.2 = true → d.fwUnit k x.1 = some p → (d.unit p).erases < 100000 →
          t.dev.keep.flight = some { what := .fwErase true, unit := p, ok := ok } ∧ t.dev.fw = { d.fw with going := 2, pages := none })) ∧
      (why = 0 → ¬ (d.slotState k = 1 ∧ same) →
        t.dev.f R.FW_STAT.OWNER = iface ∧ t.dev.f R.FW_STAT.NEXT = 0 ∧ t.dev.slotState k = 1 ∧ rn (t.dev.desc k) 16 4 = rn h 8 4 ∧
        rn (t.dev.desc k) 4 4 = (rn (d.desc k) 4 4 + 1) % 2 ^ 32 ∧ t.dev.desc (1 - k) = d.desc (1 - k) ∧
        t.dev.keep.queue = [{ cls := 2 + k, key := 0, body := t.dev.desc k }] ∧ t.dev.fw = { d.fw with going := 1, pages := none, descs := t.dev.fw.descs } ∧
        OnlyFields ([R.FW_STAT.OWNER, R.FW_STAT.NEXT] ++ descFields) d t.dev ∧
        t = { s with dev := { d with flds := t.dev.flds, keep := { d.keep with queue := t.dev.keep.queue }, fw := t.dev.fw, out := [] } })) ∧
  (∀ (s : State) (iface : Nat) (args : List Nat) (b : List Byte) (ok : Bool), FwAt s.dev iface 2 args b → s.dev.fw.going = 0 → s.dev.fwGate iface = 0 →
    let d := s.dev
    let n := d.f R.FW_STAT.NEXT
    args.getD 0 0 ≠ n ∨ d.fwLen ≤ n ∨ blockGood b = false →
    ∃ t, exec (.lit ok) s = .next t ∧ FwEnds (if args.getD 0 0 ≠ n ∨ d.fwLen ≤ n then 5 else 4) t.dev ∧ FwOnly [] d t.dev ∧
      t = { s with dev := { d with flds := t.dev.flds, fw := d.fw.over, pba := t.dev.pba, evNow := t.dev.evNow, out := [] } }) ∧
  (∀ (s : State) (iface op : Nat) (args : List Nat) (b : List Byte) (ok : Bool) (c : Instr), FwWrites s.dev iface op args b →
    (op, c) ∈ [(1, Instr.begin ok), (2, .lit ok), (3, .copy ok)] →
    let d := s.dev
    let k := d.fwTarget
    let n := d.f R.FW_STAT.NEXT
    let pages := if d.fw.going = 0 then none else d.fw.pages
    let goesOn := fun (f : KFlight) (pg : Option Nat) (t : State) =>
      t.dev.keep.flight = some f ∧ t.dev.f R.KEEP_STAT.BUSY = 1 ∧ t.dev.fw = { d.fw with going := 1, pages := pg } ∧ OnlyFields [R.KEEP_STAT.BUSY] d t.dev ∧
      t = { s with dev := { d with flds := t.dev.flds, keep := { d.keep with flight := t.dev.keep.flight }, fw := t.dev.fw, out := [] } }
    ∀ p, d.fwUnit k n = some p →
    ∃ t, exec c s = .next t ∧
      (pages = none → n % 15 = 0 → (d.unit p).erases < 100000 → goesOn { what := .fwErase true, unit := p, ok := ok } none t) ∧
      (pages = none → n % 15 ≠ 0 → goesOn { what := .fwPage (n % 15) 0 (d.fwData.take 256), unit := p } (some 0) t) ∧
      (∀ j, pages = some j → j < 16 → goesOn { what := .fwPage (n % 15) j ((d.fwData.drop (256 * j)).take 256), unit := p } (some j) t) ∧
      (∀ j, pages = some j → 16 ≤ j → ok = true → t.dev.f R.FW_STAT.NEXT = n + 1 ∧ t.dev.fwBlock k n = d.fwData ∧
        (∀ (i : Fin 2) (m : Fin 7680), ¬ (i.val = k ∧ m.val = n) → t.dev.fwBlock i m = d.fwBlock i m) ∧
        (op ≠ 3 ∨ args.getD 0 0 + args.getD 2 0 ≤ n + 1 → FwEnds 1 t.dev ∧ FwOnly [R.FW_STAT.NEXT] d t.dev ∧
          t = { s with dev := { d with flds := t.dev.flds, keep := { d.keep with blocks := t.dev.keep.blocks }, fw := d.fw.over, pba := t.dev.pba, evNow := t.dev.evNow, out := [] } })) ∧
      (∀ j, pages = some j → 16 ≤ j → ok = false → (d.unit p).fails + 1 < 3 →
        (t.dev.unit p).fails = (d.unit p).fails + 1 ∧ (∀ q, q ≠ p → t.dev.unit q = d.unit q) ∧ t.dev.fw = { d.fw with going := 1, pages := none } ∧
        t.dev.f R.KEEP_EVT.PROG_RETRY = 1 ∧ OnlyFields [R.KEEP_EVT.PROG_RETRY] d t.dev ∧
        t = { s with dev := { d with flds := t.dev.flds, keep := { d.keep with units := t.dev.keep.units, blocks := t.dev.keep.blocks }, fw := t.dev.fw,
                                     freeN := d.freeN + 1, pba := t.dev.pba, evNow := t.dev.evNow, out := [] } })) ∧
  (∀ (s : State) (iface : Nat) (args : List Nat) (b : List Byte) (ok : Bool), FwAt s.dev iface 3 args b → s.dev.fw.going = 1 → s.dev.fw.pages = none →
    let d := s.dev
    rn (d.desc d.fwRun) 16 4 ≤ args.getD 1 0 + d.f R.FW_STAT.NEXT - args.getD 0 0 ∨ blockGood d.fwData = false →
    ∃ t, exec (.copy ok) s = .next t ∧ FwEnds 10 t.dev ∧ FwOnly [] d t.dev ∧
      t = { s with dev := { d with flds := t.dev.flds, fw := d.fw.over, pba := t.dev.pba, evNow := t.dev.evNow, out := [] } }) ∧
  ∀ (s : State) (iface : Nat) (args : List Nat) (b : List Byte), FwAt s.dev iface 7 args b → s.dev.fw.going = 0 →
    (s.dev.f R.FW_STAT.OWNER = 0 ∨ s.dev.f R.FW_STAT.OWNER = iface) →
    let d := s.dev
    let k := d.fwTarget
    ∃ t, exec .abort s = .next t ∧ FwEnds 1 t.dev ∧ t.dev.desc k = fwDesc 0 0 (rn (d.desc k) 4 4) 0 0 0 0 [] ∧ t.dev.desc (1 - k) = d.desc (1 - k) ∧
      t.dev.f R.FW_STAT.OWNER = 0 ∧ t.dev.f R.FW_STAT.NEXT = 0 ∧ (∀ (j : Fin 2) (i : Fin 7680), t.dev.fwBlock j i = d.fwBlock j i) ∧
      FwOnly ([R.FW_STAT.OWNER, R.FW_STAT.NEXT] ++ descFields) d t.dev ∧
      t = { s with dev := { d with flds := t.dev.flds, keep := { d.keep with queue := t.dev.keep.queue }, fw := t.dev.fw, pba := t.dev.pba, evNow := t.dev.evNow, out := [] } }

/-- The slots of firmware: activation, confirmation, roll-back, a restart, and what a start of the Watch chooses. Whether a slot's signature is good is left
as a case of the conclusions: the key is the part's own (R525, an open value of Config), so no slot can be shown to be signed by it. That the descriptor of a
trial goes first in the queue is the model's choice (log 215). -/
def Obligations.FirmwareSlots : Prop :=
  (∀ (s : State) (iface : Nat) (args : List Nat) (b : List Byte), FwIn s.dev iface 4 args b → s.dev.fw.trial = false →
    let d := s.dev
    let k := d.fwTarget
    let n := d.fwLen
    let h := d.fwBlock k 0
    let stop := if d.fwGate iface ≠ 0 then d.fwGate iface else if d.f R.FW_STAT.NEXT ≠ n then 11 else 0
    let why := if (List.range n).all (fun i => blockGood (d.fwBlock k i)) = false then 4
      else if sha384 ((List.range (n - 1)).flatMap (fun i => d.fwBlock k (i + 1))) ≠ (h.drop 24).take 48 then 8
      else if headerSigned h = false then 7
      else if rn h 16 2 < d.minSvn then 9
      else if (d.fwFind k 2).any (fun x => (patchSet (d.fwSection k x)).2.2.2 ≠ 0) = true then 15 else 0
    let goes := stop = 0 ∧ d.keep.queue.length < 16
    ∃ t, exec .activate s = .next t ∧
      (stop ≠ 0 → FwEnds stop t.dev ∧ FwOnly [] d t.dev ∧
        t = { s with dev := { d with flds := t.dev.flds, fw := d.fw.over, pba := t.dev.pba, evNow := t.dev.evNow, out := [] } }) ∧
      (stop = 0 → 16 ≤ d.keep.queue.length → t = { s with dev := { d with out := [] } }) ∧
      (goes → why ≠ 0 → FwEnds why t.dev ∧ t.dev.slotState k = 5 ∧ rb (t.dev.desc k) 1 = rb (d.desc k) 1 ∧ t.dev.f R.FW_STAT.OWNER = d.f R.FW_STAT.OWNER) ∧
      (goes → why = 0 → d.b R.FW_STAT.RECOVERY = false → FwEnds 1 t.dev ∧ t.dev.slotState k = 2 ∧ rb (t.dev.desc k) 1 = 0 ∧ t.dev.f R.FW_STAT.OWNER = 0) ∧
      (goes → (why ≠ 0 ∨ d.b R.FW_STAT.RECOVERY = false) → (t.dev.desc k).drop 2 = (d.desc k).drop 2 ∧ t.dev.desc (1 - k) = d.desc (1 - k) ∧
        FwOnly (R.FW_STAT.OWNER :: descFields) d t.dev ∧
        t = { s with dev := { d with flds := t.dev.flds, keep := { d.keep with queue := t.dev.keep.queue }, fw := t.dev.fw, pba := t.dev.pba, evNow := t.dev.evNow, out := [] } }) ∧
      (goes → why = 0 → d.b R.FW_STAT.RECOVERY = true → FwEnds 1 t.dev ∧ t.dev.f R.FW_STAT.OWNER = 0 ∧ t.dev.f R.WATCH_STAT.STATE = 2 ∧
        t.dev.fw.trial = true ∧ t.dev.slotState 0 = 2 ∧ rb (t.dev.desc 0) 1 = 1 ∧
        (d.committing = false → t.dev.keep.queue.head? = some { cls := 2, key := 0, body := t.dev.desc 0 }))) ∧
  (∀ (s : State) (iface : Nat) (args : List Nat) (b : List Byte), FwIn s.dev iface 5 args b →
    let d := s.dev
    let r := d.fwRun
    let stop := if d.keep.wear ≠ 0 then 3 else if d.slotState r ≠ 2 ∨ d.b R.FW_STAT.RECOVERY = true then 12 else 0
    ∃ t, exec .confirm s = .next t ∧
      (stop ≠ 0 → FwEnds stop t.dev ∧ FwOnly [] d t.dev ∧
        t = { s with dev := { d with flds := t.dev.flds, fw := d.fw.over, pba := t.dev.pba, evNow := t.dev.evNow, out := [] } }) ∧
      (stop = 0 → 15 ≤ d.keep.queue.length → t = { s with dev := { d with out := [] } }) ∧
      (stop = 0 → d.keep.queue.length < 15 → FwEnds 1 t.dev ∧ t.dev.slotState r = 3 ∧ t.dev.minSvn = max d.minSvn (rn (d.desc r) 12 2) ∧
        t.dev.f R.FW_MINSVN.MIN_SVN = max d.minSvn (rn (d.desc r) 12 2) ∧
        t.dev.slotState (1 - r) = (if d.slotState (1 - r) = 3 then 4 else d.slotState (1 - r)) ∧
        ((t.dev.desc r).drop 1).take 13 = ((d.desc r).drop 1).take 13 ∧ (t.dev.desc r).drop 16 = (d.desc r).drop 16 ∧
        (t.dev.desc (1 - r)).drop 1 = (d.desc (1 - r)).drop 1 ∧ FwOnly descFields d t.dev ∧
        t = { s with dev := { d with flds := t.dev.flds, keep := { d.keep with queue := t.dev.keep.queue }, fw := t.dev.fw, pba := t.dev.pba, evNow := t.dev.evNow, out := [] } })) ∧
  (∀ (s : State) (iface : Nat) (args : List Nat) (b : List Byte), FwIn s.dev iface 6 args b → s.dev.keep.queue.length < 16 →
    let d := s.dev
    ∃ t, exec .rollback s = .next t ∧
      (d.keep.wear ≠ 0 → FwEnds 3 t.dev) ∧
      (d.keep.wear = 0 → d.slotWith 4 = none → FwEnds 13 t.dev) ∧
      (∀ k, d.slotWith 4 = some k →
        (d.keep.wear = 0 → rn (d.desc k) 12 2 < d.minSvn → FwEnds 9 t.dev) ∧
        (d.keep.wear = 0 → d.minSvn ≤ rn (d.desc k) 12 2 → FwEnds 1 t.dev ∧ t.dev.slotState k = 2 ∧ (t.dev.desc k).drop 2 = (d.desc k).drop 2 ∧
          t.dev.desc (1 - k) = d.desc (1 - k)) ∧
        (d.keep.wear ≠ 0 ∨ rn (d.desc k) 12 2 < d.minSvn → t.dev.desc k = d.desc k)) ∧
      FwOnly descFields d t.dev ∧
      t = { s with dev := { d with flds := t.dev.flds, keep := { d.keep with queue := t.dev.keep.queue }, fw := t.dev.fw, pba := t.dev.pba, evNow := t.dev.evNow, out := [] } }) ∧
  (∀ (s : State) (iface : Nat) (args : List Nat) (b : List Byte), FwIn s.dev iface 8 args b →
    let d := s.dev
    ∃ t, exec .restart s = .next t ∧ FwEnds 1 t.dev ∧ t.dev.f R.WATCH_STAT.STATE = 2 ∧ FwOnly [R.WATCH_STAT.STATE, R.PWR_STAT.WAIT] d t.dev ∧
      t = { s with dev := { d with flds := t.dev.flds, fw := d.fw.over, pba := t.dev.pba, evNow := t.dev.evNow, out := [] } }) ∧
  (∀ (s : State), s.dev.fw.cur = none → s.dev.fw.going = 0 → s.dev.watchRuns = true → s.dev.b R.FW_STAT.BUSY = false →
    s.dev.domOn (domainOf R.FW_CMD.GO.off) = true → s.dev.b R.FW_CMD.GO = false →
    ∃ t, exec .restart s = .next t ∧ FwEnds 1 t.dev ∧ t.dev.f R.WATCH_STAT.STATE = 2 ∧ t.dev.f R.FW_CMD.OP = 8 ∧ t.dev.f R.FW_CMD.GO = 0 ∧
      FwOnly [R.WATCH_STAT.STATE, R.PWR_STAT.WAIT, R.FW_CMD.OP, R.FW_CMD.GO] s.dev t.dev) ∧
  (∀ (s : State) (x : Nat × Nat × List Nat × List Byte) (op : Fin 9) (c : Instr), s.dev.fw.cur = some x → x.2.1 ≠ op →
    (op.val, c) ∈ ([(1, .begin true), (2, .lit true), (3, .copy true), (4, .activate), (5, .confirm), (6, .rollback), (7, .abort), (8, .restart)] : List (Nat × Instr)) →
    s.dev.b R.FW_STAT.BUSY = true → s.dev.domOn (domainOf R.FW_CMD.GO.off) = true →
    ∃ t, exec c s = .next t ∧ t.dev.f R.FW_STAT.OVERRUN = 1 ∧ t.dev.f R.FW_CMD.OP = op.val ∧ OnlyFields [R.FW_STAT.OVERRUN, R.FW_CMD.OP] s.dev t.dev ∧
      t = { s with dev := { s.dev with flds := t.dev.flds, pba := t.dev.pba, again := [], evNow := [], out := [] } }) ∧
  ∀ (s : State),
    let d := s.dev
    let trial := if d.keep.wear = 0 then d.slotWith 2 else none
    (d.f R.WATCH_STAT.STATE = 0 ∨ d.f R.WATCH_STAT.STATE = 2) → d.b R.KEEP_STAT.READY = true → d.domOn 0 = true → (∀ k : Fin 2, (d.desc k).length = 64) →
    d.keep.flight = none → d.b R.WATCH_REQ.GO = false → (d.fw.trial = true → d.fw.descs.map List.length = some 2) →
    ∃ t, exec .watchStart s = .next t ∧
      (∀ k, trial = some k → d.fw.trial = false → t.dev.fw.trial = true ∧ t.dev.f R.WATCH_STAT.STATE = d.f R.WATCH_STAT.STATE ∧ t.dev.slotState k = 2 ∧
        rb (t.dev.desc k) 1 = (rb (d.desc k) 1 + 1) % 256 ∧
        (d.committing = false → t.dev.keep.queue.head? = some { cls := 2 + k, key := 0, body := t.dev.desc k }) ∧ OnlyFields descFields d t.dev) ∧
      (∀ k, trial = some k → d.fw.trial = true → d.keep.queue.any (fun q => q.cls == 2 + k) = true → t = { s with dev := { d with again := [], out := [] } }) ∧
      (let tried := trial.all (fun k => d.fw.trial && !d.keep.queue.any (fun q => q.cls == 2 + k))
       let fails := trial.all (fun k => !d.slotPasses k || decide (3 ≤ rb (d.desc k) 1))
       tried = true →
        (∀ k, trial = some k → fails = false → t.dev.f R.FW_STAT.RUNNING = k ∧ t.dev.b R.FW_STAT.RECOVERY = false ∧ t.dev.f R.WATCH_STAT.STATE = 1 ∧
          t.dev.desc k = d.desc k) ∧
        (∀ k, trial = some k → fails = true → t.dev.slotState k = 5 ∧ t.dev.f R.FW_STAT.RESULT = 17) ∧
        (fails = true → ∀ a, d.slotWith 3 = some a → d.slotPasses a = true → t.dev.f R.FW_STAT.RUNNING = a ∧
          t.dev.b R.FW_STAT.RECOVERY = false ∧ t.dev.f R.WATCH_STAT.STATE = 1) ∧
        (fails = true → (d.slotWith 3).any d.slotPasses = false → t.dev.b R.FW_STAT.RECOVERY = true ∧ t.dev.f R.WATCH_STAT.STATE = 3) ∧
        (d.b R.FW_CMD.GO = true → d.b R.FW_STAT.BUSY = false → d.again.contains R.FW_CMD.GO.key = false → t.dev.f R.FW_STAT.BUSY = 1 ∧ t.dev.f R.FW_CMD.GO = 0 ∧
          t.dev.fw.cur.map (fun x => (x.1, x.2.1)) = some (1, d.f R.FW_CMD.OP)) ∧
        OnlyFields ([R.FW_STAT.RUNNING, R.FW_STAT.RECOVERY, R.FW_STAT.RESULT, R.FW_STAT.BUSY, R.FW_CMD.GO, R.WATCH_STAT.STATE, R.WATCH_EVT.IDENT_FIX,
          R.ENG_PATCH_STAT.PENDING, R.KEEP_CNT.FAULT_DROPPED, R.KEEP_EVT.FAULT_DROP, R.KEEP_EVT.CHECK_FAIL, R.PWR_STAT.WAIT] ++ descFields) d t.dev)

/-- The service port. Whether the signature of an unlock is good is left as a case of the conclusion, as the service key is the part's own (R548). The layout of the
ID answer and DENIED for a failed UNLOCK (log 110), the bytes of a read beyond what its command has (log 216), and the nonce (log 4), is the model's choice. -/
def Obligations.ServicePort : Prop :=
  (∀ (s : State) (len : BitVec 16),
    let d := s.dev
    let v := Config.freeValue d.freeN
    (∃ t, exec (.svcId len) s = .next t ∧ SvcAnswers d t.dev 0 len.toNat (leBytes 4 0x4416 ++ leBytes 2 d.svc.locked.toNat ++ leBytes 2 d.svc.fails) ∧
      t = { s with dev := { d with freeN := t.dev.freeN, out := t.dev.out } }) ∧
    (∃ t, exec (.svcNonce len) s = .next t ∧ SvcAnswers { d with freeN := d.freeN + 1 } t.dev 0 len.toNat (leBytes 16 v) ∧
      t = { s with dev := { d with svc := { d.svc with nonce := some (leBytes 16 v) }, freeN := t.dev.freeN, out := t.dev.out } }) ∧
    exec .svcRst s = .next { s with dev := { d with svc := { d.svc with locked := true, nonce := none }, out := [] } }) ∧
  (∀ (s : State) (sig : List Byte),
    let d := s.dev
    let ok := d.svc.nonce.any (fun n => sigOk (identBytes 128 96) (n ++ identBytes 8 16) sig)
    (3 ≤ d.svc.fails → exec (.svcUnlock sig) s = .next { s with dev := { d with out := [.svc [4]] } }) ∧
    (d.svc.fails < 3 → ok = false →
      exec (.svcUnlock sig) s = .next { s with dev := { d with svc := { d.svc with fails := d.svc.fails + 1, nonce := none }, out := [.svc [4]] } }) ∧
    (d.svc.fails < 3 → ok = true → exec (.svcUnlock sig) s = .next { s with dev := { d with svc := { d.svc with locked := false, nonce := none }, out := [.svc [0]] } })) ∧
  (∀ (s : State) (addr : Word) (len : BitVec 16) (op : Word) (args : List Word) (block : List Byte), s.dev.svc.locked = true →
    exec (.svcFwCmd op args block) s = .next { s with dev := { s.dev with out := [.svc [2]] } } ∧
    ∀ c ∈ [Instr.svcReadKeep addr len, .svcReadOtp addr len, .svcReadReg addr len, .svcFwStat len],
      ∃ t, exec c s = .next t ∧ SvcAnswers s.dev t.dev 2 len.toNat [] ∧ t = { s with dev := { s.dev with freeN := t.dev.freeN, out := t.dev.out } }) ∧
  (∀ (s : State) (addr : Word) (len : BitVec 16), s.dev.svc.locked = false →
    let d := s.dev
    (addr.toNat + len.toNat ≤ 2 ^ 28 →
      ∃ t, exec (.svcReadKeep addr len) s = .next t ∧ t = { s with dev := { d with out := t.dev.out } } ∧
        t.dev.out = [.svc (0 :: (List.range len.toNat).map (fun i => (d.unitBytes ((addr.toNat + i) / 65536)).getD ((addr.toNat + i) % 65536) 0))]) ∧
    (addr.toNat + len.toNat ≤ 2 ^ 20 →
      exec (.svcReadOtp addr len) s = .next { s with dev := { d with out := [.svc (0 :: (List.range len.toNat).map (fun i => Config.otp (addr.toNat + i)))] } })) ∧
  (∀ (s : State) (addr : Word) (len : BitVec 16), s.dev.svc.locked = false → addr.toNat < 0x1000000 →
    ∃ t, exec (.svcReadReg addr len) s = .next t ∧ ∃ u, exec (.unmappedRead (BitVec.ofNat 25 addr.toNat)) s = .next u ∧
      (∀ v, u.dev.out = [.read v] → SvcAnswers u.dev t.dev 0 len.toNat (leBytes 4 v)) ∧
      t = { u with dev := { u.dev with out := t.dev.out, freeN := t.dev.freeN, evNow := t.dev.evNow, again := s.dev.again } }) ∧
  (∀ (s : State) (op : Word) (args : List Word) (block : List Byte), s.dev.svc.locked = false →
    let d := s.dev
    (op.toNat = 0 ∨ 8 < op.toNat → exec (.svcFwCmd op args block) s = .next { s with dev := { d with out := [.svc [3]] } }) ∧
    (1 ≤ op.toNat → op.toNat ≤ 8 → d.b R.FW_STAT.BUSY = true ∨ d.watchRuns = false →
      exec (.svcFwCmd op args block) s = .next { s with dev := { d with out := [.svc [1]] } }) ∧
    (1 ≤ op.toNat → op.toNat ≤ 8 → d.b R.FW_STAT.BUSY = false → d.watchRuns = true →
      ∃ t, exec (.svcFwCmd op args block) s = .next t ∧ t.dev.f R.FW_STAT.BUSY = 1 ∧
        t.dev.fw.cur.map (fun x => (x.1, x.2.1, x.2.2.1)) = some (2, op.toNat, args.map BitVec.toNat) ∧
        (block.length = 4096 → t.dev.fw.cur.map (fun x => x.2.2.2) = some block) ∧ OnlyFields [R.FW_STAT.BUSY] d t.dev ∧
        t = { s with dev := { d with flds := t.dev.flds, fw := { d.fw with cur := t.dev.fw.cur }, out := [.svc [0]] } })) ∧
  ∀ (s : State) (len : BitVec 16), s.dev.svc.locked = false →
    let w := fun (off : Nat) => leBytes 4 (s.dev.liveAt off)
    ∃ t, exec (.svcFwStat len) s = .next t ∧
      SvcAnswers s.dev t.dev 0 len.toNat (w R.FW_STAT.BUSY.off ++ w (R.FW_SLOT.STATE 0).off ++ w (R.FW_SLOT.STATE 1).off ++ w R.FW_MINSVN.MIN_SVN.off) ∧
      t = { s with dev := { s.dev with freeN := t.dev.freeN, out := t.dev.out } }

/-- The host port: its link, a Function Level Reset, BAR2, the DMA queues and the MSI-X vectors. It is the model's choice that MSI-X Enable and the function mask
come with an operand (log 23), and the function's settings with the link's (log 217), that a link which is down keeps its rate and width (log 25), that FLR keeps
the link's status (log 26), that one command is one turn of a queue (log 27), and that an entry ends with ABORTED at the write that disables its queue (log 30). -/
def Obligations.HostPort : Prop :=
  (∀ (s : State) (rate : Fin 7) (width active : Fin 9) (flit : Bool) (pci : PciSettings),
    let d := s.dev
    (d.domOn 1 = false ∨ hostLinkOk rate width active flit = false → exec (.hostLinkUp rate width active flit pci) s = .next { s with dev := { d with out := [] } }) ∧
    (d.domOn 1 = true → hostLinkOk rate width active flit = true →
    ∃ t, exec (.hostLinkUp rate width active flit pci) s = .next t ∧ t.dev.f R.LNK_HOST_STAT.UP = (!pci.l1).toNat ∧ t.dev.f R.LNK_HOST_STAT.FLIT = flit.toNat ∧
      t.dev.f R.LNK_HOST_STAT.RATE = rate.val ∧ t.dev.f R.LNK_HOST_STAT.WIDTH = width.val ∧ t.dev.f R.LNK_HOST_STAT.L0P = (if pci.l1 then 0 else active.val) ∧
      t.dev.host = { d.host with wasDown := false, d3hot := pci.d3hot, l1 := pci.l1, payload := pci.payload.val, request := pci.request.val
                                 aer := d.host.aer &&& (pci.clear.toNat ^^^ 0xFFFFFFFF) } ∧
      t.dev.f R.LNK_HOST_EVT.RATE_CHG = (if d.f R.LNK_HOST_STAT.RATE = rate.val ∧ d.f R.LNK_HOST_STAT.WIDTH = width.val then d.f R.LNK_HOST_EVT.RATE_CHG else 1) ∧
      t.dev.f R.LNK_HOST_EVT.DOWN = (if d.host.wasDown then 1 else d.f R.LNK_HOST_EVT.DOWN) ∧
      OnlyFields [R.LNK_HOST_STAT.UP, R.LNK_HOST_STAT.FLIT, R.LNK_HOST_STAT.RATE, R.LNK_HOST_STAT.WIDTH, R.LNK_HOST_STAT.L0P, R.LNK_HOST_EVT.RATE_CHG,
        R.LNK_HOST_EVT.DOWN] d t.dev ∧
      t = { s with dev := { d with flds := t.dev.flds, host := t.dev.host, pba := t.dev.pba, evNow := t.dev.evNow, out := [] } })) ∧
  (∀ (s : State),
    let d := s.dev
    ∃ t, exec .hostLinkDown s = .next t ∧ t.dev.f R.LNK_HOST_STAT.UP = 0 ∧ t.dev.f R.LNK_HOST_STAT.L0P = 0 ∧
      t.dev.host = { d.host with wasDown := true, l1 := false, waits := d.host.waits.filter (fun w => decide (64 ≤ w.1)) } ∧
      (∀ q : Fin 64, t.dev.f (R.LNK_Q_CTL.EN q) = 0 ∧ t.dev.f (R.LNK_Q_STAT.BUSY q) = 0 ∧ t.dev.queue q = {}) ∧
      OnlyFields (R.LNK_HOST_STAT.UP :: R.LNK_HOST_STAT.L0P :: (List.range 64).flatMap (fun q => [R.LNK_Q_CTL.EN q, R.LNK_Q_STAT.BUSY q, R.LNK_Q_STAT.CQ_FULL q])) d t.dev ∧
      t = { s with dev := { d with flds := t.dev.flds, host := t.dev.host, queues := t.dev.queues, out := [] } }) ∧
  (∀ (s : State),
    let d := s.dev
    let rs := [(0xA00, 0xB14), (0x30004, 0x30008), (0x30104, 0x3010C), (0x1000000, 0x2000000)]
    ∃ t, exec .flr s = .next t ∧ t.dev.queues = [] ∧ t.dev.pba = [] ∧ t.dev.f R.PWR_RST.CAUSE = 7 ∧
      t.dev.f R.PWR_RST.COUNT = satInc R.PWR_RST.COUNT.width (d.f R.PWR_RST.COUNT) ∧ AtReset rs [] t.dev ∧
      t.dev.f R.FW_STAT.OWNER = 0 ∧ ElseSame rs [R.PWR_RST.CAUSE, R.PWR_RST.COUNT, R.FW_STAT.OWNER] d t.dev ∧
      t = { s with dev := { d with
        flds := t.dev.flds, latch := t.dev.latch, held := t.dev.held, queues := [], pba := []
        host := { d.host with served := 63, waits := [], msixEn := false, funcMask := false, d3hot := false, payload := 0, request := 2 }, out := [] } }) ∧
  (∀ (s : State) (off : BitVec 26) (len : BitVec 13),
    let d := s.dev
    let as := (List.range len.toNat).map (fun i => d.bar2Addr (off.toNat + i))
    let none' := as.any (fun a => (lineClass (a / 64)).isNone)
    (∀ a ∈ as, (lineClass (a / 64)).any (fun x => !(x.1 == 3 && decide (49152 ≤ x.2.2))) = true → d.tagOf (a / 64) = 0 ∧ (d.lineErrs (a / 64)).isEmpty = true) →
    ∃ t, exec (.bar2Read off len) s = .next t ∧
      t.dev.out = [.bytes (as.map (fun a => match lineClass (a / 64) with
        | none => 0
        | some x => if x.1 = 3 ∧ 49152 ≤ x.2.2 then 0 else d.sramByte a)) false] ∧
      t.dev.f R.LNK_HOST_EVT.BAR2_UNMAPPED = (if none' then 1 else d.f R.LNK_HOST_EVT.BAR2_UNMAPPED) ∧ OnlyFields [R.LNK_HOST_EVT.BAR2_UNMAPPED] d t.dev ∧
      t = { s with dev := { d with flds := t.dev.flds, pba := t.dev.pba, evNow := t.dev.evNow, out := t.dev.out } }) ∧
  (∀ (s : State) (off : BitVec 26) (len : BitVec 13) (l : Nat), 0 < len.toNat → (∀ i, i < len.toNat → s.dev.bar2Addr (off.toNat + i) / 64 = l) →
    (lineClass l).any (fun x => !(x.1 == 3 && decide (49152 ≤ x.2.2))) = true → s.dev.tagOf l ≠ 0 →
    ∃ t, exec (.bar2Read off len) s = .next t ∧ t.dev.out = [.bytes (List.replicate len.toNat 0) true]) ∧
  (∀ (s : State) (off : BitVec 26),
    ∃ t, exec (.bar2Wr off) s = .next t ∧ t.dev.f R.LNK_HOST_EVT.BAR2_WR = 1 ∧ OnlyFields [R.LNK_HOST_EVT.BAR2_WR] s.dev t.dev ∧
      t = { s with dev := { s.dev with flds := t.dev.flds, pba := t.dev.pba, evNow := t.dev.evNow, out := [] } }) ∧
  (∀ (s : State) (q : Fin 64) (data : Word), s.dev.domOn (domainOf (R.LNK_Q_CTL.EN q).off) = true →
    let d := s.dev
    let ien := if data.toNat.testBit 1 then 1 else 0
    (d.b (R.LNK_Q_CTL.EN q) = false →
      ∃ t, exec (.queueEnable q data) s = .next t ∧ t.dev.f (R.LNK_Q_CTL.EN q) = 1 ∧ t.dev.f (R.LNK_Q_CTL.IEN q) = ien ∧
        t.dev.queue q = { sqBase := d.f (R.LNK_SQ_BASE_LO.ADDR q) * 4096 + d.f (R.LNK_SQ_BASE_HI.ADDR q) * 2 ^ 32
                          cqBase := d.f (R.LNK_CQ_BASE_LO.ADDR q) * 4096 + d.f (R.LNK_CQ_BASE_HI.ADDR q) * 2 ^ 32
                          sqLog := d.f (R.LNK_Q_CFG.SQ_LOG q), cqLog := d.f (R.LNK_Q_CFG.CQ_LOG q), phase := true, cur := none } ∧
        t.dev.f (R.LNK_Q_STAT.SQ_HEAD q) = 0 ∧ t.dev.f (R.LNK_SQ_TAIL.INDEX q) = 0 ∧ t.dev.f (R.LNK_Q_STAT.CQ_TAIL q) = 0 ∧
        (∀ p : Fin 64, p ≠ q → t.dev.queue p = d.queue p) ∧
        OnlyFields [R.LNK_Q_CTL.EN q, R.LNK_Q_CTL.IEN q, R.LNK_Q_STAT.SQ_HEAD q, R.LNK_SQ_TAIL.INDEX q, R.LNK_Q_STAT.CQ_TAIL q, R.LNK_Q_STAT.CQ_FULL q] d t.dev ∧
        t = { s with dev := { d with flds := t.dev.flds, queues := t.dev.queues, again := [], evNow := [], out := [] } }) ∧
    (d.b (R.LNK_Q_CTL.EN q) = true →
      ∃ t, exec (.queueDisable q data) s = .next t ∧ t.dev.f (R.LNK_Q_CTL.EN q) = 0 ∧ t.dev.f (R.LNK_Q_CTL.IEN q) = ien ∧ t.dev.f (R.LNK_Q_STAT.BUSY q) = 0 ∧
        t.dev.queue q = {} ∧ (∀ p : Fin 64, p ≠ q → t.dev.queue p = d.queue p) ∧
        ((d.queue q).cur = none → d.waitsFor q = none → t.dev.out = [] ∧ OnlyFields [R.LNK_Q_CTL.EN q, R.LNK_Q_CTL.IEN q, R.LNK_Q_STAT.BUSY q, R.LNK_Q_STAT.CQ_FULL q] d t.dev) ∧
        (∀ e, (d.queue q).cur = some e → t.dev.out = [.hostWrite ((d.queue q).cqBase + 16 * d.f (R.LNK_Q_STAT.CQ_TAIL q)) (d.cqEntry q e.bytes 10 e.done) false]) ∧
        (∀ w, (d.queue q).cur = none → d.waitsFor q = some w →
          t.dev.out = [.hostWrite ((d.queue q).cqBase + 16 * d.f (R.LNK_Q_STAT.CQ_TAIL q)) (d.cqEntry q w 10 0) false]) ∧
        t.dev.host = { d.host with waits := d.host.waits.filter (fun w => w.1 != q) })) ∧
  (∀ (s : State) (q : Fin 64) (data : Word), s.dev.domOn 1 = false → ∀ c ∈ [Instr.queueEnable q data, .queueDisable q data, .sqDoorbell q data, .cqDoorbell q data],
    ∃ t, exec c s = .next t ∧ t.dev.f R.LNK_HOST_EVT.BAR4_ACC = 1 ∧ OnlyFields [R.LNK_HOST_EVT.BAR4_ACC] s.dev t.dev ∧
      t = { s with dev := { s.dev with flds := t.dev.flds, pba := t.dev.pba, again := [], evNow := [], out := [] } }) ∧
  (∀ (s : State) (q : Fin 64) (data : Word), s.dev.domOn (domainOf (R.LNK_SQ_TAIL.INDEX q).off) = true → s.dev.domOn (domainOf (R.LNK_CQ_HEAD.INDEX q).off) = true →
    let d := s.dev
    let v := data.toNat % 2 ^ 13
    (d.b (R.LNK_Q_CTL.EN q) = true → v < 2 ^ (d.queue q).sqLog →
      ∃ t, exec (.sqDoorbell q data) s = .next t ∧ t.dev.f (R.LNK_SQ_TAIL.INDEX q) = v ∧ OnlyFields [R.LNK_SQ_TAIL.INDEX q] d t.dev ∧
        t = { s with dev := { d with flds := t.dev.flds, again := [], evNow := [], out := [] } }) ∧
    (d.b (R.LNK_Q_CTL.EN q) = true → v < 2 ^ (d.queue q).cqLog →
      ∃ t, exec (.cqDoorbell q data) s = .next t ∧ t.dev.f (R.LNK_CQ_HEAD.INDEX q) = v ∧
        t.dev.f (R.LNK_Q_STAT.CQ_FULL q) = (if (d.f (R.LNK_Q_STAT.CQ_TAIL q) + 1) % 2 ^ (d.queue q).cqLog = v then 1 else 0) ∧
        OnlyFields [R.LNK_CQ_HEAD.INDEX q, R.LNK_Q_STAT.CQ_FULL q] d t.dev ∧
        t = { s with dev := { d with flds := t.dev.flds, again := [], evNow := [], out := [] } }) ∧
    (∀ c ∈ [Instr.sqDoorbell q data, .cqDoorbell q data],
      d.b (R.LNK_Q_CTL.EN q) = false ∨ (2 ^ (d.queue q).sqLog ≤ v ∧ 2 ^ (d.queue q).cqLog ≤ v) →
      ∃ t, exec c s = .next t ∧ t.dev.f (R.LNK_Q_STAT.DB_RANGE q) = 1 ∧
        t.dev.f R.LNK_HOST_EVT.BAR4_ACC = (if d.b (R.LNK_Q_CTL.EN q) then 1 else d.f R.LNK_HOST_EVT.BAR4_ACC) ∧
        OnlyFields [R.LNK_Q_STAT.DB_RANGE q, R.LNK_HOST_EVT.BAR4_ACC] d t.dev ∧
        t = { s with dev := { d with flds := t.dev.flds, pba := t.dev.pba, again := [], evNow := [], out := [] } })) ∧
  (∀ (s : State) (q : Fin 64) (e turn : List Byte) (poisoned : List Nat), s.dev.nextQueue = some q.val → (s.dev.queue q).cur = none →
    s.dev.waitsFor q = none → e.length = 64 →
    let d := s.dev
    let taken := fun (n : Nat) => d.ringTakenBy q n || d.host.waits.any (fun w => rb w.2 0 == 3 && rb w.2 28 == n)
    let d' := { d with flds := setFld d.flds (R.LNK_Q_STAT.SQ_HEAD q) ((d.f (R.LNK_Q_STAT.SQ_HEAD q) + 1) % 2 ^ (d.queue q).sqLog) }
    let n := rn e 24 4
    let host := rn e 8 8
    let cxl := rn e 16 8
    let post := fun (status done : Nat) => Out.hostWrite ((d.queue q).cqBase + 16 * d.f (R.LNK_Q_STAT.CQ_TAIL q)) (d'.cqEntry q e status done) false
    let bad := fun (a : Nat) => poisoned.any (fun p => p / 64 == a / 64)
    (d.entryStatus e = 0 → rb e 0 = 1 → d.cxlAway = false → n ≤ 4096 → n ≤ turn.length →
      ∃ t, exec (.h2c q e turn) s = .next t ∧ t.dev.out = [post 0 n] ∧ t.dev.f (R.LNK_Q_STAT.SQ_HEAD q) = d'.f (R.LNK_Q_STAT.SQ_HEAD q) ∧
        t.dev.f (R.LNK_Q_STAT.BUSY q) = 0 ∧ (t.dev.queue q).cur = none ∧ t.dev.cxlBytes cxl n = turn.take n ∧
        (∀ a, (a < cxl ∨ cxl + n ≤ a) → t.dev.cxl.get a = d.cxl.get a) ∧
        OnlyFields [R.LNK_Q_STAT.SQ_HEAD q, R.LNK_Q_STAT.BUSY q, R.LNK_Q_STAT.CQ_TAIL q, R.LNK_Q_STAT.CQ_FULL q] d t.dev ∧
        t = { s with dev := { d with flds := t.dev.flds, queues := t.dev.queues, host := { d.host with served := q.val }, cxl := t.dev.cxl, pba := t.dev.pba, out := t.dev.out } }) ∧
    (d.entryStatus e = 0 → rb e 0 = 1 → d.cxlAway = false → 4096 < n → 4096 ≤ turn.length →
      ∃ t, exec (.h2c q e turn) s = .next t ∧ t.dev.out = [] ∧ t.dev.f (R.LNK_Q_STAT.BUSY q) = 1 ∧
        (t.dev.queue q).cur = some { bytes := e, span := n, done := 4096 } ∧ t.dev.cxlBytes cxl 4096 = turn.take 4096 ∧
        OnlyFields [R.LNK_Q_STAT.SQ_HEAD q, R.LNK_Q_STAT.BUSY q] d t.dev ∧
        t = { s with dev := { d with flds := t.dev.flds, queues := t.dev.queues, host := { d.host with served := q.val }, cxl := t.dev.cxl, out := t.dev.out } }) ∧
    (d.entryStatus e = 0 → rb e 0 = 2 → d.cxlAway = false → n ≤ 4096 →
      ∃ t, exec (.c2h q e poisoned) s = .next t ∧
        t.dev.out = (List.range (n / 64)).map (fun i => Out.hostWrite (host + 64 * i) (d.cxlBytes (cxl + 64 * i) 64) (bad (cxl + 64 * i))) ++
          [post (if (List.range (n / 64)).any (fun i => bad (cxl + 64 * i)) then 9 else 0) n] ∧
        (t.dev.queue q).cur = none ∧ t.dev.cxl = d.cxl ∧
        (∀ a, t.dev.cxlPoison a = (if (List.range (n / 64)).any (fun i => decide ((cxl + 64 * i) / 64 = a / 64)) then bad a else d.cxlPoison a)) ∧
        OnlyFields [R.LNK_Q_STAT.SQ_HEAD q, R.LNK_Q_STAT.BUSY q, R.LNK_Q_STAT.CQ_TAIL q, R.LNK_Q_STAT.CQ_FULL q, R.ECC_EVT.CXL_POISON] d t.dev ∧
        t = { s with dev := { d with
          flds := t.dev.flds, queues := t.dev.queues, host := { d.host with served := q.val }, cxlBad := t.dev.cxlBad, pba := t.dev.pba, evNow := t.dev.evNow
          out := t.dev.out } }) ∧
    (d.entryStatus e = 0 → rb e 0 = 3 → rb e 28 = 0 → d.cxlAway = false → taken 0 = false →
      let g := d.ring 0
      let len := min n (d.ringFill 0)
      let r := 256 * d.f R.ACQ_DRAIN_RPTR.OFF
      let at' := fun (i : Nat) => g.base + (r + i) % g.size
      len ≤ 4096 → len % 256 = 0 → 0 < g.size → g.size < 2 ^ 32 →
      ∃ t, exec (.ring q e poisoned) s = .next t ∧
        t.dev.out = (List.range (len / 64)).map (fun i => Out.hostWrite (host + 64 * i) (d.cxlBytes (at' (64 * i)) 64) (bad (at' (64 * i)))) ++
          (if len = 0 then [] else [.hostWrite (rn e 32 8) ((List.range (len / 256)).flatMap (fun i => d.cxlBytes (g.base + g.size + 4 * ((r + 256 * i) % g.size / 256)) 4)) false]) ++
          [post (if (List.range (len / 64)).any (fun i => bad (at' (64 * i))) then 9 else 0) len] ∧
        t.dev.f R.ACQ_DRAIN_RPTR.OFF = (r + len) % g.size / 256 ∧ (t.dev.queue q).cur = none ∧ t.dev.cxl = d.cxl ∧
        t = { s with dev := { d with
          flds := t.dev.flds, queues := t.dev.queues, host := { d.host with served := q.val }, cxlBad := t.dev.cxlBad, pba := t.dev.pba, evNow := t.dev.evNow
          out := t.dev.out } }) ∧
    (d.entryStatus e = 0 → rb e 0 = 4 →
      ∃ t, exec (.nop q e) s = .next t ∧ t.dev.out = [post 0 0] ∧ (t.dev.queue q).cur = none ∧
        (rb e 1 % 2 = 1 → d.b (R.LNK_Q_CTL.IEN q) = true → bget (fun _ => false) t.dev.pba q = true) ∧
        OnlyFields [R.LNK_Q_STAT.SQ_HEAD q, R.LNK_Q_STAT.BUSY q, R.LNK_Q_STAT.CQ_TAIL q, R.LNK_Q_STAT.CQ_FULL q] d t.dev ∧
        t = { s with dev := { d with flds := t.dev.flds, queues := t.dev.queues, host := { d.host with served := q.val }, pba := t.dev.pba, out := t.dev.out } }) ∧
    (∀ x ∈ [(Instr.h2c q e turn, [1]), (.c2h q e poisoned, [2]), (.ring q e poisoned, [3]), (.nop q e, 0 :: (List.range 252).map (4 + ·))], rb e 0 ∈ x.2 →
      (rb e 0 < 4 → d.entryStatus e ≠ 1 → d.entryStatus e ≠ 2 → d.cxlAway = true ∨ (rb e 0 = 3 ∧ taken (rb e 28) = true) →
        ∃ t, exec x.1 s = .next t ∧ t.dev.f (R.LNK_Q_STAT.SQ_HEAD q) = d'.f (R.LNK_Q_STAT.SQ_HEAD q) ∧ t.dev.f (R.LNK_Q_STAT.BUSY q) = 1 ∧
          OnlyFields [R.LNK_Q_STAT.SQ_HEAD q, R.LNK_Q_STAT.BUSY q] d t.dev ∧
          t = { s with dev := { d with flds := t.dev.flds, host := { d.host with served := q.val, waits := d.host.waits ++ [(q.val, e)] }, out := [] } }) ∧
      (d.entryStatus e ≠ 0 → d.entryStatus e ≤ 2 ∨ (d.cxlAway = false ∧ (rb e 0 = 3 → taken (rb e 28) = false)) →
      ∃ t, exec x.1 s = .next t ∧ t.dev.out = [post (d.entryStatus e) 0] ∧ t.dev.f (R.LNK_Q_STAT.SQ_HEAD q) = d'.f (R.LNK_Q_STAT.SQ_HEAD q) ∧
        OnlyFields [R.LNK_Q_STAT.SQ_HEAD q, R.LNK_Q_STAT.BUSY q, R.LNK_Q_STAT.CQ_TAIL q, R.LNK_Q_STAT.CQ_FULL q] d t.dev ∧
        t = { s with dev := { d with flds := t.dev.flds, queues := t.dev.queues, host := { d.host with served := q.val }, pba := t.dev.pba, out := t.dev.out } }))) ∧
  (∀ (s : State) (q : Fin 64) (e : Entry) (why : ReadEnd), (s.dev.queue q).cur = some e → rb e.bytes 0 = 1 →
    let d := s.dev
    ∃ t, exec (.hostReadTimeout q why) s = .next t ∧ t.dev.host = { d.host with aer := d.host.aer ||| aerBits why } ∧ t.dev.out = [.hostWrite ((d.queue q).cqBase + 16 * d.f (R.LNK_Q_STAT.CQ_TAIL q)) (d.cqEntry q e.bytes 8 e.done) false] ∧
      t.dev.f (R.LNK_Q_STAT.BUSY q) = 0 ∧ (t.dev.queue q).cur = none ∧
      OnlyFields [R.LNK_Q_STAT.BUSY q, R.LNK_Q_STAT.CQ_TAIL q, R.LNK_Q_STAT.CQ_FULL q] d t.dev ∧
      t = { s with dev := { d with flds := t.dev.flds, queues := t.dev.queues, host := t.dev.host, pba := t.dev.pba, out := t.dev.out } }) ∧
  ∀ (s : State) (v : Fin 2048) (enable mask : Bool),
    let d := s.dev
    let host := { d.host with msixEn := enable, funcMask := mask }
    let send := enable = true ∧ mask = false ∧ d.host.d3hot = false ∧ bget (fun _ => false) d.pba v = true ∧ d.f (R.MSIX.WORD v 3) % 2 = 0
    (send → ∃ t, exec (.msixMessage v enable mask) s = .next t ∧
      t.dev.out = [.msix v (d.f (R.MSIX.WORD v 0) + 2 ^ 32 * d.f (R.MSIX.WORD v 1)) (d.f (R.MSIX.WORD v 2))] ∧ bget (fun _ => false) t.dev.pba v = false ∧
      (∀ w : Fin 2048, w ≠ v → bget (fun _ => false) t.dev.pba w = bget (fun _ => false) d.pba w) ∧
      t = { s with dev := { d with host := host, pba := t.dev.pba, out := t.dev.out } }) ∧
    (¬ send → exec (.msixMessage v enable mask) s = .next { s with dev := { d with host := host, out := [] } })

/-- Attestation, and the CXL port's link and device. It is the model's choice that a Watch which does not run answers nothing (log 13), that the PATCH section measured is
the one loaded last (log 189), and which codes and layouts the answers have (log 12); what the spec leaves open in them is free (log 4). -/
def Obligations.SpdmAndCxl : Prop :=
  (∀ (s : State) (slot : Fin 8) (off len : BitVec 16) (req nonce : List Byte) (index : BitVec 8),
    let d := s.dev
    let v := Config.freeValue d.freeN
    let run := d.watchRuns
    let say := fun (code : Nat) (bs : List Byte) => ({ s with dev := { d with out := if run then [.spdm code bs] else [] } } : State)
    let opens := fun (code : Nat) (bs : List Byte) => ({ s with dev := { d with freeN := d.freeN + 1, out := if run then [.spdm code bs] else [] } } : State)
    let chain := identBytes 256 (leNat (identBytes 224 2))
    exec .getVersion s = .next (say 0x04 [0x12, 0x13]) ∧
    exec .getCapabilities s = .next (opens 0x61 (leBytes 4 v)) ∧
    exec (.negotiateAlgorithms req) s = .next (say 0x63 (leBytes 4 0x80 ++ leBytes 4 0x02)) ∧
    exec .getDigests s = .next (say 0x01 (0x01 :: sha384 chain)) ∧
    exec (.getCertificate slot off len) s = .next (if slot = 0 then say 0x02 ((chain.drop off.toNat).take len.toNat) else say 0x7F [0x01]) ∧
    exec (.challenge slot nonce) s = .next (if slot = 0 then opens 0x03 (sha384 chain ++ leBytes 128 v) else say 0x7F [0x01]) ∧
    exec .keyExchange s = .next (say 0x7F [0x07]) ∧
    exec (.getMeasurements index) s = .next (
      let r := d.fwRun
      let sect := fun (type : Nat) => sha384 (((d.fwFind r type).map (fun x => d.fwSection r x)).getD [])
      let block := [leBytes 4 (d.f R.ENG_ROM_ID.ID), sect 1, sha384 d.fw.force, sect 3, sha384 (d.fwBlock r 0), sha384 (((d.desc r).drop 12).take 4),
        sha384 ((d.img.act.map (fun im => im.header.take 64)).getD (List.replicate 64 0))]
      if index.toNat = 0 then say 0x60 [7]
      else if index.toNat = 0xFF then say 0x60 block.flatten
      else if index.toNat ≤ 7 then say 0x60 (block.getD (index.toNat - 1) [])
      else say 0x7F [0x01])) ∧
  (∀ (s : State) (type3 mld timeout : Bool) (cap : BitVec 52) (rate : Fin 7) (width : Fin 9),
    let d := s.dev
    let ok := d.domOn 2 && rate.val != 0 && [2, 4, 8].contains width.val
    (ok = false → exec (.cxlEnumerate type3 mld cap timeout rate width) s = .next { s with dev := { d with out := [] } }) ∧
    (ok = true →
    let why := if timeout then 4 else if !type3 then 1 else if mld then 2 else if cap.toNat < 2 ^ 30 then 3 else 0
    ∃ t, exec (.cxlEnumerate type3 mld cap timeout rate width) s = .next t ∧ t.dev.f R.LNK_CXL_STAT.UP = 1 ∧ t.dev.f R.LNK_CXL_STAT.RATE = rate.val ∧
      t.dev.f R.LNK_CXL_STAT.WIDTH = width.val ∧ t.dev.f R.LNK_CXL_STAT.WHY = why ∧ t.dev.host.cxlLost = false ∧
      (why ≠ 0 → t.dev.f R.ECC_CXL_STAT.PRESENT = 0 ∧ t.dev.f R.LNK_CXL_EVT.ENUM_FAIL = 1 ∧
        OnlyFields [R.LNK_CXL_STAT.UP, R.LNK_CXL_STAT.RATE, R.LNK_CXL_STAT.WIDTH, R.LNK_CXL_STAT.WHY, R.ECC_CXL_STAT.PRESENT, R.LNK_CXL_EVT.ENUM_FAIL] d t.dev ∧
        t = { s with dev := { d with flds := t.dev.flds, host := t.dev.host, pba := t.dev.pba, evNow := t.dev.evNow, out := [] } }) ∧
      (why = 0 → t.dev.f R.ECC_CXL_STAT.PRESENT = 1 ∧ t.dev.f R.ECC_CXL_STAT.CAP = min 2048 (cap.toNat / 2 ^ 30) ∧
        OnlyFields ([R.LNK_CXL_STAT.UP, R.LNK_CXL_STAT.RATE, R.LNK_CXL_STAT.WIDTH, R.LNK_CXL_STAT.WHY, R.ECC_CXL_STAT.PRESENT, R.ECC_CXL_STAT.CAP] ++
          (List.range 4).map R.ACQ_STRM_WPTR.OFF) d t.dev ∧
        t.dev.out = (d.img.act.map (fun im => d.cxlReads.map (fun x => Out.cxlRead (im.base + (if x.1 then im.waveOff else im.schedOff) + 256 * x.2) 256))).getD [] ∧
        ((∀ k : Fin 4, (d.stream k).buffer = []) → t = { s with dev := { d with flds := t.dev.flds, host := t.dev.host, out := t.dev.out } })))) ∧
  (∀ (s : State),
    let d := s.dev
    (d.b R.LNK_CXL_STAT.UP = true →
      ∃ t, exec .cxlLinkDown s = .next t ∧ t.dev.f R.LNK_CXL_STAT.UP = 0 ∧ t.dev.f R.ECC_CXL_STAT.PRESENT = 0 ∧ t.dev.f R.LNK_CXL_EVT.DOWN = 1 ∧
        t.dev.f R.LNK_CXL_CNT.RETRAINS = satInc R.LNK_CXL_CNT.RETRAINS.width (d.f R.LNK_CXL_CNT.RETRAINS) ∧
        t.dev.host = { d.host with cxlLost := d.host.cxlLost || d.b R.ECC_CXL_STAT.PRESENT } ∧
        OnlyFields [R.LNK_CXL_STAT.UP, R.ECC_CXL_STAT.PRESENT, R.LNK_CXL_EVT.DOWN, R.LNK_CXL_CNT.RETRAINS] d t.dev ∧
        t = { s with dev := { d with flds := t.dev.flds, host := t.dev.host, pba := t.dev.pba, evNow := t.dev.evNow, out := [] } }) ∧
    (d.b R.LNK_CXL_STAT.UP = false → exec .cxlLinkDown s = .next { s with dev := { d with out := [] } })) ∧
  ∀ (s : State) (events : BitVec 16), 0 < events.toNat → s.dev.b R.ECC_CXL_STAT.PRESENT = true →
    ∃ t, exec (.cxlEventPoll events) s = .next t ∧ t.dev.f R.LNK_CXL_EVT.MEDIA = 1 ∧
      t.dev.f R.LNK_CXL_CNT.MEDIA = satAdd R.LNK_CXL_CNT.MEDIA.width (s.dev.f R.LNK_CXL_CNT.MEDIA) events.toNat ∧
      OnlyFields [R.LNK_CXL_EVT.MEDIA, R.LNK_CXL_CNT.MEDIA] s.dev t.dev ∧
      t = { s with dev := { s.dev with flds := t.dev.flds, pba := t.dev.pba, evNow := t.dev.evNow, out := [] } }

/-- Bring-up, adaptation and loss of the serial lanes. It is the model's choice that a second try at the slower rate goes on with the lanes in lock and ends in TIMEOUT
with none (log 118), which latency samples count (log 125), and that of eyes equally narrow any gives the height (log 248). -/
def Obligations.SerialLanes : Prop :=
  (∀ (s : State) (p : Fin 9) (lanes : BitVec 4) (sweeps : List EyeSweep), s.dev.mayTrain p = true → s.dev.age ≤ (s.dev.portUp p).since + s.dev.phaseLimit p →
    let d := s.dev
    let ph := d.f (R.LNK_PORT_STAT.PHASE p)
    let lane := fun (l : Nat) => d.lane (4 * p + l)
    let lock := fun (l : Nat) => d.b (R.LNK_LANE_STAT.LOCK p l)
    let inBoth := (portLanes p).filter (fun l => lock l && (d.f (R.LNK_PORT_CAP.LANES p)).testBit l)
    ∃ t, exec (.portBringup p lanes sweeps) s = .next t ∧
      (ph = 1 →
        (∀ l ∈ portLanes p, t.dev.f (R.LNK_LANE_STAT.LOCK p l) = (if lanes.toNat.testBit l then 1 else d.f (R.LNK_LANE_STAT.LOCK p l))) ∧
        t.dev.f (R.LNK_PORT_STAT.PHASE p) = (if (portLanes p).all (fun l => lanes.toNat.testBit l || lock l) then 2 else 1) ∧
        OnlyFields (R.LNK_PORT_STAT.PHASE p :: (portLanes p).map (R.LNK_LANE_STAT.LOCK p)) d t.dev) ∧
      (ph = 2 → (d.portUp p).since + equalTime (d.f (R.LNK_PORT_STAT.SRC p)) ≤ d.age → t.dev.f (R.LNK_PORT_STAT.PHASE p) = 3 ∧
        (∀ l ∈ portLanes p, (t.dev.lane (4 * p + l)).set.precode = decide (51 ≤ ((lane l).set.taps.getD 0 0).natAbs)) ∧ OnlyFields [R.LNK_PORT_STAT.PHASE p] d t.dev) ∧
      (ph = 3 → (portLanes p).any lock = true → (portLanes p).all (fun l => !lock l || decide (64 ≤ (lane l).good)) = true →
        t.dev.f (R.LNK_PORT_STAT.PHASE p) = 4 ∧ OnlyFields [R.LNK_PORT_STAT.PHASE p] d t.dev) ∧
      (ph = 4 → inBoth ≠ [] → inBoth.all (fun l => decide (16 ≤ (lane l).good)) = true → t.dev.f (R.LNK_PORT_STAT.PHASE p) = 5 ∧ OnlyFields [R.LNK_PORT_STAT.PHASE p] d t.dev) ∧
      (ph = 5 → inBoth ≠ [] → inBoth.all (fun l => decide (16 ≤ (lane l).lat.2)) = true → t.dev.f (R.LNK_PORT_STAT.PHASE p) = 6 ∧
        (∀ l ∈ portLanes p, (t.dev.lane (4 * p + l)).lat = (lane l).lat) ∧ OnlyFields [R.LNK_PORT_STAT.PHASE p] d t.dev) ∧
      (ph = 6 → inBoth ≠ [] → 16 * (portLanes p).length ≤ (d.portUp p).doneSent → inBoth.all (fun l => (lane l).doneRx) = true → sweeps.length = 4 → (∀ x ∈ sweeps, x ≠ []) →
        let eye := fun (l : Nat) => eyeWidth (sweeps.getD l [])
        let theirs := d.f (R.LNK_PORT_CAP.RATES p)
        let rate := if (portLanes p).any (fun l => lock l && (lane l).slow) = false ∧ theirs.testBit 0 = true then 1 else if theirs.testBit 1 then 2 else 0
        let most := (portLanes p).foldl (fun m l => max m (lane l).lat.1) 0
        let why := if rate ≠ 1 then 2
          else if inBoth ≠ (if p.val = 8 then [0, 1, 2, 3] else [0, 1]) then 3
          else if (d.f (R.LNK_PORT_CAP.FORMATS p)).testBit 0 = false ∨ d.f (R.LNK_PORT_CAP.LINK p) ≠ (if p.val = 8 then 1 else 0) then 4
          else if 144 < most then 5
          else if (portLanes p).any (fun l => decide (eye l < d.f R.LNK_SER_CTL.EYE_MIN)) = true then 6 else 0
        t.dev.f (R.LNK_PORT_STAT.RATE p) = rate ∧ t.dev.f (R.FAB_PORT_STAT.LAT p) = min most 255 ∧
        (∀ l ∈ portLanes p, t.dev.f (R.LNK_LANE_STAT.EYE_W p l) = eye l ∧ t.dev.f (R.LNK_LANE_STAT.EYE_H p l) ∈ eyeHeights (sweeps.getD l [])) ∧
        t.dev.f (R.LNK_PORT_EVT.EYE_WARN p) = (if (portLanes p).any (fun l => decide (eye l < d.f R.LNK_SER_CTL.EYE_WARN)) = true then 1 else d.f (R.LNK_PORT_EVT.EYE_WARN p)) ∧
        t.dev.f (R.LNK_PORT_STAT.WHY p) = why ∧
        (why = 0 → t.dev.f (R.FAB_PORT_STAT.IN_SERVICE p) = 1 ∧ t.dev.f (R.LNK_PORT_STAT.PHASE p) = 7 ∧
          t.dev.f (R.LNK_PORT_STAT.TRAINS p) = satInc (R.LNK_PORT_STAT.TRAINS p).width (d.f (R.LNK_PORT_STAT.TRAINS p)) ∧
          ∀ l ∈ portLanes p, bget (fun _ => 0) t.dev.lat (4 * p + l) = (lane l).lat.1 ∧ (t.dev.lane (4 * p + l)).prev = 0 ∧ (t.dev.lane (4 * p + l)).rxScr = (lane l).rxScr ∧ t.dev.f (R.LNK_LANE_STAT.PRECODE_TX p l) = (lane l).pre.toNat) ∧
        (why ≠ 0 → t.dev.f (R.FAB_PORT_STAT.IN_SERVICE p) = d.f (R.FAB_PORT_STAT.IN_SERVICE p) ∧ t.dev.f (R.LNK_PORT_STAT.PHASE p) = 8)) ∧
      (1 ≤ ph → ph < 6 → t.dev.f (R.LNK_PORT_STAT.PHASE p) ≠ ph → (t.dev.portUp p).since = d.age) ∧
      (ph < 6 → t = { s with dev := { d with flds := t.dev.flds, lanes := t.dev.lanes, portUps := t.dev.portUps, freeN := t.dev.freeN, out := [] } }) ∧
      (∀ q : Fin 9, q ≠ p → t.dev.portUp q = d.portUp q ∧ ∀ l : Fin 4, t.dev.lane (4 * q + l) = d.lane (4 * q + l))) ∧
  (∀ (s : State) (p : Fin 9) (l : Fin 4) (cell : BitVec 224), s.dev.mayTrain p = true → 3 ≤ s.dev.f (R.LNK_PORT_STAT.PHASE p) → s.dev.f (R.LNK_PORT_STAT.PHASE p) ≤ 6 →
    s.dev.b (R.LNK_LANE_STAT.LOCK p l) = true →
    let d := s.dev
    let c := cell.toNat
    let x := d.lane (4 * p + l)
    let ph := d.f (R.LNK_PORT_STAT.PHASE p)
    let now := d.now.toNat
    let echo := bitsOf c 143 104
    let peer := bitsOf c 219 216
    let lat := ((now + 2 ^ 42 + bitsOf c 103 64 - echo - bitsOf c 183 144) % 2 ^ 40 + 1) / 2
    (cellGood c = false ∨ c / 2 ^ 220 ≠ 15 → ∃ t, exec (.trainCell p l cell) s = .next t ∧ t.dev.lane (4 * p + l) = { x with good := 0, rxScr := x.seedRx, rxPrev := 0, rxFrom := d.age } ∧ OnlyLane (4 * p + l) d t.dev ∧
      t = { s with dev := { d with lanes := t.dev.lanes, out := [] } }) ∧
    (cellGood c = true → c / 2 ^ 220 = 15 → ∃ t, exec (.trainCell p l cell) s = .next t ∧ OnlyLane (4 * p + l) d t.dev ∧
      t.dev.f (R.LNK_PORT_CAP.RATES p) = bitsOf c 207 204 ∧ t.dev.f (R.LNK_PORT_CAP.LANES p) = bitsOf c 211 208 ∧
      t.dev.f (R.LNK_PORT_CAP.FORMATS p) = bitsOf c 203 200 ∧ t.dev.f (R.LNK_PORT_CAP.LINK p) = bitsOf c 213 213 ∧ t.dev.f (R.LNK_PORT_CAP.PART p) = bitsOf c 199 184 ∧
      (let y := t.dev.lane (4 * p + l);
        y.good = (if ph = 3 ∨ (4 ≤ peer ∧ peer ≤ 6) then x.good + 1 else 0) ∧ y.echo = some (bitsOf c 183 144, now % 2 ^ 40) ∧ y.pre = c.testBit 212 ∧
        y.doneRx = (x.doneRx || peer == 6) ∧ y.seedRx = (if peer = 6 then bitsOf c 63 33 else x.seedRx) ∧ y.rxScr = y.seedRx ∧ y.rxPrev = 0 ∧ y.rxFrom = d.age ∧ y.set = x.set ∧
        y.lat = (if ph = 5 ∧ 3 ≤ peer ∧ peer ≤ 6 ∧ x.sentTrain echo = true then (lat, if x.lat.2 ≠ 0 ∧ x.lat.1 = lat then x.lat.2 + 1 else 1) else x.lat)) ∧
      OnlyFields [R.LNK_PORT_CAP.RATES p, R.LNK_PORT_CAP.LANES p, R.LNK_PORT_CAP.FORMATS p, R.LNK_PORT_CAP.LINK p, R.LNK_PORT_CAP.PART p] d t.dev ∧
      t = { s with dev := { d with flds := t.dev.flds, lanes := t.dev.lanes, out := [] } })) ∧
  (∀ (s : State) (p : Fin 9), s.dev.mayTrain p = true →
    let d := s.dev
    let ph := d.f (R.LNK_PORT_STAT.PHASE p)
    let x := d.portUp p
    (1 ≤ ph → ph ≤ 6 → x.since + d.phaseLimit p < d.age →
      ∃ t, exec (.bringupTimeout p) s = .next t ∧
        (ph = 1 → x.slow = false → t.dev.portUp p = { x with slow := true, since := d.age } ∧
          (∀ l ∈ portLanes p, t.dev.lane (4 * p + l) = { d.lane (4 * p + l) with slow := (d.lane (4 * p + l)).slow || !d.b (R.LNK_LANE_STAT.LOCK p l) }) ∧
          t = { s with dev := { d with lanes := t.dev.lanes, portUps := t.dev.portUps, out := [] } }) ∧
        (ph = 1 → x.slow = true → d.lockMask p ≠ 0 → t.dev.f (R.LNK_PORT_STAT.PHASE p) = 2 ∧ OnlyFields [R.LNK_PORT_STAT.PHASE p] d t.dev) ∧
        (ph ≠ 1 ∨ (x.slow = true ∧ d.lockMask p = 0) → t.dev.f (R.LNK_PORT_STAT.PHASE p) = 8 ∧ t.dev.f (R.LNK_PORT_STAT.WHY p) = 1 ∧
          (t.dev.portUp p).since = d.age ∧ OnlyFields [R.LNK_PORT_STAT.PHASE p, R.LNK_PORT_STAT.WHY p] d t.dev) ∧
        t = { s with dev := { d with flds := t.dev.flds, lanes := t.dev.lanes, portUps := t.dev.portUps, out := [] } }) ∧
    (ph = 8 → x.since + 200000000 ≤ d.age →
      ∃ t, exec (.bringupRetry p) s = .next t ∧ t.dev.f (R.LNK_PORT_STAT.PHASE p) = 1 ∧ t.dev.f (R.LNK_PORT_EVT.RETRY p) = 1 ∧
        (∀ l ∈ portLanes p, t.dev.f (R.LNK_LANE_STAT.LOCK p l) = 0 ∧ (t.dev.lane (4 * p + l)).set = (d.lane (4 * p + l)).preset) ∧
        (t.dev.portUp p).since = d.age ∧
        OnlyFields ([R.LNK_PORT_STAT.PHASE p, R.LNK_PORT_STAT.LANES p, R.LNK_PORT_STAT.RATE p, R.LNK_PORT_EVT.RETRY p] ++ (portLanes p).map (R.LNK_LANE_STAT.LOCK p)) d t.dev ∧
        t = { s with dev := { d with flds := t.dev.flds, lanes := t.dev.lanes, portUps := t.dev.portUps, pba := t.dev.pba, evNow := t.dev.evNow, out := [] } })) ∧
  (∀ (s : State) (p : Fin 9), s.dev.domOn (domainOf (R.LNK_PORT_CTL.RETRAIN p).off) = true → s.dev.f (R.LNK_PORT_CTL.EN p) < 2 → s.dev.f (R.LNK_PORT_CTL.EXTENDED p) < 2 →
    let d := s.dev
    (d.running = true → (d.b (R.LNK_PORT_CTL.EN p) = true ∨ d.b (R.FAB_PORT_STAT.IN_SERVICE p) = true) →
      ∃ t, exec (.portRetrain p) s = .next t ∧ t.dev.f (R.LNK_PORT_CTL.RETRAIN p) = 1 ∧
        OnlyFields [R.LNK_PORT_CTL.RETRAIN p] d t.dev ∧ t = { s with dev := { d with flds := t.dev.flds, again := t.dev.again, evNow := [], out := [] } }) ∧
    (d.running = false → d.b (R.LNK_PORT_CTL.RETRAIN p) = false →
      ∃ t, exec (.portRetrain p) s = .next t ∧ t.dev.f (R.FAB_PORT_STAT.IN_SERVICE p) = 0 ∧
        t.dev.f (R.LNK_PORT_STAT.PHASE p) = (if d.mayTrain p then 1 else 0) ∧ t.dev.f (R.LNK_PORT_CTL.RETRAIN p) = (if d.mayTrain p then 0 else 1) ∧
        (∀ l ∈ portLanes p, t.dev.f (R.LNK_LANE_STAT.LOCK p l) = 0) ∧ (d.mayTrain p = true → (t.dev.portUp p).since = d.age))) ∧
  (∀ (s : State) (p : Fin 9) (l : Fin 4) (steps : List Int), s.dev.b (R.LNK_LANE_STAT.LOCK p l) = true → (∀ k ∈ steps, -1 ≤ k ∧ k ≤ 1) →
    let d := s.dev
    let x := d.lane (4 * p + l)
    let slot := d.age * (if x.slow then 14 else 28) / 65536 + 1
    x.adapt ≠ slot →
    ∃ t, exec (.dfeAdapt p l steps) s = .next t ∧
      (let y := t.dev.lane (4 * p + l);
        y.set.ctle = (max 0 (min 255 (x.set.ctle + steps.getD 0 0))).toNat ∧ y.set.gain = (max 0 (min 255 (x.set.gain + steps.getD 1 0))).toNat ∧
        (∀ k : Fin 12, y.set.taps.getD k 0 =
          max (-(if k.val = 0 then 96 else 32)) (min (if k.val = 0 then 96 else 32) (x.set.taps.getD k 0 + steps.getD (k + 2) 0))) ∧
        y = { x with set := { x.set with ctle := y.set.ctle, gain := y.set.gain, taps := y.set.taps }, adapt := slot }) ∧
      OnlyLane (4 * p + l) d t.dev ∧ t = { s with dev := { d with lanes := t.dev.lanes, out := [] } }) ∧
  (∀ (s : State) (p : Fin 9) (l : Fin 4) (sweep : EyeSweep), s.dev.b (R.LNK_LANE_STAT.LOCK p l) = true → sweep ≠ [] →
    let d := s.dev
    let x := d.lane (4 * p + l)
    let serving := d.b (R.FAB_PORT_STAT.IN_SERVICE p)
    let w := eyeWidth sweep
    let low := w < d.f R.LNK_SER_CTL.EYE_MIN
    let down := serving = true ∧ low ∧ d.running = false ∧ 3 ≤ x.low + 1
    ∃ t, exec (.eyeSweepDone p l sweep) s = .next t ∧ t.dev.f (R.LNK_LANE_STAT.EYE_W p l) = w ∧ t.dev.f (R.LNK_LANE_STAT.EYE_H p l) ∈ eyeHeights sweep ∧
      t.dev.f (R.LNK_PORT_EVT.EYE_WARN p) = (if w < d.f R.LNK_SER_CTL.EYE_WARN then 1 else d.f (R.LNK_PORT_EVT.EYE_WARN p)) ∧
      t.dev.f (R.LNK_LANE_STAT.EYE_LOW p l) = (if serving then min w (d.f (R.LNK_LANE_STAT.EYE_LOW p l)) else d.f (R.LNK_LANE_STAT.EYE_LOW p l)) ∧
      (down → t.dev.f (R.FAB_PORT_STAT.IN_SERVICE p) = 0 ∧ t.dev.f (R.LNK_PORT_STAT.WHY p) = 6 ∧ t.dev.f (R.LNK_PORT_EVT.DOWN p) = 1 ∧
        ((d.portRec p).isSome = true → t.dev.f R.FAB_EVT.PORT_DOWN = 1)) ∧
      (¬ down → t.dev.lane (4 * p + l) = { x with low := if ¬ low then 0 else if d.running then x.low else x.low + 1 } ∧
        OnlyFields [R.LNK_LANE_STAT.EYE_W p l, R.LNK_LANE_STAT.EYE_H p l, R.LNK_LANE_STAT.EYE_LOW p l, R.LNK_PORT_EVT.EYE_WARN p] d t.dev ∧
        t = { s with dev := { d with flds := t.dev.flds, lanes := t.dev.lanes, freeN := d.freeN + 1, pba := t.dev.pba, evNow := t.dev.evNow, out := [] } })) ∧
  (∀ (s : State) (p : Fin 9) (l : Fin 4), s.dev.b (R.LNK_LANE_STAT.LOCK p l) = true →
    let d := s.dev
    ∃ t, exec (.lockLost p l) s = .next t ∧ t.dev.f (R.LNK_LANE_STAT.LOCK p l) = 0 ∧ t.dev.f (R.LNK_PORT_EVT.LOCK_LOST p) = 1 ∧
      (d.b (R.FAB_PORT_STAT.IN_SERVICE p) = true → t.dev.f (R.FAB_PORT_STAT.IN_SERVICE p) = 0 ∧ t.dev.f (R.LNK_PORT_STAT.WHY p) = 7 ∧ t.dev.f (R.LNK_PORT_EVT.DOWN p) = 1 ∧
        ((d.portRec p).isSome = true → t.dev.f R.FAB_EVT.PORT_DOWN = 1)) ∧
      (d.b (R.FAB_PORT_STAT.IN_SERVICE p) = false → OnlyFields [R.LNK_LANE_STAT.LOCK p l, R.LNK_PORT_EVT.LOCK_LOST p] d t.dev ∧
        t = { s with dev := { d with flds := t.dev.flds, lanes := t.dev.lanes, pba := t.dev.pba, evNow := t.dev.evNow, out := [] } })) ∧
  ∀ (s : State), s.dev.running = false → (∃ p : Fin 9, (s.dev.portUp p).factory = true) → s.dev.keep.wear ≠ 2 → s.dev.keep.queue.length < 16 →
    let d := s.dev
    let band := d.f R.THM_STAT.BAND
    (∀ c, d.calib.presets.getD band none = some c → c + 1200000000000 ≤ d.age) →
    ∃ t, exec .lanePresetCommit s = .next t ∧ t.dev.keep.queue.any (fun q => q.cls == 1 && q.key == 0x10 + band && q.body == d.laneBody) = true ∧
      t.dev.calib = { d.calib with presets := d.calib.presets.set band (some d.age) } ∧ (∀ p : Fin 9, t.dev.portUp p = { d.portUp p with factory := false }) ∧
      OnlyFields [R.KEEP_STAT.QUEUE] d t.dev ∧
      t = { s with dev := { d with flds := t.dev.flds, keep := { d.keep with queue := t.dev.keep.queue }, calib := t.dev.calib, portUps := t.dev.portUps, out := [] } }

/-- Twin pairing: attach and detach, mirror cells and requests, a digest without a partner, handover and the loss of the peer. It is the model's choice that a device whose
record or lower number makes it LEAD drives from the start of ATTACHING (log 127), how the 100 ms are judged (log 128), that a cell acts at the first tick at or after
S + 180 (log 132), and that the CLAIM a DETACH write holds is not applied (log 133). -/
def Obligations.TwinPairing : Prop :=
  (∀ (s : State), s.dev.domOn (domainOf R.TWIN_CTL.ATTACH.off) = true →
    let d := s.dev
    let lead := d.recordsLead
    let drives := d.power.svc && d.power.aon
    (d.running = true →
      ∃ t, exec .attach s = .next t ∧ t.dev.f R.TWIN_CTL.ATTACH = 1 ∧ OnlyFields [R.TWIN_CTL.ATTACH] d t.dev ∧
        t = { s with dev := { d with flds := t.dev.flds, again := t.dev.again, evNow := [], out := [] } }) ∧
    (d.running = false → d.b R.TWIN_CTL.ATTACH = false → d.b R.TWIN_CTL.DETACH = false →
      ∃ t, exec .attach s = .next t ∧ t.dev.f R.TWIN_CTL.ATTACH = 0 ∧ t.dev.f R.TWIN_STAT.STATE = 1 ∧ t.dev.f R.TWIN_STAT.ROLE = lead.toNat ∧
        t.dev.f R.TWIN_STAT.SEL = (if drives && (lead || decide (d.dev < d.peerDev)) then 15 else 0) ∧ t.dev.twin = { began := d.age, claim := d.twin.claim, absent := d.twin.absent } ∧ t.dev.f R.TWIN_STAT.QOK = 0 ∧
        OnlyFields [R.TWIN_CTL.ATTACH, R.TWIN_STAT.STATE, R.TWIN_STAT.ROLE, R.TWIN_STAT.SEL, R.TWIN_STAT.QOK] d t.dev ∧
        t = { s with dev := { d with flds := t.dev.flds, twin := t.dev.twin, again := [], evNow := [], out := [] } }) ∧
    (d.running = false → d.b R.TWIN_CTL.ATTACH = false → d.b R.TWIN_CTL.DETACH = false → d.f R.TWIN_STAT.STATE ≠ 0 → d.f R.TWIN_STAT.SEL < 16 → d.twin.claim = none →
      let follow := d.f R.TWIN_STAT.ROLE = 2 ∧ d.f R.TWIN_STAT.STATE ≠ 3
      ∃ t, exec .detach s = .next t ∧ t.dev.f R.TWIN_CTL.DETACH = 0 ∧ t.dev.f R.TWIN_STAT.STATE = 0 ∧ t.dev.f R.TWIN_EVT.DETACHED = 1 ∧
        t.dev.f R.TWIN_CTL.CLAIM = (if follow then 0 else d.f R.TWIN_STAT.SEL) ∧ t.dev.f R.TWIN_STAT.SEL = (if follow ∨ drives = false then 0 else d.f R.TWIN_STAT.SEL) ∧
        t.dev.f R.TWIN_STAT.ROLE = 0 ∧ t.dev.f R.TWIN_STAT.QOK = 0 ∧
        OnlyFields [R.TWIN_CTL.DETACH, R.TWIN_CTL.CLAIM, R.TWIN_STAT.STATE, R.TWIN_STAT.ROLE, R.TWIN_STAT.SEL, R.TWIN_STAT.QOK, R.TWIN_EVT.DETACHED, R.TB_STAT.SYNC_OK,
          R.FAB_STAT.PORTS_OK, R.GLB_IMG_STAT.PLAN_MISMATCH] d t.dev ∧
        t = { s with dev := { d with flds := t.dev.flds, twin := {}, pba := t.dev.pba, again := [], evNow := [], out := [] } })) ∧
  (∀ (s : State) (h : Nat), s.dev.twin.leadHigh = some h → s.dev.f R.TWIN_STAT.STATE = 1 → s.dev.f R.TWIN_STAT.ROLE = 2 →
    h + s.dev.f R.TWIN_CFG.SEL_SETTLE ≤ s.dev.age →
    ∃ t, exec .selSettle s = .next t ∧ t.dev.f R.TWIN_STAT.SEL = (if s.dev.power.svc && s.dev.power.aon then 15 else 0) ∧ OnlyFields [R.TWIN_STAT.SEL] s.dev t.dev ∧
      t = { s with dev := { s.dev with flds := t.dev.flds, out := [] } }) ∧
  (∀ (s : State), s.dev.f R.TWIN_STAT.STATE = 1 →
    let d := s.dev
    let limit := d.twin.began + 200000000
    (d.attachWhy = 0 → d.age ≤ limit →
      ∃ t, exec .attached s = .next t ∧ t.dev.f R.TWIN_STAT.STATE = 2 ∧ t.dev.f R.TWIN_EVT.ATTACHED = 1 ∧ t.dev.twin.last = d.age ∧ t.dev.digs = bdrop 0 32 d.digs ∧
        (d.keep.wear ≠ 2 → d.keep.queue.length < 16 → d.checkLost 5 0 = false →
          t.dev.keep.queue.any (fun q => q.cls == 5 && q.key == 0 && rn q.body 0 3 == d.cupola && rb q.body 4 == d.f R.TWIN_STAT.ROLE && rn q.body 16 4 == satInc 32 (rn d.twinLast 16 4)) = true) ∧ t.dev.twin.lostTime = false ∧
        (∀ q : Fin 4, (t.dev.f R.TWIN_STAT.QOK).testBit q = (!(d.f R.TWIN_STAT.DIVERGED).testBit q && !d.quadFaulted q)) ∧
        (d.checkLost 5 0 = true → d.keep.wear ≠ 2 → t.dev.f R.KEEP_EVT.CHECK_FAIL = 1) ∧
        OnlyFields [R.TWIN_STAT.STATE, R.TWIN_EVT.ATTACHED, R.TWIN_EVT.PEER_CHANGED, R.TWIN_STAT.QOK, R.KEEP_STAT.QUEUE, R.KEEP_EVT.CHECK_FAIL, R.KEEP_CNT.FAULT_DROPPED,
          R.KEEP_EVT.FAULT_DROP] d t.dev) ∧
    (d.attachWhy ≠ 0 → limit < d.age →
      ∃ t, exec .attachTimeout s = .next t ∧ t.dev.f R.TWIN_STAT.STATE = 0 ∧ t.dev.f R.TWIN_STAT.ROLE = 0 ∧ t.dev.f R.TWIN_EVT.ATTACH_REFUSED = 1 ∧
        t.dev.f R.TWIN_STAT.WHY = d.attachWhy ∧ t.dev.f R.TWIN_CTL.CLAIM = (d.twin.claim.map (fun c => c % 16)).getD (d.f R.TWIN_CTL.CLAIM) ∧
        t.dev.f R.TWIN_STAT.SEL = (if d.power.svc && d.power.aon then t.dev.f R.TWIN_CTL.CLAIM % 16 else 0) ∧ t.dev.twin = { absent := d.twin.absent } ∧
        OnlyFields [R.TWIN_STAT.STATE, R.TWIN_STAT.ROLE, R.TWIN_STAT.SEL, R.TWIN_STAT.QOK, R.TWIN_STAT.WHY, R.TWIN_CTL.CLAIM, R.TWIN_EVT.ATTACH_REFUSED] d t.dev ∧
        t = { s with dev := { d with flds := t.dev.flds, twin := { absent := d.twin.absent }, pba := t.dev.pba, evNow := t.dev.evNow, out := [] } })) ∧
  (∀ (s : State) (l : Fin 4) (line : BitVec 224), s.dev.hears 8 = true →
    let d := s.dev
    let S := d.startTick 8 l
    let now := d.now.toNat
    let cell := d.readLine 8 l line.toNat
    (d.mirrorGood l S cell = true → now ≤ S + 160 → d.twin.cells.all (fun c => c.1 != S && decide (now < c.1 + 180)) = true →
      ∃ t, exec (.mirrorCell l line) s = .next t ∧ HeardOn 8 l line.toNat d t.dev ∧
        t = { s with dev := { d with lanes := t.dev.lanes, twin := { d.twin with last := d.age, cells := d.twin.cells ++ [(S, cell)] }, out := [] } }) ∧
    (d.mirrorGood l S cell = false → d.twin.cells.all (fun c => decide (now < c.1 + 180)) = true →
      ∃ t, exec (.mirrorCell l line) s = .next t ∧ HeardOn 8 l line.toNat d t.dev ∧ BadCopy 8 l d t.dev ∧ t.dev.twin = d.twin ∧
        OnlyFields (R.FAB_EVT.COPY_ERR :: R.FAB_EVT.CYC_ERR :: laneErrs 8) d t.dev ∧
        t = { s with dev := { d with flds := t.dev.flds, lanes := t.dev.lanes, pba := t.dev.pba, evNow := t.dev.evNow, out := [] } }) ∧
    (∀ b, d.mirrorGood l S cell = true → now ≤ S + 160 → d.twin.cells = [(S, b)] → b ≠ cell →
      ∃ t, exec (.mirrorCell l line) s = .next t ∧ HeardOn 8 l line.toNat d t.dev ∧ BadCopy 8 3 d t.dev ∧
        t.dev.twin = { d.twin with last := d.age, cells := [(S, if l.val = 1 then cell else b)] } ∧
        OnlyFields (R.FAB_EVT.COPY_ERR :: laneErrs 8) d t.dev ∧
        t = { s with dev := { d with flds := t.dev.flds, lanes := t.dev.lanes, twin := t.dev.twin, pba := t.dev.pba, evNow := t.dev.evNow, out := [] } }) ∧
    (∀ c, d.twin.cells = [c] → c.1 + 180 ≤ now → d.mirrorGood l S cell = false →
      ∃ t, exec (.mirrorCell l line) s = .next t ∧ t.dev.twin.cells = [] ∧ t.dev.f R.TWIN_STAT.PEER_SEL = bitsOf c.2 199 196 ∧ t.dev.f R.TWIN_STAT.PEER_QOK = bitsOf c.2 195 192 ∧
        let attaching := bitsOf c.2 191 189 = 4 ∨ bitsOf c.2 133 131 = 4 ∨ bitsOf c.2 75 73 = 4
        (d.f R.TWIN_STAT.STATE = 1 →
          (attaching → t.dev.twin.peerRole = bitsOf c.2 209 208 ∧ t.dev.f R.TWIN_STAT.ROLE = (if d.recordsLead = true ∧ bitsOf c.2 209 208 ≠ 1 then 1
            else if d.recordsLead = false ∧ bitsOf c.2 209 208 = 1 then 2 else if d.dev < d.peerDev then 1 else 2)) ∧
          (¬ attaching → t.dev.twin.peerRole = d.twin.peerRole ∧ t.dev.f R.TWIN_STAT.ROLE = d.f R.TWIN_STAT.ROLE) ∧
          (bitsOf c.2 191 189 = 4 → bitsOf c.2 133 131 = 0 → bitsOf c.2 75 73 = 0 →
            t.dev.twin.pieces = d.twin.pieces.set (bitsOf c.2 188 187) (some (bitsOf c.2 181 166)))))) ∧
  (∀ (s : State) (e : Fin 64) (j : Fin 16) (w : Nat),
    let d := s.dev
    let entry := 2 * 2 ^ 55 + e.val * 2 ^ 49 + j.val * 2 ^ 45 + w % 2 ^ 32
    d.twin.reqs = [(d.now.toNat, entry)] → (d.eng e).waiting = none →
      ∃ t, exec .mirrorRequestApply s = .next t ∧ t.dev.twin.reqs = [] ∧
        (d.jumpOutlived = false → t.dev.f (R.SCH_JUMP_REQ.REQ e) = 1 ∧ t.dev.f (R.SCH_JUMP_REQ.J e) = j.val ∧ (t.dev.eng e).jump = some (j.val, d.now)) ∧
        (d.jumpOutlived = true → t.dev.f (R.SCH_JUMP_STATUS.RESULT e) = 2 ∧ (t.dev.eng e).jump = none) ∧ OnlyEngine e d t.dev) ∧
  (∀ (s : State) (tl : Fin 32) (c : Nat × Nat × Nat × Nat), s.dev.f R.TWIN_STAT.STATE = 2 →
    (s.dev.twin.own ++ s.dev.twin.peer).find? (fun x => x.1 == tl.val && decide (x.2.2.2 + 65536 < s.dev.age)) = some c →
    let d := s.dev
    ∃ t, exec (.digestMissing tl) s = .next t ∧ (t.dev.f R.TWIN_STAT.DIVERGED).testBit (tl / 8) = true ∧ t.dev.f R.TWIN_EVT.DIGEST_MISSING = 1 ∧
      t.dev.f R.TWIN_CNT.MISSING = satInc R.TWIN_CNT.MISSING.width (d.f R.TWIN_CNT.MISSING) ∧
      (d.f R.TWIN_STAT.ROLE = 2 → (t.dev.f R.TWIN_STAT.QOK).testBit (tl / 8) = false) ∧
      t.dev.f R.TWIN_LAST.VALID = 1 ∧ t.dev.f R.TWIN_LAST.MISSING = 1 ∧ t.dev.f R.TWIN_LAST.TILE = tl.val ∧ t.dev.f R.TWIN_LAST.SHOT = c.2.1 % 2 ^ 18 ∧
      t.dev.twin = { d.twin with own := d.twin.own.erase c, peer := if d.twin.own.contains c then d.twin.peer else d.twin.peer.erase c } ∧
      (d.b R.TWIN_CTL.ON_MISMATCH = true → ∀ e : Fin 64, (t.dev.eng e).stopAtSafe = ((d.eng e).live || (d.eng e).stopAtSafe)) ∧
      (d.b R.TWIN_CTL.ON_MISMATCH = false → t.dev.engines = d.engines) ∧
      OnlyFields [R.TWIN_STAT.DIVERGED, R.TWIN_STAT.QOK, R.TWIN_EVT.DIGEST_MISSING, R.TWIN_CNT.MISSING, R.TWIN_LAST.VALID, R.TWIN_LAST.MISSING, R.TWIN_LAST.TILE, R.TWIN_LAST.SHOT] d t.dev ∧
      t = { s with dev := { d with flds := t.dev.flds, engines := t.dev.engines, twin := t.dev.twin, pba := t.dev.pba, evNow := t.dev.evNow, out := [] } }) ∧
  (∀ (s : State) (q : Fin 4), s.dev.f R.TWIN_STAT.STATE = 2 → s.dev.f R.TWIN_STAT.ROLE = 1 → s.dev.twin.handed.testBit q = false → s.dev.handoverDue q = true →
    let d := s.dev
    ((d.f R.TWIN_STAT.PEER_QOK).testBit q = false →
      ∃ t, exec (.handover q) s = .next t ∧ t.dev.f R.TWIN_EVT.HANDOVER_REFUSED = 1 ∧ OnlyFields [R.TWIN_EVT.HANDOVER_REFUSED] d t.dev ∧
        t = { s with dev := { d with flds := t.dev.flds, pba := t.dev.pba, evNow := t.dev.evNow, out := [] } }) ∧
    ((d.f R.TWIN_STAT.PEER_QOK).testBit q = true →
      ∃ t, exec (.handover q) s = .next t ∧ t.dev.f R.TWIN_EVT.HANDOVER = 1 ∧
        (∀ k : Fin 4, (t.dev.f R.TWIN_STAT.SEL).testBit k = (d.power.svc && d.power.aon && (d.f R.TWIN_STAT.SEL).testBit k && k != q)) ∧
        t.dev.f64 R.TWIN_HO_EPOCH_LO.EPOCH R.TWIN_HO_EPOCH_HI.EPOCH = d.now.toNat ∧ t.dev.twin.handed = d.twin.handed ||| 2 ^ q.val ∧
        t.dev.twin.mute = d.twin.mute ||| 2 ^ q.val ∧ (∀ c ∈ t.dev.twin.own ++ t.dev.twin.peer, c.1 / 8 ≠ q.val) ∧
        (∀ e : Fin 64, e.val / 16 ≠ q.val ∨ (d.eng e).shooting = false → t.dev.eng e = d.eng e ∨ t.dev.eng e = { d.eng e with notice := true }) ∧ (t.dev.f R.TWIN_STAT.QOK).testBit q = false)) ∧
  ∀ (s : State), s.dev.twin.last + s.dev.f R.TWIN_CFG.HB_LIMIT ≤ s.dev.age →
    let d := s.dev
    (d.f R.TWIN_STAT.STATE = 2 →
      ∃ t, exec .hbLost s = .next t ∧ t.dev.f R.TWIN_STAT.STATE = 3 ∧ t.dev.f R.TWIN_EVT.HB_LOST = 1 ∧ t.dev.f R.TWIN_STAT.SEL = d.f R.TWIN_STAT.SEL ∧
        t.dev.f64 R.TWIN_HO_EPOCH_LO.EPOCH R.TWIN_HO_EPOCH_HI.EPOCH = d.now.toNat ∧ t.dev.twin = { d.twin with own := [], peer := [], cells := [], absent := true } ∧
        (d.f R.TWIN_STAT.ROLE ≠ 2 → t.dev.engines = d.engines ∧
          OnlyFields [R.TWIN_STAT.STATE, R.TWIN_STAT.QOK, R.TWIN_EVT.HB_LOST, R.TWIN_EVT.PEER_CHANGED, R.TWIN_HO_EPOCH_LO.EPOCH, R.TWIN_HO_EPOCH_HI.EPOCH, R.KEEP_STAT.QUEUE,
            R.KEEP_EVT.CHECK_FAIL, R.KEEP_CNT.FAULT_DROPPED, R.KEEP_EVT.FAULT_DROP, R.TB_STAT.SYNC_OK, R.FAB_STAT.PORTS_OK, R.GLB_IMG_STAT.PLAN_MISMATCH] d t.dev)) ∧
    (d.f R.TWIN_STAT.STATE = 1 → d.twin.began < d.twin.last →
      ∃ t, exec .hbLost s = .next t ∧ t.dev.f R.TWIN_STAT.STATE = 0 ∧ t.dev.f R.TWIN_EVT.ATTACH_REFUSED = 1 ∧ t.dev.f R.TWIN_STAT.WHY = 7)

/-- Requests to the Watch, the limit that waits for the end of a run, and a Watch reset. It is the model's choice that an answer comes in the same command (log 113), what
an unknown limit, a bad index or a late limit gives (logs 114 and 184), and that the absence of the twin port outlasts a Watch reset (log 181). -/
def Obligations.WatchRequests : Prop :=
  (∀ s : State, MailReady s.dev →
    let d := s.dev
    let a0 := d.f R.WATCH_ARG0.ARG
    let a1 := d.f R.WATCH_ARG1.ARG
    let mailbox := fun (t : State) => t = { s with dev := { d with flds := t.dev.flds, pba := t.dev.pba, again := [], evNow := [], out := [] } }
    let stages := fun (t : State) => t = { s with dev := { d with flds := t.dev.flds, keep := t.dev.keep, pba := t.dev.pba, again := [], evNow := [], out := [] } }
    (let limit := a0 / 256
      let index := a0 % 256
      let flds : List Fld := if limit = 1 then (if index < 4 then [R.MON_WIN.FAULT index] else if index = 255 then [R.MON_WIN.FAULT 0, R.MON_WIN.FAULT 1, R.MON_WIN.FAULT 2, R.MON_WIN.FAULT 3] else [])
        else if index ≠ 0 then [] else if limit = 2 then [R.THM_RATE_LIM.CLAMP] else if limit = 3 then [R.LNK_SER_CTL.EYE_MIN] else [R.TWIN_CFG.HB_LIMIT]
      let inRange : Bool := if limit = 1 then [0, 1, 2, 3].all (fun q => !(index == q || index == 255) || decide (d.f (R.MON_WIN.WARN q) < a1)) && decide (a1 ≤ 2621)
        else if limit = 2 then decide (d.f R.THM_RATE_LIM.WARN < a1 ∧ a1 ≤ 160) else if limit = 3 then decide (8 ≤ a1 ∧ a1 ≤ d.f R.LNK_SER_CTL.EYE_WARN) else decide (256 ≤ a1 ∧ a1 ≤ 16384)
      ∃ t, exec .setLimit s = .next t ∧
        (65536 ≤ a0 ∨ limit = 0 ∨ 4 < limit → Answered 1 3 t.dev ∧ OnlyFields mailFields d t.dev ∧ mailbox t) ∧
        (a0 < 65536 → 1 ≤ limit → limit ≤ 4 → flds = [] ∨ inRange = false → Answered 1 4 t.dev ∧ OnlyFields mailFields d t.dev ∧ mailbox t) ∧
        (a0 < 65536 → 1 ≤ limit → limit ≤ 4 → flds ≠ [] → inRange = true → d.running = false →
          Answered 1 1 t.dev ∧ (∀ F ∈ flds, t.dev.f F = a1 % 2 ^ F.width) ∧ OnlyFields (mailFields ++ flds) d t.dev ∧ mailbox t) ∧
        (a0 < 65536 → 1 ≤ limit → limit ≤ 4 → flds ≠ [] → inRange = true → d.running = true →
          t.dev.f R.WATCH_RESP.RESULT = 2 ∧ t.dev.f R.WATCH_RESP.BUSY = 1 ∧ t.dev.limit = some ⟨limit, index, a1⟩ ∧ OnlyFields mailFields d t.dev ∧
          t = { s with dev := { d with flds := t.dev.flds, limit := t.dev.limit, pba := t.dev.pba, again := [], evNow := [], out := [] } })) ∧
    (let band := d.f R.CAL_STAT.BAND
      let soon := (d.calib.commits.getD band none).any (fun c => decide (d.age < c + 1200000000000)) = true
      let room := fun (cls key : Nat) => d.keep.queue.length < 16 ∨ d.keep.queue.any (fun r => r.cls == cls && r.key == key && r.phase == 0) = true
      ∃ t, exec .keepCommit s = .next t ∧
        (256 ≤ a0 ∨ a1 ≠ 0 ∨ (a0 ≠ 1 ∧ a0 ≠ 6) → Answered 2 3 t.dev ∧ OnlyFields mailFields d t.dev ∧ mailbox t) ∧
        (a0 = 1 ∨ a0 = 6 → a1 = 0 → d.keep.wear = 2 → Answered 2 7 t.dev ∧ OnlyFields mailFields d t.dev ∧ mailbox t) ∧
        (a0 = 1 → a1 = 0 → d.keep.wear ≠ 2 → soon → Answered 2 6 t.dev ∧ OnlyFields mailFields d t.dev ∧ mailbox t) ∧
        (a0 = 1 → a1 = 0 → band < 5 → d.keep.wear ≠ 2 → ¬ soon → room 1 band → Answered 2 1 t.dev ∧
          t.dev.keep.queue.any (fun r => r.cls == 1 && r.key == band && r.body == d.calBody) = true ∧
          (band < d.calib.commits.length → t.dev.calib.commits.getD band none = some d.age)) ∧
        (a0 = 6 → a1 = 0 → d.keep.wear ≠ 2 → room 6 0 → Answered 2 1 t.dev ∧
          t.dev.keep.queue.any (fun r => r.cls == 6 && r.key == 0 && r.body == t.dev.lifeBody) = true ∧
          OnlyFields (R.KEEP_STAT.QUEUE :: mailFields) d t.dev ∧ stages t) ∧
        (a0 = 6 → a1 = 0 → d.keep.wear ≠ 2 → ¬ room 6 0 → Answered 2 5 t.dev ∧ t.dev.keep.queue = d.keep.queue ∧ OnlyFields mailFields d t.dev) ∧
        (a0 = 1 → a1 = 0 → band < 5 → d.keep.wear ≠ 2 → ¬ soon → ¬ room 1 band → Answered 2 5 t.dev ∧ OnlyFields mailFields d t.dev ∧ mailbox t)) ∧
    (∃ t, exec .hostFault s = .next t ∧
      (65536 ≤ a0 ∨ 65536 ≤ a1 → Answered 3 3 t.dev ∧ OnlyFields mailFields d t.dev ∧ mailbox t) ∧
      (a0 < 0x8000 → a1 < 65536 → Answered 3 4 t.dev ∧ OnlyFields mailFields d t.dev ∧ mailbox t) ∧
      (0x8000 ≤ a0 → a0 < 65536 → a1 < 65536 → d.keep.wear = 2 → Answered 3 7 t.dev ∧ OnlyFields mailFields d t.dev ∧ mailbox t) ∧
      (0x8000 ≤ a0 → a0 < 65536 → a1 < 65536 → d.keep.wear ≠ 2 → d.keep.queue.length < 16 → d.faultsNow < 16 →
        Answered 3 1 t.dev ∧ t.dev.keep.queue.length = d.keep.queue.length + 1 ∧
        t.dev.keep.queue.any (fun r => r.cls == 7 && rn r.body 0 2 == a0 && rn r.body 2 2 == a1) = true ∧
        OnlyFields (R.KEEP_STAT.QUEUE :: mailFields) d t.dev ∧ stages t) ∧
      (0x8000 ≤ a0 → a0 < 65536 → a1 < 65536 → d.keep.wear ≠ 2 → 16 ≤ d.keep.queue.length ∨ 16 ≤ d.faultsNow →
        Answered 3 5 t.dev ∧ t.dev.f R.KEEP_CNT.FAULT_DROPPED = satInc R.KEEP_CNT.FAULT_DROPPED.width (d.f R.KEEP_CNT.FAULT_DROPPED) ∧
        t.dev.f R.KEEP_EVT.FAULT_DROP = 1 ∧ t.dev.keep.queue.length = d.keep.queue.length ∧
        OnlyFields (R.KEEP_CNT.FAULT_DROPPED :: R.KEEP_EVT.FAULT_DROP :: mailFields) d t.dev ∧ stages t)) ∧
    (∃ t, exec .readFault s = .next t ∧
      (a1 ≠ 0 → Answered 4 3 t.dev ∧ OnlyFields mailFields d t.dev ∧ mailbox t) ∧
      (a1 = 0 → d.faults.length ≤ a0 → Answered 4 9 t.dev ∧ OnlyFields mailFields d t.dev ∧ mailbox t) ∧
      (∀ r, d.faults[a0]? = some r → a1 = 0 → Answered 4 1 t.dev ∧ (∀ i : Fin 8, t.dev.f (R.WATCH_FLT.WORD i) = rn r.body (4 * i) 4) ∧
        OnlyFields (mailFields ++ (List.range 8).map R.WATCH_FLT.WORD) d t.dev ∧ mailbox t)) ∧
    (let args := [R.WATCH_ARG0.ARG, R.WATCH_ARG1.ARG];
      (d.running = false → (∃ t, exec .stopRun s = .next t ∧ Answered 5 8 t.dev ∧ OnlyFields (mailFields ++ args) d t.dev ∧ mailbox t) ∧
        ∃ t, exec .stopRunImmediate s = .next t ∧ Answered 5 8 t.dev ∧ OnlyFields (mailFields ++ args) d t.dev ∧ mailbox t) ∧
      (d.running = true →
        (∃ t, exec .stopRun s = .next t ∧ Answered 5 1 t.dev ∧ t.dev.running = true ∧
          (∀ e : Fin 64, t.dev.eng e = (if (d.streams64.contains e.val && (d.eng e).live) = true then { d.eng e with stopAtSafe := true } else d.eng e)) ∧
          OnlyFields (mailFields ++ args) d t.dev ∧
          t = { s with dev := { d with flds := t.dev.flds, engines := t.dev.engines, pba := t.dev.pba, again := [], evNow := [], out := [] } }) ∧
        ∃ t, exec .stopRunImmediate s = .next t ∧ Answered 5 1 t.dev ∧ t.dev.running = false ∧ AllClamped 1 t.dev ∧
          (∀ e : Fin 64, d.tileOn (e / 2) = true → t.dev.f (R.SCH_STAT.STATE e) = 3 ∧
            t.dev.f (R.SCH_STAT.FAULT e) = (if d.f (R.SCH_STAT.STATE e) = 3 then d.f (R.SCH_STAT.FAULT e) else 8)))) ∧
    (∃ t, exec .setAsset s = .next t ∧
      (a0 ≠ 0 ∧ a0 ≠ 8 ∧ a0 ≠ 16 ∧ a0 ≠ 24 → Answered 6 4 t.dev ∧ OnlyFields mailFields d t.dev ∧ mailbox t) ∧
      (a0 = 0 ∨ a0 = 8 ∨ a0 = 16 ∨ a0 = 24 → d.keep.wear = 2 → Answered 6 7 t.dev ∧ OnlyFields mailFields d t.dev ∧ mailbox t) ∧
      (a0 = 0 ∨ a0 = 8 ∨ a0 = 16 ∨ a0 = 24 → d.identBody.length = 288 → d.keep.wear ≠ 2 → d.keep.queue.length < 16 ∨ d.keep.queue.any (fun r => r.cls == 4 && r.key == 0 && r.phase == 0) = true →
        Answered 6 1 t.dev ∧ t.dev.keep.queue.any (fun r => r.cls == 4 && r.key == 0 && rn r.body (256 + a0) 4 == a1 % 2 ^ 32 &&
          r.body.take (256 + a0) == d.identBody.take (256 + a0) && r.body.drop (260 + a0) == d.identBody.drop (260 + a0)) = true ∧
        OnlyFields (R.KEEP_STAT.QUEUE :: mailFields) d t.dev ∧ stages t))) ∧
  (∀ s : State, s.dev.domOn (domainOf R.WATCH_REQ.GO.off) = true →
    let d := s.dev
    (d.b R.WATCH_RESP.BUSY = true → ∀ c ∈ [(Instr.setLimit, 1), (Instr.keepCommit, 2), (Instr.hostFault, 3), (Instr.readFault, 4), (Instr.setAsset, 6)],
      ∃ t, exec c.1 s = .next t ∧ t.dev.f R.WATCH_REQ.OP = c.2 ∧ t.dev.f R.WATCH_RESP.OVERRUN = 1 ∧ OnlyFields [R.WATCH_REQ.OP, R.WATCH_RESP.OVERRUN] d t.dev ∧
        t = { s with dev := { d with flds := t.dev.flds, pba := t.dev.pba, again := [], evNow := [], out := [] } }) ∧
    (d.b R.WATCH_RESP.BUSY = false → d.watchRuns = false → d.b R.WATCH_REQ.GO = false →
      ∀ c ∈ [(Instr.setLimit, 1), (Instr.keepCommit, 2), (Instr.hostFault, 3), (Instr.readFault, 4), (Instr.setAsset, 6)],
      ∃ t, exec c.1 s = .next t ∧ t.dev.f R.WATCH_REQ.OP = c.2 ∧ t.dev.f R.WATCH_REQ.GO = 1 ∧ OnlyFields [R.WATCH_REQ.OP, R.WATCH_REQ.GO] d t.dev ∧
        t = { s with dev := { d with flds := t.dev.flds, again := [], evNow := [], out := [] } })) ∧
  (∀ (s : State) (x : Limit), s.dev.limit = some x → s.dev.running = false → s.dev.b R.WATCH_REQ.GO = false → 1 ≤ x.limit → x.limit ≤ 4 →
    let d := s.dev
    ∃ t, exec .setLimitApply s = .next t ∧ t.dev.f R.WATCH_RESP.BUSY = 0 ∧ t.dev.f R.WATCH_EVT.REQ_DONE = 1 ∧ t.dev.limit = none ∧
      (d.limitOk x.limit x.index x.value = true → t.dev.f R.WATCH_RESP.RESULT = 1 ∧ (∀ F ∈ (limitFlds x.limit x.index).getD [], t.dev.f F = x.value % 2 ^ F.width) ∧
        OnlyFields (mailFields ++ (limitFlds x.limit x.index).getD []) d t.dev) ∧
      (d.limitOk x.limit x.index x.value = false → t.dev.f R.WATCH_RESP.RESULT = 4 ∧ OnlyFields mailFields d t.dev) ∧
      t = { s with dev := { d with flds := t.dev.flds, limit := none, pba := t.dev.pba, again := [], evNow := t.dev.evNow, out := [] } }) ∧
  ∀ (s : State) (watchdog : Bool),
    let d := s.dev
    ∃ t, exec (.watchReset watchdog) s = .next t ∧ t.dev.f R.WATCH_STAT.STATE = 2 ∧
      t.dev.f R.WATCH_STAT.RESETS = satInc R.WATCH_STAT.RESETS.width (d.f R.WATCH_STAT.RESETS) ∧ t.dev.f R.WATCH_EVT.WATCH_RESET = 1 ∧
      t.dev.f R.PWR_RST.CAUSE = 6 ∧ t.dev.f R.PWR_RST.COUNT = satInc R.PWR_RST.COUNT.width (d.f R.PWR_RST.COUNT) ∧
      t.dev.f R.TWIN_STAT.SEL = 0 ∧ t.dev.f R.TWIN_STAT.STATE = 0 ∧ t.dev.f R.TWIN_STAT.ROLE = 0 ∧ AllClamped 1 t.dev ∧ t.dev.running = false ∧
      (d.b R.WATCH_RESP.BUSY = true → t.dev.f R.WATCH_RESP.RESULT = 0) ∧ t.dev.b R.WATCH_RESP.BUSY = false ∧ t.dev.limit = none ∧
      t.dev.fw = { d.fw.over with trial := false } ∧ t.dev.f R.FW_STAT.OWNER = 0 ∧ (d.b R.FW_STAT.BUSY = true → t.dev.f R.FW_STAT.RESULT = 0) ∧
      t.dev.b R.FW_STAT.BUSY = false ∧ t.dev.keep.flight = d.keep.flight.map KFlight.dropped ∧ t.dev.img.act = d.img.act ∧ t.dev.time = d.time ∧
      (d.running = false → d.st.begun = false → t.dev.cxl = d.cxl) ∧
      (∀ q rest, d.running = false → d.st.begun = false → d.keep.queue = q :: rest → q.seq.isSome = true →
        t.dev.keep.queue.head? = some { q with phase := 0, slot := none }) ∧
      (d.running = false → d.st.begun = false → d.faultsNow < 16 → d.keep.queue.length < 16 → d.keep.wear ≠ 2 →
        t.dev.keep.queue.any (fun r => r.cls == 7 && rn r.body 0 2 == 0x0701 && rn r.body 2 2 == watchdog.toNat) = true) ∧
      (d.running = false → d.st.begun = false → t.dev.engines = d.engines ∧ t.dev.resS = d.resS ∧ t.dev.resW = d.resW ∧ t.dev.twin.absent = d.twin.absent)

/-- Power, wakes and sleeps, and the resets of domains. It is the model's choice when a rail counts as absent (log 244), what of the patches a pair that is off keeps (log 82),
which registers show again what the Keep and the Watch hold (log 83), which limits return (log 183), and that WAKE and SLEEP start nothing where they have nothing to
start (log 185). -/
def Obligations.PowerAndWake : Prop :=
  (∀ s : State,
    let d := s.dev
    ∃ t, exec .powerOnReset s = .next t ∧ (∀ F : Fld, F.key ≠ R.PWR_DOM_STAT.ON.key → F.key ≠ R.KEEP_STAT.PWRFAIL.key → t.dev.f F = F.rst) ∧ t.dev.f R.PWR_DOM_STAT.ON = 1 ∧
      t.dev.f R.KEEP_STAT.PWRFAIL = (!d.power.pwrfailN).toNat ∧
      t.dev.power = { upStep := 0, perstHigh := d.power.perstHigh, pwrfailN := d.power.pwrfailN, pwrfailOk := d.power.pwrfailOk
                      reset := if d.power.perstHigh then none else some (1, true) } ∧
      AllClamped 3 t.dev ∧ t.dev.cxl = d.cxl ∧ t.dev.keep.queue = [] ∧ t.dev.keep.life = ({} : Device).keep.life ∧
      t.dev.img = {} ∧ t.dev.engines = [] ∧ t.dev.patch = [] ∧ t.dev.time = {} ∧
      (d.keep.flight = none → ∀ u : Fin 4096, t.dev.unit u = d.unit u) ∧
      (∀ x, d.keep.flight = some x → (t.dev.unit x.unit).suspect = true ∧ ∀ u : Fin 4096, u.val ≠ x.unit → u.val ≠ d.keep.head → t.dev.unit u = d.unit u)) ∧
  (∀ (s : State) (rail : Fin 7) (below85 : Bool),
    let d := s.dev
    let svc := rail.val != 6
    ∃ t, exec (.railDrop rail below85) s = .next t ∧
      (below85 = true → (∀ F : Fld, F.key ≠ R.PWR_DOM_STAT.ON.key → F.key ≠ R.KEEP_STAT.PWRFAIL.key → t.dev.f F = F.rst) ∧ t.dev.f R.PWR_DOM_STAT.ON = 0 ∧
        AllClamped 3 t.dev ∧ t.dev.cxl = d.cxl ∧ t.dev.power.por = true ∧ t.dev.power.svc = (d.power.svc && svc) ∧ t.dev.power.aon = (d.power.aon && rail.val != 2) ∧
        t.dev.power.perstHigh = (d.power.perstHigh && svc) ∧ t.dev.power.pwrfailN = (d.power.pwrfailN && svc) ∧
        t.dev.power.reset = (if t.dev.power.perstHigh then none else some (1, true))) ∧
      (below85 = false → d.power.pwrfailN = true → t.dev.running = false ∧ AllClamped 3 t.dev ∧ t.dev.f R.PWR_EVT.PWRFAIL = 1 ∧ t.dev.f R.TWIN_STAT.SEL = 0 ∧
        t.dev.b R.TB_STAT.AWAKE = false ∧ t.dev.power.pwrfailN = true ∧ t.dev.power.pwrfailOk = false) ∧
      (below85 = false → d.power.pwrfailN = false → t = { s with dev := { d with out := [] } })) ∧
  (∀ (s : State) (k : Fin 5), s.dev.power.por = true → exec (.powerupStep k) s = .next { s with dev := { s.dev with out := [] } }) ∧
  (∀ (s : State) (k : Fin 5), s.dev.power.por = false → s.dev.power.upStep = k.val →
    let d := s.dev
    ∃ t, exec (.powerupStep k) s = .next t ∧
      (k.val < 3 → t.dev.f R.PWR_DOM_STAT.ON = (d.f R.PWR_DOM_STAT.ON ||| (if k.val = 0 then 0x01 else if k.val = 1 then 0x40 else 0xBE)) % 2 ^ 24 ∧
        OnlyFields [R.PWR_DOM_STAT.ON] d t.dev ∧ t = { s with dev := { d with flds := t.dev.flds, power := { d.power with upStep := k.val + 1 }, out := [] } }) ∧
      (k.val = 3 → (∀ j : Fin 16, (t.dev.f R.PWR_TILE_STAT.UP).testBit j =
          ((d.f R.PWR_TILE_STAT.UP).testBit j || ((d.f R.PWR_TILE_CTL.EN).testBit j && !(d.f R.PWR_DOM_STAT.ON).testBit (8 + j)))) ∧
        t.dev.power = { d.power with upStep := 4, ups := d.power.ups ++ (List.range 16).filter (fun j => (d.f R.PWR_TILE_CTL.EN).testBit j && !d.pairUp j) } ∧
        OnlyFields [R.PWR_TILE_STAT.UP, R.PWR_TILE_STAT.PENDING] d t.dev ∧ t = { s with dev := { d with flds := t.dev.flds, power := t.dev.power, out := [] } }) ∧
      (k.val = 4 → t = { s with dev := { d with power := { d.power with upStep := if d.f R.PWR_TILE_STAT.UP = 0 then 5 else 4 }, out := [] } })) ∧
  (∀ (s : State) (k : Fin 16), s.dev.running = false → s.dev.b R.GLB_RUN_STAT.PENDING = false → s.dev.b R.THM_STAT.SHUTDOWN = false →
    let d := s.dev
    let want := (d.f R.PWR_TILE_CTL.EN).testBit k
    let lower := (List.range k).any (fun j => (d.f R.PWR_TILE_CTL.EN).testBit j && !d.pairUp j)
    (want = true ∧ lower = true ∨ want = d.pairUp k → exec (.tilePairSwitch k) s = .next { s with dev := { d with out := [] } }) ∧
    ((want = true → d.pairUp k = false → lower = false →
      ∃ t, exec (.tilePairSwitch k) s = .next t ∧ t.dev.f R.PWR_TILE_STAT.UP = (d.f R.PWR_TILE_STAT.UP ||| 2 ^ k.val) % 2 ^ 16 ∧
        t.dev.power = { d.power with ups := d.power.ups ++ [k.val] } ∧ (t.dev.f R.PWR_TILE_STAT.PENDING).testBit k = false ∧
        OnlyFields [R.PWR_TILE_STAT.UP, R.PWR_TILE_STAT.PENDING, R.PWR_STAT.WAIT] d t.dev ∧ t = { s with dev := { d with flds := t.dev.flds, power := t.dev.power, out := [] } }) ∧
    (want = false → d.pairUp k = true → d.waitsDrain (2 * k) = false → d.waitsDrain (2 * k + 1) = false →
      ∃ t, exec (.tilePairSwitch k) s = .next t ∧ t.dev.pairUp k = false ∧ (t.dev.f R.PWR_TILE_STAT.PENDING).testBit k = false ∧ k.val ∉ t.dev.power.ups ∧
        (∀ j : Fin 16, j ≠ k → t.dev.pairUp j = d.pairUp j) ∧
        (∀ tl : Fin 32, tl.val / 2 = k.val → t.dev.tile tl = {} ∧ (∀ o ∈ tileOutputs tl, (t.dev.clampOf o).testBit 3 = true) ∧ t.dev.eng (2 * tl) = {} ∧ t.dev.eng (2 * tl + 1) = {} ∧
          Uninit (classBase 0 tl) (classBase 0 tl + 24576) t.dev ∧ Uninit (classBase 2 tl) (classBase 2 tl + 16384) t.dev ∧
          Uninit (classBase 4 tl) (classBase 4 tl + 256) t.dev ∧ Uninit (classBase 1 (2 * tl)) (classBase 1 (2 * tl) + 8192) t.dev ∧
          AtReset [tileAll tl] ((List.range 8).flatMap (fun i => [R.FLX_OUT_STAT.CLAMPED (8 * tl + i), R.FLX_OUT_STAT.CLAMP_WHY (8 * tl + i)])) t.dev) ∧
        (∀ tl : Fin 32, tl.val / 2 ≠ k.val → t.dev.tile tl = d.tile tl ∧ t.dev.eng (2 * tl) = d.eng (2 * tl) ∧ t.dev.eng (2 * tl + 1) = d.eng (2 * tl + 1)) ∧
        ElseSame [tileAll (2 * k), tileAll (2 * k + 1)] ([R.PWR_DOM_STAT.ON, R.PWR_TILE_STAT.UP, R.PWR_TILE_STAT.PENDING, R.PWR_STAT.WAIT] ++ cutFields) d t.dev ∧
        t.dev.img = d.img ∧ t.dev.cxl = d.cxl ∧ t.dev.keep = d.keep))) ∧
  (∀ (s : State) (k : Fin 16), s.dev.power.ups.head? = some k.val →
    let d := s.dev
    ∃ t, exec (.tilePairUp k) s = .next t ∧ (t.dev.f R.PWR_TILE_STAT.UP).testBit k = false ∧ (t.dev.f R.PWR_DOM_STAT.ON).testBit (8 + k) = true ∧
      t.dev.power = { d.power with ups := d.power.ups.drop 1 } ∧
      (∀ i : Fin 10, t.dev.f (R.NCO_OUT_CFG.SETTLING (10 * k + i)) = 1 ∧ (t.dev.outCfg (10 * k + i)).since = d.age) ∧
      (∀ c : Fin 160, c.val / 10 ≠ k.val → t.dev.outCfg c = d.outCfg c) ∧
      OnlyFields ([R.PWR_TILE_STAT.UP, R.PWR_DOM_STAT.ON, R.PWR_TILE_STAT.PENDING, R.PWR_STAT.WAIT, R.FLX_MARK.MIDLE (2 * k), R.FLX_MARK.MIDLE (2 * k + 1)] ++
        (List.range 10).map (fun i => R.NCO_OUT_CFG.SETTLING (10 * k + i)) ++
        (List.range 16).flatMap (fun i => [R.FLX_OUT_STAT.GROUP (16 * k + i), R.FLX_OUT_STAT.RANGE (16 * k + i)])) d t.dev ∧
      t = { s with dev := { d with flds := t.dev.flds, power := t.dev.power, outCfgs := t.dev.outCfgs, tiles := t.dev.tiles, calib := { d.calib with due := t.dev.calib.due }
                                   calPaths := t.dev.calPaths, out := [] } }) ∧
  (∀ s : State, s.dev.domOn (domainOf R.PWR_CTL.WAKE.off) = true →
    let d := s.dev
    let st := d.f R.PWR_STAT.STATE
    (∃ t, exec .wake s = .next t ∧
      (st = 0 ∨ st = 3 → t.dev.b R.PWR_CTL.WAKE = true ∧ t.dev.power = { d.power with wakeReq := true } ∧ t.dev.f R.PWR_STAT.WAIT = (if st = 0 then d.wakeMiss else 0) ∧
        OnlyFields [R.PWR_CTL.WAKE, R.PWR_STAT.WAIT] d t.dev) ∧
      (st ≠ 0 → st ≠ 3 → t.dev.flds = d.flds ∧ t.dev.power = d.power) ∧
      t = { s with dev := { d with flds := t.dev.flds, power := t.dev.power, again := t.dev.again, evNow := [], out := [] } }) ∧
    (d.b R.PWR_CTL.SLEEP = false →
      ∃ t, exec .sleep s = .next t ∧
        (st = 2 → d.mayRest = true → t.dev.f R.PWR_STAT.STATE = 3 ∧ t.dev.f R.TB_STAT.AWAKE = 0 ∧ t.dev.f R.PWR_CTL.SLEEP = 0 ∧
          OnlyFields [R.PWR_STAT.STATE, R.TB_STAT.AWAKE, R.PWR_CTL.SLEEP] d t.dev) ∧
        (st = 1 ∨ (st = 2 ∧ d.mayRest = false) → t.dev.f R.PWR_CTL.SLEEP = 1 ∧ OnlyFields [R.PWR_CTL.SLEEP] d t.dev) ∧
        (st ≠ 1 → st ≠ 2 → t.dev.flds = d.flds) ∧ t = { s with dev := { d with flds := t.dev.flds, again := [], evNow := [], out := [] } })) ∧
  (∀ s : State, s.dev.f R.PWR_STAT.STATE = 0 → s.dev.power.wakeReq = true → s.dev.wakeMiss = 0 → s.dev.power.atEdge = true → s.dev.domOn 4 = true →
    s.dev.again.contains R.PWR_CTL.WAKE.key = false →
    let d := s.dev
    ∃ t, exec .wakeStart s = .next t ∧ t.dev.f R.PWR_STAT.STATE = 1 ∧ t.dev.f R.PWR_CTL.WAKE = 0 ∧ t.dev.f R.PWR_STAT.WAIT = 0 ∧
      t.dev.power = { d.power with wakeReq := false, wakeEdges := 0, clocks := 0 } ∧ OnlyFields [R.PWR_STAT.STATE, R.PWR_CTL.WAKE, R.PWR_STAT.WAIT] d t.dev ∧
      t = { s with dev := { d with flds := t.dev.flds, power := t.dev.power, out := [] } }) ∧
  (∀ s : State, s.dev.f R.PWR_STAT.STATE = 1 →
    let d := s.dev
    let c := d.age
    (d.b R.TB_STAT.LOCKED = false →
      ∃ t, exec .pllLock s = .next t ∧ t.dev.f R.TB_STAT.LOCKED = 1 ∧ t.dev.power = { d.power with lockAt := c } ∧ OnlyFields [R.TB_STAT.LOCKED] d t.dev ∧
        t = { s with dev := { d with flds := t.dev.flds, power := t.dev.power, out := [] } }) ∧
    (∀ g : Fin 9, d.b R.TB_STAT.LOCKED = true → d.power.clocks = 2 ^ g.val - 1 → d.power.lockAt + 4000 * g.val ≤ c →
      exec (.clockGroupEnable g) s = .next { s with dev := { d with power := { d.power with clocks := 2 ^ (g.val + 1) - 1, clkAt := c }, out := [] } }) ∧
    (d.power.clocks = 2 ^ 9 - 1 → d.power.atEdge = true → d.power.clkAt < c →
      ∃ t, exec .awake s = .next t ∧ t.dev.f R.TB_STAT.AWAKE = 1 ∧ t.dev.time = { d.time with fine := d.time.coarse } ∧
        t.dev.f R.PWR_STAT.WAKE_TIME = d.power.wakeEdges % 2 ^ R.PWR_STAT.WAKE_TIME.width ∧ t.dev.f R.SCRUB_STAT.RUNNING = (d.b R.SCRUB_CTL.EN).toNat ∧
        (∀ q : Fin 4, t.dev.f (R.MON_STAT.RUNNING q) = 1) ∧ t.dev.f R.CAL_STAT.SOURCE ≠ 0 ∧
        (d.st.wait = false → d.st.begun = false ∨ d.st.tests ≠ 128 → ∀ p : Fin 9, d.b (R.LNK_PORT_CTL.EN p) = true → d.running = false → t.dev.f (R.LNK_PORT_STAT.PHASE p) = 1 ∧ (t.dev.portUp p).since = d.age) ∧
        (d.st.wait = false → t.dev.f R.PWR_STAT.STATE = 2 ∧ t.dev.img = d.img ∧ t.dev.engines = d.engines ∧ t.dev.power = { d.power with idle := 0 }))) ∧
  (∀ s : State, s.dev.f R.PWR_STAT.STATE = 2 → s.dev.b R.PWR_CTL.AUTO_SLEEP = true → s.dev.mayRest = true → 2000 * s.dev.f R.PWR_CTL.SLEEP_DELAY ≤ s.dev.power.idle →
    s.dev.again.contains R.PWR_CTL.SLEEP.key = false →
    let d := s.dev
    ∃ t, exec .autoSleep s = .next t ∧ t.dev.f R.PWR_STAT.STATE = 3 ∧ t.dev.f R.TB_STAT.AWAKE = 0 ∧ t.dev.f R.PWR_CTL.SLEEP = 0 ∧
      OnlyFields [R.PWR_STAT.STATE, R.TB_STAT.AWAKE, R.PWR_CTL.SLEEP] d t.dev ∧ t = { s with dev := { d with flds := t.dev.flds, out := [] } }) ∧
  (∀ s : State, s.dev.f R.PWR_STAT.STATE = 3 ∨ (s.dev.f R.PWR_STAT.STATE = 2 ∧ s.dev.b R.PWR_CTL.SLEEP = true ∧ s.dev.mayRest = true) →
    let d := s.dev
    ∃ t, exec .sleeping s = .next t ∧ t.dev.f R.PWR_STAT.STATE = 0 ∧ t.dev.f R.TB_STAT.AWAKE = 0 ∧ t.dev.f R.TB_STAT.LOCKED = 0 ∧ t.dev.f R.SCRUB_STAT.RUNNING = 0 ∧
      (∀ q : Fin 4, t.dev.f (R.MON_STAT.RUNNING q) = 0) ∧ (∀ p : Fin 9, t.dev.f (R.FAB_PORT_STAT.IN_SERVICE p) = 0 ∧ t.dev.f (R.LNK_PORT_STAT.PHASE p) = 0) ∧
      t.dev.time = d.time ∧ t.dev.img = d.img ∧ t.dev.sram = d.sram ∧ t.dev.tags = d.tags ∧ t.dev.resS = d.resS ∧ t.dev.resW = d.resW ∧ t.dev.ports = d.ports ∧ t.dev.scrubs = d.scrubs ∧
      t.dev.thermal = { d.thermal with rateT0 := none } ∧ (d.thermal.rateT0 = none → t.dev.clamps = d.clamps) ∧ (d.thermal.rateT0.isSome = true → AllClamped 3 t.dev) ∧
      (d.f R.TWIN_STAT.STATE ≠ 2 → t.dev.engines = d.engines ∧ t.dev.keep = d.keep)) ∧
  ∀ (s : State) (perst : Bool) (data : Word),
    let d := s.dev
    let resets := fun (lo cause : Nat) (t : State) =>
      t.dev.running = false ∧ t.dev.img.act = none ∧ t.dev.img.pend = none ∧ AllClamped 3 t.dev ∧ t.dev.f R.TWIN_STAT.SEL = 0 ∧ t.dev.f R.TWIN_STAT.STATE = 0 ∧ t.dev.f R.TWIN_CTL.CLAIM = 0 ∧
      t.dev.f R.PWR_RST.CAUSE = cause ∧ t.dev.f R.PWR_RST.COUNT = satInc R.PWR_RST.COUNT.width (d.f R.PWR_RST.COUNT) ∧
      t.dev.time.coarse = d.time.coarse ∧ t.dev.f R.TB_STAT.SYNC_COUNT = d.f R.TB_STAT.SYNC_COUNT % 2 ^ R.TB_STAT.SYNC_COUNT.width ∧
      t.dev.f R.TB_STAT.SYNCED = d.f R.TB_STAT.SYNCED % 2 ∧
      t.dev.b R.TB_STAT.AWAKE = false ∧ t.dev.patch = d.patch ∧ (d.running = false → d.st.begun = false → t.dev.cxl = d.cxl) ∧ t.dev.keep.flight = d.keep.flight.map KFlight.dropped ∧ t.dev.fw = d.fw.over ∧
      t.dev.engines = [] ∧ t.dev.tiles = [] ∧ t.dev.twin = {} ∧ t.dev.st = {} ∧ t.dev.f R.FW_STAT.OWNER = 0 ∧
      (∀ F ∈ keptShown, t.dev.f F = d.f F % 2 ^ F.width) ∧ t.dev.f R.KEEP_STAT.PWRFAIL = (!d.power.pwrfailN).toNat ∧ t.dev.f R.KEEP_STAT.BUSY = d.keep.flight.isSome.toNat ∧
      (d.b R.KEEP_STAT.READY = true → t.dev.f R.KEEP_STAT.STATE = d.keep.wear % 4) ∧
      AtReset (resetRanges lo) (shownFields ++ keptShown ++ [R.KEEP_STAT.PWRFAIL, R.KEEP_STAT.BUSY, R.KEEP_STAT.STATE, R.KEEP_STAT.RING_GOOD, R.KEEP_STAT.QUEUE, R.KEEP_WEAR.SPARES,
        R.KEEP_WEAR.RETIRED, R.KEEP_ERASE.MAX] ++ [R.TB_STAT.SYNC_COUNT, R.TB_STAT.SYNCED, R.TB_STAT.REF_OK] ++
        (List.range 256).flatMap (fun i => [R.FLX_OUT_STAT.CLAMPED i, R.FLX_OUT_STAT.CLAMP_WHY i])) t.dev ∧
      (d.running = false → d.b R.CAL_STAT.FG_BUSY = false → d.b R.CAL_STAT.INITIAL = false → d.st.begun = false → d.f R.TWIN_STAT.STATE ≠ 2 → d.thermal.rateT0 = none →
        (lo = 1 ∨ ∀ q : Fin 64, (d.queue q).cur = none) →
        t.dev.keep = { d.keep with flight := d.keep.flight.map KFlight.dropped } ∧ t.dev.thermal = d.thermal ∧
        ElseSame (resetRanges lo) (shownFields ++ [R.PWR_RST.CAUSE, R.PWR_RST.COUNT, R.PWR_CTL.WAKE, R.PWR_CTL.SLEEP, R.PWR_STAT.STATE, R.PWR_EVT.WAKE_ABORT]) d t.dev)
    (d.domOn 0 = true → ∃ t, exec (.fundamentalReset perst) s = .next t ∧ resets 1 (if perst then 2 else 3) t ∧ t.dev.power.reset = some (1, perst) ∧ t.dev.host = {} ∧
      t.dev.queues = [] ∧ t.dev.pba = [] ∧ (perst = true → t.dev.power.perstHigh = false)) ∧
    (d.domOn 0 = false → exec (.fundamentalReset perst) s = .next { s with dev := { d with power := { d.power with perstHigh := d.power.perstHigh && !perst }, out := [] } }) ∧
    (d.domOn (domainOf R.PWR_RST_CTL.DEVICE.off) = true →
      (data.getLsbD 31 = true → data.toNat % 65536 = 0xD5E7 → ∃ t, exec (.deviceReset data) s = .next t ∧ resets 2 4 t ∧ t.dev.power.reset = some (2, false) ∧
        t.dev.host = { d.host with cxlLost := d.host.cxlLost || d.b R.ECC_CXL_STAT.PRESENT } ∧
        (∀ (q : Fin 64) (e : Entry), (d.queue q).cur = some e → rb e.bytes 0 = 3 → rb e.bytes 28 < 5 → (t.dev.queue q).cur = none)) ∧
      (data.getLsbD 31 = true → data.toNat % 65536 ≠ 0xD5E7 →
        ∃ t, exec (.deviceReset data) s = .next t ∧ t.dev.f R.PWR_EVT.RST_DENIED = 1 ∧ OnlyFields [R.PWR_EVT.RST_DENIED] d t.dev ∧
          t = { s with dev := { d with flds := t.dev.flds, pba := t.dev.pba, again := [], evNow := [], out := [] } }) ∧
      (data.getLsbD 31 = false → exec (.deviceReset data) s = .next { s with dev := { d with again := [], evNow := [], out := [] } }))

/-- The ends of resets and of Keep operations, a transaction that is cut, and self-tests. It is the model's choice what RESULT reads of a request that is deferred (log 85),
and that SELFTEST_DONE stands for a whole test, whose items list what is not as in a good part (log 247). -/
def Obligations.ResetsAndSelfTest : Prop :=
  (∀ s : State,
    let d := s.dev
    exec .perstNRise s = .next { s with dev := { d with
      power := if d.power.svc then { d.power with perstHigh := true, reset := d.power.reset.map (fun r => (r.1, false)) } else d.power, out := [] } } ∧
    exec .transactionCut s = .next { s with dev := { d with out := [] } }) ∧
  (∀ (s : State) (lo : Nat), s.dev.power.reset = some (lo, false) →
    let d := s.dev
    ∃ t, exec .resetEnd s = .next t ∧ t.dev.power = { d.power with reset := none } ∧
      (∀ c : Fin 160, (t.dev.tileOn (c / 5) = true → t.dev.f (R.NCO_OUT_CFG.SETTLING c) = 1 ∧ (t.dev.outCfg c).since = d.age) ∧
        (t.dev.tileOn (c / 5) = false → t.dev.f (R.NCO_OUT_CFG.SETTLING c) = d.f (R.NCO_OUT_CFG.SETTLING c) ∧ t.dev.outCfg c = d.outCfg c)) ∧
      OnlyFields ((List.range 160).map R.NCO_OUT_CFG.SETTLING ++ (List.range 256).flatMap (fun c => [R.FLX_OUT_STAT.GROUP c, R.FLX_OUT_STAT.RANGE c]) ++ (List.range 32).map R.FLX_MARK.MIDLE) d t.dev ∧
      t = { s with dev := { d with flds := t.dev.flds, power := t.dev.power, outCfgs := t.dev.outCfgs, tiles := t.dev.tiles, calib := { d.calib with due := t.dev.calib.due }
                                   calPaths := t.dev.calPaths, out := [] } }) ∧
  (∀ (s : State) (f : KFlight), s.dev.keep.flight = some f →
    let d := s.dev
    ∃ t, exec .programOrEraseEnd s = .next t ∧
      (d.keep.held = true → t.dev.keep.flight = none ∧ t.dev.f R.KEEP_STAT.BUSY = 0) ∧
      t.dev.thermal = (if d.b R.THM_STAT.SHUTDOWN ∧ d.thermal.ended = none then { d.thermal with ended := some d.age } else d.thermal) ∧
      (∀ cmd, f.what = .fwErase cmd → f.ok = true → (t.dev.unit f.unit).recs = [] ∧ (t.dev.unit f.unit).erases = (d.unit f.unit).erases + 1 ∧
        (t.dev.unit f.unit).gen = d.descGen d.fwTarget ∧ ∀ j : Fin 15, t.dev.blockBytes f.unit j = erasedBytes 4096) ∧
      (∀ j k data, f.what = .fwPage j k data →
        t.dev.keep.queue = d.keep.queue ∧ t.dev.keep.units = d.keep.units ∧
        t.dev.blockBytes f.unit j = (d.blockBytes f.unit j).take (256 * k) ++ programOver (((d.blockBytes f.unit j).drop (256 * k)).take 256) data ++ (d.blockBytes f.unit j).drop (256 * k + 256) ∧ t.dev.fw = { d.fw with pages := d.fw.pages.map (fun k => k + 1) } ∧
        OnlyFields [R.KEEP_STAT.BUSY] d t.dev ∧
        t = { s with dev := { d with flds := t.dev.flds, keep := t.dev.keep, fw := t.dev.fw, thermal := t.dev.thermal, out := [] } }) ∧
      (f.program = false → f.ok = true → (∀ u, f.what ≠ .spare u) → (t.dev.unit f.unit).recs = [] ∧ (t.dev.unit f.unit).erases = (d.unit f.unit).erases + 1)) ∧
  (∀ (s : State) (data : Word), s.dev.domOn (domainOf R.GLB_ST_REQ.GO.off) = true → bitsOf data.toNat 11 8 < 2 → bitsOf data.toNat 15 12 < 4 →
    let d := s.dev
    let m := data.toNat % 256
    let held := d.running || d.b R.GLB_RUN_STAT.PENDING
    let asleep := d.f R.PWR_STAT.STATE == 0 || d.f R.PWR_STAT.STATE == 3
    let params := [R.GLB_ST_REQ.TESTS, R.GLB_ST_REQ.ALGO, R.GLB_ST_REQ.DATA, R.GLB_ST_REQ.STOP_FIRST]
    let busy := held || d.b R.CAL_STAT.FG_BUSY || d.b R.CAL_STAT.INITIAL || d.b R.GLB_ST_STAT.BUSY || d.st.later.isSome
    ∃ t, exec (.selftestRequest data) s = .next t ∧ t.dev.f R.GLB_ST_REQ.TESTS = m ∧ t.dev.f R.GLB_ST_REQ.ALGO = bitsOf data.toNat 11 8 ∧
      t.dev.f R.GLB_ST_REQ.DATA = bitsOf data.toNat 15 12 ∧ t.dev.f R.GLB_ST_REQ.STOP_FIRST = (data.getLsbD 16).toNat ∧
      (busy = true →
        let all := m ||| (match d.st.later with | some r => r.1 | none => 0)
        t.dev.f R.GLB_ST_STAT.DEFERRED = 1 ∧ t.dev.f R.GLB_ST_STAT.DONE = all % 256 ∧ t.dev.f R.GLB_ST_STAT.RESULT = (if held then 5 else d.f R.GLB_ST_STAT.RESULT) ∧
        t.dev.st = { d.st with later := some (all, bitsOf data.toNat 11 8, bitsOf data.toNat 15 12, data.getLsbD 16) } ∧
        OnlyFields (params ++ [R.GLB_ST_STAT.DEFERRED, R.GLB_ST_STAT.DONE, R.GLB_ST_STAT.RESULT]) d t.dev ∧
        t = { s with dev := { d with flds := t.dev.flds, st := t.dev.st, again := [], evNow := [], out := [] } }) ∧
      (busy = false → d.b R.TB_STAT.AWAKE = false → t.dev.f R.GLB_ST_STAT.BUSY = 1 ∧ t.dev.st.wait = true ∧ t.dev.st.begun = false ∧ t.dev.st.tests = m ∧
        (asleep = true → t.dev.f R.PWR_STAT.WAIT = (if d.f R.PWR_STAT.STATE = 0 then d.wakeMiss else 0)) ∧
        t.dev.f R.GLB_ST_STAT.DONE = 0 ∧ OnlyFields (R.GLB_ST_STAT.BUSY :: R.GLB_ST_STAT.DONE :: R.PWR_STAT.WAIT :: params) d t.dev ∧
        t = { s with dev := { d with
          flds := t.dev.flds, st := t.dev.st, power := { d.power with wakeReq := asleep || d.power.wakeReq }, again := [], evNow := [], out := [] } }) ∧
      (busy = false → d.b R.TB_STAT.AWAKE = true →
        (m.testBit 5 = true → d.b R.ECC_CXL_STAT.PRESENT = false → (m.testBit 2 = false ∧ m.testBit 3 = false) →
          t.dev.f R.GLB_ST_STAT.RESULT = 4 ∧ t.dev.f R.GLB_ST_STAT.REASON = 3 ∧ t.dev.f R.GLB_ST_STAT.BUSY = 0 ∧ t.dev.st.begun = false) ∧
        (m.testBit 5 = true → d.b R.ECC_CXL_STAT.PRESENT = true → d.f R.GLB_ST_CXL_LEN.LEN = 0 → t.dev.f R.GLB_ST_STAT.RESULT = 4 ∧ t.dev.f R.GLB_ST_STAT.REASON = 1) ∧
        (m.testBit 5 = false → m.testBit 2 = true ∨ m.testBit 3 = true → d.streaming = true → t.dev.f R.GLB_ST_STAT.RESULT = 4 ∧ t.dev.f R.GLB_ST_STAT.REASON = 2) ∧
        (m.testBit 5 = false → m.testBit 2 = false → m.testBit 3 = false → m % 128 ≠ 0 → t.dev.f R.GLB_ST_STAT.BUSY = 1 ∧ t.dev.f R.GLB_ST_STAT.RESULT = 0 ∧ t.dev.f R.GLB_ST_STAT.REASON = 0 ∧
          t.dev.f R.GLB_ST_STAT.DONE = 0 ∧ t.dev.f R.GLB_ST_STAT.FAILED = 0 ∧ t.dev.f R.GLB_ST_FAILCNT.MAP = 0 ∧ t.dev.f R.GLB_ST_TMAP.MAP = 0 ∧ t.dev.f64 R.GLB_ST_EMAP_LO.MAP R.GLB_ST_EMAP_HI.MAP = 0 ∧
          t.dev.f R.GLB_ST_CONV.MAP = 0 ∧ t.dev.f R.GLB_ST_LANE.MAP = 0 ∧ t.dev.st.begun = true ∧ t.dev.st.tests = m ∧ t.dev.st.stop = data.getLsbD 16 ∧
          t.dev.st.bg = d.f64 R.GLB_ST_BG_LO.BG R.GLB_ST_BG_HI.BG))) ∧
  (∀ (s : State) (m algo data : Nat) (stop : Bool), s.dev.st.later = some (m, algo, data, stop) → s.dev.running = false → s.dev.b R.GLB_RUN_STAT.PENDING = false → s.dev.b R.CAL_STAT.FG_BUSY = false →
    s.dev.b R.CAL_STAT.INITIAL = false → s.dev.f R.CAL_REQ_STAT.PENDING = 0 → s.dev.b R.GLB_ST_STAT.BUSY = false → s.dev.endTick = false → m.testBit 5 = false → m.testBit 2 = false → m.testBit 3 = false → m % 128 ≠ 0 →
    let d := s.dev
    ∃ t, exec .selftestDeferredStart s = .next t ∧ t.dev.f R.GLB_ST_STAT.DEFERRED = 0 ∧ t.dev.f R.GLB_ST_STAT.BUSY = 1 ∧ t.dev.st.later = none ∧ t.dev.st.tests = m ∧
      t.dev.st.algo = algo ∧ t.dev.st.data = data ∧ t.dev.st.stop = stop ∧ t.dev.st.begun = d.b R.TB_STAT.AWAKE ∧
      (d.b R.TB_STAT.AWAKE = false → d.f R.PWR_STAT.STATE = 0 ∨ d.f R.PWR_STAT.STATE = 3 → t.dev.power.wakeReq = true) ∧
      t.dev.img = d.img ∧ t.dev.engines = d.engines ∧ (d.b R.TB_STAT.AWAKE = false ∨ m % 64 = 0 → t.dev.sram = d.sram) ∧
      (d.b R.TB_STAT.AWAKE = true → m.testBit 0 = true → ∀ (tl : Fin 32) (i : Nat), d.tileOn tl = true → i < 24576 →
        t.dev.tagOf (classBase 0 tl + i) = 0 ∧ t.dev.lineErrs (classBase 0 tl + i) = [] ∧
        ∀ j, j < 8 → leNat (t.dev.sram.read (64 * (classBase 0 tl + i) + 8 * j) 8) =
          testWord data (d.f64 R.GLB_ST_BG_LO.BG R.GLB_ST_BG_HI.BG) (64 * classBase 0 tl) (8 * i + j) (testLeft algo (lastElement algo + 1)))) ∧
  ∀ (s : State) (items : List TestItem) (k : Fin 8), s.dev.st.begun = true → s.dev.st.tests < 256 → s.dev.st.tests.testBit k = true → s.dev.st.tests % 2 ^ k.val = 0 →
    s.dev.b R.GLB_ST_STAT.DEFERRED = false →
    let d := s.dev
    let reads := d.badReads k items
    let loops := if k.val = 6 then (items.filterMap d.convFails).filter d.tileOn else items.filterMap d.laneFails
    let counted := if d.st.stop then (firstRead reads).toList else reads
    let bad := if k.val < 6 then !reads.isEmpty else !loops.isEmpty
    let rest := if bad = true ∧ d.st.stop = true then 0 else d.st.tests - 2 ^ k.val
    let first := d.f R.GLB_ST_STAT.FAILED = 0
    ∃ t, exec (.selftestDone items) s = .next t ∧ t.dev.f R.GLB_ST_STAT.DONE = (d.f R.GLB_ST_STAT.DONE ||| 2 ^ k.val) % 256 ∧
      t.dev.f R.GLB_ST_STAT.FAILED = (if bad then (d.f R.GLB_ST_STAT.FAILED ||| 2 ^ k.val) % 256 else d.f R.GLB_ST_STAT.FAILED) ∧
      t.dev.f R.GLB_ST_FAILCNT.MAP = (if bad = true ∧ k.val < 6 then satAdd R.GLB_ST_FAILCNT.MAP.width (d.f R.GLB_ST_FAILCNT.MAP) counted.length else d.f R.GLB_ST_FAILCNT.MAP) ∧
      (bad = true → first → t.dev.f R.GLB_ST_FAIL.TEST = k.val) ∧
      (∀ b, k.val < 6 → firstRead reads = some b → first → t.dev.f R.GLB_ST_FAIL.ELEM = b.elem % 8 ∧ t.dev.f R.GLB_ST_FAIL.OP = b.op % 4 ∧
        t.dev.f R.GLB_ST_FAIL.WORD = b.addr / 8 % 8 ∧ t.dev.f R.GLB_ST_FAIL.KIND = (if b.poison then 4 else 0) ∧
        t.dev.f64 R.GLB_ST_FAIL_ADDR_LO.ADDR R.GLB_ST_FAIL_ADDR_HI.ADDR = b.addr % 2 ^ 64 ∧
        (k.val = 5 ∨ perByte (testClass k) = false ∨ b.data ≠ 0 →
          t.dev.f R.GLB_ST_FAIL.BIT = ((List.range 72).find? (b.data + 2 ^ 64 * b.check).testBit).getD 0) ∧
        (onesIn 104 (b.data + 2 ^ 64 * b.check) ≤ 72 → t.dev.f R.GLB_ST_FAIL.NBITS = onesIn 104 (b.data + 2 ^ 64 * b.check))) ∧
      (bad = true → k.val = 0 ∨ k.val = 2 ∨ k.val = 3 → t.dev.f R.GLB_ST_TMAP.MAP = (d.f R.GLB_ST_TMAP.MAP ||| maskOf (counted.map BadRead.unit)) % 2 ^ 32) ∧
      (bad = true → k.val = 1 → t.dev.f64 R.GLB_ST_EMAP_LO.MAP R.GLB_ST_EMAP_HI.MAP =
        (d.f64 R.GLB_ST_EMAP_LO.MAP R.GLB_ST_EMAP_HI.MAP ||| maskOf (counted.map BadRead.unit)) % 2 ^ 64) ∧
      (bad = true → k.val = 6 → t.dev.f R.GLB_ST_CONV.MAP = (d.f R.GLB_ST_CONV.MAP ||| maskOf loops) % 2 ^ 32) ∧
      (bad = true → k.val = 7 → t.dev.f R.GLB_ST_LANE.MAP = (d.f R.GLB_ST_LANE.MAP ||| maskOf loops) % 2 ^ 32) ∧
      (bad = false → t.dev.f R.GLB_ST_TMAP.MAP = d.f R.GLB_ST_TMAP.MAP ∧ t.dev.f R.GLB_ST_CONV.MAP = d.f R.GLB_ST_CONV.MAP ∧ t.dev.f R.GLB_ST_LANE.MAP = d.f R.GLB_ST_LANE.MAP ∧
        t.dev.f R.GLB_ST_FAIL.TEST = d.f R.GLB_ST_FAIL.TEST) ∧
      (k.val = 5 → counted.any BadRead.poison = true → t.dev.f R.ECC_EVT.CXL_POISON = 1) ∧
      (rest = 0 → t.dev.f R.GLB_ST_STAT.BUSY = 0 ∧ t.dev.f R.GLB_ST_STAT.RESULT = (if t.dev.f R.GLB_ST_STAT.FAILED = 0 then 1 else 2) ∧ t.dev.st.begun = false) ∧
      (rest ≠ 0 → t.dev.f R.GLB_ST_STAT.BUSY = d.f R.GLB_ST_STAT.BUSY ∧ t.dev.st.tests = rest ∧ t.dev.st.begun = true) ∧
      (k.val = 2 → ∀ tl : Fin 32, d.tileOn tl = true → Uninit (classBase 2 tl) (classBase 2 tl + 16384) t.dev) ∧
      (k.val = 3 → ∀ tl : Fin 32, d.tileOn tl = true → Uninit (classBase 4 tl) (classBase 4 tl + 256) t.dev) ∧
      (k.val = 5 → d.st.held = [] → ¬ (bad = true ∧ d.st.stop = true) → t.dev.cxl = d.cxl) ∧
      (d.st.held = [] → t.dev.img = d.img) ∧ (d.f R.TWIN_STAT.STATE ≠ 2 → t.dev.engines = d.engines)

end
end

