-- ==== Sys2Proof/Laws/Bank.lean ====
section
/-! SUPPORT. What a sparse table's operations do: a read after a write, and that each operation keeps the canonical form. -/
namespace Sys2Proof.Machine

variable {α : Type}

/-- Every key of the table is above `k`. -/
def Above (k : Nat) (m : Bank α) : Prop := ∀ c ∈ m, k < c.1

/-- The keys rise strictly. -/
def Rising (m : Bank α) : Prop := m.Pairwise (fun x y => x.1 < y.1)

theorem bsorted_iff (m : Bank α) : bsorted m = true ↔ Rising m := by
  induction m with
  | nil => simp [bsorted, Rising]
  | cons c r ih =>
    obtain ⟨a, x⟩ := c
    cases r with
    | nil => simp [bsorted, Rising]
    | cons c' r' =>
      obtain ⟨b, y⟩ := c'
      simp only [bsorted, Bool.and_eq_true, decide_eq_true_eq, ih, Rising, List.pairwise_cons, List.mem_cons]
      constructor
      · rintro ⟨hab, h1, h2⟩
        refine ⟨fun c hc => ?_, h1, h2⟩
        rcases hc with rfl | hc
        · exact hab
        · exact Nat.lt_trans hab (h1 c hc)
      · rintro ⟨h1, h2, h3⟩
        exact ⟨h1 _ (.inl rfl), h2, h3⟩

theorem bwf_iff [DecidableEq α] (d : Nat → α) (m : Bank α) : bwf d m = true ↔ Rising m ∧ ∀ c ∈ m, c.2 ≠ d c.1 := by
  simp [bwf, bsorted_iff]

theorem bget_of_not_mem (d : Nat → α) (m : Bank α) (k : Nat) (h : ∀ c ∈ m, c.1 ≠ k) : bget d m k = d k := by
  induction m with
  | nil => rfl
  | cons c r ih =>
    obtain ⟨a, x⟩ := c
    have ha : a ≠ k := h (a, x) (by simp)
    simp only [bget, ha, if_false]
    exact ih (fun c hc => h c (by simp [hc]))

theorem bget_filter (d : Nat → α) (p : Nat → Bool) (m : Bank α) (k : Nat) :
    bget d (m.filter (fun c => p c.1)) k = if p k then bget d m k else d k := by
  induction m with
  | nil => simp [bget]
  | cons c r ih =>
    obtain ⟨a, x⟩ := c
    by_cases hp : p a <;> by_cases ha : a = k <;> simp_all [bget]

theorem bget_bins_same (d : Nat → α) (m : Bank α) (k : Nat) (v : α) (h : ∀ c ∈ m, c.1 ≠ k) : bget d (bins k v m) k = v := by
  induction m with
  | nil => simp [bins, bget]
  | cons c r ih =>
    obtain ⟨a, x⟩ := c
    have ha : a ≠ k := h (a, x) (by simp)
    have hr := ih (fun c hc => h c (by simp [hc]))
    by_cases hk : k < a <;> simp [bins, hk, bget, ha, hr]

theorem bget_bins_other (d : Nat → α) (m : Bank α) (k j : Nat) (v : α) (h : j ≠ k) : bget d (bins k v m) j = bget d m j := by
  induction m with
  | nil => simp [bins, bget, Ne.symm h]
  | cons c r ih =>
    obtain ⟨a, x⟩ := c
    by_cases hk : k < a <;> simp [bins, hk, bget, ih, Ne.symm h]

theorem bdel_ne (k : Nat) (m : Bank α) : ∀ c ∈ bdel k m, c.1 ≠ k := by
  simp [bdel]

theorem bget_bdel_other (d : Nat → α) (m : Bank α) (k j : Nat) (h : j ≠ k) : bget d (bdel k m) j = bget d m j := by
  have := bget_filter d (fun a => a != k) m j
  simpa [bdel, h] using this

/-- A read of the key just written gives the value written. -/
@[simp] theorem bget_bset_same [DecidableEq α] (d : Nat → α) (m : Bank α) (k : Nat) (v : α) : bget d (bset d m k v) k = v := by
  unfold bset
  split
  · next h => rw [h]; exact bget_of_not_mem d _ k (bdel_ne k m)
  · exact bget_bins_same d _ k v (bdel_ne k m)

/-- A write leaves every other key alone. -/
theorem bget_bset_other [DecidableEq α] (d : Nat → α) (m : Bank α) (k j : Nat) (v : α) (h : j ≠ k) : bget d (bset d m k v) j = bget d m j := by
  unfold bset
  split
  · exact bget_bdel_other d m k j h
  · rw [bget_bins_other d _ k j v h, bget_bdel_other d m k j h]

theorem bget_bset [DecidableEq α] (d : Nat → α) (m : Bank α) (k j : Nat) (v : α) : bget d (bset d m k v) j = if j = k then v else bget d m j := by
  split
  · next h => rw [h, bget_bset_same]
  · next h => exact bget_bset_other d m k j v h

/-- A dropped key reads as the default again, and every other key as before. -/
theorem bget_bdrop (d : Nat → α) (m : Bank α) (lo hi k : Nat) : bget d (bdrop lo hi m) k = if lo ≤ k ∧ k < hi then d k else bget d m k := by
  have := bget_filter d (fun a => decide (a < lo) || decide (hi ≤ a)) m k
  simp only [bdrop, this, Bool.or_eq_true, decide_eq_true_eq]
  by_cases h1 : k < lo <;> by_cases h2 : hi ≤ k <;> simp [h1, h2] <;> omega

theorem Rising.filter {m : Bank α} (h : Rising m) (p : Nat × α → Bool) : Rising (m.filter p) := List.Pairwise.filter p h

theorem mem_bins {m : Bank α} {k : Nat} {v : α} {c : Nat × α} : c ∈ bins k v m → c = (k, v) ∨ c ∈ m := by
  induction m with
  | nil => simp [bins]
  | cons d r ih =>
    obtain ⟨a, x⟩ := d
    by_cases hk : k < a
    · simp [bins, hk]
    · simp only [bins, hk, if_false, List.mem_cons]
      rintro (h | h)
      · exact .inr (.inl h)
      · rcases ih h with h | h
        · exact .inl h
        · exact .inr (.inr h)

theorem rising_bins {m : Bank α} (h : Rising m) (k : Nat) (v : α) (hk : ∀ c ∈ m, c.1 ≠ k) : Rising (bins k v m) := by
  induction m with
  | nil => simp [bins, Rising]
  | cons d r ih =>
    obtain ⟨a, x⟩ := d
    have ⟨h1, h2⟩ := List.pairwise_cons.mp h
    by_cases hlt : k < a
    · simp only [bins, hlt, if_true]
      refine List.pairwise_cons.mpr ⟨fun c hc => ?_, h⟩
      rcases List.mem_cons.mp hc with rfl | hc
      · exact hlt
      · exact Nat.lt_trans hlt (h1 c hc)
    · simp only [bins, hlt, if_false]
      refine List.pairwise_cons.mpr ⟨fun c hc => ?_, ih h2 (fun c hc => hk c (by simp [hc]))⟩
      rcases mem_bins hc with rfl | hc
      · have := hk (a, x) (by simp); simp only at *; omega
      · exact h1 c hc

theorem bwf_filter [DecidableEq α] {d : Nat → α} {m : Bank α} (h : bwf d m = true) (p : Nat × α → Bool) : bwf d (m.filter p) = true := by
  rw [bwf_iff] at *
  exact ⟨h.1.filter p, fun c hc => h.2 c (List.mem_filter.mp hc).1⟩

theorem bwf_nil [DecidableEq α] (d : Nat → α) : bwf d ([] : Bank α) = true := by simp [bwf, bsorted]

theorem bwf_bdrop [DecidableEq α] {d : Nat → α} {m : Bank α} (h : bwf d m = true) (lo hi : Nat) : bwf d (bdrop lo hi m) = true := bwf_filter h _

/-- A write keeps the canonical form. -/
theorem bwf_bset [DecidableEq α] {d : Nat → α} {m : Bank α} (h : bwf d m = true) (k : Nat) (v : α) : bwf d (bset d m k v) = true := by
  have hd : bwf d (bdel k m) = true := bwf_filter h _
  unfold bset
  split
  · exact hd
  · next hv =>
    rw [bwf_iff] at *
    refine ⟨rising_bins hd.1 k v (bdel_ne k m), fun c hc => ?_⟩
    rcases mem_bins hc with rfl | hc
    · exact hv
    · exact hd.2 c hc

theorem mem_brun [DecidableEq α] {d : Nat → α} {vs : List α} {k : Nat} {c : Nat × α} :
    c ∈ brun d k vs → k ≤ c.1 ∧ c.1 < k + vs.length ∧ c.2 ≠ d c.1 := by
  induction vs generalizing k with
  | nil => simp [brun]
  | cons v r ih =>
    intro hc
    by_cases hv : v = d k
    · simp only [brun, hv, if_true] at hc
      have := ih hc
      simp only [List.length_cons]; exact ⟨by omega, by omega, this.2.2⟩
    · simp only [brun, hv, if_false, List.mem_cons] at hc
      rcases hc with rfl | hc
      · simp [hv]
      · have := ih hc
        simp only [List.length_cons]; exact ⟨by omega, by omega, this.2.2⟩

theorem rising_brun [DecidableEq α] (d : Nat → α) (k : Nat) (vs : List α) : Rising (brun d k vs) := by
  induction vs generalizing k with
  | nil => simp [brun, Rising]
  | cons v r ih =>
    by_cases hv : v = d k
    · simpa [brun, hv] using ih (k + 1)
    · simp only [brun, hv, if_false]
      exact List.pairwise_cons.mpr ⟨fun c hc => by have := (mem_brun hc).1; simp only; omega, ih (k + 1)⟩

/-- A write of a run of values keeps the canonical form. -/
theorem bwf_bsplice [DecidableEq α] {d : Nat → α} {m : Bank α} (h : bwf d m = true) (k : Nat) (vs : List α) : bwf d (bsplice d m k vs) = true := by
  rw [bwf_iff] at *
  unfold bsplice
  constructor
  · refine List.pairwise_append.mpr ⟨List.pairwise_append.mpr ⟨h.1.filter _, rising_brun d k vs, ?_⟩, h.1.filter _, ?_⟩
    · intro x hx y hy
      have := (mem_brun hy).1
      have := (List.mem_filter.mp hx).2
      simp only [decide_eq_true_eq] at this; omega
    · intro x hx y hy
      have hy' := (List.mem_filter.mp hy).2
      simp only [decide_eq_true_eq] at hy'
      rcases List.mem_append.mp hx with hx | hx
      · have := (List.mem_filter.mp hx).2
        simp only [decide_eq_true_eq] at this; omega
      · have := (mem_brun hx).2.1; omega
  · intro c hc
    rcases List.mem_append.mp hc with hc | hc
    · rcases List.mem_append.mp hc with hc | hc
      · exact h.2 c (List.mem_filter.mp hc).1
      · exact (mem_brun hc).2.2
    · exact h.2 c (List.mem_filter.mp hc).1

theorem bget_append (d : Nat → α) (m n : Bank α) (k : Nat) :
    bget d (m ++ n) k = bget (fun j => bget d n j) m k := by
  induction m with
  | nil => rfl
  | cons c r ih => obtain ⟨a, x⟩ := c; simp [bget, ih]

theorem bget_default_congr {d e : Nat → α} (m : Bank α) (k : Nat) (h : d k = e k) : bget d m k = bget e m k := by
  induction m with
  | nil => exact h
  | cons c r ih => obtain ⟨a, x⟩ := c; simp [bget, ih]

theorem bget_brun [DecidableEq α] (d : Nat → α) (k : Nat) (vs : List α) (j : Nat) :
    bget d (brun d k vs) j = if k ≤ j then (vs[j - k]?).getD (d j) else d j := by
  induction vs generalizing k with
  | nil => simp [brun, bget]
  | cons v r ih =>
    by_cases hj : j = k
    · subst hj
      by_cases hv : v = d j
      · simp [brun, hv, ih] <;> omega
      · simp [brun, hv, bget]
    · by_cases hv : v = d k
      · simp only [brun, hv, if_true, ih]
        by_cases hk : k + 1 ≤ j
        · have h1 : k ≤ j := by omega
          have h2 : j - k = (j - (k + 1)) + 1 := by omega
          simp [hk, h1, h2]
        · have h1 : ¬ k ≤ j := by omega
          simp [hk, h1]
      · have hj' : ¬ k = j := fun h => hj h.symm
        simp only [brun, hv, if_false, bget, hj', ih]
        by_cases hk : k + 1 ≤ j
        · have h1 : k ≤ j := by omega
          have h2 : j - k = (j - (k + 1)) + 1 := by omega
          simp [hk, h1, h2]
        · have h1 : ¬ k ≤ j := by omega
          simp [hk, h1]

/-- A read after a write of a run of values: the value written within the run, and what was there outside it. -/
theorem bget_bsplice [DecidableEq α] (d : Nat → α) (m : Bank α) (k : Nat) (vs : List α) (j : Nat) :
    bget d (bsplice d m k vs) j = if k ≤ j ∧ j < k + vs.length then (vs[j - k]?).getD (d j) else bget d m j := by
  have f1 := bget_filter d (fun a => decide (k + vs.length ≤ a)) m j
  have f2 : ∀ e : Nat → α, bget e (m.filter (fun c => decide (c.1 < k))) j = if j < k then bget e m j else e j := by
    intro e; simpa using bget_filter e (fun a => decide (a < k)) m j
  unfold bsplice
  rw [bget_append, bget_append, f2]
  by_cases h1 : j < k
  · have h2 : ¬ (k ≤ j) := by omega
    have h3 : ¬ (k + vs.length ≤ j) := by omega
    simp only [h1, h2, if_true, false_and, if_false]
    refine bget_default_congr m j ?_
    rw [bget_of_not_mem _ _ _ (fun c hc => by have := (mem_brun hc).1; omega), f1]
    simp [h3]
  · have h2 : k ≤ j := by omega
    simp only [h1, if_false, h2, true_and]
    by_cases h3 : j < k + vs.length
    · have h4 : ¬ (k + vs.length ≤ j) := by omega
      rw [bget_default_congr (e := d) _ _ (by rw [f1]; simp [h4]), bget_brun]
      simp [h2, h3]
    · have h4 : k + vs.length ≤ j := by omega
      rw [bget_of_not_mem _ _ _ (fun c hc => by have := (mem_brun hc).2.1; omega), f1]
      simp [h3, h4]

theorem bvals_length (d : Nat → α) (m : Bank α) (k n : Nat) : (bvals d m k n).length = n := by
  induction n generalizing k with
  | zero => rfl
  | succ n ih => simp [bvals, ih]

theorem bvals_getElem? (d : Nat → α) (m : Bank α) (k n i : Nat) (h : i < n) : (bvals d m k n)[i]? = some (bget d m (k + i)) := by
  induction n generalizing k i with
  | zero => omega
  | succ n ih =>
    cases i with
    | zero => simp [bvals]
    | succ i =>
      have := ih (k + 1) i (by omega)
      simp only [bvals, List.getElem?_cons_succ, this]
      congr 2; omega

@[simp] theorem bread_length (d : Nat → α) (m : Bank α) (k n : Nat) : (bread d m k n).length = n := bvals_length ..

/-- A read of a run gives what each key of it reads as. -/
theorem bread_getElem? (d : Nat → α) (m : Bank α) (k n i : Nat) (h : i < n) : (bread d m k n)[i]? = some (bget d m (k + i)) := by
  unfold bread
  rw [bvals_getElem? _ _ _ _ _ h]
  have := bget_filter d (fun a => decide (k ≤ a) && decide (a < k + n)) m (k + i)
  simp only [this]
  simp [h]

end Sys2Proof.Machine
end

