-- ==== Sys2Proof/Laws/Coding.lean ====
section
/-! SUPPORT. The coding of a serial lane undone: what a receiver in step with the transmitter reads is the cell that was sent (R586 to R589). -/
namespace Sys2Proof.Machine

theorem grayPair_graySym (p : Nat) (h : p < 4) : grayPair (graySym p) = p := by
  interval_cases p <;> rfl

theorem graySym_lt (p : Nat) (h : p < 4) : graySym p < 4 := by
  interval_cases p <;> decide

/-- Precoding undone (R588). -/
theorem unprecode_precode (gs : List Nat) (h : ∀ g ∈ gs, g < 4) (p : Nat) : unprecode p (precode p gs) = gs := by
  induction gs generalizing p with
  | nil => rfl
  | cons g r ih =>
    have hg := h g (by simp)
    simp only [precode, unprecode]
    rw [ih (fun x hx => h x (by simp [hx]))]
    congr 1
    omega

/-- Scrambling twice from one state gives the pairs back (R589). -/
theorem scramble_scramble (ps : List Nat) (s : Nat) : (scramble s (scramble s ps).1).1 = ps := by
  induction ps generalizing s with
  | nil => rfl
  | cons p r ih => simp only [scramble, ih, Nat.xor_assoc, Nat.xor_self, Nat.xor_zero]

/-- Scrambling keeps a bit pair below 4. -/
theorem scramble_lt (ps : List Nat) (h : ∀ p ∈ ps, p < 4) (s : Nat) : ∀ p ∈ (scramble s ps).1, p < 4 := by
  induction ps generalizing s with
  | nil => simp [scramble]
  | cons p r ih =>
    intro x hx
    simp only [scramble, List.mem_cons] at hx
    rcases hx with rfl | hx
    · refine Nat.xor_lt_two_pow (n := 2) (h p (by simp)) ?_
      cases (scrStep s).1 <;> cases (scrStep (scrStep s).2).1 <;> decide
    · exact ih (fun y hy => h y (by simp [hy])) _ x hx

/-- The first pairs of a cell make its leading bits. -/
theorem pairs_lead (bits : Nat) (h : bits < 2 ^ 224) (n : Nat) (hn : n ≤ 112) :
    pairsCell ((List.range n).map (fun k => bits / 2 ^ (222 - 2 * k) % 4)) = bits / 2 ^ (224 - 2 * n) := by
  induction n with
  | zero => simpa [pairsCell] using (Nat.div_eq_of_lt h).symm
  | succ n ih =>
    have e : 224 - 2 * n = (222 - 2 * n) + 2 := by omega
    have e' : 224 - 2 * (n + 1) = 222 - 2 * n := by omega
    have := ih (by omega)
    simp only [pairsCell, List.range_succ, List.map_append, List.foldl_append, List.map_cons, List.map_nil, List.foldl_cons, List.foldl_nil] at this ⊢
    rw [this, e, e', Nat.pow_add, ← Nat.div_div_eq_div_mul]
    omega

/-- The pairs of a cell make the cell (R586). -/
theorem pairsCell_cellPairs (bits : Nat) (h : bits < 2 ^ 224) : pairsCell (cellPairs bits) = bits := by
  simpa [cellPairs] using pairs_lead bits h 112 le_rfl

/-- A receiver in step with the transmitter reads the cell that was sent. -/
theorem readCell_codeCell (scr prev : Nat) (pre : Bool) (bits : Nat) (h : bits < 2 ^ 224) :
    readCell scr prev pre (codeCell scr prev pre bits).1 = bits := by
  have lt : ∀ p ∈ (scramble scr (cellPairs bits)).1, p < 4 :=
    scramble_lt _ (by simp only [cellPairs, List.mem_map]; rintro p ⟨k, -, rfl⟩; exact Nat.mod_lt _ (by decide)) _
  have gray : ((scramble scr (cellPairs bits)).1.map graySym).map grayPair = (scramble scr (cellPairs bits)).1 := by
    rw [List.map_map]
    exact (List.map_congr_left (fun p hp => grayPair_graySym p (lt p hp))).trans (List.map_id _)
  have undo := unprecode_precode ((scramble scr (cellPairs bits)).1.map graySym)
    (by simp only [List.mem_map]; rintro g ⟨p, hp, rfl⟩; exact graySym_lt p (lt p hp)) prev
  cases pre <;> simp [readCell, codeCell, undo, gray, scramble_scramble, pairsCell_cellPairs _ h]

end Sys2Proof.Machine
end

