-- ==== Sys2Proof/Laws/Crc.lean ====
section
/-! SUPPORT. CRC-32C is a 32-bit value, little-endian bytes read back as written, and a block that ends in its check value is good. -/
namespace Sys2Proof.Machine

theorem crcBit_lt {c : Nat} (h : c < 2 ^ 32) : crcBit c < 2 ^ 32 := by
  unfold crcBit
  split
  · exact Nat.xor_lt_two_pow (by omega) (by decide)
  · omega

theorem crcByte_lt {c : Nat} (b : Byte) (h : c < 2 ^ 32) : crcByte c b < 2 ^ 32 := by
  unfold crcByte
  iterate 8 apply crcBit_lt
  exact Nat.xor_lt_two_pow h (by have := b.isLt; omega)

theorem crcFold_lt (bs : List Byte) {c : Nat} (h : c < 2 ^ 32) : bs.foldl crcByte c < 2 ^ 32 := by
  induction bs generalizing c with
  | nil => exact h
  | cons b r ih => exact ih (crcByte_lt b h)

theorem crc32c_lt (bs : List Byte) : crc32c bs < 2 ^ 32 := Nat.xor_lt_two_pow (crcFold_lt bs (by decide)) (by decide)

theorem leNat_leBytes (n v : Nat) : leNat (leBytes n v) = v % 256 ^ n := by
  induction n generalizing v with
  | zero => simp [leNat, leBytes, Nat.mod_one]
  | succ n ih => simp [leNat, leBytes, ih, Nat.pow_succ', Nat.mod_mul]

theorem length_leBytes (n v : Nat) : (leBytes n v).length = n := by
  induction n generalizing v with
  | zero => rfl
  | succ n ih => simp [leBytes, ih]

/-- A block that ends in the check value of its other bytes is good (R522). -/
theorem blockGood_append {x : List Byte} (hx : x.length = 4092) : blockGood (x ++ leBytes 4 (crc32c x)) = true := by
  have hl : (x ++ leBytes 4 (crc32c x)).length = 4096 := by rw [List.length_append, length_leBytes, hx]
  have hc : leNat (leBytes 4 (crc32c x)) = crc32c x := by rw [leNat_leBytes]; exact Nat.mod_eq_of_lt (crc32c_lt x)
  rw [blockGood, hl, List.take_left' hx, List.drop_left' hx, hc, beq_self_eq_true, beq_self_eq_true]
  rfl

end Sys2Proof.Machine
end

