-- ==== Sys2Proof/Laws/State.lean ====
section
/-! SUPPORT. The small lemmas of State: what each primitive update makes of its own piece, and that it leaves every other piece and register
field alone; reads of register fields after writes. -/
namespace Sys2Proof.Machine

/-! Which pieces an update may change -/

/-- The pieces of the device beside the register file and what the last command sent out. -/
inductive Piece where
  | latch | held | freeN | time | power | host | queues | pba | img | run | engines | seqs | bus | patch | patchErr
  | patchWait | ports | mixers | markers | clamps | steady | ranged | rangeT0 | outCfgs | mons | monErr | recorded
  | wins | tiles | flight | txq | rx | votes | voted | stats | sums | anise | credit | codes | lat | drainQ | rings
  | streams | flags | sram | tags | errs | cxl | eccLog | scrubs | wback | keep | fw | svc | limit | calib | calPaths
  | calForce | thermal | st | lanes | portUps | twin | digs | badFetch | resS | resW
  | cxlReads
  | chks
  | tagBad
  | cxlBad
  | tins
  | dtags
  | again
  | evNow
  | flip
  deriving DecidableEq, Repr

/-- A piece of the device is as it was. -/
def Same (d e : Device) : Piece → Prop
  | .latch => e.latch = d.latch
  | .held => e.held = d.held
  | .freeN => e.freeN = d.freeN
  | .time => e.time = d.time
  | .power => e.power = d.power
  | .host => e.host = d.host
  | .queues => e.queues = d.queues
  | .pba => e.pba = d.pba
  | .img => e.img = d.img
  | .run => e.run = d.run
  | .engines => e.engines = d.engines
  | .seqs => e.seqs = d.seqs
  | .bus => e.bus = d.bus
  | .patch => e.patch = d.patch
  | .patchErr => e.patchErr = d.patchErr
  | .patchWait => e.patchWait = d.patchWait
  | .ports => e.ports = d.ports
  | .mixers => e.mixers = d.mixers
  | .markers => e.markers = d.markers
  | .clamps => e.clamps = d.clamps
  | .steady => e.steady = d.steady
  | .ranged => e.ranged = d.ranged
  | .rangeT0 => e.rangeT0 = d.rangeT0
  | .outCfgs => e.outCfgs = d.outCfgs
  | .mons => e.mons = d.mons
  | .monErr => e.monErr = d.monErr
  | .recorded => e.recorded = d.recorded
  | .wins => e.wins = d.wins
  | .tiles => e.tiles = d.tiles
  | .flight => e.flight = d.flight
  | .txq => e.txq = d.txq
  | .rx => e.rx = d.rx
  | .votes => e.votes = d.votes
  | .voted => e.voted = d.voted
  | .stats => e.stats = d.stats
  | .sums => e.sums = d.sums
  | .anise => e.anise = d.anise
  | .credit => e.credit = d.credit
  | .codes => e.codes = d.codes
  | .lat => e.lat = d.lat
  | .drainQ => e.drainQ = d.drainQ
  | .rings => e.rings = d.rings
  | .streams => e.streams = d.streams
  | .flags => e.flags = d.flags
  | .sram => e.sram = d.sram
  | .tags => e.tags = d.tags
  | .errs => e.errs = d.errs
  | .cxl => e.cxl = d.cxl
  | .eccLog => e.eccLog = d.eccLog
  | .scrubs => e.scrubs = d.scrubs
  | .wback => e.wback = d.wback
  | .keep => e.keep = d.keep
  | .fw => e.fw = d.fw
  | .svc => e.svc = d.svc
  | .limit => e.limit = d.limit
  | .calib => e.calib = d.calib
  | .calPaths => e.calPaths = d.calPaths
  | .calForce => e.calForce = d.calForce
  | .thermal => e.thermal = d.thermal
  | .st => e.st = d.st
  | .lanes => e.lanes = d.lanes
  | .portUps => e.portUps = d.portUps
  | .twin => e.twin = d.twin
  | .digs => e.digs = d.digs
  | .badFetch => e.badFetch = d.badFetch
  | .resS => e.resS = d.resS
  | .resW => e.resW = d.resW
  | .cxlReads => e.cxlReads = d.cxlReads
  | .chks => e.chks = d.chks
  | .tagBad => e.tagBad = d.tagBad
  | .cxlBad => e.cxlBad = d.cxlBad
  | .tins => e.tins = d.tins
  | .dtags => e.dtags = d.dtags
  | .again => e.again = d.again
  | .evNow => e.evNow = d.evNow
  | .flip => e.flip = d.flip

/-- The update may change the piece. -/
def Upd.hits : Upd → Piece → Bool
  | .fld _ _, _ => false
  | .dropRegs _ _, p => p == .latch || p == .held
  | .latch _ _, p => p == .latch
  | .held _ _, p => p == .held
  | .out _, _ => false
  | .clearOut, _ => false
  | .free, p => p == .freeN
  | .time _, p => p == .time
  | .power _, p => p == .power
  | .host _, p => p == .host
  | .queue _ _, p => p == .queues
  | .pba _ _, p => p == .pba
  | .dropQueues, p => p == .queues || p == .pba
  | .img _, p => p == .img
  | .run _, p => p == .run
  | .engine _ _, p => p == .engines
  | .seq _ _, p => p == .seqs
  | .bus _ _, p => p == .bus
  | .patch _ _, p => p == .patch
  | .patchErr _ _, p => p == .patchErr
  | .dropPatch, p => p == .patch || p == .patchErr
  | .dropPatchErr _ _, p => p == .patchErr
  | .patchWait _, p => p == .patchWait
  | .port _ _, p => p == .ports
  | .mixer _ _, p => p == .mixers
  | .marker _ _, p => p == .markers
  | .clamp _ _, p => p == .clamps
  | .steady _ _, p => p == .steady
  | .ranged _ _, p => p == .ranged
  | .rangeT0 _ _, p => p == .rangeT0
  | .monErr _ _, p => p == .monErr
  | .recorded _ _, p => p == .recorded
  | .win _ _, p => p == .wins
  | .tile _ _, p => p == .tiles
  | .flight _, p => p == .flight
  | .txq _ _, p => p == .txq
  | .rx _ _, p => p == .rx
  | .vote _ _, p => p == .votes
  | .voted _, p => p == .voted
  | .stat _ _, p => p == .stats
  | .sum _ _, p => p == .sums
  | .dropSums, p => p == .sums
  | .anise _, p => p == .anise
  | .credit _ _, p => p == .credit
  | .code _ _, p => p == .codes
  | .lat _ _, p => p == .lat
  | .drainQ _, p => p == .drainQ
  | .ring _ _, p => p == .rings
  | .stream _ _, p => p == .streams
  | .flags _ _, p => p == .flags
  | .sram _ _, p => p == .sram
  | .tag _ _, p => p == .tags || p == .tagBad
  | .err _ _, p => p == .errs
  | .fillLines _ _ _, p => p == .sram || p == .tags || p == .errs || p == .tagBad
  | .lines _ _, p => p == .sram || p == .tags || p == .errs || p == .tagBad
  | .coef _ _, p => p == .sram || p == .tags || p == .errs || p == .tagBad
  | .cxl _ _, p => p == .cxl
  | .cxlFill _, p => p == .cxl
  | .eccLog _, p => p == .eccLog
  | .keep _, p => p == .keep
  | .fw _, p => p == .fw
  | .svc _, p => p == .svc
  | .limit _, p => p == .limit
  | .outCfg _ _, p => p == .outCfgs
  | .mon _ _, p => p == .mons
  | .calib _, p => p == .calib
  | .calPath _ _, p => p == .calPaths
  | .calForce _ _, p => p == .calForce
  | .thermal _, p => p == .thermal
  | .st _, p => p == .st
  | .lane _ _, p => p == .lanes
  | .portUp _ _, p => p == .portUps
  | .twin _, p => p == .twin
  | .dig _ _, p => p == .digs
  | .dropDigs _ _, p => p == .digs
  | .scrub _ _, p => p == .scrubs
  | .wback _, p => p == .wback
  | .badFetch _ _, p => p == .badFetch
  | .dropBad, p => p == .badFetch
  | .resS _ _, p => p == .resS
  | .resW _ _, p => p == .resW
  | .evNow _, p => p == .evNow
  | .flip _, p => p == .flip
  | .again _, p => p == .again
  | .dtag _ _, p => p == .dtags
  | .tin _ _, p => p == .tins
  | .cxlBad _ _, p => p == .cxlBad
  | .tagBad _ _, p => p == .tagBad
  | .chk _ _, p => p == .chks
  | .cxlReads _, p => p == .cxlReads
  | .dropRes _ _, p => p == .resS || p == .resW || p == .dtags || p == .chks
  | .resetBlocks, p => match p with
    | .img | .run | .engines | .seqs | .bus | .ports | .mixers | .markers | .clamps | .steady | .ranged
    | .rangeT0 | .monErr | .recorded | .outCfgs | .mons | .wins | .tiles | .flight | .txq | .rx | .votes | .voted
    | .stats | .sums | .anise | .credit | .codes | .lat | .drainQ | .rings | .streams | .flags | .eccLog | .calib
    | .calPaths | .calForce | .st | .lanes | .portUps | .twin | .digs | .scrubs | .wback | .sram | .tags | .errs
    | .badFetch | .dtags | .tins | .tagBad | .chks | .cxlReads | .resS | .resW | .flip => true
    | _ => false
  | .powerOn, p => p != .freeN && p != .cxl && p != .cxlBad

/-- The update may change register fields. -/
def Upd.setsRegs : Upd → Bool
  | .fld _ _ | .dropRegs _ _ | .powerOn => true
  | _ => false

theorem applyUpd_hits_or_same (d : Device) (u : Upd) (p : Piece) : u.hits p = true ∨ Same d (applyUpd d u) p := by
  cases u <;> dsimp only [applyUpd, Upd.hits] <;> cases p <;> first | exact .inl rfl | exact .inr rfl

/-- An update leaves every piece alone that it does not name. -/
theorem applyUpd_same (d : Device) (u : Upd) (p : Piece) (h : ¬ u.hits p = true) : Same d (applyUpd d u) p :=
  (applyUpd_hits_or_same d u p).resolve_left h

/-- An update that is no register write leaves every register field alone. -/
@[simp] theorem applyUpd_f (d : Device) (u : Upd) (F : Fld) (h : ¬ u.setsRegs = true) : (applyUpd d u).f F = d.f F := by
  cases u <;> first | rfl | exact absurd rfl h

@[simp] theorem applyUpd_latch (d : Device) (u : Upd) (h : ¬ u.hits .latch = true) : (applyUpd d u).latch = d.latch := applyUpd_same d u .latch h
@[simp] theorem applyUpd_held (d : Device) (u : Upd) (h : ¬ u.hits .held = true) : (applyUpd d u).held = d.held := applyUpd_same d u .held h
@[simp] theorem applyUpd_freeN (d : Device) (u : Upd) (h : ¬ u.hits .freeN = true) : (applyUpd d u).freeN = d.freeN := applyUpd_same d u .freeN h
@[simp] theorem applyUpd_time (d : Device) (u : Upd) (h : ¬ u.hits .time = true) : (applyUpd d u).time = d.time := applyUpd_same d u .time h
@[simp] theorem applyUpd_power (d : Device) (u : Upd) (h : ¬ u.hits .power = true) : (applyUpd d u).power = d.power := applyUpd_same d u .power h
@[simp] theorem applyUpd_host (d : Device) (u : Upd) (h : ¬ u.hits .host = true) : (applyUpd d u).host = d.host := applyUpd_same d u .host h
@[simp] theorem applyUpd_queues (d : Device) (u : Upd) (h : ¬ u.hits .queues = true) : (applyUpd d u).queues = d.queues := applyUpd_same d u .queues h
@[simp] theorem applyUpd_pba (d : Device) (u : Upd) (h : ¬ u.hits .pba = true) : (applyUpd d u).pba = d.pba := applyUpd_same d u .pba h
@[simp] theorem applyUpd_img (d : Device) (u : Upd) (h : ¬ u.hits .img = true) : (applyUpd d u).img = d.img := applyUpd_same d u .img h
@[simp] theorem applyUpd_run (d : Device) (u : Upd) (h : ¬ u.hits .run = true) : (applyUpd d u).run = d.run := applyUpd_same d u .run h
@[simp] theorem applyUpd_engines (d : Device) (u : Upd) (h : ¬ u.hits .engines = true) : (applyUpd d u).engines = d.engines := applyUpd_same d u .engines h
@[simp] theorem applyUpd_seqs (d : Device) (u : Upd) (h : ¬ u.hits .seqs = true) : (applyUpd d u).seqs = d.seqs := applyUpd_same d u .seqs h
@[simp] theorem applyUpd_bus (d : Device) (u : Upd) (h : ¬ u.hits .bus = true) : (applyUpd d u).bus = d.bus := applyUpd_same d u .bus h
@[simp] theorem applyUpd_patch (d : Device) (u : Upd) (h : ¬ u.hits .patch = true) : (applyUpd d u).patch = d.patch := applyUpd_same d u .patch h
@[simp] theorem applyUpd_patchErr (d : Device) (u : Upd) (h : ¬ u.hits .patchErr = true) : (applyUpd d u).patchErr = d.patchErr := applyUpd_same d u .patchErr h
@[simp] theorem applyUpd_patchWait (d : Device) (u : Upd) (h : ¬ u.hits .patchWait = true) : (applyUpd d u).patchWait = d.patchWait := applyUpd_same d u .patchWait h
@[simp] theorem applyUpd_ports (d : Device) (u : Upd) (h : ¬ u.hits .ports = true) : (applyUpd d u).ports = d.ports := applyUpd_same d u .ports h
@[simp] theorem applyUpd_mixers (d : Device) (u : Upd) (h : ¬ u.hits .mixers = true) : (applyUpd d u).mixers = d.mixers := applyUpd_same d u .mixers h
@[simp] theorem applyUpd_markers (d : Device) (u : Upd) (h : ¬ u.hits .markers = true) : (applyUpd d u).markers = d.markers := applyUpd_same d u .markers h
@[simp] theorem applyUpd_clamps (d : Device) (u : Upd) (h : ¬ u.hits .clamps = true) : (applyUpd d u).clamps = d.clamps := applyUpd_same d u .clamps h
@[simp] theorem applyUpd_steady (d : Device) (u : Upd) (h : ¬ u.hits .steady = true) : (applyUpd d u).steady = d.steady := applyUpd_same d u .steady h
@[simp] theorem applyUpd_ranged (d : Device) (u : Upd) (h : ¬ u.hits .ranged = true) : (applyUpd d u).ranged = d.ranged := applyUpd_same d u .ranged h
@[simp] theorem applyUpd_rangeT0 (d : Device) (u : Upd) (h : ¬ u.hits .rangeT0 = true) : (applyUpd d u).rangeT0 = d.rangeT0 := applyUpd_same d u .rangeT0 h
@[simp] theorem applyUpd_outCfgs (d : Device) (u : Upd) (h : ¬ u.hits .outCfgs = true) : (applyUpd d u).outCfgs = d.outCfgs := applyUpd_same d u .outCfgs h
@[simp] theorem applyUpd_mons (d : Device) (u : Upd) (h : ¬ u.hits .mons = true) : (applyUpd d u).mons = d.mons := applyUpd_same d u .mons h
@[simp] theorem applyUpd_monErr (d : Device) (u : Upd) (h : ¬ u.hits .monErr = true) : (applyUpd d u).monErr = d.monErr := applyUpd_same d u .monErr h
@[simp] theorem applyUpd_recorded (d : Device) (u : Upd) (h : ¬ u.hits .recorded = true) : (applyUpd d u).recorded = d.recorded := applyUpd_same d u .recorded h
@[simp] theorem applyUpd_wins (d : Device) (u : Upd) (h : ¬ u.hits .wins = true) : (applyUpd d u).wins = d.wins := applyUpd_same d u .wins h
@[simp] theorem applyUpd_tiles (d : Device) (u : Upd) (h : ¬ u.hits .tiles = true) : (applyUpd d u).tiles = d.tiles := applyUpd_same d u .tiles h
@[simp] theorem applyUpd_flight (d : Device) (u : Upd) (h : ¬ u.hits .flight = true) : (applyUpd d u).flight = d.flight := applyUpd_same d u .flight h
@[simp] theorem applyUpd_txq (d : Device) (u : Upd) (h : ¬ u.hits .txq = true) : (applyUpd d u).txq = d.txq := applyUpd_same d u .txq h
@[simp] theorem applyUpd_rx (d : Device) (u : Upd) (h : ¬ u.hits .rx = true) : (applyUpd d u).rx = d.rx := applyUpd_same d u .rx h
@[simp] theorem applyUpd_votes (d : Device) (u : Upd) (h : ¬ u.hits .votes = true) : (applyUpd d u).votes = d.votes := applyUpd_same d u .votes h
@[simp] theorem applyUpd_voted (d : Device) (u : Upd) (h : ¬ u.hits .voted = true) : (applyUpd d u).voted = d.voted := applyUpd_same d u .voted h
@[simp] theorem applyUpd_stats (d : Device) (u : Upd) (h : ¬ u.hits .stats = true) : (applyUpd d u).stats = d.stats := applyUpd_same d u .stats h
@[simp] theorem applyUpd_sums (d : Device) (u : Upd) (h : ¬ u.hits .sums = true) : (applyUpd d u).sums = d.sums := applyUpd_same d u .sums h
@[simp] theorem applyUpd_anise (d : Device) (u : Upd) (h : ¬ u.hits .anise = true) : (applyUpd d u).anise = d.anise := applyUpd_same d u .anise h
@[simp] theorem applyUpd_credit (d : Device) (u : Upd) (h : ¬ u.hits .credit = true) : (applyUpd d u).credit = d.credit := applyUpd_same d u .credit h
@[simp] theorem applyUpd_codes (d : Device) (u : Upd) (h : ¬ u.hits .codes = true) : (applyUpd d u).codes = d.codes := applyUpd_same d u .codes h
@[simp] theorem applyUpd_lat (d : Device) (u : Upd) (h : ¬ u.hits .lat = true) : (applyUpd d u).lat = d.lat := applyUpd_same d u .lat h
@[simp] theorem applyUpd_drainQ (d : Device) (u : Upd) (h : ¬ u.hits .drainQ = true) : (applyUpd d u).drainQ = d.drainQ := applyUpd_same d u .drainQ h
@[simp] theorem applyUpd_rings (d : Device) (u : Upd) (h : ¬ u.hits .rings = true) : (applyUpd d u).rings = d.rings := applyUpd_same d u .rings h
@[simp] theorem applyUpd_streams (d : Device) (u : Upd) (h : ¬ u.hits .streams = true) : (applyUpd d u).streams = d.streams := applyUpd_same d u .streams h
@[simp] theorem applyUpd_flags (d : Device) (u : Upd) (h : ¬ u.hits .flags = true) : (applyUpd d u).flags = d.flags := applyUpd_same d u .flags h
@[simp] theorem applyUpd_sram (d : Device) (u : Upd) (h : ¬ u.hits .sram = true) : (applyUpd d u).sram = d.sram := applyUpd_same d u .sram h
@[simp] theorem applyUpd_tags (d : Device) (u : Upd) (h : ¬ u.hits .tags = true) : (applyUpd d u).tags = d.tags := applyUpd_same d u .tags h
@[simp] theorem applyUpd_errs (d : Device) (u : Upd) (h : ¬ u.hits .errs = true) : (applyUpd d u).errs = d.errs := applyUpd_same d u .errs h
@[simp] theorem applyUpd_cxl (d : Device) (u : Upd) (h : ¬ u.hits .cxl = true) : (applyUpd d u).cxl = d.cxl := applyUpd_same d u .cxl h
@[simp] theorem applyUpd_eccLog (d : Device) (u : Upd) (h : ¬ u.hits .eccLog = true) : (applyUpd d u).eccLog = d.eccLog := applyUpd_same d u .eccLog h
@[simp] theorem applyUpd_scrubs (d : Device) (u : Upd) (h : ¬ u.hits .scrubs = true) : (applyUpd d u).scrubs = d.scrubs := applyUpd_same d u .scrubs h
@[simp] theorem applyUpd_wback (d : Device) (u : Upd) (h : ¬ u.hits .wback = true) : (applyUpd d u).wback = d.wback := applyUpd_same d u .wback h
@[simp] theorem applyUpd_keep (d : Device) (u : Upd) (h : ¬ u.hits .keep = true) : (applyUpd d u).keep = d.keep := applyUpd_same d u .keep h
@[simp] theorem applyUpd_fw (d : Device) (u : Upd) (h : ¬ u.hits .fw = true) : (applyUpd d u).fw = d.fw := applyUpd_same d u .fw h
@[simp] theorem applyUpd_svc (d : Device) (u : Upd) (h : ¬ u.hits .svc = true) : (applyUpd d u).svc = d.svc := applyUpd_same d u .svc h
@[simp] theorem applyUpd_limit (d : Device) (u : Upd) (h : ¬ u.hits .limit = true) : (applyUpd d u).limit = d.limit := applyUpd_same d u .limit h
@[simp] theorem applyUpd_calib (d : Device) (u : Upd) (h : ¬ u.hits .calib = true) : (applyUpd d u).calib = d.calib := applyUpd_same d u .calib h
@[simp] theorem applyUpd_calPaths (d : Device) (u : Upd) (h : ¬ u.hits .calPaths = true) : (applyUpd d u).calPaths = d.calPaths := applyUpd_same d u .calPaths h
@[simp] theorem applyUpd_calForce (d : Device) (u : Upd) (h : ¬ u.hits .calForce = true) : (applyUpd d u).calForce = d.calForce := applyUpd_same d u .calForce h
@[simp] theorem applyUpd_thermal (d : Device) (u : Upd) (h : ¬ u.hits .thermal = true) : (applyUpd d u).thermal = d.thermal := applyUpd_same d u .thermal h
@[simp] theorem applyUpd_st (d : Device) (u : Upd) (h : ¬ u.hits .st = true) : (applyUpd d u).st = d.st := applyUpd_same d u .st h
@[simp] theorem applyUpd_lanes (d : Device) (u : Upd) (h : ¬ u.hits .lanes = true) : (applyUpd d u).lanes = d.lanes := applyUpd_same d u .lanes h
@[simp] theorem applyUpd_portUps (d : Device) (u : Upd) (h : ¬ u.hits .portUps = true) : (applyUpd d u).portUps = d.portUps := applyUpd_same d u .portUps h
@[simp] theorem applyUpd_twin (d : Device) (u : Upd) (h : ¬ u.hits .twin = true) : (applyUpd d u).twin = d.twin := applyUpd_same d u .twin h
@[simp] theorem applyUpd_digs (d : Device) (u : Upd) (h : ¬ u.hits .digs = true) : (applyUpd d u).digs = d.digs := applyUpd_same d u .digs h
@[simp] theorem applyUpd_badFetch (d : Device) (u : Upd) (h : ¬ u.hits .badFetch = true) : (applyUpd d u).badFetch = d.badFetch := applyUpd_same d u .badFetch h
@[simp] theorem applyUpd_resS (d : Device) (u : Upd) (h : ¬ u.hits .resS = true) : (applyUpd d u).resS = d.resS := applyUpd_same d u .resS h
@[simp] theorem applyUpd_evNow (d : Device) (u : Upd) (h : ¬ u.hits .evNow = true) : (applyUpd d u).evNow = d.evNow := applyUpd_same d u .evNow h
@[simp] theorem applyUpd_again (d : Device) (u : Upd) (h : ¬ u.hits .again = true) : (applyUpd d u).again = d.again := applyUpd_same d u .again h
@[simp] theorem applyUpd_dtags (d : Device) (u : Upd) (h : ¬ u.hits .dtags = true) : (applyUpd d u).dtags = d.dtags := applyUpd_same d u .dtags h
@[simp] theorem applyUpd_tins (d : Device) (u : Upd) (h : ¬ u.hits .tins = true) : (applyUpd d u).tins = d.tins := applyUpd_same d u .tins h
@[simp] theorem applyUpd_cxlBad (d : Device) (u : Upd) (h : ¬ u.hits .cxlBad = true) : (applyUpd d u).cxlBad = d.cxlBad := applyUpd_same d u .cxlBad h
@[simp] theorem applyUpd_tagBad (d : Device) (u : Upd) (h : ¬ u.hits .tagBad = true) : (applyUpd d u).tagBad = d.tagBad := applyUpd_same d u .tagBad h
@[simp] theorem applyUpd_chks (d : Device) (u : Upd) (h : ¬ u.hits .chks = true) : (applyUpd d u).chks = d.chks := applyUpd_same d u .chks h
@[simp] theorem applyUpd_cxlReads (d : Device) (u : Upd) (h : ¬ u.hits .cxlReads = true) : (applyUpd d u).cxlReads = d.cxlReads := applyUpd_same d u .cxlReads h
@[simp] theorem applyUpd_flip (d : Device) (u : Upd) (h : ¬ u.hits .flip = true) : (applyUpd d u).flip = d.flip := applyUpd_same d u .flip h
@[simp] theorem applyUpd_resW (d : Device) (u : Upd) (h : ¬ u.hits .resW = true) : (applyUpd d u).resW = d.resW := applyUpd_same d u .resW h

/-! What an update makes of its own piece -/

@[simp] theorem applyUpd_latch_eq (d : Device) (off : Nat) (v : Option Nat) : (applyUpd d (.latch off v)).latch = bset (fun _ => none) d.latch off v := rfl
@[simp] theorem applyUpd_held_eq (d : Device) (off : Nat) (v : Option Nat) : (applyUpd d (.held off v)).held = bset (fun _ => none) d.held off v := rfl
@[simp] theorem applyUpd_out_eq (d : Device) (o : Out) : (applyUpd d (.out o)).out = d.out ++ [o] := rfl
@[simp] theorem applyUpd_clearOut_eq (d : Device) : (applyUpd d (.clearOut )).out = [] := rfl
@[simp] theorem applyUpd_free_eq (d : Device) : (applyUpd d (.free )).freeN = d.freeN + 1 := rfl
@[simp] theorem applyUpd_time_eq (d : Device) (x : Timebase) : (applyUpd d (.time x)).time = x := rfl
@[simp] theorem applyUpd_power_eq (d : Device) (x : Power) : (applyUpd d (.power x)).power = x := rfl
@[simp] theorem applyUpd_host_eq (d : Device) (x : HostPort) : (applyUpd d (.host x)).host = x := rfl
@[simp] theorem applyUpd_queue_eq (d : Device) (q : Nat) (x : Queue) : (applyUpd d (.queue q x)).queues = bset (fun _ => {}) d.queues q x := rfl
@[simp] theorem applyUpd_pba_eq (d : Device) (v : Nat) (b : Bool) : (applyUpd d (.pba v b)).pba = bset (fun _ => false) d.pba v b := rfl
@[simp] theorem applyUpd_img_eq (d : Device) (x : ImageSt) : (applyUpd d (.img x)).img = x := rfl
@[simp] theorem applyUpd_run_eq (d : Device) (x : RunSt) : (applyUpd d (.run x)).run = x := rfl
@[simp] theorem applyUpd_engine_eq (d : Device) (e : Nat) (x : Engine) : (applyUpd d (.engine e x)).engines = bset (fun _ => {}) d.engines e x := rfl
@[simp] theorem applyUpd_seq_eq (d : Device) (e : Nat) (x : Seq) : (applyUpd d (.seq e x)).seqs = bset (fun _ => {}) d.seqs e x := rfl
@[simp] theorem applyUpd_bus_eq (d : Device) (k v : Nat) : (applyUpd d (.bus k v)).bus = bset (fun _ => 0) d.bus k v := rfl
@[simp] theorem applyUpd_patch_eq (d : Device) (a v : Nat) : (applyUpd d (.patch a v)).patch = bset (fun _ => 0) d.patch a v := rfl
@[simp] theorem applyUpd_patchErr_eq (d : Device) (a v : Nat) : (applyUpd d (.patchErr a v)).patchErr = bset (fun _ => 0) d.patchErr a v := rfl
@[simp] theorem applyUpd_patchWait_eq (d : Device) (x : Option (Nat × List Nat × List Nat × Nat)) : (applyUpd d (.patchWait x)).patchWait = x := rfl
@[simp] theorem applyUpd_port_eq (d : Device) (n : Nat) (x : Port) : (applyUpd d (.port n x)).ports = bset (fun _ => {}) d.ports n x := rfl
@[simp] theorem applyUpd_mixer_eq (d : Device) (m : Nat) (x : Mixer) : (applyUpd d (.mixer m x)).mixers = bset (fun _ => {}) d.mixers m x := rfl
@[simp] theorem applyUpd_marker_eq (d : Device) (t : Nat) (x : Marker) : (applyUpd d (.marker t x)).markers = bset (fun _ => {}) d.markers t x := rfl
@[simp] theorem applyUpd_clamp_eq (d : Device) (k v : Nat) : (applyUpd d (.clamp k v)).clamps = bset clampReset d.clamps k v := rfl
@[simp] theorem applyUpd_steady_eq (d : Device) (c : Nat) (v : Nat) : (applyUpd d (.steady c v)).steady = bset (fun _ => 0) d.steady c v := rfl
@[simp] theorem applyUpd_ranged_eq (d : Device) (c : Nat) (v : Bool) : (applyUpd d (.ranged c v)).ranged = bset (fun _ => false) d.ranged c v := rfl
@[simp] theorem applyUpd_rangeT0_eq (d : Device) (c : Nat) (v : Option Nat) : (applyUpd d (.rangeT0 c v)).rangeT0 = bset (fun _ => none) d.rangeT0 c v := rfl
@[simp] theorem applyUpd_monErr_eq (d : Device) (c v : Nat) : (applyUpd d (.monErr c v)).monErr = bset (fun _ => 0) d.monErr c v := rfl
@[simp] theorem applyUpd_recorded_eq (d : Device) (tl : Nat) (v : List Nat) : (applyUpd d (.recorded tl v)).recorded = bset (fun _ => []) d.recorded tl v := rfl
@[simp] theorem applyUpd_win_eq (d : Device) (n : Nat) (x : Option Win) : (applyUpd d (.win n x)).wins = bset (fun _ => none) d.wins n x := rfl
@[simp] theorem applyUpd_tile_eq (d : Device) (n : Nat) (x : Tile) : (applyUpd d (.tile n x)).tiles = bset (fun _ => {}) d.tiles n x := rfl
@[simp] theorem applyUpd_flight_eq (d : Device) (l : List Delivery) : (applyUpd d (.flight l)).flight = l := rfl
@[simp] theorem applyUpd_txq_eq (d : Device) (n : Nat) (l : List (Nat × Nat × Bool × Nat)) : (applyUpd d (.txq n l)).txq = bset (fun _ => []) d.txq n l := rfl
@[simp] theorem applyUpd_rx_eq (d : Device) (n : Nat) (l : List RxMsg) : (applyUpd d (.rx n l)).rx = bset (fun _ => []) d.rx n l := rfl
@[simp] theorem applyUpd_vote_eq (d : Device) (p : Nat) (x : Option VoteIn) : (applyUpd d (.vote p x)).votes = bset (fun _ => none) d.votes p x := rfl
@[simp] theorem applyUpd_voted_eq (d : Device) (x : Option (Nat × Bool)) : (applyUpd d (.voted x)).voted = x := rfl
@[simp] theorem applyUpd_stat_eq (d : Device) (p : Nat) (x : StatIn) : (applyUpd d (.stat p x)).stats = bset (fun _ => {}) d.stats p x := rfl
@[simp] theorem applyUpd_sum_eq (d : Device) (n : Nat) (x : Option (Nat × Nat)) : (applyUpd d (.sum n x)).sums = bset (fun _ => none) d.sums n x := rfl
@[simp] theorem applyUpd_dropSums_eq (d : Device) : (applyUpd d (.dropSums )).sums = [] := rfl
@[simp] theorem applyUpd_anise_eq (d : Device) (x : Anise) : (applyUpd d (.anise x)).anise = x := rfl
@[simp] theorem applyUpd_credit_eq (d : Device) (k v : Nat) : (applyUpd d (.credit k v)).credit = bset (fun _ => 0) d.credit k v := rfl
@[simp] theorem applyUpd_code_eq (d : Device) (n : Nat) (x : Option (Bool × Nat)) : (applyUpd d (.code n x)).codes = bset (fun _ => none) d.codes n x := rfl
@[simp] theorem applyUpd_lat_eq (d : Device) (k v : Nat) : (applyUpd d (.lat k v)).lat = bset (fun _ => 0) d.lat k v := rfl
@[simp] theorem applyUpd_drainQ_eq (d : Device) (l : List (Nat × Nat × Nat)) : (applyUpd d (.drainQ l)).drainQ = l := rfl
@[simp] theorem applyUpd_ring_eq (d : Device) (n : Nat) (x : Ring) : (applyUpd d (.ring n x)).rings = bset (fun _ => {}) d.rings n x := rfl
@[simp] theorem applyUpd_stream_eq (d : Device) (n : Nat) (x : Stream) : (applyUpd d (.stream n x)).streams = bset (fun _ => {}) d.streams n x := rfl
@[simp] theorem applyUpd_flags_eq (d : Device) (t v : Nat) : (applyUpd d (.flags t v)).flags = bset (fun _ => 0) d.flags t v := rfl
@[simp] theorem applyUpd_sram_eq (d : Device) (a : Nat) (bs : List Byte) : (applyUpd d (.sram a bs)).sram = d.sram.put a bs := rfl
@[simp] theorem applyUpd_tag_eq (d : Device) (l k : Nat) : (applyUpd d (.tag l k)).tags = bset (fillTag d.sram.fills) d.tags l k := rfl
@[simp] theorem applyUpd_err_eq (d : Device) (a v : Nat) : (applyUpd d (.err a v)).errs = bset (fun _ => 0) d.errs a v := rfl
@[simp] theorem applyUpd_cxl_eq (d : Device) (a : Nat) (bs : List Byte) : (applyUpd d (.cxl a bs)).cxl = d.cxl.put a bs := rfl
@[simp] theorem applyUpd_cxlFill_eq (d : Device) (x : Fill) : (applyUpd d (.cxlFill x)).cxl = d.cxl.fill x := rfl
@[simp] theorem applyUpd_eccLog_eq (d : Device) (l : List EccEntry) : (applyUpd d (.eccLog l)).eccLog = l := rfl
@[simp] theorem applyUpd_keep_eq (d : Device) (x : Keep) : (applyUpd d (.keep x)).keep = x := rfl
@[simp] theorem applyUpd_fw_eq (d : Device) (x : Fw) : (applyUpd d (.fw x)).fw = x := rfl
@[simp] theorem applyUpd_svc_eq (d : Device) (x : Svc) : (applyUpd d (.svc x)).svc = x := rfl
@[simp] theorem applyUpd_limit_eq (d : Device) (x : Option Limit) : (applyUpd d (.limit x)).limit = x := rfl
@[simp] theorem applyUpd_outCfg_eq (d : Device) (c : Nat) (x : OutCfg) : (applyUpd d (.outCfg c x)).outCfgs = bset (fun _ => {}) d.outCfgs c x := rfl
@[simp] theorem applyUpd_mon_eq (d : Device) (q : Nat) (x : Mon) : (applyUpd d (.mon q x)).mons = bset (fun _ => {}) d.mons q x := rfl
@[simp] theorem applyUpd_calib_eq (d : Device) (x : Calib) : (applyUpd d (.calib x)).calib = x := rfl
@[simp] theorem applyUpd_calPath_eq (d : Device) (n : Nat) (x : CalPath) : (applyUpd d (.calPath n x)).calPaths = bset (fun _ => {}) d.calPaths n x := rfl
@[simp] theorem applyUpd_calForce_eq (d : Device) (n : Nat) (bs : List Byte) : (applyUpd d (.calForce n bs)).calForce = bset (fun _ => []) d.calForce n bs := rfl
@[simp] theorem applyUpd_thermal_eq (d : Device) (x : Thermal) : (applyUpd d (.thermal x)).thermal = x := rfl
@[simp] theorem applyUpd_st_eq (d : Device) (x : SelfTest) : (applyUpd d (.st x)).st = x := rfl
@[simp] theorem applyUpd_lane_eq (d : Device) (n : Nat) (x : Lane) : (applyUpd d (.lane n x)).lanes = bset (fun _ => {}) d.lanes n x := rfl
@[simp] theorem applyUpd_portUp_eq (d : Device) (p : Nat) (x : PortUp) : (applyUpd d (.portUp p x)).portUps = bset (fun _ => {}) d.portUps p x := rfl
@[simp] theorem applyUpd_twin_eq (d : Device) (x : Twin) : (applyUpd d (.twin x)).twin = x := rfl
@[simp] theorem applyUpd_dig_eq (d : Device) (tl : Nat) (v : Option Nat) : (applyUpd d (.dig tl v)).digs = bset (fun _ => none) d.digs tl v := rfl
@[simp] theorem applyUpd_dropDigs_eq (d : Device) (lo hi : Nat) : (applyUpd d (.dropDigs lo hi)).digs = bdrop lo hi d.digs := rfl
@[simp] theorem applyUpd_scrub_eq (d : Device) (u : Nat) (x : Scrub) : (applyUpd d (.scrub u x)).scrubs = bset (fun _ => {}) d.scrubs u x := rfl
@[simp] theorem applyUpd_wback_eq (d : Device) (l : List Nat) : (applyUpd d (.wback l)).wback = l := rfl
@[simp] theorem applyUpd_badFetch_eq (d : Device) (k v : Nat) : (applyUpd d (.badFetch k v)).badFetch = bset (fun _ => 0) d.badFetch k v := rfl
@[simp] theorem applyUpd_dropBad_eq (d : Device) : (applyUpd d (.dropBad )).badFetch = [] := rfl
@[simp] theorem applyUpd_resS_eq (d : Device) (k v : Nat) : (applyUpd d (.resS k v)).resS = bset (fun _ => 0) d.resS k v := rfl
@[simp] theorem applyUpd_evNow_eq (d : Device) (x : List Nat) : (applyUpd d (.evNow x)).evNow = x := rfl
@[simp] theorem applyUpd_again_eq (d : Device) (x : List Nat) : (applyUpd d (.again x)).again = x := rfl
@[simp] theorem applyUpd_dtag_eq (d : Device) (k : Nat) (x : Nat) : (applyUpd d (.dtag k x)).dtags = bset (fun _ => 0) d.dtags k x := rfl
@[simp] theorem applyUpd_tin_eq (d : Device) (k : Nat) (x : TinSt) : (applyUpd d (.tin k x)).tins = bset (fun _ => {}) d.tins k x := rfl
@[simp] theorem applyUpd_cxlBad_eq (d : Device) (k : Nat) (x : Bool) : (applyUpd d (.cxlBad k x)).cxlBad = bset (fun _ => false) d.cxlBad k x := rfl
@[simp] theorem applyUpd_tagBad_eq (d : Device) (k : Nat) (x : Bool) : (applyUpd d (.tagBad k x)).tagBad = bset (fun _ => false) d.tagBad k x := rfl
@[simp] theorem applyUpd_chk_eq (d : Device) (k : Nat) (x : Nat × Bool) : (applyUpd d (.chk k x)).chks = bset (fun _ => (0, false)) d.chks k x := rfl
@[simp] theorem applyUpd_cxlReads_eq (d : Device) (x : List (Bool × Nat)) : (applyUpd d (.cxlReads x)).cxlReads = x := rfl
@[simp] theorem applyUpd_flip_eq (d : Device) (x : Nat) : (applyUpd d (.flip x)).flip = x := rfl
@[simp] theorem applyUpd_resW_eq (d : Device) (k v : Nat) : (applyUpd d (.resW k v)).resW = bset (fun _ => 0) d.resW k v := rfl

/-! Register fields -/

@[simp] theorem setFld_f_same (d : Device) (F : Fld) (v : Nat) : (applyUpd d (.fld F v)).f F = v % 2 ^ F.width := by
  simp [applyUpd, Device.f, setFld, Nat.xor_assoc]

/-- A write of one field leaves every field at another place alone. -/
theorem setFld_f_other (d : Device) (F G : Fld) (v : Nat) (h : G.key ≠ F.key) : (applyUpd d (.fld F v)).f G = d.f G := by
  simp only [applyUpd, Device.f, setFld]
  rw [bget_bset_other _ _ _ _ _ h]

variable {d0 : Device}

@[simp] theorem Tx.upd_d (t : Tx d0) (u : Upd) : (t.upd u).d = applyUpd t.d u := rfl
@[simp] theorem Tx.start_d : (Tx.start d0).d = applyUpd d0 .clearOut := rfl

/-- What a field reads after a write of it (R16): the value cut to its width. -/
@[simp] theorem Tx.w_f_same (t : Tx d0) (F : Fld) (v : Nat) : (t.w F v).d.f F = v % 2 ^ F.width := setFld_f_same ..
theorem Tx.w_f_other (t : Tx d0) (F G : Fld) (v : Nat) (h : G.key ≠ F.key) : (t.w F v).d.f G = t.d.f G := setFld_f_other _ _ _ _ h

end Sys2Proof.Machine
end

