-- ==== Sys2Proof/Laws/Ops.lean ====
section
/-! SUPPORT. What each shared operation on the register file and the interrupt vectors does. -/
namespace Sys2Proof.Machine

variable {d0 : Device}

/-! Runs of operations -/

@[simp] theorem Tx.each_nil {α : Type} (t : Tx d0) (g : α → Tx d0 → Tx d0) : t.each [] g = t := rfl
@[simp] theorem Tx.each_cons {α : Type} (t : Tx d0) (a : α) (l : List α) (g : α → Tx d0 → Tx d0) : t.each (a :: l) g = (g a t).each l g := rfl

/-- What every element's operation keeps, the run keeps. -/
theorem Tx.each_keeps {α : Type} (P : Tx d0 → Prop) (t : Tx d0) (l : List α) (g : α → Tx d0 → Tx d0) (h : P t) (hg : ∀ a ∈ l, ∀ u, P u → P (g a u)) :
    P (t.each l g) := by
  induction l generalizing t with
  | nil => exact h
  | cons a r ih => exact ih (g a t) (hg a (by simp) t h) (fun b hb => hg b (by simp [hb]))

/-! Events (R576) -/

/-- What an event does: it is noted for the clock, and a bit that was 0 becomes 1 with its vector pending. -/
theorem Tx.ev_eq (t : Tx d0) (F : Fld) :
    let u := t.upd (.evNow (if t.d.evNow.contains F.key then t.d.evNow else F.key :: t.d.evNow))
    t.ev F = if t.d.f F = 1 then u else match vectorOf F.key with
      | some v => (u.w F 1).pend v
      | none => u.w F 1 := rfl

/-- An event leaves its bit at 1. -/
@[simp] theorem Tx.ev_f_same (t : Tx d0) (F : Fld) (hw : F.width = 1) : (t.ev F).d.f F = 1 := by
  rw [Tx.ev_eq]
  split
  · next h => exact h
  · split
    · exact (setFld_f_same ..).trans (by simp [hw])
    · exact (setFld_f_same ..).trans (by simp [hw])

/-- An event leaves every field at another place alone. -/
theorem Tx.ev_f_other (t : Tx d0) (F G : Fld) (h : G.key ≠ F.key) : (t.ev F).d.f G = t.d.f G := by
  rw [Tx.ev_eq]
  split
  · rfl
  · split
    · exact setFld_f_other _ _ _ _ h
    · exact setFld_f_other _ _ _ _ h

/-- An event leaves every piece of state but the pending vectors and the note of the clock's events alone. -/
theorem Tx.ev_same (t : Tx d0) (F : Fld) (p : Piece) (h : p ≠ .pba) (h' : p ≠ .evNow) : Same t.d (t.ev F).d p := by
  rw [Tx.ev_eq]
  split
  · cases p <;> first | rfl | contradiction
  · split
    · cases p <;> first | rfl | contradiction
    · cases p <;> first | rfl | contradiction

@[simp] theorem Tx.ev_latch (t : Tx d0) (F : Fld) : (t.ev F).d.latch = t.d.latch := t.ev_same F .latch (by simp) (by simp)
@[simp] theorem Tx.ev_held (t : Tx d0) (F : Fld) : (t.ev F).d.held = t.d.held := t.ev_same F .held (by simp) (by simp)
@[simp] theorem Tx.ev_freeN (t : Tx d0) (F : Fld) : (t.ev F).d.freeN = t.d.freeN := t.ev_same F .freeN (by simp) (by simp)
@[simp] theorem Tx.ev_time (t : Tx d0) (F : Fld) : (t.ev F).d.time = t.d.time := t.ev_same F .time (by simp) (by simp)
@[simp] theorem Tx.ev_power (t : Tx d0) (F : Fld) : (t.ev F).d.power = t.d.power := t.ev_same F .power (by simp) (by simp)
@[simp] theorem Tx.ev_host (t : Tx d0) (F : Fld) : (t.ev F).d.host = t.d.host := t.ev_same F .host (by simp) (by simp)
@[simp] theorem Tx.ev_queues (t : Tx d0) (F : Fld) : (t.ev F).d.queues = t.d.queues := t.ev_same F .queues (by simp) (by simp)
@[simp] theorem Tx.ev_img (t : Tx d0) (F : Fld) : (t.ev F).d.img = t.d.img := t.ev_same F .img (by simp) (by simp)
@[simp] theorem Tx.ev_run (t : Tx d0) (F : Fld) : (t.ev F).d.run = t.d.run := t.ev_same F .run (by simp) (by simp)
@[simp] theorem Tx.ev_engines (t : Tx d0) (F : Fld) : (t.ev F).d.engines = t.d.engines := t.ev_same F .engines (by simp) (by simp)
@[simp] theorem Tx.ev_seqs (t : Tx d0) (F : Fld) : (t.ev F).d.seqs = t.d.seqs := t.ev_same F .seqs (by simp) (by simp)
@[simp] theorem Tx.ev_bus (t : Tx d0) (F : Fld) : (t.ev F).d.bus = t.d.bus := t.ev_same F .bus (by simp) (by simp)
@[simp] theorem Tx.ev_patch (t : Tx d0) (F : Fld) : (t.ev F).d.patch = t.d.patch := t.ev_same F .patch (by simp) (by simp)
@[simp] theorem Tx.ev_patchErr (t : Tx d0) (F : Fld) : (t.ev F).d.patchErr = t.d.patchErr := t.ev_same F .patchErr (by simp) (by simp)
@[simp] theorem Tx.ev_patchWait (t : Tx d0) (F : Fld) : (t.ev F).d.patchWait = t.d.patchWait := t.ev_same F .patchWait (by simp) (by simp)
@[simp] theorem Tx.ev_ports (t : Tx d0) (F : Fld) : (t.ev F).d.ports = t.d.ports := t.ev_same F .ports (by simp) (by simp)
@[simp] theorem Tx.ev_mixers (t : Tx d0) (F : Fld) : (t.ev F).d.mixers = t.d.mixers := t.ev_same F .mixers (by simp) (by simp)
@[simp] theorem Tx.ev_markers (t : Tx d0) (F : Fld) : (t.ev F).d.markers = t.d.markers := t.ev_same F .markers (by simp) (by simp)
@[simp] theorem Tx.ev_clamps (t : Tx d0) (F : Fld) : (t.ev F).d.clamps = t.d.clamps := t.ev_same F .clamps (by simp) (by simp)
@[simp] theorem Tx.ev_steady (t : Tx d0) (F : Fld) : (t.ev F).d.steady = t.d.steady := t.ev_same F .steady (by simp) (by simp)
@[simp] theorem Tx.ev_ranged (t : Tx d0) (F : Fld) : (t.ev F).d.ranged = t.d.ranged := t.ev_same F .ranged (by simp) (by simp)
@[simp] theorem Tx.ev_rangeT0 (t : Tx d0) (F : Fld) : (t.ev F).d.rangeT0 = t.d.rangeT0 := t.ev_same F .rangeT0 (by simp) (by simp)
@[simp] theorem Tx.ev_out (t : Tx d0) (F : Fld) : (t.ev F).d.out = t.d.out := by
  rw [Tx.ev_eq]
  split
  · rfl
  · split <;> rfl

/-- An event is noted for the clock it falls on. -/
theorem Tx.ev_evNow (t : Tx d0) (F : Fld) : (t.ev F).d.evNow = if t.d.evNow.contains F.key then t.d.evNow else F.key :: t.d.evNow := by
  rw [Tx.ev_eq]
  split
  · rfl
  · split <;> rfl

/-- A vector that an event makes pending stays or becomes pending; no vector stops pending. -/
theorem Tx.ev_pba (t : Tx d0) (F : Fld) (v : Nat) (h : bget (fun _ => false) t.d.pba v = true) :
    bget (fun _ => false) (t.ev F).d.pba v = true := by
  rw [Tx.ev_eq]
  split
  · exact h
  · split
    · next w _ =>
      rw [Tx.pend, Tx.upd_d, applyUpd_pba_eq, bget_bset]
      split
      · rfl
      · exact h
    · exact h

/-- An event whose bit was 0 makes its vector pending. -/
theorem Tx.ev_pends (t : Tx d0) (F : Fld) (v : Nat) (h : t.d.f F ≠ 1) (hv : vectorOf F.key = some v) :
    bget (fun _ => false) (t.ev F).d.pba v = true := by
  rw [Tx.ev_eq, if_neg h, hv]
  simp [Tx.pend]

/-- An event changes register fields, pending vectors and the note of the clock's events alone. -/
theorem Tx.ev_frame (t : Tx d0) (F : Fld) : (t.ev F).d = { t.d with flds := (t.ev F).d.flds, pba := (t.ev F).d.pba, evNow := (t.ev F).d.evNow } := by
  rw [Tx.ev_eq]
  split
  · rfl
  · split <;> rfl

/-! Access errors (R24, R698) -/

/-- The report of one error of an access: its bit is set, the offset is captured unless an error stands, and then MULTI is set. -/
theorem Tx.accErr_spec (t : Tx d0) (off : Nat) (E : Fld)
    (hE : E = R.GLB_ACC_ERR.OFF ∨ E = R.GLB_ACC_ERR.RSVD_ENC ∨ E = R.GLB_ACC_ERR.UNMAPPED ∨ E = R.GLB_ACC_ERR.NARROW) :
    let u := t.accErr off [E]
    u.d.f E = 1 ∧
    u.d.f R.GLB_ACC_ADDR.OFFSET = (if t.d.errStands then t.d.f R.GLB_ACC_ADDR.OFFSET else off % 2 ^ 24) ∧
    u.d.f R.GLB_ACC_ERR.MULTI = (if t.d.errStands then 1 else t.d.f R.GLB_ACC_ERR.MULTI) ∧
    (∀ F : Fld, F.key ≠ E.key → F.key ≠ R.GLB_ACC_ERR.MULTI.key → F.key ≠ R.GLB_ACC_ADDR.OFFSET.key → u.d.f F = t.d.f F) ∧
    u.d = { t.d with flds := u.d.flds, pba := u.d.pba, evNow := u.d.evNow } := by
  intro u
  have hk : E.key ≠ R.GLB_ACC_ADDR.OFFSET.key ∧ E.key ≠ R.GLB_ACC_ERR.MULTI.key ∧ E.width = 1 := by
    rcases hE with h | h | h | h <;> subst h <;> decide
  have h2 := t.ev_frame E
  by_cases hs : t.d.errStands = true
  · have hu : u = (t.ev E).ev R.GLB_ACC_ERR.MULTI := by
      simp only [u, Tx.accErr, Tx.each_cons, Tx.each_nil, List.isEmpty_cons, hs, if_true, Bool.false_eq_true, if_false]
    rw [hu, hs]
    refine ⟨?_, ?_, Tx.ev_f_same _ _ rfl, fun F h1 h3 _ => ?_, ?_⟩
    · rw [Tx.ev_f_other _ _ _ hk.2.1]; exact Tx.ev_f_same _ _ hk.2.2
    · rw [Tx.ev_f_other _ _ _ (by decide), Tx.ev_f_other _ _ _ (Ne.symm hk.1)]; rfl
    · rw [Tx.ev_f_other _ _ _ h3, Tx.ev_f_other _ _ _ h1]
    · rw [(t.ev E).ev_frame, h2]
  · have hs : t.d.errStands = false := by simpa using hs
    have hu : u = (t.ev E).w R.GLB_ACC_ADDR.OFFSET off := by
      simp only [u, Tx.accErr, Tx.each_cons, Tx.each_nil, List.isEmpty_cons, hs, Bool.false_eq_true, if_false]
    rw [hu, hs]
    refine ⟨?_, ?_, ?_, fun F h1 _ h4 => ?_, ?_⟩
    · rw [Tx.w_f_other _ _ _ _ hk.1]; exact Tx.ev_f_same _ _ hk.2.2
    · rw [Tx.w_f_same]; rfl
    · rw [Tx.w_f_other _ _ _ _ (by decide), Tx.ev_f_other _ _ _ (Ne.symm hk.2.1)]; rfl
    · rw [Tx.w_f_other _ _ _ _ h4, Tx.ev_f_other _ _ _ h1]
    · rw [show ((t.ev E).w R.GLB_ACC_ADDR.OFFSET off).d = applyUpd (t.ev E).d (.fld R.GLB_ACC_ADDR.OFFSET off) from rfl]
      simp only [applyUpd]
      rw [h2]

/-! Counters (R7) -/

/-- A saturating count stays within its width. -/
theorem satAdd_lt (w v n : Nat) (h : v < 2 ^ w) : satAdd w v n < 2 ^ w := by
  unfold satAdd
  split <;> omega

/-- A counter's value after it counts `n`. -/
theorem Tx.add_f_same (t : Tx d0) (F : Fld) (n : Nat) (h : t.d.f F < 2 ^ F.width) : (t.add F n).d.f F = satAdd F.width (t.d.f F) n := by
  have := satAdd_lt F.width (t.d.f F) n h
  rw [Tx.add, Tx.w_f_same, Tx.f, Nat.mod_eq_of_lt this]

theorem Tx.add_f_other (t : Tx d0) (F G : Fld) (n : Nat) (h : G.key ≠ F.key) : (t.add F n).d.f G = t.d.f G := Tx.w_f_other _ _ _ _ h

end Sys2Proof.Machine
end

