-- ==== Sys2Proof/Laws/Step.lean ====
section
/-! SUPPORT. What every step does: a command answers a next state, leaves the queue's rest as it is, and changes the device by updates alone. -/
namespace Sys2Proof.Machine

/-- What a committed effect does: it answers a next state with the queue untouched, and updates alone have made the device. -/
theorem commit_spec (eff : {d0 : Device} → Tx d0 → Tx d0) (s : State) :
    ∃ t, commit eff s = .next t ∧ t.pending = s.pending ∧ Reach s.dev t.dev := ⟨_, rfl, rfl, (eff (Tx.start s.dev)).ok⟩

/-- A command's outcome on one queue says its outcome on every queue. -/
theorem exec_queue (c : Instr) (d : Device) (p : List Instr) :
    exec c ⟨d, p⟩ = match exec c ⟨d, []⟩ with
      | .next t => .next { t with pending := p }
      | .fault r => .fault r
      | .refused r => .refused r := by
  cases c <;> rfl

/-- What every command does: the device after it is made of the device before it by updates, whatever waits in the queue, and the queue is
left as it is. -/
theorem exec_spec (c : Instr) (d : Device) : ∃ e, Reach d e ∧ ∀ p, exec c ⟨d, p⟩ = .next ⟨e, p⟩ := by
  have h : ∃ t, exec c ⟨d, []⟩ = .next t ∧ Reach d t.dev := by cases c <;> exact ⟨_, rfl, Tx.ok _⟩
  obtain ⟨t, h1, h2⟩ := h
  refine ⟨t.dev, h2, fun p => ?_⟩
  rw [exec_queue, h1]

/-- Updates made of an updated device are updates of the device. -/
theorem Reach.trans {a b c : Device} (h : Reach a b) (g : Reach b c) : Reach a c := by
  induction g with
  | start => exact h
  | upd u _ ih => exact ih.upd u

/-- A property that every update keeps holds of every device that updates make. -/
theorem Reach.keeps {P : Device → Prop} (hP : ∀ d u, P d → P (applyUpd d u)) {a b : Device} (h : Reach a b) (ha : P a) : P b := by
  induction h with
  | start => exact ha
  | upd u _ ih => exact hP _ u ih

/-- A step runs the command at the front of the queue with the queue's rest. -/
theorem step_cons (s : State) (c : Instr) (r : List Instr) : step { s with pending := c :: r } = exec c { s with pending := r } := rfl

end Sys2Proof.Machine
end

