-- ==== Sys2Proof/Laws/Store.lean ====
section
/-! SUPPORT. What the operations of a byte memory do: a read after a write, and that each keeps the canonical form. -/
namespace Sys2Proof.Machine

@[simp] theorem Store.put_dflt (m : Store) (a : Nat) (bs : List Byte) : (m.put a bs).dflt = m.dflt := rfl

/-- A byte read after a write: the byte written within the run, and what was there outside it. -/
theorem Store.get_put (m : Store) (a b : Nat) (bs : List Byte) :
    (m.put a bs).get b = if a ≤ b ∧ b < a + bs.length then (bs[b - a]?).getD (m.dflt b) else m.get b :=
  bget_bsplice m.dflt m.cells a bs b

/-- A write leaves every byte outside its run alone. -/
theorem Store.get_put_other (m : Store) (a b : Nat) (bs : List Byte) (h : b < a ∨ a + bs.length ≤ b) : (m.put a bs).get b = m.get b := by
  rw [Store.get_put, if_neg (by omega)]

@[simp] theorem Store.read_length (m : Store) (a n : Nat) : (m.read a n).length = n := bread_length ..

/-- A run of bytes read back after it is written is the run written. -/
@[simp] theorem Store.read_put_same (m : Store) (a : Nat) (bs : List Byte) : (m.put a bs).read a bs.length = bs := by
  apply List.ext_getElem?
  intro i
  by_cases h : i < bs.length
  · have := bread_getElem? (m.put a bs).dflt (m.put a bs).cells a bs.length i h
    rw [Store.read, this]
    have hg := Store.get_put m a (a + i) bs
    rw [if_pos (by omega)] at hg
    rw [show bget (m.put a bs).dflt (m.put a bs).cells (a + i) = (m.put a bs).get (a + i) from rfl, hg]
    simp [h]
  · rw [List.getElem?_eq_none (by simp; omega), List.getElem?_eq_none (by omega)]

/-- A write of a run of bytes keeps the canonical form. -/
theorem Store.wf_put {m : Store} (h : m.wf = true) (a : Nat) (bs : List Byte) : (m.put a bs).wf = true := bwf_bsplice h a bs

/-- What an address outside a new fill reads as when unlisted is what it read as before. -/
theorem fillAt_cons_other (fills : List Fill) (x : Fill) (b : Nat) (h : b < x.lo ∨ x.hi ≤ b) :
    fillAt (x :: fills.filter (fun y => y.lo < x.lo || x.hi < y.hi)) b = fillAt fills b := by
  have hx : (decide (x.lo ≤ b) && decide (b < x.hi)) = false := by
    simp only [Bool.and_eq_false_iff, decide_eq_false_iff_not]; omega
  simp only [fillAt, List.find?_cons, hx, List.find?_filter]
  congr 1
  funext y
  by_cases hy : y.lo ≤ b ∧ b < y.hi
  · have : y.lo < x.lo ∨ x.hi < y.hi := by omega
    simp [hy, this]
  · simp only [not_and] at hy
    by_cases h1 : y.lo ≤ b
    · simp [hy h1]
    · simp [h1]

theorem Store.dflt_fill_other (m : Store) (x : Fill) (b : Nat) (h : b < x.lo ∨ x.hi ≤ b) : (m.fill x).dflt b = m.dflt b := by
  simp only [Store.dflt, Store.fill, fillByte, fillAt_cons_other _ _ _ h]

theorem mem_bdrop {α : Type} {lo hi : Nat} {m : Bank α} {c : Nat × α} (h : c ∈ bdrop lo hi m) : c ∈ m ∧ (c.1 < lo ∨ hi ≤ c.1) := by
  have := List.mem_filter.mp h
  simpa using this

/-- A table drops the keys of a range and its default changes within that range alone: the canonical form holds for the new default. -/
theorem bwf_bdrop_default {α : Type} [DecidableEq α] {d e : Nat → α} {m : Bank α} (lo hi : Nat) (h : bwf d m = true)
    (he : ∀ k, k < lo ∨ hi ≤ k → e k = d k) : bwf e (bdrop lo hi m) = true := by
  have h' := (bwf_iff _ _).mp (bwf_bdrop h lo hi)
  refine (bwf_iff _ _).mpr ⟨h'.1, fun c hc => ?_⟩
  rw [he _ (mem_bdrop hc).2]
  exact h'.2 c hc

/-- A write of a whole range keeps the canonical form. -/
theorem Store.wf_fill {m : Store} (h : m.wf = true) (x : Fill) : (m.fill x).wf = true :=
  bwf_bdrop_default x.lo x.hi h (fun k hk => Store.dflt_fill_other m x k hk)

/-- A byte read after a write of a whole range: what the fill holds within it, and what was there outside it. -/
theorem Store.get_fill (m : Store) (x : Fill) (b : Nat) : (m.fill x).get b = if x.lo ≤ b ∧ b < x.hi then x.byte b else m.get b := by
  have hd := bget_bdrop (m.fill x).dflt m.cells x.lo x.hi b
  simp only [Store.get, Store.fill] at hd ⊢
  by_cases h : x.lo ≤ b ∧ b < x.hi
  · rw [if_pos h]
    refine hd.trans ?_
    simp [h, Store.dflt, fillByte, fillAt]
  · rw [if_neg h]
    refine hd.trans ?_
    rw [if_neg h]
    exact bget_default_congr _ _ (Store.dflt_fill_other m x b (by omega))

/-- The tag an unlisted line outside a new fill reads as is what it read as before. -/
theorem fillTag_fill_other (m : Store) (lo hi : Nat) (x : Holds) (l : Nat) (h : l < lo ∨ hi ≤ l) :
    fillTag (m.fill ⟨lo * 64, hi * 64, x⟩).fills l = fillTag m.fills l := by
  simp only [fillTag, Store.fill]
  rw [fillAt_cons_other _ _ _ (by simp only; omega)]

end Sys2Proof.Machine
end

