-- ==== Sys2Proof/Tests/Slice0.lean ====
section
/-! SUPPORT. Tests of the model's own: each check of WellFormed refuses an ill-formed command, the register map finds what the spec's tables
list, and for every obligation with hypotheses a state and operands that meet them. -/
namespace Sys2Proof.Tests
open Sys2Proof Sys2Proof.Machine

/-- One ill-formed command for each check of WellFormed, and it is refused. -/
theorem test_illFormedRefused : ([.syncInPulse 0, .syncInPulse 21, .imgCheckDone [32], .integrationEnd 0 [1, 2, 3], .integrationEnd 0 [0, 0, 0, 2048],
    .levelCrossing 0 0 [-2049], .segmentEnd 0 [2048], .streamBlock 0 [0], .streamBlock 0 (List.replicate 160 2048), .streamEnd 0 (List.replicate 161 0), .streamEnd 0 [2048],
    .monitorVisit 0 32768, .calStepDone 0 0 [1] [], .sensorSample [0], .sensorSample (List.replicate 12 32768),
    .cxlReadComplete 0 true 0 0 [] 0, .cxlReadComplete 0 true 0 6144 (List.replicate 256 0) 0, .cxlReadComplete 0 false 0 1024 (List.replicate 256 0) 0,
    .svcUnlock [], .svcFwCmd 0 [0, 0, 0, 0] [], .bar2Read 0 0, .h2c 0 [] [], .c2h 0 [] [], .c2h 0 (List.replicate 64 0) [1], .ring 0 [] [],
    .ring 0 (List.replicate 64 0) [1], .nop 0 [], .challenge 0 [], .portBringup 0 0 (List.replicate 5 (List.replicate 3 (0, 0))), .portBringup 0 0 [[(0, 0)]],
    .dfeAdapt 0 0 [], .dfeAdapt 0 0 (List.replicate 14 2), .eyeSweepDone 0 0 [], .selftestDone [.flux 0 0 32768], .selftestDone [.lane 0 false 65]] : List Instr).all (fun c => !WellFormed c) = true := by decide +kernel

theorem test_turnTooLongRefused : ∀ t : List Byte, 4096 < t.length → WellFormed (.h2c 0 (List.replicate 64 0) t) = false ∧ WellFormed (.svcFwCmd 0 [] t) = false := by
  intro t h
  simp [WellFormed]; omega

/-- The two worked addresses of chapter 23: SCH_JUMP_REQ[11] and NCO_FREQ_LO[71]. -/
theorem test_workedAddresses : (regAt 0x1A2050).map (fun r => (r.reg, r.idx)) = some (.SCH_JUMP_REQ, [11]) ∧ domainOf 0x1A2050 = 10 ∧
    (regAt 0x1410E0).map (fun r => (r.reg, r.idx)) = some (.NCO_FREQ_LO, [71]) := by decide +kernel

/-- The state after reset changed by updates. -/
def st (us : List Upd) : State := ⟨us.foldl applyUpd {}, []⟩

theorem witness_emptyQueue : State.reset.pending = [] := rfl

theorem witness_queueInOrder : (⟨{}, [.wake, .sleep]⟩ : State).pending = [.wake] ++ [.sleep] := rfl

theorem witness_canonicalStep : Canonical State.reset.dev ∧ ∃ t, step State.reset = .next t := ⟨by constructor <;> rfl, _, rfl⟩

theorem witness_undefinedOffset : regAt 0xFFC = none ∧ regAt 0xFFFFFC = none ∧
    (st [.fld R.GLB_ACC_ERR.NARROW 1]).dev.b R.GLB_ACC_ERR.NARROW = true ∧ State.reset.dev.b R.GLB_ACC_ERR.NARROW = false := by decide

theorem witness_narrowWrite : (regAt 0x104).isSome ∧ (regAt 0xFFFFFC).isNone ∧ State.reset.dev.domOn (domainOf 0x104) = true := by decide

theorem witness_domainOff : (regAt 0x102000).isSome ∧
    (st [.fld R.PWR_DOM_STAT.ON 0xFFFEFF]).dev.domOn (domainOf 0x102000) = false ∧ domainOf 0x102000 = 8 := by decide

theorem witness_writeByAccessCode :
    (regAt 0x700).any (fun r => holdsOnly r.reg && !heldLow r
      && decide ((r.flds.map Fld.key).Nodup) && r.flds.all (fun F => (F.acc != .wl || State.reset.dev.f F == bitsOf 0x020C0010 F.hi F.lo && !State.reset.dev.evNow.contains F.key)
        && (F.acc == .wl || State.reset.dev.encOk r F (bitsOf 0x020C0010 F.hi F.lo)))) = true ∧ (lowOf 0x700).isNone ∧
    State.reset.dev.domOn (domainOf 0x700) = true := by decide

theorem witness_reservedAndLocked : ∀ q : Fin 4, (regAt (0x700 + 0x10 * q.val)).isSome ∧ State.reset.dev.domOn (domainOf (0x700 + 0x10 * q.val)) = true ∧
    0x83 < State.reset.dev.f (R.MON_WIN.FAULT q) ∧ ¬ 0xFFFF < State.reset.dev.f (R.MON_WIN.FAULT q) ∧
    State.reset.dev.evNow.contains (R.MON_WIN.FAULT q).key = false ∧
    (st [.evNow [(R.MON_WIN.FAULT q).key]]).dev.evNow.contains (R.MON_WIN.FAULT q).key = true := by decide

theorem witness_lowWordRead : (regAt R.TB_EPOCH_LO.EPOCH.off).any (fun r => lowWord r.reg) = true ∧
    (regAt R.TB_EPOCH_HI.EPOCH.off).any (fun r => (latchedBy r R.TB_EPOCH_HI.EPOCH.off).isEmpty && r.reg != .RD_DSTAT && r.reg != .GLB_UNIT_QSTAT) = true ∧
    State.reset.dev.domOn (domainOf R.TB_EPOCH_LO.EPOCH.off) = true ∧
    bget (fun _ => none) (st [.latch R.TB_EPOCH_HI.EPOCH.off (some 7)]).dev.latch R.TB_EPOCH_HI.EPOCH.off = some 7 := by decide

theorem witness_heldLowWord : (BitVec.ofNat 25 R.TB_SYNC_LOAD_LO.LOAD.off).toNat = R.TB_SYNC_LOAD_LO.LOAD.off ∧
    (BitVec.ofNat 25 R.FAB_START_HI.START.off).toNat = R.FAB_START_HI.START.off ∧
    State.reset.dev.domOn (domainOf R.TB_SYNC_LOAD_LO.LOAD.off) = true ∧ State.reset.dev.domOn (domainOf R.FAB_START_LO.START.off) = true ∧
    bget (fun _ => none) (st [.held R.FAB_START_LO.START.off (some 5)]).dev.held R.FAB_START_LO.START.off = some 5 := by decide

theorem witness_groupReads :
    ([0, 31, 32, 1023].all fun f => (regAt (tileOff 32 0x1000 0x20 f)).any (fun r => r.reg == .NCO_FREQ_LO)
      && State.reset.dev.domOn (domainOf (tileOff 32 0x1000 0x20 f))) = true ∧
    ([0, 15, 16, 511].all fun d => (regAt (tileOff 16 0x4004 0x10 d)).any (fun r => r.reg == .RD_LAST_I)) = true ∧
    (regAt (R.ENG_PATCH_RD_DATA.DATA 0).off).any (fun r => r.reg == .ENG_PATCH_RD_DATA && r.idx == [0]) = true ∧
    (regAt R.ECC_LOG_W0.VALID.off).any (fun r => r.reg == .ECC_LOG_W0) = true ∧
    (regAt (R.LNK_TAP_DATA.TAPS 0).off).any (fun r => r.reg == .LNK_TAP_DATA && r.idx == [0]) = true ∧
    State.reset.dev.domOn (domainOf R.GLB_UNIT_QSTAT.SUMMARY.off) = true := by decide

def syncWit : State := st [.time { sync := [⟨100, 0⟩] }, .power { atEdge := true }]
/-- A start is pending while the fast clocks sleep; with no active image its check fails. -/
def startWit (us : List Upd) : State :=
  st ([.fld R.GLB_IMG_STAT.ACTIVE 1, .fld R.ACQ_DRAIN_CTL.EN 1, .fld R.CAL_STAT.INITIAL 0, .fld R.GLB_RUN_STAT.PENDING 1] ++ us)
theorem witness_refclkEdge : State.reset.dev.domOn 0 = true ∧ (st [.fld R.PWR_DOM_STAT.ON 0xFFFFFE]).dev.domOn 0 = false ∧
    (startWit []).dev.b R.GLB_RUN_STAT.PENDING = true ∧ (startWit []).dev.startRefuse = 0 ∧ (startWit [.fld R.GLB_IMG_STAT.ACTIVE 0]).dev.startRefuse = 1 ∧
    (startWit [.fld R.GLB_IMG_STAT.ACTIVE 0]).dev.startsNext = false ∧
    (startWit [.img { act := some { fabric := [[1, 0, 0, 9]] } }, .fld R.FAB_START_LO.START 1]).dev.startsNext = true ∧
    (startWit [.img { act := some { fabric := [[1, 0, 0, 9]] } }, .fld R.FAB_START_LO.START 1]).dev.startRefuse ≠ 0 ∧
    State.reset.dev.b R.TB_STAT.AWAKE = false ∧ State.reset.dev.syncsDue = [] ∧
    (let d := (st [.time { held := true, soutNext := true, sync := [⟨5, 1⟩] }]).dev; d.b R.TB_STAT.AWAKE = false ∧ d.syncsDue = []) ∧
    syncWit.dev.b R.TB_STAT.AWAKE = false := by decide
theorem witness_refclkEdgeLoad : ∃ u, exec .syncLoad syncWit = .next u := ⟨_, rfl⟩

theorem witness_sync :
    (let d := (st [.fld R.TB_CTL.SYNC_ARM 1, .fld R.TB_STAT.AWAKE 1, .time { syncRise := true }]).dev; d.time.syncRise = true ∧ d.b R.TB_CTL.SYNC_ARM = true ∧ d.running = false ∧ d.b R.TB_STAT.AWAKE = true) ∧
    (let d := (st [.time { syncRise := true }]).dev; d.time.syncRise = true ∧ d.b R.TB_CTL.SYNC_ARM = false) ∧
    syncWit.dev.syncsDue.getLast? = some ⟨100, 0⟩ ∧ syncWit.dev.syncsDue = [⟨100, 0⟩] ∧ syncWit.dev.f R.TB_STAT.SYNC_COUNT < 2 ^ R.TB_STAT.SYNC_COUNT.width := by decide

theorem witness_syncOut : State.reset.dev.domOn (domainOf R.TB_CTL.SYNC_GEN.off) = true ∧
    (st [.fld R.TB_CTL.SOUT_MODE 2]).dev.f R.TB_CTL.SOUT_MODE = 2 ∧ (st [.fld R.TB_CTL.SOUT_MODE 2]).dev.domOn (domainOf R.TB_CTL.SYNC_GEN.off) = true ∧
    (st [.time { sout := true }]).dev.time.sout = true ∧ (st [.time { sout := true }]).dev.time.soutLeft = 0 := by decide

theorem witness_refclkAndLock : Idle State.reset.dev ∧ State.reset.dev.b R.TB_STAT.AWAKE = false ∧ State.reset.dev.f R.PWR_STAT.STATE ≠ 1 ∧
    State.reset.dev.time.held = false ∧ State.reset.dev.syncsDue = [] ∧ 1000 ≤ (st [.time { good := 1000 }]).dev.time.good ∧
    Idle (st [.fld R.TB_STAT.LOCKED 1]).dev ∧ (st [.fld R.TB_STAT.LOCKED 1]).dev.b R.TB_STAT.LOCKED = true ∧
    (let d := (st [.fld R.PWR_STAT.STATE 1]).dev; Idle d ∧ d.b R.TB_STAT.AWAKE = false ∧ d.f R.PWR_STAT.STATE = 1 ∧ d.time.held = false ∧ d.syncsDue = []) ∧
    (∀ r c : Fin 2, let d := (st [.fld R.PWR_STAT.STATE 2, .fld R.TB_STAT.AWAKE 1, .fld R.TB_STAT.LOCKED 1, .fld R.GLB_RUN_STAT.RUNNING r, .fld R.CAL_STAT.FG_BUSY c]).dev
      d.b R.TB_STAT.AWAKE = true ∧ d.b R.TB_STAT.LOCKED = true ∧ d.time.held = false ∧ d.syncsDue = [] ∧ d.running = (r == 1) ∧ d.b R.CAL_STAT.FG_BUSY = (c == 1) ∧
        d.tileOn 31 = true ∧ d.f (R.SCH_STAT.STATE 63) ≠ 3) := by
  unfold Idle; decide

theorem witness_imageRequests : State.reset.dev.domOn (domainOf R.GLB_IMG_CTL.LOAD.off) = true ∧ State.reset.dev.cxlTesting = false ∧
    (∀ h : Bool, let d := (st [.st { begun := true, tests := 32, held := if h then [0] else [] }]).dev; d.cxlTesting = true ∧ d.st.held.contains 0 = h ∧
      d.domOn (domainOf R.GLB_IMG_CTL.LOAD.off) = true) ∧
    State.reset.dev.f R.GLB_IMG_STAT.LOAD_STATE = 0 ∧
    (let d := (st [.fld R.GLB_IMG_STAT.LOAD_STATE 2, .fld R.GLB_IMG_STAT.COMMIT_HELD 1]).dev; d.f R.GLB_IMG_STAT.LOAD_STATE = 2 ∧
      d.b R.GLB_IMG_STAT.COMMIT_HELD = true ∧ d.running = false ∧ d.domOn (domainOf R.GLB_IMG_CTL.LOAD.off) = true) := by decide

theorem witness_imageCheckAndCommit : (st [.fld R.GLB_IMG_STAT.LOAD_STATE 1, .img { latLen := 4096 }]).dev.f R.GLB_IMG_STAT.LOAD_STATE = 1 ∧
    ([64] : List Nat).any (fun o => o < (st [.fld R.GLB_IMG_STAT.LOAD_STATE 1, .img { latLen := 4096 }]).dev.img.latLen) = true ∧
    ([] : List Nat).any (fun o => o < (st [.fld R.GLB_IMG_STAT.LOAD_STATE 1, .img { latLen := 4096 }]).dev.img.latLen) = false ∧
    (let d := (st [.fld R.GLB_IMG_STAT.LOAD_STATE 3, .img { pend := some { id := 2 ^ 64 - 1, dev := 63 } }, .fw { started := true }]).dev;
      d.img.pend = some { id := 2 ^ 64 - 1, dev := 63 } ∧ d.f R.GLB_IMG_STAT.LOAD_STATE = 3 ∧ d.patchWait = none ∧ d.fw.started = true) := by decide

theorem witness_runRequests : State.reset.dev.domOn (domainOf R.GLB_RUN_CTL.START.off) = true ∧ State.reset.dev.startRefuse = 1 ∧
    (∀ k : Fin 4, let d := (startWit [.fld R.GLB_RUN_STAT.PENDING 0, .fld R.PWR_STAT.STATE k]).dev; d.startRefuse = 0 ∧ d.f R.PWR_STAT.STATE = k ∧ d.fabric = [] ∧
      d.domOn (domainOf R.GLB_RUN_CTL.CANCEL.off) = true) ∧
    (startWit []).dev.b R.GLB_RUN_STAT.PENDING = true ∧ (startWit []).dev.firstIsNow = false ∧
    (startWit [.fld R.TB_STAT.AWAKE 1, .run { found := some 0 }]).dev.b R.GLB_RUN_STAT.PENDING = true ∧
    (startWit [.fld R.TB_STAT.AWAKE 1, .run { found := some 0 }]).dev.firstIsNow = true := by decide

theorem witness_runStartAndEnd :
    (∀ k : Fin 3, let d := (startWit [.fld R.TB_STAT.AWAKE 1, .fld R.GLB_IMG_STAT.ACTIVE (if k = 1 then 0 else 1), .run { found := if k = 2 then none else some k.val }]).dev
      d.b R.GLB_RUN_STAT.PENDING = true ∧ d.running = false ∧ d.fabric = [] ∧ d.startHeld = false ∧ d.startsNext = true ∧ d.startRefuse = (if k = 1 then 1 else 0) ∧
        d.firstTickNow = true ∧ d.firstIsNow = (k == 0) ∧ d.run.found.getD 0 = k.val % 2 ∧ d.f R.GLB_RUN_STAT.RUNS < 2 ^ R.GLB_RUN_STAT.RUNS.width) ∧
    (let d := (startWit [.fld R.TB_STAT.AWAKE 1, .img { act := some { fabric := [[1, 0, 0, 9]] } }, .time { coarse := 9, fine := 9 }]).dev; d.b R.GLB_RUN_STAT.PENDING = true ∧
      d.running = false ∧ d.firstTickNow = false ∧ d.fabric ≠ [] ∧ d.fabStart ≤ d.now.toNat ∧ d.run.found.getD 0 = 0) ∧
    (let d := (st [.fld R.GLB_RUN_STAT.RUNNING 1, .run { quiet := 5 }]).dev; d.running = true ∧ d.streams64.any (fun e => (d.eng e).live) = false ∧
      d.run.quiet ≠ d.now) := by decide

def opAt (code tgt opnd : Nat) : QOp := { idx := 9, bits := code * 2 ^ 120 + tgt * 2 ^ 96 + opnd, due := 0, wait := 0 }
def opWit (e : Nat) (q : QOp) : State := st [.fld R.GLB_RUN_STAT.RUNNING 1, .engine e { live := true, queue := [q] }]
theorem witness_framesAndLoop : Heads (opWit 0 (opAt 0x02 15 (2 ^ 63 + 7))).dev 0 0x02 (opAt 0x02 15 (2 ^ 63 + 7)) [] ∧
    Heads (opWit 63 (opAt 0x03 31 (2 ^ 32 - 1))).dev 63 0x03 (opAt 0x03 31 (2 ^ 32 - 1)) [] ∧
    Heads (opWit 3 (opAt 0x12 3 (5 * 2 ^ 32 + 2))).dev 3 0x12 (opAt 0x12 3 (5 * 2 ^ 32 + 2)) [] := by unfold Heads; decide

theorem witness_fluxAndMark : Heads (opWit 1 (opAt 0x04 6 (2 ^ 16 + 7))).dev 1 0x04 (opAt 0x04 6 (2 ^ 16 + 7)) [] ∧
    Heads (opWit 63 (opAt 0x04 (31 * 32 + 13) 0xFFFF)).dev 63 0x04 (opAt 0x04 (31 * 32 + 13) 0xFFFF) [] ∧
    Heads (opWit 0 (opAt 0x05 14 15)).dev 0 0x05 (opAt 0x05 14 15) [] ∧ ((opWit 0 (opAt 0x05 14 15)).dev.marker 0).queue = [] ∧
    ((opWit 0 (opAt 0x05 14 15)).dev.marker 0).reqs = [] ∧ TablesGood (opWit 1 (opAt 0x04 6 (2 ^ 16 + 7))).dev ∧
    (let d := (opWit 1 (opAt 0x04 6 7)).dev; Heads d 1 0x04 (opAt 0x04 6 7) [] ∧ TablesGood d ∧ (d.eng 1).strobed = []) := by unfold Heads TablesGood; decide

def playWit : State := st [.cxl 256 [3, 0, 0, 0, 40, 0, 0, 0], .img { act := some { envs := [some (3, 40)], waveCnt := 4, structs := [[5, 0, 0, 2, 0xFF, 0xFF, 0xF, 0]] } }, .fld R.GLB_RUN_STAT.RUNNING 1,
  .engine 0 { live := true, queue := [opAt 0x01 (19 * 256 + 2) (0x8000 * 2 ^ 48)] }]
/-- The same PLAY, its line 0 tested. -/
def playWit1 : State := { playWit with dev := applyUpd playWit.dev (.engine 0 { playWit.dev.eng 0 with tested := [(0, 19)] }) }
/-- The same PLAY where the line of its directory entry is resident and carries kind ECC. -/
def playWit3 : State := { playWit1 with dev := [Upd.resW 4 8, .tag 7 1].foldl applyUpd playWit1.dev }
/-- A PLAY to come on mixer 0, whose line 0 is tested now and is not resident. -/
def playWit2 : State := { playWit with dev := applyUpd playWit.dev (.engine 0 { live := true, queue := [{ opAt 0x01 2 0 with due := 6 }] }) }
def lineWit : State := st [.fld R.GLB_RUN_STAT.RUNNING 1, .fld (R.NCO_MIX_STAT.BUSY 0) 1, .mixer 0 { len := 32, first := 1 },
  .time { coarse := 10 }, .resW 5 8, .tag 7 0]
/-- The same line, kept as stored in another place since its block is fetched again. -/
def lineWit1 : State := { lineWit with dev := [Upd.mixer 0 { len := 32, first := 1, kept := [(1, 9)] }, .tag 9 0].foldl applyUpd lineWit.dev }
theorem witness_playAndEnvelope :
    Heads playWit.dev 0 0x01 (opAt 0x01 (19 * 256 + 2) (0x8000 * 2 ^ 48)) [] ∧ playWit.dev.envelope 0 0 = some (3, 40) ∧ playWit.dev.envelope 0 1 = none ∧
    playWit.dev.b (R.NCO_MIX_STAT.BUSY 19) = false ∧ playWit.dev.f (R.SCH_STAT.STATE 0) ≠ 3 ∧
    (let d := (st [.fld (R.NCO_MIX_STAT.BUSY 639) 1]).dev; d.b (R.NCO_MIX_STAT.BUSY 639) = true ∧ (d.mixer 639).start.toNat + (d.mixer 639).len ≤ d.now.toNat) ∧
    (playWit1.dev.eng 0).tested.contains (playWit1.dev.now.toNat, 19) = true ∧ Heads playWit1.dev 0 0x01 (opAt 0x01 (19 * 256 + 2) (0x8000 * 2 ^ 48)) [] ∧
    playWit.dev.waveLine 0 (4 * 3) = none ∧ (playWit.dev.eng 0).safe = none ∧ playWit2.dev.testedPlays 0 0 = [(6, 3, false)] ∧ playWit2.dev.waveLine 0 (4 * 3) = none ∧
    lineWit.dev.running = true ∧ lineWit.dev.testedPlays 0 1 = [(0, 1, true)] ∧ lineWit.dev.waveLine 0 5 = some 7 ∧ lineWit.dev.tagOf 7 = 0 ∧ (lineWit.dev.lineErrs 7).isEmpty = true ∧
    (lineWit.dev.mixer 0).kept = [] ∧ lineWit1.dev.running = true ∧ lineWit1.dev.testedPlays 0 1 = [(0, 1, true)] ∧
    ((lineWit1.dev.mixer 0).kept.find? (fun c => c.1 == 1)).any (fun c => lineWit1.dev.tagOf c.2 == 0 && (lineWit1.dev.lineErrs c.2).isEmpty) = true ∧
    playWit1.dev.dirKind 0 0 = 0 ∧ playWit1.dev.waveLine 0 (4 + 0 / 4) = none ∧ playWit3.dev.dirKind 0 0 ≠ 0 ∧ (playWit3.dev.eng 0).safe = none ∧
    Heads playWit3.dev 0 0x01 (opAt 0x01 (19 * 256 + 2) (0x8000 * 2 ^ 48)) [] := by
  unfold Heads; repeat' apply And.intro
  all_goals decide +kernel
theorem witness_dirClean : DirClean playWit1.dev 0 0 := by
  intro l h
  rw [show playWit1.dev.waveLine 0 (4 + 0 / 4) = none by decide] at h
  exact absurd h (by simp)

def captureRec : List Byte := [1, 0, 7, 0, 2, 16, 1, 0, 0, 0, 0, 0, 64, 0, 0, 0, 64, 0, 0, 0]
def streamRec : List Byte := [2, 0, 9, 0, 3, 0, 0, 0, 80, 0, 0, 0, 0, 0, 0, 0]
def weightSet : List Byte := [0x10, 0, 5, 0, 15, 31, 1, 4, 0, 0, 0, 0, 0, 0, 0, 0]
def acqWit (q : QOp) (known : List (Nat × Nat × Int × Option Int) := []) : State := st [.run { known := known }, .fld R.GLB_RUN_STAT.RUNNING 1, .fld (R.ACQ_STRM_CTL.EN 3) 1, .img { act := some { acq := [captureRec, streamRec, weightSet] } },
  .engine 1 { live := true, queue := [q] }]
theorem witness_acqDiscSend :
    Heads (acqWit (opAt 0x06 5 7)).dev 1 0x06 (opAt 0x06 5 7) [] ∧ (acqWit (opAt 0x06 5 7)).dev.acqNamed 0 7 = some captureRec ∧
    (acqWit (opAt 0x06 5 7)).dev.lengthRefused 0 = false ∧ ((acqWit (opAt 0x06 5 7)).dev.tile 0).cap = none ∧ rb captureRec 0 = 1 ∧ rb captureRec 4 ≠ 8 ∧ (acqWit (opAt 0x06 5 7)).dev.run.known = [] ∧
    (let d := (acqWit (opAt 0x06 5 7) [(2, 5, 320, none)]).dev; Heads d 1 0x06 (opAt 0x06 5 7) [] ∧ d.acqNamed 0 7 = some captureRec ∧ d.lengthRefused 0 = false ∧
      (d.tile 0).cap = none ∧ d.run.known.filter (fun k => k.1 == rb captureRec 4 && decide (d.now.toNat ≤ k.2.1)) = [(2, 5, 320, none)]) ∧
    Heads (acqWit (opAt 0x06 5 9)).dev 1 0x06 (opAt 0x06 5 9) [] ∧ (acqWit (opAt 0x06 5 9)).dev.acqNamed 0 9 = some streamRec ∧
    (acqWit (opAt 0x06 5 9)).dev.b (R.ACQ_STRM_CTL.EN 3) = true ∧
    Heads (acqWit (opAt 0x07 5 (5 * 2 ^ 40 + 10 * 2 ^ 16 + 0x8000))).dev 1 0x07 (opAt 0x07 5 (5 * 2 ^ 40 + 10 * 2 ^ 16 + 0x8000)) [] ∧
    (acqWit (opAt 0x07 5 0)).dev.weightRec 0 5 15 = some weightSet ∧ (acqWit (opAt 0x07 5 0)).dev.win 15 = none ∧
    Heads (acqWit (opAt 0x08 5 0xFFFF)).dev 1 0x08 (opAt 0x08 5 0xFFFF) [] ∧ TablesGood (acqWit (opAt 0x06 5 7)).dev := by
  unfold Heads TablesGood; repeat' apply And.intro
  all_goals decide +kernel

theorem witness_waitEvents :
    Heads (opWit 5 (opAt 0x11 0 (48 * 2 ^ 32 + 1000))).dev 5 0x11 (opAt 0x11 0 (48 * 2 ^ 32 + 1000)) [] ∧
    Heads (opWit 5 (opAt 0x11 0 (2 ^ 62 + 48 * 2 ^ 32))).dev 5 0x11 (opAt 0x11 0 (2 ^ 62 + 48 * 2 ^ 32)) [] ∧
    ((opWit 5 (opAt 0x11 0 (2 ^ 62 + 48 * 2 ^ 32))).dev.eng 5).jump = none ∧
    (let d := (st [.fld R.GLB_RUN_STAT.RUNNING 1, .engine 63 { live := true, waiting := some ⟨0, 0, 4, some (0, 77)⟩ }]).dev; d.running = true ∧
      (d.eng 63).live = true ∧ ((d.eng 63).waiting).bind Waiting.resume = some (d.now, 77)) ∧
    (let d := (st [.fld R.GLB_RUN_STAT.RUNNING 1, .time { coarse := 1001 }, .engine 63 { live := true, waiting := some ⟨1, 1000, 4, none⟩ }]).dev; d.running = true ∧
      (d.eng 63).live = true ∧ (d.eng 63).waiting = some ⟨1, 1000, 4, none⟩ ∧ (1 : Epoch).toNat + 1000 % 2 ^ 32 = d.now.toNat) := by unfold Heads; decide

def forkWit (q : QOp) : State := st [.fld R.GLB_RUN_STAT.RUNNING 1, .time { coarse := 76 }, .engine 1 { live := true, queue := [{ q with due := 100 }] }]
theorem witness_forksAndEnd :
    (forkWit (opAt 0x10 0 (2 ^ 55 + 31))).dev.forkDue 1 = some (9, 0x10 * 2 ^ 120 + (2 ^ 55 + 31)) ∧ (forkWit (opAt 0x10 0 0)).dev.aniseMode = false ∧
    ((forkWit (opAt 0x10 0 0)).dev.eng 1).latch = none ∧ (forkWit (opAt 0x10 0 0)).dev.running = true ∧ ((forkWit (opAt 0x10 0 0)).dev.eng 1).live = true ∧
    Heads (opWit 5 (opAt 0x10 0 (2 ^ 63 + 8))).dev 5 0x10 (opAt 0x10 0 (2 ^ 63 + 8)) [] ∧ Heads (opWit 5 (opAt 0x1F 0 0)).dev 5 0x1F (opAt 0x1F 0 0) [] ∧
    (let d := (st [.fld R.GLB_RUN_STAT.RUNNING 1, .engine 5 { live := true, queue := [opAt 0x10 0 (2 ^ 55)], latch := some { b := 0, ptr := some 7 } }]).dev;
      Heads d 5 0x10 (opAt 0x10 0 (2 ^ 55)) [] ∧ (d.eng 5).latch = some { b := 0, ptr := some 7 } ∧ (d.eng 5).anise = none) ∧
    (let d := (st [.fld R.GLB_RUN_STAT.RUNNING 1, .time { coarse := 24 }, .engine 5 { live := true, anise := some { idx := 9, operand := 0, b := 0, await := [], since := 0, ready := some 0 }, latch := some { b := 0, ptr := some 7 } }]).dev;
      d.running = true ∧ (d.eng 5).live = true ∧ (d.eng 5).anise = some { idx := 9, operand := 0, b := 0, await := [], since := 0, ready := some 0 } ∧ (d.eng 5).latch = some { b := 0, ptr := some 7 } ∧
      (0 : Epoch).toNat + 24 = d.now.toNat) ∧
    (let d := (st [.fld R.GLB_RUN_STAT.RUNNING 1, .flight [⟨0, 2047, true, 5⟩]]).dev; d.running = true ∧
      d.flight.filter (fun x => x.port == 2047 && x.due == d.now.toNat) = [⟨0, 2047, true, 5⟩]) := by unfold Heads; decide

def voteWit (e : Nat) (tl : Tile) : State := st [.fld R.GLB_RUN_STAT.RUNNING 1, .img { act := some { acq := [[4, 0, 0, 0, 0, 0x40, 0, 0]] } }, .tile 0 tl,
  .engine e { live := true, safe := some { cand := 64, dom := 0, res := 0, ptr := 0 } }]
theorem witness_safeAndVote : Heads (opWit 5 (opAt 0x13 0 (2 ^ 62 + 9))).dev 5 0x13 (opAt 0x13 0 (2 ^ 62 + 9)) [] ∧
    ((opWit 5 (opAt 0x13 0 (2 ^ 62 + 9))).dev.eng 5).safe = none ∧
    (voteWit 1 {}).dev.running = true ∧ ((voteWit 1 {}).dev.eng 1).live = true ∧ (64 : Epoch) = (voteWit 1 {}).dev.now + BitVec.ofNat 64 (leadOf 0) ∧
    ((voteWit 1 {}).dev.tileCfg 0).map (fun r => rn r 4 4) = some 16384 ∧ ((voteWit 1 {}).dev.tile 0).usedLines + 16384 ≤ 16384 ∧
    ¬ ((voteWit 1 { shots := [{ lines := 4 }] }).dev.tile 0).usedLines + 16384 ≤ 16384 := by unfold Heads; decide

def passWit (v : Bool) : State := st [.fld R.GLB_RUN_STAT.RUNNING 1, .engine 63 { live := true, safe := some { cand := 0, dom := 0, res := 4, ptr := 9, vote := some v } }]
theorem witness_safePointPass : ∀ v : Bool, (passWit v).dev.running = true ∧ ((passWit v).dev.eng 63).live = true ∧
    ((passWit v).dev.eng 63).safe = some { cand := 0, dom := 0, res := 4, ptr := 9, vote := some v } ∧ (0 : Epoch) = (passWit v).dev.now ∧
    (passWit v).dev.members 63 0 = [63] ∧ (passWit v).dev.combined 63 0 0 = v ∧ (passWit v).dev.f (R.SCH_HOLD.QUANTA 63) < 2 ^ (R.SCH_HOLD.QUANTA 63).width := by decide

def voidWit (x : Engine) : State := st [.fld R.GLB_RUN_STAT.RUNNING 1, .engine 5 { x with live := true }]
theorem witness_voidsAndLimits :
    (voidWit { voidDue := some 0 }).dev.running = true ∧ ((voidWit { voidDue := some 0 }).dev.eng 5).voidDue.any (fun v => decide (v.toNat ≤ 0)) = true ∧
    (voidWit { fetch := { stop := false } }).dev.opMissing 5 = some false ∧ ((voidWit { notice := true }).dev.eng 5).notice = true ∧
    (voidWit {}).dev.f (R.SCH_CNT.VOIDS 5) < 2 ^ (R.SCH_CNT.VOIDS 5).width ∧
    ((voidWit { safe := some ⟨0, 0, 0, 0, none, 65536, false⟩ }).dev.eng 5).safe = some ⟨0, 0, 0, 0, none, 65536, false⟩ ∧
    (voidWit { voids := 8 }).dev.fellows 5 0 = [4, 5] ∧ ((voidWit { voids := 8 }).dev.eng 5).live = true ∧ (voidWit { voids := 8 }).dev.f (R.SCH_STAT.STATE 5) ≠ 3 := by decide

theorem witness_hostJumps : (∀ e : Fin 64, State.reset.dev.domOn (domainOf (R.SCH_JUMP_REQ.REQ e).off) = true) ∧ State.reset.dev.f R.TWIN_STAT.STATE ≠ 2 ∧
    (0xC000000F : Word).toNat.testBit 29 = false ∧ (0xC000000F : Word).toNat.testBit 30 = true ∧ (State.reset.dev.eng 0).waiting = none ∧
    ((st [.engine 63 { jump := some (15, 0) }]).dev.eng 63).jump.isSome = true ∧ State.reset.dev.f (R.SCH_JUMP_REQ.J 63) < 16 := by decide

def seqWit (e : Nat) (sq : Seq) : State := st [.fld R.TB_STAT.AWAKE 1, .seq e sq]
theorem witness_routinesRun : (∀ c : Fin 9, let d := (seqWit 63 { events := [⟨c, 3, 0, false⟩, ⟨c, 9, 3, false⟩] }).dev
      d.b R.TB_STAT.AWAKE = true ∧ d.seqHalted 63 = false ∧ (d.seq 63).routine = none ∧ nextEvent (d.seq 63).events = some ⟨c, 3, 0, false⟩ ∧
        (nextEvent ((d.seq 63).events.erase ⟨c, 3, 0, false⟩)).map SeqEvent.code ≠ some 9) ∧
    ((seqWit 0 { fills := [(3, 63)] }).dev.seq 0).fills.find? (fun y => y.1 == 3) = some (3, 63) ∧
    (st [.engine 0 { snap := { frames := List.replicate 16 (2 ^ 48 - 1, 2 ^ 32 - 1, 2 ^ 64 - 1), active := 15 } }]).dev.f (R.ENG_LINES.LINES 0) = 0 ∧
    (st [.img { act := some { resid := [[0, 0, 0, 0, 1, 0, 0, 0, 0, 0, 0, 0, 0, 0, 0, 0]] } }]).dev.img.act.isSome = true := by decide

def mword (alu dst imm : Nat) : BitVec 192 := BitVec.ofNat 192 (alu * 2 ^ 159 + 2 ^ 148 + dst * 2 ^ 143 + 2 ^ 142 + 3 * 2 ^ 140 + 2 ^ 131 + imm)
theorem witness_microCycles : (let v := (mword 0x02 31 (2 ^ 64 - 1)).toNat
      mwReserved v = false ∧ mwBus v = 0 ∧ mwCause v = 0 ∧ mwCommit v = false ∧ mwSample v = false ∧ mwOpadv v = false ∧ mwSeq v = 0 ∧ mwBr v = 0 ∧
        mwCinv v = false ∧ mwDstWe v = true ∧ mwFlagsWe v = true ∧ mwWidth v = 64) ∧
    (let d := (seqWit 5 { routine := some ⟨⟨8, 0, 0, false⟩, 0, [], [], false, 4096, 48, 0⟩ }).dev; (d.seq 5).xs.length = 32 ∧ d.f (R.SCH_STAT.STATE 5) ≠ 3 ∧ d.b R.TB_STAT.AWAKE = true) ∧
    State.reset.dev.b R.TB_STAT.AWAKE = false ∧ (seqWit 63 {}).dev.b R.TB_STAT.AWAKE = true ∧ (seqWit 63 {}).dev.domOn (domainOf (R.ENG_CTL.QMAX_CLR 63).off) = true ∧
    [({ code := 7, arg := 1, tries := 4 } : SeqEvent)].findIdx? (fun x => decide (4 ≤ x.tries) && !x.esc) = some 0 ∧
    (∀ e : Fin 64, State.reset.dev.domOn (domainOf (R.ENG_CTL.QMAX_CLR e).off) = true ∧ (State.reset.dev.seq e).events = []) ∧
    patchRefuse [5] [2 ^ 31 + 3] = 0 ∧ patchRefuse [5] [2 ^ 31 + 3, 2 ^ 31 + 3] = 1 := by decide

theorem witness_resultAppears : ∀ c : Bool, (((st [.time { coarse := 100 }, .tile 31 { closing := [(15, { start := 6, len := 10, cut := c })] }]).dev.tile 31).closing.find?
    (fun x => x.1 == 15 && x.2.start + x.2.len + 84 == 100)) = some (15, { start := 6, len := 10, cut := c }) := by decide

def trigWit (r : List Byte) : State := st [.fld R.GLB_RUN_STAT.RUNNING 1, .fld R.TB_STAT.AWAKE 1, .time { coarse := 3, fine := 3 }, .img { act := some { acq := [r] } },
  .run { dets := List.replicate 8 (true, none) }]
theorem witness_triggerEvents :
    (trigWit [3, 7, 0, 7, 3]).dev.b R.TB_STAT.AWAKE = true ∧ (trigWit [3, 7, 0, 7, 3]).dev.running = true ∧ (64 * 0 : Int) ≤ 64 * 3 + 63 - 255 ∧
    (trigWit [3, 7, 0, 7, 3]).dev.trigRec 7 = some [3, 7, 0, 7, 3] ∧ (∀ k : Fin 2, (rb [3, 7, 0, 7, 3] 4).testBit k = true) ∧
    (let d := (trigWit [3, 7, 0, 7, 3]).dev; (d.tin 7).cand = none ∧ (d.tin 7).level = false ∧ NoneListens d ∧ TablesGood d) ∧
    State.reset.dev.domOn (domainOf R.ACQ_SWTRIG.FIRE.off) = true ∧ rb [3, 0, 3] 2 = 3 ∧
    (trigWit [3, 0, 4, 0, 0, 0, 0, 0, 0, 0, 0, 0, 0, 0, 0, 0, 3]).dev.trigRec 0 = some [3, 0, 4, 0, 0, 0, 0, 0, 0, 0, 0, 0, 0, 0, 0, 0, 3] ∧
    rn [3, 0, 4, 0, 0, 0, 0, 0, 0, 0, 0, 0, 0, 0, 0, 0, 3] 16 8 = 3 ∧
    (trigWit [3, 7, 1, 31, 1, 0, 0xFF, 7]).dev.run.dets.getD 7 (false, none) = (true, none) ∧ ri [3, 7, 1, 31, 1, 0, 0xFF, 7] 6 2 = 2047 ∧
    (trigWit [3, 7, 1, 31, 1, 0, 0xFF, 7]).dev.combed 31 = false := by
  unfold NoneListens TablesGood; decide +kernel

def segWit (known : List (Nat × Nat × Int × Option Int) := []) : State := st [.run { known := known }, .tile 31 { shots := [{ id := 5, lines := 4 }], segQ := [{ crec := [], arm := 0, count := 3, shot := 5, flags := 4 }], cap := some { crec := captureRec, arm := 0, stage := 3, last := 2 } }, .time { coarse := 50 }, .stream 3 { active := true, start := 10, len := 40 }]
theorem witness_segmentsAndStreams : ((segWit).dev.tile 31).segQ = [{ crec := [], arm := 0, count := 3, shot := 5, flags := 4 }] ∧
    ((segWit).dev.shotOf 31 5 0).map (fun x => x.lines) = some 4 ∧ recordLines 0 (0 + 2) ≤ 4 ∧ ¬ recordLines 4 (0 + 4) ≤ 4 ∧
    (∀ k ∈ [[], [(2, 50, 3200, none)]], let d := (segWit k).dev; (d.tile 31).cap = some { crec := captureRec, arm := 0, stage := 3, last := 2 } ∧ 0 < rn captureRec 6 2 ∧
      2 + 48 = d.now.toNat ∧ rb captureRec 4 ≠ 8 ∧ d.run.known.filter (fun x => x.1 == rb captureRec 4 && decide (d.now.toNat ≤ x.2.1)) = k) ∧
    ((segWit).dev.stream 3).active = true ∧ (segWit).dev.now.toNat = ((segWit).dev.stream 3).start + 40 * (((segWit).dev.stream 3).seq + 1) ∧
    (segWit).dev.b (R.ACQ_STRM_CTL.EN 3) = false ∧ (segWit).dev.running = false := by decide

def drainWit (en : Nat) : State := st [.fld R.ACQ_DRAIN_CTL.EN en, .fld R.ECC_CXL_STAT.PRESENT 1, .fld R.ECC_CXL_STAT.CAP 1, .fld (R.ACQ_STRM_CTL.EN 3) en,
  .ring 0 { base := 0, size := 4096 }, .fld R.ACQ_DRAIN_SIZE.SIZE 1, .fld (R.ACQ_STRM_SIZE.SIZE 3) 1, .tag (hsAddr 0 0 / 64) 0, .tile 0 { shots := [{ id := 4 }] }, .drainQ [(0, 4, 0)]]
/-- Queue 5 takes ring `n`. -/
def ringWit (n : Nat) : State := { drainWit 1 with dev := applyUpd (drainWit 1).dev (.queue 5 { cur := some { bytes := 3 :: List.replicate 27 0 ++ [BitVec.ofNat 8 n], done := 256 } }) }
theorem witness_ringTaken : ∀ n : Fin 5, let d := (ringWit n).dev; d.b R.ACQ_DRAIN_CTL.EN = true ∧ d.b (R.ACQ_STRM_CTL.EN 3) = true ∧ d.running = false ∧
    (d.queue 5).cur.any (fun e => rb e.bytes 0 == 3 && rb e.bytes 28 == n.val) = true ∧ (∀ p : Fin 64, p ≠ 5 → (d.queue p).cur = none) ∧ (drainWit 1).dev.ringTakenBy 99 n = false := by
  decide +kernel

theorem witness_drainAndRings : (drainWit 1).dev.drainQ.head?.bind (fun c => (drainWit 1).dev.shotOf c.1 c.2.1 c.2.2) = some { id := 4 } ∧
    (drainWit 1).dev.hsBad { id := 4 } 0 = none ∧ ({ id := 4 } : Shot).length = 256 ∧ (0 % 4096 + 2 * 4096 - 0 - 256) % 4096 = 3840 ∧
    (drainWit 0).dev.mapWhy 0 = 0 ∧ State.reset.dev.mapWhy 0 = 0 ∧ (drainWit 0).dev.mapWhy 4 = 0 ∧ (drainWit 1).dev.running = false ∧
    (drainWit 0).dev.cxlTesting = false ∧ (∀ n : Fin 4, State.reset.dev.domOn (domainOf (R.ACQ_STRM_CTL.EN n).off) = true) ∧
    (st [.fld R.ACQ_DRAIN_SIZE.SIZE 1]).dev.mapWhy 0 = 1 := by decide

def fabWit (rs : List (List Byte)) (us : List Upd) : State := st ([.fld R.GLB_RUN_STAT.RUNNING 1, .fld R.TB_STAT.AWAKE 1, .fld (R.FAB_PORT_STAT.IN_SERVICE 0) 1, .fld (R.FAB_PORT_STAT.IN_SERVICE 7) 1, .time { coarse := 256, fine := 256 },
  .img { act := some { fabric := rs, routes := [[0, 0, 0, 0, 0, 0, 0, 63, 2, 0, 5, 0]] } }] ++ us)
/-- The symbols that a lane in service sends for a cell, from scrambler state `scr` and last symbol `prev`; the default of both is 0. -/
def lineOf (cell : Nat) (scr : Nat := 0) (prev : Nat := 0) (pre : Bool := false) : Nat := packSyms (codeCell scr prev pre cell).1
def cellWit : Nat := sealCell (2 ^ 220 + 9 * 2 ^ 210 + 4 * 2 ^ 200)
/-- Lane 1 of port 0 receives with a scrambler state, a last symbol and precoding. -/
def rxWit : Device := (st [.lane 1 { rxScr := 0x12345678, rxPrev := 3 }, .fld (R.LNK_LANE_STAT.PRECODE_RX 0 1) 1]).dev
theorem witness_readLine : rxWit.readLine 0 1 (lineOf cellWit 0x12345678 3 true) = cellWit ∧ rxWit.readLine 0 1 (lineOf cellWit) ≠ cellWit ∧
    (st []).dev.readLine 0 1 (lineOf cellWit) = cellWit ∧ lineOf cellWit < 2 ^ 224 ∧ (st []).dev.readLine 0 1 0 = 0 := by decide +kernel

def txRec : List Byte := [2, 0, 5, 0, 0, 0, 0, 7, 0, 0, 0, 0, 9]
def rxRec : List Byte := [2, 2, 5, 0, 0, 0, 0, 0, 3, 0, 0, 0, 9]
theorem witness_decisionMessages : (fabWit [txRec] []).dev.slotRec 5 = some txRec ∧ posAt 256 = 0 ∧ TablesGood (fabWit [txRec] []).dev ∧ (fabWit [txRec] []).dev.hears 0 = true ∧
    (fabWit [2 :: 0 :: 0xFF :: 0xFF :: txRec.drop 4] []).dev.slotRec 65535 = some (2 :: 0 :: 0xFF :: 0xFF :: txRec.drop 4) ∧
    linkPort (rb txRec 6) (rb txRec 7) = 7 ∧ (fabWit [txRec] []).dev.b (R.FAB_PORT_STAT.IN_SERVICE 7) = true ∧ (fabWit [txRec] [.fld (R.FAB_PORT_STAT.IN_SERVICE 7) 0]).dev.b (R.FAB_PORT_STAT.IN_SERVICE 7) = false ∧
    (bget (fun _ => []) (fabWit [txRec] [.txq 5 [(0, 200, true, 104)]]).dev.txq 5).filter (fun c => decide (c.2.1 ≤ 256)) ≠ [] ∧
    (fabWit [[2, 2, 5, 0, 0, 0, 0, 0, 0, 0, 0, 0, 9]] []).dev.slotAt 0 1 (posAt ((fabWit [] []).dev.startTick 0 1)) = some [2, 2, 5, 0, 0, 0, 0, 0, 0, 0, 0, 0, 9] ∧
    cellGood cellWit = true ∧ cellGood 0 = false ∧ (fabWit [txRec] []).dev.readLine 0 1 (lineOf cellWit) = cellWit ∧ (fabWit [txRec] []).dev.readLine 0 1 0 = 0 ∧
    (fabWit [rxRec] [.rx 5 [⟨76, [(1, 2 ^ 45)]⟩]]).dev.message rxRec (256 - 180) = some (some (2 ^ 45)) ∧
    (fabWit [rxRec] [.rx 5 [⟨76, []⟩]]).dev.message rxRec (256 - 180) = some none ∧
    (fabWit [[2, 1, 5, 0, 0, 0, 0, 7, 2]] [.rx 5 [⟨72, [(0, 3)]⟩]]).dev.message [2, 1, 5, 0, 0, 0, 0, 7, 2] (256 - 184) = some (some 3) := by
  unfold TablesGood; decide +kernel

def voteCellOf (ready void pass : Bool) (cand vbase prev : Nat) : BitVec 224 := BitVec.ofNat 224 (sealCell (3 * 2 ^ 220 + 15 * 2 ^ 216 + 9 * 2 ^ 210 + cand * 2 ^ 144 +
  ready.toNat * 2 ^ 143 + void.toNat * 2 ^ 142 + pass.toNat * 2 ^ 141 + vbase * 2 ^ 64 + prev * 2 ^ 48))
def statWit (us : List Upd) : State := st ([.fld R.TB_STAT.AWAKE 1, .fld (R.FAB_PORT_STAT.IN_SERVICE 0) 1, .time { coarse := 60, fine := 60 }, .fld R.GLB_RUN_STAT.RUNNING 1,
  .img { act := some { fabric := [[1, 0, 0, 9]], dir := [[0, 0, 0, 0, 1]] } }, .engine 0 { live := true, snap := { dom := 2, b0 := 7 } }] ++ us)
theorem witness_statusAndVotes : (statWit [.time { fine := 56 }]).dev.startTick 0 1 = 56 ∧ posAt 56 = 14 ∧ cellGood (sealCell (2 * 2 ^ 220 + 14 * 2 ^ 216)) = true ∧
    (statWit []).dev.voteGood 0 1 (voteCellOf true true true 4096 7 5).toNat = true ∧ (statWit []).dev.voteGood 0 1 0 = false ∧
    (voteOf (voteCellOf true true true 4096 7 5).toNat 60 0).void = true ∧ (voteOf (voteCellOf true true true 4096 7 5).toNat 60 0).vbase = 7 ∧
    (statWit []).dev.readLine 0 1 (lineOf (voteCellOf true true true 4096 7 5).toNat) = (voteCellOf true true true 4096 7 5).toNat ∧
    (let b := sealCell (2 * 2 ^ 220 + 14 * 2 ^ 216 + 9 * 2 ^ 210); (statWit []).dev.readLine 0 1 (lineOf b) = b) ∧ (statWit []).dev.readLine 0 1 0 = 0 ∧
    (statWit []).dev.hears 0 = true ∧ ((statWit []).dev.statIn 0).copy 56 = none ∧ bget (fun _ => none) (statWit []).dev.votes 0 = none ∧
    (let b := sealCell (2 * 2 ^ 220 + 14 * 2 ^ 216 + 9 * 2 ^ 210); let x := (statWit [.time { fine := 56 }]).dev.statIn 0
      (x.next 56 1 b).cells.head? = some (56, 1, b) ∧ ((x.next 56 1 b).next 56 3 b).cells.head? = some (56, 1, b)) ∧
    (statWit []).dev.streams64 = [0] ∧ (statWit [.voted (some (5, false))]).dev.voted.any (fun x => decide (x.1 < (statWit []).dev.startTick 0 1) && 5 == x.1 % 65536 && true != x.2) = true ∧
    (statWit [.voted (some (5, false))]).dev.votes = [] ∧ (let v := voteOf (voteCellOf true true true 4096 7 5).toNat 60 0
      (bget (fun _ => none) (statWit [.vote 0 (some v)]).dev.votes 0).all (fun o => o.prev != v.prev || o.pass != v.pass) = false) := by decide +kernel

def aniseWit (us : List Upd) : State := st ([.fld R.TB_STAT.AWAKE 1, .time { coarse := 40000, fine := 40000 }, .img { act := some { fabric := [[1, 0, 0, 9]] } },
  .fld (R.FAB_PORT_STAT.IN_SERVICE 0) 1, .credit 0 3] ++ us)
def aniseReq (source oport stamp : Nat) : Nat := sealCell (aniseCell 1 9 0 200 source oport 0 0 stamp false)
def aniseBits (kind tag stamp : Nat) (v : Bool) : Nat := sealCell (aniseCell kind 9 0 tag 0 0 0 0 stamp v + 7 * 2 ^ 68)
def outWit : State := aniseWit [.anise { out := [(0, 0, 5)] }]
theorem witness_aniseCells : outWit.dev.anise.out.find? (fun x => x.1 == 0 && outWit.dev.laneFree 0 x.2.1) = some (0, 0, 5) ∧ posAt 40000 = 0 ∧
    (aniseWit []).dev.anise.out.any (fun x => x.1 == 0) = false ∧ (aniseWit []).dev.laneFree 0 ((aniseWit []).dev.aniseLane 0) = true ∧
    bget (fun _ => 0) (aniseWit [.credit 16 8]).dev.credit 16 ≠ 0 ∧ (aniseWit []).dev.reqPort (aniseReq 997 17 30) = some (32 * 31 + 17) ∧
    AniseGood (aniseWit []).dev 0 1 (aniseReq 997 17 30) 1 ∧
    (∀ k : Fin 4, k = 0 ∨ AniseGood (aniseWit []).dev 0 1 (aniseBits k 200 30 true) k) ∧
    (∀ k : Fin 4, (aniseWit []).dev.readLine 0 1 (lineOf (aniseBits k 200 30 true)) = aniseBits k 200 30 true) ∧
    (aniseWit []).dev.readLine 0 1 (lineOf (aniseReq 997 17 30)) = aniseReq 997 17 30 ∧ (aniseBits 1 200 30 true) < 2 ^ 224 ∧
    bitsOf (aniseBits 2 200 30 true) 167 160 % 64 = (aniseWit []).dev.dev % 64 ∧
    (aniseWit []).dev.granted (aniseBits 2 200 30 true) = none ∧ (aniseWit [.anise { shakes := [⟨0, 200, 0, 7, true, 0⟩] }]).dev.granted (aniseBits 2 200 30 true) = some ⟨0, 200, 0, 7, true, 0⟩ ∧
    ((aniseWit []).dev.eng 0).anise = none ∧
    (aniseWit [.anise { shakes := [⟨63, 200, 2047, 8000, true, 0⟩] }]).dev.anise.shakes.find? (fun h => h.asked && h.e == 63 && h.port == 32 * 63 + 31 && decide (h.since + 32000 ≤ 40000)) = some ⟨63, 200, 2047, 8000, true, 0⟩ := by
  unfold AniseGood; decide +kernel

def monWit (us : List Upd) : State := st ([.fld R.TB_STAT.AWAKE 1, .time { coarse := 5000, fine := 5000, ticks := 5000 }] ++ us)
theorem witness_rangesAndMonitor : bget (fun _ => none) (monWit [.rangeT0 255 (some 2000)]).dev.rangeT0 255 = some 2000 ∧ (monWit []).dev.age = 5000 ∧
    (monWit []).dev.b (R.FLX_OUT_STAT.RANGE 255) = (monWit []).dev.rangeOf 255 ∧ (monWit []).dev.domOn 7 = true ∧
    (monWit [.mon 3 { next := 63 }]).dev.monNext 3 63 = some 63 ∧ clamped ((monWit []).dev.clampOf (fluxKey 0)) = true ∧
    clamped ((monWit [.clamp (fluxKey 0) 0]).dev.clampOf (fluxKey 0)) = false ∧ (monWit []).dev.monExpect 0 = 0 ∧
    (monWit []).dev.f (R.MON_WIN.FAULT 0) < (32767 - 0 : Int).natAbs ∧ bget (fun _ => 0) (monWit [.steady 0 3001]).dev.steady 0 = 3001 := by decide

theorem witness_outputSettings : (∀ c : Fin 160, State.reset.dev.domOn (domainOf (R.NCO_OUT_CFG.MODE c).off) = true) ∧ (0xFFFFFFFD : Word).toNat % 4 < 2 ∧
    (let d := (st [.fld (R.NCO_OUT_CFG.PENDING 159) 1, .outCfg 159 { ripe := true }, .time { coarse := 1 }]).dev;
      d.b (R.NCO_OUT_CFG.PENDING 159) = true ∧ (d.outCfg 159).ripe = true ∧ d.running = false ∧ d.endTick = false) ∧
    (let d := (st [.fld (R.NCO_OUT_CFG.SETTLING 0) 1, .time { ticks := 2000 }]).dev;
      d.b (R.NCO_OUT_CFG.SETTLING 0) = true ∧ (d.outCfg 0).since + 2000 ≤ d.age) := by decide +kernel

def calWit (us : List Upd) : State := st ([.fld R.TB_STAT.AWAKE 1, .time { coarse := 5000, fine := 5000, ticks := 5000 }, .power { awakeTicks := 2 ^ 21 }] ++ us)
theorem witness_calibrationSteps : (calWit []).dev.pathOn 2 255 = true ∧ (calWit []).dev.loopIn 1 159 = false ∧ (calWit []).dev.loopIn 2 255 = false ∧ (calWit [.st { begun := true, tests := 64 }]).dev.loopIn 1 159 = true ∧
    (calWit [.calib { loopEnd := 5000, bgFrom := 5000 }]).dev.loopIn 1 159 = false ∧ (calWit [.calib { loopEnd := 5000 }]).dev.loopIn 1 159 = true ∧ (calWit []).dev.bgOver 1 159 = true ∧
    (calWit [.calPath (calKey 2 255) { visits := 16 }]).dev.bgOver 2 255 = true ∧
    (calWit [.calPath (calKey 1 159) { est := some [3] }]).dev.calPath (calKey 1 159) = { est := some [3] } ∧ quantityAgrees 1 0 3 13 = true ∧ quantityAgrees 1 0 3 14 = false ∧
    calAgree 5 ((calWit []).dev.measured 5) [3] [8] = true ∧ calAgree 5 ((calWit []).dev.measured 5) [3] [9] = false ∧ (calWit []).dev.coeffBad = none ∧
    (calOrder 31).find? (fun x => (calWit [.calPath (calKey 5 159) { pend := true }]).dev.calWants x.1 x.2 &&
      (calWit [.calPath (calKey 5 159) { pend := true }]).dev.calPermits x.1 x.2) = some (5, 159) ∧ (calWit [.calPath (calKey 6 0) { fg := true }]).dev.calWants 6 0 = true ∧
    (calWit [.calib { steps := [(5, 159, 4200)] }]).dev.calib.steps.find? (fun y => y.1 == 5 && y.2.1 == 159) = some (5, 159, 4200) ∧ (calWit []).dev.stepOn (5, 159, 4200) = false ∧
    ((calWit []).dev.calPath (calKey 5 159)).again = false ∧ (calWit []).dev.maxint ≠ 0 ∧ (let d := (calWit [.fld R.GLB_RUN_STAT.RUNNING 1, .fld R.CAL_TCFG.MAXINT 0, .calPath (calKey 3 31) { pend := true }]).dev; d.running = true ∧ 31 < calPathsOf 3 ∧
      (d.calPath (calKey 3 31)).pend = true ∧ (d.calPath (calKey 3 31)).since + d.maxint ≤ d.calib.runTicks) := by decide +kernel

theorem witness_calibrationRequests : State.reset.dev.domOn (domainOf R.CAL_REQ.GO.off) = true ∧ (0x80000080 : Word).toNat.testBit 31 = true ∧
    State.reset.dev.running = false ∧ State.reset.dev.b R.GLB_RUN_STAT.PENDING = false ∧ (calWit []).dev.b R.TB_STAT.AWAKE = true ∧
    State.reset.dev.pathOn 5 159 = true ∧ (st [.fld R.CAL_REQ_STAT.PENDING 0x78]).dev.f R.CAL_REQ_STAT.PENDING ≠ 0 ∧
    (st [.fld R.CAL_STAT.FG_BUSY 1]).dev.b R.CAL_STAT.FG_BUSY = true ∧ State.reset.dev.fgOpen = false ∧ State.reset.dev.calib.req = 0 ∧
    (st [.calib { changed := 1 }]).dev.calib.changed.testBit 0 = true ∧ State.reset.dev.endTick = false ∧ State.reset.dev.f R.CAL_STAT.BAND < 5 ∧ State.reset.dev.calib.commits.length = 5 ∧
    State.reset.dev.calib.commits.getD 0 none = none ∧ State.reset.dev.keep.wear ≠ 2 ∧ State.reset.dev.keep.queue.length < 16 := by decide +kernel

def thmWit (us : List Upd) : State := st ([.thermal { first := true, hist := List.replicate 11 [400] ++ [[2401]], target := 1, home := 250, dev := List.replicate 11 0 ++ [16] }] ++ us)
theorem witness_samplesAndBands : (thmWit []).dev.thermal.hist.length = 12 ∧ State.reset.dev.thermal.hist.length = 12 ∧ State.reset.dev.thermal.first = false ∧
    (thmWit []).dev.hottest = some 0 ∧ (thmWit [.fld R.THM_STAT.DWELL 250]).dev.f R.THM_STAT.DWELL = 250 ∧ (thmWit []).dev.thermal.target < 5 ∧ (thmWit []).dev.thermal.target ≠ (thmWit []).dev.f R.THM_STAT.BAND ∧
    (thmWit [.fld R.THM_STAT.BAND_PEND 1]).dev.b R.THM_STAT.BAND_PEND = true ∧ (thmWit []).dev.gapStart = true ∧ (thmWit []).dev.f R.THM_STAT.NEXT_BAND < 5 ∧
    (thmWit []).dev.sensorBad 11 = true ∧ (thmWit []).dev.sensorOk 0 = true ∧ (thmWit []).dev.b (R.THM_SENS.FAULT 11) = false ∧
    (thmWit [.fld (R.THM_SENS.FAULT 6) 1]).dev.b (R.THM_SENS.FAULT (7 / 2 * 2 + (1 - 7 % 2))) = true := by decide +kernel

def shutWit (us : List Upd) : State := st ([.fld R.THM_STAT.SHUTDOWN 1, .time { ticks := 20000000 }, .fld R.PWR_DOM_STAT.ON 0xFFFFFF] ++ us)
theorem witness_shutdownAndResume : (st [.thermal { rateT0 := some 0 }, .fld R.GLB_RUN_STAT.RUNNING 1]).dev.running = true ∧ (shutWit []).dev.age = 20000000 ∧
    State.reset.dev.b R.THM_STAT.SHUTDOWN = false ∧ State.reset.dev.sensorOk 11 = false ∧ (thmWit []).dev.sensorOk 0 = true ∧ (thmWit []).dev.b R.THM_STAT.SHUTDOWN = false ∧
    (∀ k : Fin 4, (thmWit [.fld R.PWR_STAT.STATE k]).dev.f R.PWR_STAT.STATE = k) ∧
    (shutWit [.keep { flight := some { what := .record 1, unit := 0 } }]).dev.keep.flight.isSome = true ∧
    (shutWit [.thermal { ended := some 0 }]).dev.thermal.ended = some 0 ∧ (shutWit []).dev.f R.PWR_DOM_STAT.ON ≠ 3 ∧
    (shutWit []).dev.domOn (domainOf R.THM_CTL.RESUME.off) = true ∧ signedOf 16 ((shutWit [.fld R.THM_MAX.TEMP 1440]).dev.f R.THM_MAX.TEMP) ≤ 1440 ∧
    1440 < signedOf 16 ((shutWit [.fld R.THM_MAX.TEMP 1441]).dev.f R.THM_MAX.TEMP) := by decide +kernel

def eccWit (us : List Upd) : State := st ([.wback [5], .lines 5 (List.replicate 64 3), .err (5 * 64) (128 + 3)] ++ us)
theorem witness_errorCorrection : (eccWit []).dev.wback.contains 5 = true ∧ (lineClass (2 ^ 21 - 1)).isNone = true ∧ lineClass 5 = some (0, 0, 5) ∧ (eccWit []).dev.tagOf 5 = 0 ∧ (eccWit []).dev.lineUe 0 5 = none ∧
    State.reset.dev.domOn (domainOf R.ECC_FLIP_CTL.ARM.off) = true ∧ (0x84000000 : Word).toNat.testBit 31 = true ∧
    (st [.fld R.ECC_FLIP_CTL.CLASS 4, .tag 0x190000 0]).dev.flipReserved = false ∧ (st [.fld R.ECC_FLIP_CTL.CLASS 4, .tag 0x190000 0]).dev.flipDenied = false ∧
    (st [.fld R.ECC_FLIP_CTL.CLASS 4]).dev.flipDenied = true ∧ (∀ a : Bool, let d := (st [.fld R.ECC_FLIP_CTL.ARM 1, .flip (64 * 0x190000 + 8), .again (if a then [R.ECC_FLIP_CTL.ARM.key] else [])]).dev; d.b R.ECC_FLIP_CTL.ARM = true ∧
      d.flip / 64 = 0x190000 ∧ d.again.contains R.ECC_FLIP_CTL.ARM.key = a) ∧
    State.reset.dev.domOn (domainOf R.ECC_LOG_POP.POP.off) = true := by decide +kernel

def fetchWit : State := st [.fld R.TB_STAT.AWAKE 1, .fld R.ECC_CXL_STAT.PRESENT 1, .img { act := some { waveCnt := 9, schedCnt := 9 } }, .tag 0x180000 0, .scrub 32 { pos := 0 }]
theorem witness_scrubAndFetch : fetchWit.dev.b R.TB_STAT.AWAKE = true ∧ fetchWit.dev.b R.SCRUB_CTL.EN = true ∧ (fetchWit.dev.scrub 32).next ≤ fetchWit.dev.power.awakeTicks ∧
    fetchWit.dev.domOn 5 = true ∧ fetchWit.dev.scrubbed (scrubLine 32 0) = true ∧ 0 + 1 ≠ scrubLines 32 ∧ lineClass (scrubLine 32 0) = some (3, 0, 0) ∧
    (st [.fld R.TB_STAT.AWAKE 1, .err (64 * 0x180000) 64]).dev.lineUe 3 0x180000 = none ∧ ((st [.err (64 * 0x180000) 5]).dev.lineUe 3 0x180000).isSome = true ∧
    (8191 : BitVec 13).toNat ≠ 6143 ∧ fetchWit.dev.img.act.any (fun im => decide ((8 : BitVec 24).toNat < im.waveCnt)) = true ∧ fetchWit.dev.tileOn (63 / 2) = true ∧
    fetchWit.dev.cxlUp = true ∧ fetchWit.dev.evicts 63 false 8 1023 = some [] ∧ fetchWit.dev.eccLog.all (fun x => x.epoch != fetchWit.dev.now.toNat) = true := by decide +kernel

def keepWit (k : Keep) : State := st [.fld R.KEEP_STAT.READY 1, .keep k]
theorem witness_keepCommits :
    (let q : KReq := { cls := 1, key := 0, body := [5] }; let r : KReq := { cls := 7, key := 0, body := [6], slot := some 0 }; let d := (keepWit { queue := [q, r] }).dev
      d.keep.queue = q :: [r] ∧ d.keepFree = true ∧ d.keep.todo = [] ∧ q.slot = none ∧ (∀ x ∈ [r], x.slot.isSome = true) ∧ q.phase = 0 ∧ q.lines ≤ 961 ∧
      (d.unit d.keep.head).fits { cls := 1, key := 0, seq := 0, body := [5] } = true ∧ (List.range 16).find? (fun k => !([r].any (fun x => x.slot == some k))) = some 1) ∧
    (keepWit { flight := some { what := .erase, unit := 4095 } }).dev.keep.flight = some { what := .erase, unit := 4095 } ∧
    State.reset.dev.b R.KEEP_STAT.READY = false ∧ (st [.fld R.PWR_DOM_STAT.ON 0x40]).dev.domOn 6 = true ∧ State.reset.dev.keep.held = false ∧ State.reset.dev.power.pwrfailN = true ∧ State.reset.dev.power.pwrfailOk = true ∧ State.reset.dev.keep.units = [] ∧ State.reset.dev.b R.THM_STAT.SHUTDOWN = false ∧
    State.reset.dev.keep.life.length = 13 ∧ State.reset.dev.keep.wear ≠ 2 ∧ State.reset.dev.f R.THM_STAT.BAND < 5 := by decide +kernel
/-- A commit whose record has `fill` bytes programmed in the head, in a phase. -/
def phaseWit (phase fill : Nat) (f : Option KFlight) (tag : Nat := 0) : State :=
  st [.fld R.KEEP_STAT.READY 1, .tag (stageLine 0) tag, .keep {
    queue := [{ cls := 1, key := 0, body := [5], seq := some 1, phase := phase, slot := some 0 }], flight := f
    units := [(0, { role := 1, logical := 0, recs := [{ cls := 1, key := 0, seq := 1, body := [5], fill := fill, good := false }] })] }]
theorem witness_keepPhases :
    (∀ k : Fin 3, let d := (phaseWit k 17 none).dev; d.keepFree = true ∧ d.keep.todo = [] ∧ d.keep.queue.head?.any (fun q => q.phase == k.val) = true ∧ d.recordWhole = true ∧
      d.eccLog = [] ∧ (let q : KReq := { cls := 1, key := 0, body := [5], seq := some 1, phase := k, slot := some 0 }
        d.keep.queue = [q] ∧ q.lines = 1 ∧ d.tagOf (stageLine 0) = 0 ∧ d.lineErrs (stageLine 0) = [])) ∧
    (let q : KReq := { cls := 1, key := 0, body := [5], slot := some 0 }; let d := (st [.fld R.KEEP_STAT.READY 1, .tag (stageLine 0) 0, .keep { queue := [q] }]).dev
      d.keep.queue = [q] ∧ q.seq = none ∧ d.keepFree = true ∧ d.tagOf (stageLine 0) = 0 ∧ d.lineErrs (stageLine 0) = [] ∧ (d.unit 0).fits { cls := 1, key := 0, seq := 1, body := [5] } = true) ∧
    (∀ k ∈ [1, 2], let d := (phaseWit 0 0 none k).dev; d.keepFree = true ∧ d.keep.todo = [] ∧
      d.badStage { cls := 1, key := 0, body := [5], seq := some 1, slot := some 0 } = some (stageLine 0)) ∧
    (∀ w ∈ [KWork.record 17, .com, .erase], let f : KFlight := { what := w, unit := 0 }; let d := (phaseWit 1 0 (some f)).dev; d.keep.flight = some f ∧ d.keep.head = 0 ∧
      d.b R.THM_STAT.SHUTDOWN = false ∧ (d.unit 0).suspect = false ∧ (d.unit 0).recs.length = 1 ∧ f.unit = d.keep.head) := by
  repeat' apply And.intro
  all_goals decide +kernel

theorem witness_logReclaim : (keepWit { head := 4088, wear := 1, units := [(4089, { role := 4, logical := 1, recs := [{ cls := 1, key := 0, seq := 1, body := [], committed := true }] })] }).dev.oldest = some (1, 4089) ∧
    (keepWit { head := 4088, wear := 1 }).dev.keepFree = true ∧ 1 ≤ aheadOf 4 ∧
    (let r : KRec := { cls := 1, key := 0, seq := 1, body := [], committed := true }
     let d := (keepWit { head := 0, units := [(2, { role := 1, logical := 2, recs := [r] })] }).dev; d.oldest = some (2, 2) ∧ 2 ≤ aheadOf d.logRole ∧ d.committing = false ∧ d.keep.todo = [] ∧
      (d.unit 2).fails < 3 ∧ (d.unit 2).erases < 100000 ∧ d.toMove 2 = [r] ∧ (d.unit 0).fits r = true) := by decide +kernel

theorem witness_powerFailure : State.reset.dev.power.pwrfailN = true ∧ State.reset.dev.domOn 0 = true ∧ (st [.fld R.PWR_DOM_STAT.ON 0]).dev.domOn 0 = false ∧
    (∀ b : Bool, (st [.power { pwrfailN := false, pwrfailOk := false, svc := b }]).dev.power.svc = b ∧ (st [.power { pwrfailN := false, svc := b }]).dev.power.pwrfailN = false) ∧ (st [.power { pwrfailN := false, pwrfailOk := false }]).dev.power.pwrfailN = false ∧
    (st [.power { pwrfailOk := false }]).dev.power.pwrfailN = true ∧ (st [.power { pwrfailOk := false }]).dev.power.pwrfailOk = false := by decide

/-- A firmware command in progress: slot A runs and is ACTIVE, slot B has the state given, NBLOCKS 20, and the update is at block `n`. -/
def fwWit (op : Nat) (args : List Nat) (b : List Byte) (state : Nat) (n : Nat := 3) (going : Nat := 0) (pages : Option Nat := none) : State :=
  st [.fld R.WATCH_STAT.STATE 1, .fld R.KEEP_STAT.READY 1, .fld R.FW_STAT.OWNER 1, .fld R.FW_STAT.BUSY 1, .fld R.FW_STAT.NEXT n,
    .keep { blocks := [(16 * 2876, goodBlock [])] },
    .fw { cur := some (1, op, args, b), descs := some [fwDesc 3 0 1 5 7 7 20 [], fwDesc state 0 1 5 7 7 20 []], going := going, pages := pages }]
where goodBlock (h : List Byte) : List Byte := let x := (h ++ List.replicate 4092 0).take 4092; x ++ leBytes 4 (crc32c x)

/-- A header block that is good but for its signature. -/
def fwHeader : List Byte :=
  fwWit.goodBlock (leBytes 4 0x42594657 ++ [0, 1] ++ leBytes 2 1 ++ leBytes 4 20 ++ leBytes 4 9 ++ leBytes 2 7 ++ leBytes 2 0 ++ leBytes 4 0x4416)

theorem blockGood_goodBlock (h : List Byte) : blockGood (fwWit.goodBlock h) = true :=
  blockGood_append (by rw [List.length_take, List.length_append, List.length_replicate]; omega)

theorem witness_fwAt : FwAt (fwWit 1 [] fwHeader 0).dev 1 1 [] fwHeader ∧ FwAt (fwWit 1 [] fwHeader 3).dev 1 1 [] fwHeader ∧
    FwAt (fwWit 2 [4] fwHeader 1).dev 1 2 [4] fwHeader ∧ FwAt (fwWit 2 [3] fwHeader 1).dev 1 2 [3] fwHeader ∧
    (∀ g : Fin 2, FwAt (fwWit 3 [3, 0, 1] [] 1 3 g).dev 1 3 [3, 0, 1] []) ∧ FwAt (fwWit 3 [3, 20, 1] [] 1 3 1).dev 1 3 [3, 20, 1] [] ∧
    (∀ v : Fin 6, FwAt (fwWit 7 [] [] v).dev 1 7 [] []) ∧ FwAt (fwWit 1 [] fwHeader 1 0 1).dev 1 1 [] fwHeader ∧
    ∀ k : Fin 17, FwAt (fwWit 2 [3] fwHeader 1 3 1 (some k)).dev 1 2 [3] fwHeader := by
  unfold FwAt; repeat' (first | apply And.intro | intro)
  all_goals first | rfl | decide +kernel +revert

/-- A BEGIN of interface 1 while another interface owns the update. -/
def fwOther (owner : Nat) : State := { fwWit 1 [] [] 1 with dev := applyUpd (fwWit 1 [] [] 1).dev (.fld R.FW_STAT.OWNER owner) }
theorem witness_firmwareBegin :
    ((fwWit 1 [] fwHeader 0).dev.f R.FW_STAT.OWNER = 1 ∧ (fwWit 1 [] fwHeader 0).dev.fw.going = 0 ∧ (fwWit 1 [] fwHeader 0).dev.slotState 1 ≠ 3 ∧
      (fwWit 1 [] fwHeader 0).dev.fwTarget = 1) ∧ blockGood fwHeader = true ∧ headerGood fwHeader = true ∧
    (fwWit 1 [] fwHeader 3).dev.slotState 1 = 3 ∧ (fwWit 1 [] fwHeader 3).dev.b R.FW_STAT.RECOVERY = false ∧
    blockGood [] = false ∧ headerGood (fwWit.goodBlock []) = false ∧ FwAt (fwOther 2).dev 1 1 [] [] ∧ (fwOther 2).dev.f R.FW_STAT.OWNER ≠ 0 ∧ (fwOther 2).dev.f R.FW_STAT.OWNER ≠ 1 ∧
    ∀ v : Fin 2, (fwWit 1 [] fwHeader v).dev.slotState 1 = v :=
  ⟨by decide +kernel, blockGood_goodBlock _, by decide +kernel, by decide +kernel, by decide +kernel, by decide +kernel, by decide +kernel,
    by unfold FwAt; decide +kernel, by decide +kernel, by decide +kernel, by decide +kernel⟩

/-- A block to be written: BEGIN's at block 0, LIT's and COPY's at block 3, before its first page, between pages and after its last. -/
theorem witness_firmwareWrites : FwWrites (fwWit 1 [] fwHeader 1 0 1).dev 1 1 [] fwHeader ∧ FwWrites (fwWit 2 [3] fwHeader 1).dev 1 2 [3] fwHeader ∧
    FwWrites (fwWit 3 [3, 0, 1] [] 1).dev 1 3 [3, 0, 1] [] ∧ (∀ k : Fin 17, FwWrites (fwWit 2 [3] fwHeader 1 3 1 (some k)).dev 1 2 [3] fwHeader) ∧
    ((fwWit 1 [] fwHeader 1 0 1).dev.fwUnit 1 0).any (fun p => decide (((fwWit 1 [] fwHeader 1 0 1).dev.unit p).erases < 100000)) = true ∧
    ((fwWit 2 [3] fwHeader 1).dev.fwUnit 1 3).any (fun p => decide (((fwWit 2 [3] fwHeader 1).dev.unit p).fails + 1 < 3)) = true :=
  ⟨⟨witness_fwAt.2.2.2.2.2.2.2.1, by decide +kernel, .inl rfl, by decide⟩,
   ⟨witness_fwAt.2.2.2.1, by decide +kernel, .inr ⟨rfl, by decide +kernel, by decide +kernel, .inl ⟨rfl, by decide +kernel, blockGood_goodBlock _⟩⟩, by decide⟩,
   ⟨witness_fwAt.2.2.2.2.1 0, by decide +kernel, .inr ⟨rfl, by decide +kernel, by decide +kernel, .inr (by decide +kernel)⟩, fun _ => ⟨by decide +kernel, blockGood_goodBlock []⟩⟩,
   fun k => ⟨witness_fwAt.2.2.2.2.2.2.2.2 k, by decide +kernel +revert, .inl rfl, fun h => absurd h (by decide)⟩, by decide +kernel, by decide +kernel⟩

theorem witness_firmwareRefusals : ((fwWit 2 [4] fwHeader 1).dev.fw.going = 0 ∧ (fwWit 2 [4] fwHeader 1).dev.fwGate 1 = 0 ∧ (fwWit 2 [4] fwHeader 1).dev.f R.FW_STAT.NEXT ≠ 4) ∧
    ((fwWit 3 [3, 20, 1] [] 1 3 1).dev.fw.going = 1 ∧ (fwWit 3 [3, 20, 1] [] 1 3 1).dev.fw.pages = none ∧ rn ((fwWit 3 [3, 20, 1] [] 1 3 1).dev.desc 0) 16 4 ≤ 20 + 3 - 3) ∧
    ∀ v : Fin 6, (fwWit 7 [] [] v).dev.f R.FW_STAT.OWNER = 1 ∧ (fwWit 7 [] [] v).dev.fw.going = 0 ∧ (fwWit 7 [] [] v).dev.fwTarget = 1 := by
  repeat' apply And.intro
  all_goals decide +kernel

/-- A firmware command `op` of interface 1 in progress, with the slots' descriptors given. -/
def slotWit (op : Nat) (us : List Upd) (a b : List Byte) : State :=
  st ([.fld R.WATCH_STAT.STATE 1, .fld R.KEEP_STAT.READY 1, .fld R.FW_STAT.OWNER 1, .fld R.FW_STAT.BUSY 1, .fld R.FW_STAT.NEXT 20,
    .fw { cur := some (1, op, [], []), descs := some [a, b] }] ++ us)
/-- A descriptor with a state and a security version, of 20 blocks. -/
def descWit (state svn : Nat) : List Byte := fwDesc state 0 1 5 svn 7 20 []

theorem witness_firmwareSlots :
    (let d := (slotWit 4 [] (descWit 3 7) (descWit 1 9)).dev; FwIn d 1 4 [] [] ∧ d.fw.trial = false ∧ d.keep.queue.length < 16 ∧ d.fwTarget = 1 ∧ d.fwGate 1 = 0 ∧ d.f R.FW_STAT.NEXT = d.fwLen) ∧
    (let d := (slotWit 4 [.fld R.FW_STAT.NEXT 19] (descWit 3 7) (descWit 1 9)).dev; FwIn d 1 4 [] [] ∧ d.fwGate 1 = 0 ∧ d.f R.FW_STAT.NEXT ≠ d.fwLen) ∧
    (let d := (slotWit 5 [.fld R.FW_STAT.RUNNING 1] (descWit 3 7) (descWit 2 9)).dev; FwIn d 1 5 [] [] ∧ d.keep.wear = 0 ∧ d.slotState d.fwRun = 2 ∧ d.b R.FW_STAT.RECOVERY = false) ∧
    (let d := (slotWit 5 [] (descWit 3 7) (descWit 2 9)).dev; FwIn d 1 5 [] [] ∧ d.slotState d.fwRun ≠ 2) ∧
    (let d := (slotWit 6 [] (descWit 3 7) (descWit 4 9)).dev; FwIn d 1 6 [] [] ∧ d.keep.wear = 0 ∧ d.slotWith 4 = some 1 ∧ d.minSvn ≤ rn (d.desc 1) 12 2) ∧
    (let d := (slotWit 6 [] (descWit 3 7) (descWit 4 6)).dev; FwIn d 1 6 [] [] ∧ d.slotWith 4 = some 1 ∧ rn (d.desc 1) 12 2 < d.minSvn) ∧
    (let d := (slotWit 6 [.keep { wear := 1 }] (descWit 3 7) (descWit 2 9)).dev; FwIn d 1 6 [] [] ∧ d.keep.wear ≠ 0 ∧ d.slotWith 4 = none) ∧
    FwIn (slotWit 8 [] (descWit 3 7) (descWit 2 9)).dev 1 8 [] [] := by
  unfold FwIn; repeat' apply And.intro
  all_goals decide +kernel

theorem witness_firmwareRestartAndStart :
    (let d := (st [.fld R.WATCH_STAT.STATE 3]).dev; d.fw.cur = none ∧ d.fw.going = 0 ∧ d.watchRuns = true ∧ d.b R.FW_STAT.BUSY = false ∧ d.domOn (domainOf R.FW_CMD.GO.off) = true ∧ d.b R.FW_CMD.GO = false) ∧
    (let d := (slotWit 4 [] (descWit 3 7) (descWit 1 9)).dev; d.fw.cur = some (1, 4, [], []) ∧ 4 ≠ 8 ∧ d.b R.FW_STAT.BUSY = true ∧ d.domOn (domainOf R.FW_CMD.GO.off) = true) ∧
    (∀ v : Fin 2, let d := (st [.fld R.WATCH_STAT.STATE (2 * v), .fld R.KEEP_STAT.READY 1, .fw { descs := some [descWit 3 7, descWit (2 * v) 9] }, .fld R.FW_CMD.GO v]).dev;
      (d.f R.WATCH_STAT.STATE = 0 ∨ d.f R.WATCH_STAT.STATE = 2) ∧ d.b R.KEEP_STAT.READY = true ∧ d.domOn 0 = true ∧ (∀ k : Fin 2, (d.desc k).length = 64) ∧
        d.b R.WATCH_REQ.GO = false ∧ d.keep.flight = none ∧ d.fw.trial = false ∧ d.b R.FW_CMD.GO = (v == 1) ∧ d.slotWith 2 = (if v = 1 then some 1 else none) ∧ d.slotWith 3 = some 0) ∧
    (let d := (st [.fld R.WATCH_STAT.STATE 2, .fld R.KEEP_STAT.READY 1, .fw { descs := some [descWit 3 7, descWit 2 9], trial := true }]).dev; d.fw.trial = true ∧
      d.fw.descs.map List.length = some 2 ∧ d.slotWith 2 = some 1 ∧ d.keep.queue = []) := by
  repeat' apply And.intro
  all_goals decide +kernel

theorem witness_servicePort : (∀ n : Fin 2, (st [.svc { locked := false, fails := 3 * n }]).dev.svc.locked = false ∧ (st [.svc { locked := false, fails := 3 * n }]).dev.svc.fails = 3 * n) ∧
    State.reset.dev.svc.locked = true ∧ (2 ^ 28 - 1 : Word).toNat + (1 : BitVec 16).toNat ≤ 2 ^ 28 ∧ (2 ^ 20 - 1 : Word).toNat + (1 : BitVec 16).toNat ≤ 2 ^ 20 ∧
    (0xFFFFFF : Word).toNat < 0x1000000 ∧ (8 : Word).toNat ≤ 8 ∧ 8 < (9 : Word).toNat ∧
    (let d := (st [.svc { locked := false }, .fld R.WATCH_STAT.STATE 1]).dev; d.svc.locked = false ∧ d.b R.FW_STAT.BUSY = false ∧ d.watchRuns = true) ∧
    (let d := (st [.svc { locked := false }]).dev; d.svc.locked = false ∧ d.watchRuns = false) := by decide

/-- An entry of a submission queue: opcode, flags, length, host and CXL addresses, ring. -/
def entryWit (op fl len host cxl ring : Nat) : List Byte :=
  [BitVec.ofNat 8 op, BitVec.ofNat 8 fl, 7, 9, 0, 0, 0, 0] ++ leBytes 8 host ++ leBytes 8 cxl ++ leBytes 4 len ++ [BitVec.ofNat 8 ring, 0, 0, 0] ++ leBytes 8 0 ++ List.replicate 24 0
/-- Queue 63 is enabled and holds entries at the end of its ring. -/
def queueWit (us : List Upd) : State := st ([.fld (R.LNK_Q_CTL.EN 63) 1, .fld (R.LNK_Q_CTL.IEN 63) 1, .fld (R.LNK_SQ_TAIL.INDEX 63) 3, .fld (R.LNK_Q_STAT.CQ_TAIL 63) 14,
  .fld (R.LNK_Q_STAT.SQ_HEAD 63) 15, .fld R.ECC_CXL_STAT.PRESENT 1, .fld R.ECC_CXL_STAT.CAP 2, .queue 63 { cqBase := 0x1000 }] ++ us)
theorem witness_hostWaits :
    hostLinkOk 6 8 2 true = true ∧ hostLinkOk 1 1 0 false = true ∧ hostLinkOk 6 8 0 false = false ∧ hostLinkOk 1 3 0 false = false ∧ hostLinkOk 0 8 0 false = false ∧
    (st [.fld R.PWR_DOM_STAT.ON 0xFFFFFD]).dev.domOn 1 = false ∧ (queueWit []).dev.waitsFor 63 = none ∧
    (∀ b : Bool, let d := (queueWit [.host { cxlLost := b }]).dev; d.cxlAway = b ∧ d.nextQueue = some 63 ∧ d.waitsFor 63 = none) ∧
    (∀ op ∈ [1, 2, 3], let x := entryWit op 0 1024 64 0 0; let d := (queueWit [.host { cxlLost := true }]).dev; rb x 0 < 4 ∧ d.entryStatus x ≠ 1 ∧ d.entryStatus x ≠ 2) ∧
    (let d := (queueWit [.queue 5 { cur := some { bytes := entryWit 3 0 1024 64 0 0 } }]).dev; d.ringTakenBy 63 0 = true ∧ d.nextQueue = some 63) ∧
    (let x := entryWit 2 0 64 128 256 0; let d := (queueWit [.host { waits := [(63, x)] }]).dev; d.waitsFor 63 = some x ∧ (d.queue 63).cur = none ∧ d.b (R.LNK_Q_CTL.EN 63) = true ∧
      d.domOn (domainOf (R.LNK_Q_CTL.EN 63).off) = true) := by
  repeat' apply And.intro
  all_goals decide +kernel

theorem witness_hostPort : State.reset.dev.domOn 1 = true ∧ (∀ q : Fin 64, State.reset.dev.domOn (domainOf (R.LNK_Q_CTL.EN q).off) = true ∧
      State.reset.dev.domOn (domainOf (R.LNK_SQ_TAIL.INDEX q).off) = true ∧ State.reset.dev.domOn (domainOf (R.LNK_CQ_HEAD.INDEX q).off) = true) ∧
    State.reset.dev.b (R.LNK_Q_CTL.EN 63) = false ∧ (queueWit []).dev.b (R.LNK_Q_CTL.EN 63) = true ∧ ((queueWit []).dev.queue 63).cur = none ∧
    15 < 2 ^ ((queueWit []).dev.queue 63).sqLog ∧ 15 < 2 ^ ((queueWit []).dev.queue 63).cqLog ∧ 2 ^ ((queueWit []).dev.queue 63).sqLog ≤ 16 ∧ 2 ^ ((queueWit []).dev.queue 63).cqLog ≤ 16 ∧
    (queueWit []).dev.nextQueue = some 63 ∧ (queueWit []).dev.host.cxlLost = false ∧ (queueWit []).dev.cxlTesting = false ∧
    (∀ x ∈ [entryWit 1 0 64 128 256 0, entryWit 1 1 8192 0 0 0, entryWit 2 1 128 64 64 0, entryWit 4 1 0 0 0 0], x.length = 64 ∧ (queueWit []).dev.entryStatus x = 0) ∧
    (let d := (queueWit [.fld R.ACQ_DRAIN_CTL.EN 1, .ring 0 { base := 0x10000, size := 4096 }, .fld R.ACQ_DRAIN_WPTR.OFF 3, .fld R.ACQ_DRAIN_RPTR.OFF 14]).dev;
      d.nextQueue = some 63 ∧ d.entryStatus (entryWit 3 1 1024 64 0 0) = 0 ∧ d.ringTakenBy 63 0 = false ∧ min 1024 (d.ringFill 0) % 256 = 0 ∧ 0 < min 1024 (d.ringFill 0)) ∧
    (∀ x ∈ [(entryWit 1 0 63 0 0 0, 1), (entryWit 2 0 63 0 0 0, 2), (entryWit 3 0 1024 0 0 9, 3), (entryWit 4 1 0 0 0 5, 4)],
      (queueWit []).dev.entryStatus x.1 ≠ 0 ∧ rb x.1 0 = x.2 ∧ x.1.length = 64 ∧ (queueWit []).dev.ringTakenBy 63 (rb x.1 28) = false) ∧
    ((queueWit [.queue 63 { cur := some { bytes := entryWit 1 1 8192 0 0 0, done := 4096, span := 8192 } }]).dev.queue 63).cur =
      some { bytes := entryWit 1 1 8192 0 0 0, done := 4096, span := 8192 } := by
  repeat' apply And.intro
  all_goals decide +kernel

theorem witness_bar2AndVectors :
    (let d := (st [.tag 0x10000 0, .fld (R.GLB_WIN_SEL.BASE 0) 4]).dev; ∀ a ∈ (List.range 63).map (fun i => d.bar2Addr (0 + i)),
      (lineClass (a / 64)).any (fun x => !(x.1 == 3 && decide (49152 ≤ x.2.2))) = true ∧ d.tagOf (a / 64) = 0 ∧ (d.lineErrs (a / 64)).isEmpty = true) ∧
    (let d := (st [.tag 0x10000 1, .fld (R.GLB_WIN_SEL.BASE 0) 4]).dev; (∀ i, i < 63 → d.bar2Addr (0 + i) / 64 = 0x10000) ∧
      (lineClass 0x10000).any (fun x => !(x.1 == 3 && decide (49152 ≤ x.2.2))) = true ∧ d.tagOf 0x10000 ≠ 0) ∧
    (∀ b : Bool, let d := (st [.pba 2047 true, .fld (R.MSIX.WORD 2047 3) 0, .host { d3hot := b }]).dev; bget (fun _ => false) d.pba 2047 = true ∧ d.f (R.MSIX.WORD 2047 3) % 2 = 0 ∧ d.host.d3hot = b) ∧
    State.reset.dev.f (R.MSIX.WORD 2047 3) % 2 ≠ 0 := by
  repeat' apply And.intro
  all_goals decide +kernel

theorem witness_spdmAndCxl : State.reset.dev.domOn 2 = true ∧ (2 ^ 30 : BitVec 52).toNat = 2 ^ 30 ∧ (∀ k : Fin 4, (State.reset.dev.stream k).buffer = []) ∧
    (∀ w ∈ [2, 4, 8], [2, 4, 8].contains w = true) ∧ ([2, 4, 8].contains 1 = false ∧ [2, 4, 8].contains 3 = false ∧ [2, 4, 8].contains 0 = false) ∧
    (st [.img { act := some {} }]).dev.img.act.isSome = true ∧ (st [.fld R.LNK_CXL_STAT.UP 1]).dev.b R.LNK_CXL_STAT.UP = true ∧ State.reset.dev.b R.LNK_CXL_STAT.UP = false ∧ State.reset.dev.watchRuns = false ∧
    (st [.fld R.WATCH_STAT.STATE 1]).dev.watchRuns = true ∧ 0 < (1 : BitVec 16).toNat ∧ (st [.fld R.ECC_CXL_STAT.PRESENT 1]).dev.b R.ECC_CXL_STAT.PRESENT = true := by decide

/-- Port `p` in a phase of its bring-up that has just begun, with every lane of it as given. -/
def portWit (p ph : Nat) (x : Lane) (us : List Upd) : State :=
  st ([.fld R.TB_STAT.AWAKE 1, .time { ticks := 3000000, coarse := 3000000, fine := 3000000 }, .fld (R.LNK_PORT_STAT.PHASE p) ph, .portUp p { since := 2900000, doneSent := 64 },
    .fld (R.LNK_PORT_CAP.LANES p) 15, .fld (R.LNK_PORT_CAP.RATES p) 3, .fld (R.LNK_PORT_CAP.FORMATS p) 1, .fld (R.LNK_PORT_CAP.LINK p) (p / 8)] ++
    (List.range 4).flatMap (fun l => [.fld (R.LNK_LANE_STAT.LOCK p l) 1, .lane (4 * p + l) x]) ++ us)
def readyLane : Lane := { good := 64, lat := (90, 16), doneRx := true }
/-- A sweep that finds mismatches on the first and the last 12 steps of each of the three eyes. -/
def eyeWit : EyeSweep := List.replicate 3 (BitVec.ofNat 64 (2 ^ 12 - 1 + (2 ^ 12 - 1) * 2 ^ 52), 60)
theorem witness_eyes : eyeWidth eyeWit = 40 ∧ eyeWit ≠ [] ∧ eyeHeights eyeWit ≠ [] ∧ (List.replicate 4 eyeWit).length = 4 ∧
    eyeWidth ((BitVec.ofNat 64 (2 ^ 64 - 17), 1) :: eyeWit.drop 1) = 1 ∧
    eyeHeights ((BitVec.ofNat 64 (2 ^ 64 - 17), 1) :: eyeWit.drop 1) = [1] := by decide +kernel
theorem witness_serialLanes :
    (∀ ph : Fin 7, let d := (portWit 8 ph readyLane []).dev; d.mayTrain 8 = true ∧ d.age ≤ (d.portUp 8).since + d.phaseLimit 8 ∧ d.f (R.LNK_PORT_STAT.PHASE 8) = ph ∧
      (portLanes 8).any (fun l => d.b (R.LNK_LANE_STAT.LOCK 8 l)) = true ∧ (portLanes 8).all (fun l => decide (64 ≤ (d.lane (4 * 8 + l)).good) && decide (16 ≤ (d.lane (4 * 8 + l)).lat.2) && (d.lane (4 * 8 + l)).doneRx) = true ∧
      (portLanes 8).filter (fun l => d.b (R.LNK_LANE_STAT.LOCK 8 l) && (d.f (R.LNK_PORT_CAP.LANES 8)).testBit l) = [0, 1, 2, 3] ∧ 16 * (portLanes 8).length ≤ (d.portUp 8).doneSent ∧
      (d.lane 33).slow = false ∧ (d.f (R.LNK_PORT_CAP.RATES 8)).testBit 0 = true ∧ (d.f (R.LNK_PORT_CAP.FORMATS 8)).testBit 0 = true ∧ d.f (R.LNK_PORT_CAP.LINK 8) = 1) ∧
    (let d := (portWit 3 2 readyLane [.portUp 3 { since := 900000 }, .fld (R.LNK_PORT_STAT.SRC 3) 3]).dev; d.mayTrain 3 = true ∧ d.age ≤ (d.portUp 3).since + d.phaseLimit 3 ∧
      (d.portUp 3).since + equalTime (d.f (R.LNK_PORT_STAT.SRC 3)) ≤ d.age) ∧
    ({ trains := some (8, 16) } : Lane).sentTrain 12 = true ∧ ({ trains := some (8, 16) } : Lane).sentTrain 20 = false ∧
    cellGood 0 = false ∧ cellGood (sealCell (15 * 2 ^ 220 + 6 * 2 ^ 216)) = true ∧ sealCell (15 * 2 ^ 220 + 6 * 2 ^ 216) / 2 ^ 220 = 15 ∧
    (∀ b : Bool, let d := (portWit 3 1 {} [.portUp 3 { since := 0, slow := b }]).dev; d.mayTrain 3 = true ∧ (d.portUp 3).since + d.phaseLimit 3 < d.age ∧ (d.portUp 3).slow = b ∧ d.lockMask 3 ≠ 0) ∧
    (let d := (st [.fld R.TB_STAT.AWAKE 1, .fld (R.LNK_PORT_STAT.PHASE 3) 1, .time { ticks := 3000000 }, .portUp 3 { since := 0, slow := true }]).dev; d.mayTrain 3 = true ∧ (d.portUp 3).since + d.phaseLimit 3 < d.age ∧ d.lockMask 3 = 0) ∧
    (let d := (portWit 3 8 {} [.time { ticks := 300000000 }]).dev; d.mayTrain 3 = true ∧ d.f (R.LNK_PORT_STAT.PHASE 3) = 8 ∧ (d.portUp 3).since + 200000000 ≤ d.age) := by
  repeat' apply And.intro
  all_goals decide +kernel

theorem witness_laneService :
    (∀ r : Fin 2, let d := (portWit 3 7 {} [.fld (R.FAB_PORT_STAT.IN_SERVICE 3) 1, .fld R.GLB_RUN_STAT.RUNNING r, .lane 12 { low := 2 }]).dev; d.domOn (domainOf (R.LNK_PORT_CTL.RETRAIN 3).off) = true ∧ d.f (R.LNK_PORT_CTL.EN 3) < 2 ∧
      d.f (R.LNK_PORT_CTL.EXTENDED 3) < 2 ∧ d.running = (r == 1) ∧ d.b (R.LNK_PORT_CTL.EN 3) = true ∧ d.b (R.LNK_PORT_CTL.RETRAIN 3) = false ∧ d.b (R.LNK_LANE_STAT.LOCK 3 0) = true ∧
      d.b (R.FAB_PORT_STAT.IN_SERVICE 3) = true ∧ 3 ≤ (d.lane 12).low + 1 ∧ 0 < d.f R.LNK_SER_CTL.EYE_MIN ∧ (d.lane 12).adapt ≠ d.age * 28 / 65536 + 1 ∧ (d.lane 12).slow = false) ∧
    (portWit 3 5 {} []).dev.b (R.FAB_PORT_STAT.IN_SERVICE 3) = false ∧
    (let d := (st [.portUp 8 { factory := true, since := 7 }]).dev; d.running = false ∧ (d.portUp 8).factory = true ∧ d.keep.wear ≠ 2 ∧ d.keep.queue.length < 16 ∧ d.calib.presets.getD (d.f R.THM_STAT.BAND) none = none) := by
  repeat' apply And.intro
  all_goals decide +kernel

/-- A member of a Cupola in a state and a role, with its twin link in service. -/
def twinWit (state role : Nat) (us : List Upd) : State :=
  st ([.fld R.TB_STAT.AWAKE 1, .fld (R.FAB_PORT_STAT.IN_SERVICE 8) 1, .time { ticks := 300006000, coarse := 3000060, fine := 3000060 }, .fld R.TWIN_STAT.STATE state, .fld R.TWIN_STAT.ROLE role,
    .fld R.TWIN_STAT.SEL 15, .fld R.TWIN_STAT.PEER_QOK 5] ++ us)
def mirrorWit : Nat := sealCell (5 * 2 ^ 220 + 15 * 2 ^ 216 + 2 * 2 ^ 208 + (3000060 / 64 % 256) * 2 ^ 200 + 15 * 2 ^ 196 + 15 * 2 ^ 192)
theorem witness_twinPairing :
    (∀ r : Fin 2, let d := (twinWit 2 2 [.fld R.GLB_RUN_STAT.RUNNING r]).dev; d.domOn (domainOf R.TWIN_CTL.ATTACH.off) = true ∧ d.running = (r == 1) ∧ d.b R.TWIN_CTL.ATTACH = false ∧
      d.b R.TWIN_CTL.DETACH = false ∧ d.f R.TWIN_STAT.STATE ≠ 0 ∧ d.f R.TWIN_STAT.SEL < 16 ∧ d.twin.claim = none ∧ (d.power.svc && d.power.aon) = true) ∧
    (∀ b : Bool, let d := (twinWit 2 2 [.power { svc := b, aon := !b }]).dev; d.domOn (domainOf R.TWIN_CTL.ATTACH.off) = true ∧ (d.power.svc && d.power.aon) = false) ∧
    (let d := (twinWit 1 2 [.twin { leadHigh := some 5 }]).dev; d.twin.leadHigh = some 5 ∧ d.f R.TWIN_STAT.STATE = 1 ∧ d.f R.TWIN_STAT.ROLE = 2 ∧ 5 + d.f R.TWIN_CFG.SEL_SETTLE ≤ d.age) ∧
    (let d := (twinWit 1 1 [.fld R.TB_STAT.SYNC_OK 1, .fld (R.FAB_PORT_STAT.NBR_OK 8) 1, .fld R.TWIN_STAT.PEER_SEL 15, .twin { began := 299000000, peerRole := 2, pieces := [some 0, some 0, some 0, some 0] },
      .img { act := some { id := 0, flags := 1 } }]).dev; d.f R.TWIN_STAT.STATE = 1 ∧ d.attachWhy = 0 ∧ d.age ≤ d.twin.began + 200000000 ∧ d.keep.wear ≠ 2 ∧ d.keep.queue.length < 16) ∧
    (let d := (twinWit 1 1 [.twin { began := 0, last := 20 }]).dev; d.attachWhy ≠ 0 ∧ d.twin.began + 200000000 < d.age ∧ d.twin.last + d.f R.TWIN_CFG.HB_LIMIT ≤ d.age ∧ d.twin.began < d.twin.last) ∧
    (let d := (twinWit 2 1 []).dev; d.hears 8 = true ∧ d.readLine 8 1 (lineOf mirrorWit) = mirrorWit ∧ d.readLine 8 1 0 = 0 ∧ d.mirrorGood 1 (d.startTick 8 1) mirrorWit = true ∧ d.now.toNat ≤ d.startTick 8 1 + 160 ∧ d.twin.cells = [] ∧
      d.mirrorGood 1 (d.startTick 8 1) 0 = false ∧ d.twin.last + d.f R.TWIN_CFG.HB_LIMIT ≤ d.age ∧ d.f R.TWIN_STAT.STATE = 2) ∧
    (∀ l : Fin 2, let d := (twinWit 2 1 []).dev; let e := (twinWit 2 1 [.twin { cells := [(d.startTick 8 (1 + 2 * l), mirrorWit + 1)] }]).dev
      e.mirrorGood (1 + 2 * l) (e.startTick 8 (1 + 2 * l)) mirrorWit = true ∧ e.twin.cells = [(e.startTick 8 (1 + 2 * l), mirrorWit + 1)] ∧ mirrorWit + 1 ≠ mirrorWit ∧ e.now.toNat ≤ e.startTick 8 (1 + 2 * l) + 160) ∧
    State.reset.dev.checkLost 5 0 = false ∧
    (let d := (st [.keep { units := [(5, { role := 1, logical := 5, recs := [{ cls := 5, key := 0, seq := 4, body := [1], good := false, committed := true }] })] }]).dev; d.checkLost 5 0 = true ∧ d.keep.wear ≠ 2) ∧
    (let d := (twinWit 1 2 [.twin { cells := [(2999880, mirrorWit)] }]).dev; d.twin.cells = [(2999880, mirrorWit)] ∧ 2999880 + 180 ≤ d.now.toNat) := by
  repeat' apply And.intro
  all_goals decide +kernel

theorem witness_twinRequests :
    (∀ r : Fin 2, let d := (twinWit 2 2 [.fld R.GLB_RUN_STAT.RUNNING r, .twin { reqs := [(3000060, 2 * 2 ^ 55 + 63 * 2 ^ 49 + 15 * 2 ^ 45 + 3000060)] }]).dev; d.twin.reqs = [(d.now.toNat, 2 * 2 ^ 55 + 63 * 2 ^ 49 + 15 * 2 ^ 45 + 3000060 % 2 ^ 32)] ∧
      (d.eng 63).waiting = none ∧ d.running = (r == 1)) ∧
    (∀ b : Bool, let d := (twinWit 2 2 [.run { ended := if b then 3000059 else 0, afterEnd := b }]).dev; d.jumpOutlived = b) ∧
    (∀ m : Fin 2, let d := (twinWit 2 2 [.twin { own := [(31, 7, 8, 9)] }, .fld R.TWIN_CTL.ON_MISMATCH m]).dev; d.f R.TWIN_STAT.STATE = 2 ∧ d.b R.TWIN_CTL.ON_MISMATCH = (m == 1) ∧
      (d.twin.own ++ d.twin.peer).find? (fun x => x.1 == 31 && decide (x.2.2.2 + 65536 < d.age)) = some (31, 7, 8, 9)) ∧
    (∀ q : Fin 2, let d := (twinWit 2 1 [.fld (R.FLX_EVT.CLAMP_FAULT 3) 1, .fld (R.FLX_EVT.CLAMP_FAULT 13) 1]).dev; d.f R.TWIN_STAT.STATE = 2 ∧ d.f R.TWIN_STAT.ROLE = 1 ∧ d.twin.handed.testBit q = false ∧
      d.handoverDue q = true ∧ (d.f R.TWIN_STAT.PEER_QOK).testBit q = (q == 0)) := by
  repeat' apply And.intro
  all_goals decide +kernel

/-- The request mailbox with its arguments. -/
def mailWit (a0 a1 : Nat) (us : List Upd) : State := st ([.fld R.WATCH_STAT.STATE 1, .fld R.KEEP_STAT.READY 1, .fld R.WATCH_ARG0.ARG a0, .fld R.WATCH_ARG1.ARG a1] ++ us)
theorem witness_watchRequests :
    MailReady (mailWit 0x0102 0x106 []).dev ∧ (mailWit 0x0102 0x106 []).dev.f (R.MON_WIN.WARN 2) < 0x106 ∧ ¬ (mailWit 0x0102 0x83 []).dev.f (R.MON_WIN.WARN 2) < 0x83 ∧ MailReady (mailWit 0x0102 0x83 []).dev ∧
    MailReady (mailWit 0x0500 1 []).dev ∧ (∀ r : Fin 2, MailReady (mailWit 0x01FF 0x106 [.fld R.GLB_RUN_STAT.RUNNING r]).dev ∧ (mailWit 0x01FF 0x106 [.fld R.GLB_RUN_STAT.RUNNING r]).dev.running = (r == 1)) ∧
    (∀ w : Fin 3, MailReady (mailWit 6 0 [.keep { wear := w }]).dev ∧ (mailWit 6 0 [.keep { wear := w }]).dev.keep.wear = w) ∧ MailReady (mailWit 1 0 []).dev ∧ MailReady (mailWit 2 0 []).dev ∧
    (let d := (mailWit 1 0 [.calib { commits := [some 0, none, none, none, none] }]).dev; MailReady d ∧ (d.calib.commits.getD (d.f R.CAL_STAT.BAND) none).any (fun c => decide (d.age < c + 1200000000000)) = true) ∧
    (let d := (mailWit 0xFFFF 0xFFFF [.keep { queue := List.replicate 16 { cls := 7, key := 0, body := [] } }]).dev; MailReady d ∧ 16 ≤ d.keep.queue.length) ∧
    MailReady (mailWit 0x8000 5 []).dev ∧ (mailWit 0x8000 5 []).dev.faultsNow < 16 ∧
    (let d := (mailWit 0 0 [.keep { units := [(5, { role := 1, logical := 5, recs := [{ cls := 7, key := 0, seq := 4, body := [1], committed := true }] })] }]).dev; MailReady d ∧
      d.faults[0]? = some { cls := 7, key := 0, seq := 4, body := [1], committed := true }) ∧
    MailReady (mailWit 24 0xDEADBEEF []).dev ∧ (mailWit 24 0xDEADBEEF []).dev.identBody.length = 288 ∧
    (let d := (mailWit 0 0 [.fld R.WATCH_RESP.BUSY 1, .limit (some ⟨1, 2, 300⟩)]).dev; d.domOn (domainOf R.WATCH_REQ.GO.off) = true ∧ d.b R.WATCH_RESP.BUSY = true ∧ d.limit = some ⟨1, 2, 300⟩ ∧
      d.running = false ∧ d.b R.WATCH_REQ.GO = false ∧ d.limitOk 1 2 300 = true ∧ d.limitOk 1 2 3 = false) ∧
    (let d := (st [.fld R.WATCH_STAT.STATE 2]).dev; d.watchRuns = false ∧ d.b R.WATCH_RESP.BUSY = false ∧ d.b R.WATCH_REQ.GO = false) ∧
    (let d := (st [.keep { queue := [{ cls := 1, key := 0, body := [], seq := some 9, phase := 2 }] }]).dev; d.running = false ∧ d.st.begun = false ∧ d.keep.queue.head?.any (fun q => q.seq.isSome) = true) ∧
    State.reset.dev.running = false ∧ State.reset.dev.st.begun = false ∧ State.reset.dev.faultsNow < 16 := by
  unfold MailReady; repeat' apply And.intro
  all_goals decide +kernel

def powerWit (us : List Upd) : State := st ([.time { ticks := 3000000, coarse := 3000000, fine := 2000 }, .fld R.WATCH_STAT.STATE 1, .fld R.KEEP_STAT.READY 1, .fld R.TB_STAT.REF_OK 1] ++ us)
theorem witness_powerDomains :
    (powerWit [.keep { flight := some { what := .com, unit := 4095 } }]).dev.keep.flight = some { what := .com, unit := 4095 } ∧ State.reset.dev.keep.flight = none ∧
    (∀ b : Bool, (powerWit [.power { pwrfailN := b }]).dev.power.pwrfailN = b ∧ (powerWit [.power { perstHigh := b }]).dev.power.perstHigh = b ∧ (powerWit [.power { por := b }]).dev.power.por = b) ∧
    (∀ k : Fin 5, (powerWit [.power { upStep := k }]).dev.power.upStep = k ∧ (powerWit [.power { upStep := k }]).dev.power.por = false) ∧
    (∀ w : Fin 2, let d := (powerWit [.fld R.PWR_DOM_STAT.ON (0x7FFFFF + 2 ^ 23 * (1 - w)), .fld R.PWR_TILE_CTL.EN (0x7FFF + 2 ^ 15 * w)]).dev; d.running = false ∧ d.b R.GLB_RUN_STAT.PENDING = false ∧
      d.b R.THM_STAT.SHUTDOWN = false ∧ (d.f R.PWR_TILE_CTL.EN).testBit 15 = (w == 1) ∧ d.pairUp 15 = (w == 0) ∧
      (List.range 15).any (fun j => (d.f R.PWR_TILE_CTL.EN).testBit j && !d.pairUp j) = false ∧ d.waitsDrain 30 = false ∧ d.waitsDrain 31 = false) ∧
    (let d := (powerWit [.fld R.PWR_DOM_STAT.ON 0xFF, .fld R.PWR_TILE_CTL.EN 0xFFFF]).dev; (List.range 15).any (fun j => (d.f R.PWR_TILE_CTL.EN).testBit j && !d.pairUp j) = true) ∧
    (powerWit [.power { ups := [15, 0] }]).dev.power.ups.head? = some 15 := by
  repeat' apply And.intro
  all_goals decide +kernel

theorem witness_wakesAndSleeps :
    State.reset.dev.domOn (domainOf R.PWR_CTL.WAKE.off) = true ∧ (∀ k : Fin 4, (powerWit [.fld R.PWR_STAT.STATE k]).dev.f R.PWR_STAT.STATE = k ∧ (powerWit [.fld R.PWR_STAT.STATE k]).dev.b R.PWR_CTL.SLEEP = false) ∧
    (powerWit []).dev.mayRest = true ∧ (powerWit [.fld R.GLB_RUN_STAT.RUNNING 1]).dev.mayRest = false ∧
    (let d := (powerWit [.power { wakeReq := true, atEdge := true }]).dev; d.f R.PWR_STAT.STATE = 0 ∧ d.power.wakeReq = true ∧ d.wakeMiss = 0 ∧ d.power.atEdge = true ∧ d.domOn 4 = true ∧ d.again.contains R.PWR_CTL.WAKE.key = false) ∧
    (powerWit []).dev.b R.TB_STAT.LOCKED = false ∧
    (∀ g : Fin 9, let d := (powerWit [.fld R.PWR_STAT.STATE 1, .fld R.TB_STAT.LOCKED 1, .power { clocks := 2 ^ g.val - 1 }]).dev; d.f R.PWR_STAT.STATE = 1 ∧ d.b R.TB_STAT.LOCKED = true ∧ d.power.clocks = 2 ^ g.val - 1 ∧
      d.power.lockAt + 4000 * g.val ≤ d.age) ∧
    (let d := (powerWit [.fld R.PWR_STAT.STATE 1, .power { clocks := 511, atEdge := true }]).dev; d.power.clocks = 2 ^ 9 - 1 ∧ d.power.atEdge = true ∧ d.power.clkAt < d.age ∧ d.st.wait = false ∧
      d.b (R.LNK_PORT_CTL.EN 8) = true ∧ d.running = false) ∧
    (let d := (powerWit [.fld R.PWR_STAT.STATE 2, .fld R.PWR_CTL.SLEEP 1, .power { idle := 200000 }]).dev; d.f R.PWR_STAT.STATE = 2 ∧ d.b R.PWR_CTL.AUTO_SLEEP = true ∧ d.b R.PWR_CTL.SLEEP = true ∧ d.mayRest = true ∧
      2000 * d.f R.PWR_CTL.SLEEP_DELAY ≤ d.power.idle ∧ d.again.contains R.PWR_CTL.SLEEP.key = false ∧ d.thermal.rateT0 = none) ∧
    (let d := (powerWit [.fld R.PWR_STAT.STATE 3, .thermal { rateT0 := some 5 }]).dev; d.f R.PWR_STAT.STATE = 3 ∧ d.thermal.rateT0.isSome = true ∧ d.f R.TWIN_STAT.STATE ≠ 2) ∧
    (0x8000D5E7 : Word).getLsbD 31 = true ∧ (0x8000D5E7 : Word).toNat % 65536 = 0xD5E7 ∧ (0x80001234 : Word).toNat % 65536 ≠ 0xD5E7 ∧ (0xD5E7 : Word).getLsbD 31 = false ∧
    (let d := (st [.queue 63 { cur := some { bytes := 3 :: List.replicate 63 0 } }]).dev; ∃ e, (d.queue 63).cur = some e ∧ rb e.bytes 0 = 3 ∧ rb e.bytes 28 < 5) ∧
    (∀ q : Fin 64, (State.reset.dev.queue q).cur = none) ∧ State.reset.dev.domOn 0 = true ∧ (st [.fld R.PWR_DOM_STAT.ON 0]).dev.domOn 0 = false ∧
    State.reset.dev.domOn (domainOf R.PWR_RST_CTL.DEVICE.off) = true ∧ State.reset.dev.b R.CAL_STAT.INITIAL = false ∧ State.reset.dev.b R.CAL_STAT.FG_BUSY = false := by
  repeat' apply And.intro
  all_goals decide +kernel

theorem witness_resetsAndSelfTest :
    (powerWit [.power { reset := some (2, false) }]).dev.power.reset = some (2, false) ∧ (∀ b : Bool, (powerWit [.power { svc := b }]).dev.power.svc = b) ∧
    (∀ b : Bool, let x : KFlight := { what := if b then .fwErase true else .fwPage 3 1 [7], unit := 7 }
      (powerWit [.keep { flight := some x, held := b }]).dev.keep.flight = some x ∧ (powerWit [.keep { flight := some x, held := b }]).dev.keep.held = b) ∧
    (let d := (powerWit [.keep { head := 7, queue := [{ cls := 1, key := 2, body := [], phase := 2 }], units := [(7, { role := 1, logical := 7, recs := [{ cls := 1, key := 2, seq := 3, body := [] }] })] }]).dev;
      d.keep.queue.head? = some { cls := 1, key := 2, body := [], phase := 2 } ∧ (d.unit d.keep.head).recs.getLast? = some { cls := 1, key := 2, seq := 3, body := [] }) ∧
    (powerWit [.keep { flight := some { what := .erase, unit := 4000 } }]).dev.keep.flight = some { what := .erase, unit := 4000 } ∧
    State.reset.dev.domOn (domainOf R.GLB_ST_REQ.GO.off) = true ∧ bitsOf (0x80013181 : Word).toNat 11 8 < 2 ∧ bitsOf (0x80013181 : Word).toNat 15 12 < 4 ∧
    (∀ a : Fin 2, let d := (powerWit [.fld R.TB_STAT.AWAKE a]).dev; d.running = false ∧ d.b R.GLB_RUN_STAT.PENDING = false ∧ d.b R.CAL_STAT.FG_BUSY = false ∧
      d.b R.CAL_STAT.INITIAL = false ∧ d.b R.GLB_ST_STAT.BUSY = false ∧ d.st.later = none ∧ d.b R.TB_STAT.AWAKE = (a == 1)) ∧
    (∀ k : Fin 4, (powerWit [.fld R.PWR_STAT.STATE k]).dev.f R.PWR_STAT.STATE = k) ∧ (powerWit [.fld R.CAL_STAT.INITIAL 1]).dev.b R.CAL_STAT.INITIAL = true ∧
    (let d := (powerWit [.fld R.ECC_CXL_STAT.PRESENT 1, .fld (R.ACQ_STRM_STAT.ACTIVE 3) 1]).dev; d.b R.ECC_CXL_STAT.PRESENT = true ∧ d.f R.GLB_ST_CXL_LEN.LEN = 0 ∧ d.streaming = true) ∧
    (let d := (powerWit [.st { later := some (67, 1, 2, true) }]).dev; d.st.later = some (67, 1, 2, true) ∧ d.f R.CAL_REQ_STAT.PENDING = 0 ∧ d.b R.CAL_STAT.INITIAL = false ∧ d.endTick = false ∧ Nat.testBit 67 5 = false ∧ Nat.testBit 67 2 = false ∧
      Nat.testBit 67 3 = false ∧ 67 % 128 ≠ 0) ∧
    (∀ k : Fin 8, let d := (powerWit [.st { begun := true, tests := 256 - 2 ^ k.val }]).dev; d.st.begun = true ∧ d.st.tests < 256 ∧ d.st.tests.testBit k = true ∧ d.st.tests % 2 ^ k.val = 0 ∧
      d.b R.GLB_ST_STAT.DEFERRED = false ∧ d.tileOn 31 = true ∧ d.st.held = []) := by
  repeat' apply And.intro
  all_goals decide +kernel

/-- Test `k` is in front, of a CXL window of two lines; and a read of its first word that is not what the test wrote. -/
def testWit (k : Nat) (stop : Bool) : Device := (powerWit [.st { begun := true, tests := 2 ^ k, stop := stop, win := (4096, 128) }]).dev
def badItem (k : Nat) (poison : Bool) : TestItem := .read 1 0 (BitVec.ofNat 41 (((testWit k false).testUnits k).head?.map (fun u => 64 * u.2.1)).get!) 3 0 poison
theorem witness_selftestItems :
    (∀ k : Fin 6, (testWit k false).badReads k [] = [] ∧ ((testWit k false).badReads k [badItem k (k == 5)]).length = 1 ∧
      ((firstRead ((testWit k true).badReads k [badItem k false])).map (fun b => (b.elem, b.op, decide (b.data = 0)))) = some (1, 0, false)) ∧
    (((testWit 5 false).badReads 5 [badItem 5 true]).any BadRead.poison) = true ∧
    (([TestItem.tone 159 (-300) 0].filterMap (testWit 6 false).convFails).filter (testWit 6 false).tileOn) = [31] ∧
    [TestItem.tone 159 (-300) (-10000)].filterMap (testWit 7 false).laneFails = [] ∧
    ([TestItem.lane 19 true 64].filterMap (testWit 7 false).laneFails) = [19] ∧ [TestItem.lane 19 false 64].filterMap (testWit 7 false).laneFails = [] := by
  decide +kernel

end Sys2Proof.Tests
end

section
/-! SUPPORT. What the report of an access error changes: the fields it writes (R14, R15, R24), and that beside the register file it touches the pending
vectors and the note of the clock's events alone. -/
namespace Sys2Proof.Machine

variable {d0 : Device}

/-! Fields that a run of operations leaves alone -/

theorem OnlyFields.refl (Gs : List Fld) (d : Device) : OnlyFields Gs d d := fun _ _ => rfl

/-- A longer list of fields that may have changed says less. -/
theorem OnlyFields.mono {Gs Hs : List Fld} {d e : Device} (h : OnlyFields Gs d e) (hs : Gs ⊆ Hs) : OnlyFields Hs d e :=
  fun F hF => h F (fun hm => hF (List.map_subset _ hs hm))

theorem OnlyFields.trans {Gs Hs : List Fld} {d e g : Device} (h : OnlyFields Gs d e) (h' : OnlyFields Hs e g) : OnlyFields (Gs ++ Hs) d g := by
  intro F hF
  rw [List.map_append, List.mem_append, not_or] at hF
  rw [h' F hF.2, h F hF.1]

theorem Tx.w_onlyFields (t : Tx d0) (F : Fld) (v : Nat) : OnlyFields [F] t.d (t.w F v).d :=
  fun G hG => t.w_f_other F G v (by simpa using hG)

theorem Tx.ev_onlyFields (t : Tx d0) (F : Fld) : OnlyFields [F] t.d (t.ev F).d := fun G hG => t.ev_f_other F G (by simpa using hG)

/-- A run of events changes their own bits alone. -/
theorem Tx.each_ev_onlyFields (t : Tx d0) (Es : List Fld) : OnlyFields Es t.d (t.each Es (fun F t => t.ev F)).d := by
  induction Es generalizing t with
  | nil => exact .refl _ _
  | cons E r ih => exact (t.ev_onlyFields E).trans (ih (t.ev E))

/-! Beside the register file -/

/-- From `d` to `e` nothing may have changed but the register file, the pending vectors and the note of the clock's events. -/
def RegFileOnly (d e : Device) : Prop := ∃ flds pba evNow, e = { d with flds := flds, pba := pba, evNow := evNow }

theorem RegFileOnly.refl (d : Device) : RegFileOnly d d := ⟨_, _, _, rfl⟩

theorem RegFileOnly.trans {d e g : Device} (h : RegFileOnly d e) (h' : RegFileOnly e g) : RegFileOnly d g := by
  obtain ⟨_, _, _, rfl⟩ := h
  obtain ⟨_, _, _, rfl⟩ := h'
  exact ⟨_, _, _, rfl⟩

theorem Tx.w_regFileOnly (t : Tx d0) (F : Fld) (v : Nat) : RegFileOnly t.d (t.w F v).d := ⟨_, _, _, rfl⟩

theorem Tx.ev_regFileOnly (t : Tx d0) (F : Fld) : RegFileOnly t.d (t.ev F).d := ⟨_, _, _, t.ev_frame F⟩

theorem Tx.each_ev_regFileOnly (t : Tx d0) (Es : List Fld) : RegFileOnly t.d (t.each Es (fun F t => t.ev F)).d :=
  Tx.each_keeps (fun u => RegFileOnly t.d u.d) t Es _ (.refl _) (fun F _ u hu => hu.trans (u.ev_regFileOnly F))

/-- From `d` to `e` nothing may have changed but the register file and the held low words. -/
def WordsOnly (d e : Device) : Prop := ∃ flds held, e = { d with flds := flds, held := held }

theorem WordsOnly.trans {d e g : Device} (h : WordsOnly d e) (h' : WordsOnly e g) : WordsOnly d g := by
  obtain ⟨_, _, rfl⟩ := h
  obtain ⟨_, _, rfl⟩ := h'
  exact ⟨_, _, rfl⟩

theorem Tx.w_wordsOnly (t : Tx d0) (F : Fld) (v : Nat) : WordsOnly t.d (t.w F v).d := ⟨_, _, rfl⟩

theorem Tx.held_wordsOnly (t : Tx d0) (off : Nat) (v : Option Nat) : WordsOnly t.d (t.upd (.held off v)).d := ⟨_, _, rfl⟩

/-! The report of an access -/

/-- The bits of GLB_ACC_ERR that name an error of one access (R24): all but MULTI. -/
def accErrs : List Fld := [R.GLB_ACC_ERR.OFF, R.GLB_ACC_ERR.RSVD_ENC, R.GLB_ACC_ERR.UNMAPPED, R.GLB_ACC_ERR.NARROW]

theorem accErrs_width : ∀ E ∈ accErrs, E.width = 1 := by decide

theorem accErrs_key_ne : ∀ E ∈ accErrs, R.GLB_ACC_ERR.MULTI.key ≠ E.key ∧ R.GLB_ACC_ADDR.OFFSET.key ≠ E.key := by decide

theorem accErrs_key_inj : ∀ E ∈ accErrs, ∀ G ∈ accErrs, E.key = G.key → E = G := by decide

/-- An error bit that is set stays set when an error is reported. -/
theorem Tx.ev_accErr_keeps (t : Tx d0) {E G : Fld} (hE : E ∈ accErrs) (hG : G ∈ accErrs) (h : t.d.f E = 1) : (t.ev G).d.f E = 1 := by
  by_cases hk : E.key = G.key
  · rw [accErrs_key_inj E hE G hG hk]
    exact t.ev_f_same G (accErrs_width G hG)
  · rw [t.ev_f_other G E hk, h]

/-- Errors reported in a run are all set at its end. -/
theorem Tx.each_ev_accErr (t : Tx d0) (Es : List Fld) (hs : Es ⊆ accErrs) : ∀ E ∈ Es, (t.each Es (fun F t => t.ev F)).d.f E = 1 := by
  induction Es generalizing t with
  | nil => simp
  | cons G r ih =>
    obtain ⟨hG, hr⟩ := List.cons_subset.mp hs
    intro E hE
    rcases List.mem_cons.mp hE with rfl | hE
    · exact Tx.each_keeps (fun u => u.d.f E = 1) (t.ev E) r _ (t.ev_f_same E (accErrs_width E hG))
        (fun F hF u hu => u.ev_accErr_keeps hG (hr hF) hu)
    · exact ih (t.ev G) hr E hE

/-- What the report of the errors `Es` of one access at `off` makes of the register fields (R24): the bits are set, and the offset is captured unless an
error stands, when MULTI is set instead. -/
structure Reports (off : Nat) (Es : List Fld) (d e : Device) : Prop where
  set : ∀ E ∈ Es, e.f E = 1
  addr : e.f R.GLB_ACC_ADDR.OFFSET = if d.errStands then d.f R.GLB_ACC_ADDR.OFFSET else off % 2 ^ 24
  multi : e.f R.GLB_ACC_ERR.MULTI = if d.errStands then 1 else d.f R.GLB_ACC_ERR.MULTI
  only : OnlyFields (Es ++ [R.GLB_ACC_ERR.MULTI, R.GLB_ACC_ADDR.OFFSET]) d e

/-- A report speaks of register fields alone. -/
theorem Reports.of_flds_eq {off : Nat} {Es : List Fld} {d d' e e' : Device} (h : Reports off Es d e) (hd : d'.flds = d.flds) (he : e'.flds = e.flds) :
    Reports off Es d' e' := by
  have hdf : d'.f = d.f := by funext F; simp only [Device.f, hd]
  have hef : e'.f = e.f := by funext F; simp only [Device.f, he]
  have hst : d'.errStands = d.errStands := by simp only [Device.errStands, Device.b, hdf]
  constructor
  · simpa only [hef] using h.set
  · simpa only [hef, hdf, hst] using h.addr
  · simpa only [hef, hdf, hst] using h.multi
  · simpa only [OnlyFields, hef, hdf] using h.only

/-- An offset of BAR0 is captured whole. -/
theorem Reports.addr_bar0 {off : Nat} {Es : List Fld} {d e : Device} (h : Reports off Es d e) (hb : off < bar4) :
    e.f R.GLB_ACC_ADDR.OFFSET = if d.errStands then d.f R.GLB_ACC_ADDR.OFFSET else off :=
  (Nat.mod_eq_of_lt hb : off % 2 ^ 24 = off) ▸ h.addr

/-- What the report of one or more errors of an access does. -/
theorem Tx.accErr_reports (t : Tx d0) (off : Nat) {Es : List Fld} (hs : Es ⊆ accErrs) (hne : Es ≠ []) :
    Reports off Es t.d (t.accErr off Es).d ∧ RegFileOnly t.d (t.accErr off Es).d := by
  have hset := t.each_ev_accErr Es hs
  have honly := t.each_ev_onlyFields Es
  have hframe := t.each_ev_regFileOnly Es
  have hM : R.GLB_ACC_ERR.MULTI.key ∉ Es.map Fld.key := by
    simpa using fun E hE => (accErrs_key_ne E (hs hE)).1.symm
  have hA : R.GLB_ACC_ADDR.OFFSET.key ∉ Es.map Fld.key := by
    simpa using fun E hE => (accErrs_key_ne E (hs hE)).2.symm
  generalize hu : t.each Es (fun F t => t.ev F) = u at hset honly hframe
  have hacc : t.accErr off Es = if t.d.errStands then u.ev R.GLB_ACC_ERR.MULTI else u.w R.GLB_ACC_ADDR.OFFSET off := by
    simp only [Tx.accErr, hu, List.isEmpty_iff, hne, if_false]
  rw [hacc]
  cases hst : t.d.errStands with
  | true =>
    rw [if_pos rfl]
    have hev := u.ev_onlyFields R.GLB_ACC_ERR.MULTI
    refine ⟨⟨fun E hE => ?_, ?_, ?_, (honly.trans hev).mono (by simp)⟩, hframe.trans (u.ev_regFileOnly _)⟩
    · rw [hev E (by simpa using (accErrs_key_ne E (hs hE)).1.symm), hset E hE]
    · rw [hev _ (by decide), honly _ hA, hst, if_pos rfl]
    · rw [u.ev_f_same _ (by decide), hst, if_pos rfl]
  | false =>
    rw [if_neg Bool.false_ne_true]
    have hw := u.w_onlyFields R.GLB_ACC_ADDR.OFFSET off
    refine ⟨⟨fun E hE => ?_, ?_, ?_, (honly.trans hw).mono (by simp)⟩, hframe.trans (u.w_regFileOnly _ _)⟩
    · rw [hw E (by simpa using (accErrs_key_ne E (hs hE)).2.symm), hset E hE]
    · rw [Tx.w_f_same, hst, if_neg Bool.false_ne_true]; rfl
    · rw [hw _ (by decide), honly _ hM, hst, if_neg Bool.false_ne_true]

/-- An access of BAR0 reports its errors in GLB_ACC_ERR. -/
theorem Tx.report_bar0 (t : Tx d0) {off : Nat} (h : off < bar4) (Es : List Fld) : t.report off Es = t.accErr off Es := if_neg (by omega)

end Sys2Proof.Machine
end

section
/-! SUPPORT. Host accesses case by case: an access with errors is discarded and reported; else a read answers the register's word and latches its group
(R12), and a write of a word is held, joins the word held before it (R13), or stands alone. -/
namespace Sys2Proof.Machine

variable {d0 : Device}

/-! The frame of an access -/

/-- The device as a host access finds it: what the last command sent out is cleared, and W1S bits that an earlier access found standing are done with. -/
def Tx.accessed (d : Device) : Tx d := (Tx.start d).upd (.again [])

theorem applyUpd_latch_d (d : Device) (off : Nat) (v : Option Nat) :
    applyUpd d (.latch off v) = { d with latch := bset (fun _ => none) d.latch off v } := by rfl

theorem applyUpd_out_d (d : Device) (o : Out) : applyUpd d (.out o) = { d with out := d.out ++ [o] } := by rfl

theorem Tx.accessed_d (d : Device) : (Tx.accessed d).d = { d with out := [], again := [] } := by rfl

@[simp] theorem Tx.accessed_f (d : Device) (F : Fld) : (Tx.accessed d).d.f F = d.f F := rfl
@[simp] theorem Tx.accessed_evNow (d : Device) : (Tx.accessed d).d.evNow = d.evNow := rfl
@[simp] theorem Tx.accessed_domOn (d : Device) (k : Nat) : (Tx.accessed d).d.domOn k = d.domOn k := rfl
@[simp] theorem Tx.accessed_errStands (d : Device) : (Tx.accessed d).d.errStands = d.errStands := rfl
@[simp] theorem Tx.accessed_accFaults (d : Device) (off : Nat) (narrow : Bool) : (Tx.accessed d).d.accFaults off narrow = d.accFaults off narrow := rfl
@[simp] theorem Tx.accessed_readWord (d : Device) (r : RegAt) (off : Nat) : (Tx.accessed d).d.readWord r off = d.readWord r off := rfl
@[simp] theorem Tx.accessed_liveAt (d : Device) (off : Nat) : (Tx.accessed d).d.liveAt off = d.liveAt off := rfl

/-- The state once a host access has left the device as `d`: events up to here fall on an earlier clock than the next access (R21). -/
def State.afterAccess (s : State) (d : Device) : State := { s with dev := { d with evNow := [] } }

/-- An access that touches the register file and the pending vectors alone. -/
theorem State.afterAccess_of_regFileOnly (s : State) {d : Device} (h : RegFileOnly (Tx.accessed s.dev).d d) :
    s.afterAccess d = { s with dev := { s.dev with flds := d.flds, again := [], evNow := [], out := [], pba := d.pba } } := by
  obtain ⟨_, _, _, rfl⟩ := h
  rfl

/-- An access that touches the register file and the pending vectors alone, and sends something out. -/
theorem State.afterAccess_send (s : State) {u : Tx s.dev} (h : RegFileOnly (Tx.accessed s.dev).d u.d) (o : Out) :
    s.afterAccess (u.send o).d = { s with dev := { s.dev with flds := u.d.flds, again := [], evNow := [], out := [o], pba := u.d.pba } } := by
  obtain ⟨_, _, _, hu⟩ := h
  rw [Tx.send, Tx.upd_d, hu]
  rfl

/-- An access that only reads. -/
theorem State.afterAccess_read (s : State) (o : Out) :
    s.afterAccess ((Tx.accessed s.dev).send o).d = { s with dev := { s.dev with again := [], evNow := [], out := [o] } } := by
  rw [Tx.send, Tx.upd_d, applyUpd_out_d, Tx.accessed_d]
  rfl

/-- An access that reads a word and latches one other. -/
theorem State.afterAccess_latch (s : State) (o : Out) (off : Nat) (v : Option Nat) :
    s.afterAccess (((Tx.accessed s.dev).upd (.latch off v)).send o).d =
      { s with dev := { s.dev with latch := bset (fun _ => none) s.dev.latch off v, again := [], evNow := [], out := [o] } } := by
  rw [Tx.send, Tx.upd_d, Tx.upd_d, applyUpd_out_d, applyUpd_latch_d, Tx.accessed_d]
  rfl

/-- An access that touches register fields and held words alone. -/
theorem State.afterAccess_of_wordsOnly (s : State) {d : Device} (h : WordsOnly (Tx.accessed s.dev).d d) :
    s.afterAccess d = { s with dev := { s.dev with flds := d.flds, held := d.held, again := [], evNow := [], out := [] } } := by
  obtain ⟨_, _, rfl⟩ := h
  rfl

theorem exec_regWrite (s : State) (off : BitVec 25) (be : BitVec 4) (data : Word) :
    exec (.regWrite off be data) s = .next (s.afterAccess ((Tx.accessed s.dev).hostWrite off.toNat be.toNat data.toNat).d) := by rfl

/-- A write of a whole word. -/
theorem exec_wordWrite (s : State) (off : BitVec 25) (data : Word) :
    exec (.regWrite off 15 data) s = .next (s.afterAccess ((Tx.accessed s.dev).hostWrite off.toNat 15 data.toNat).d) := by rfl

theorem exec_lowWordWrite (s : State) (off : BitVec 25) (be : BitVec 4) (data : Word) :
    exec (.lowWordWrite off be data) s = exec (.regWrite off be data) s := rfl

theorem exec_highWordWrite (s : State) (off : BitVec 25) (be : BitVec 4) (data : Word) :
    exec (.highWordWrite off be data) s = exec (.regWrite off be data) s := rfl

theorem exec_lowWordRead (s : State) (off : BitVec 25) :
    exec (.lowWordRead off) s =
      .next (s.afterAccess (((Tx.accessed s.dev).hostRead off.toNat).2.send (.read ((Tx.accessed s.dev).hostRead off.toNat).1)).d) := by rfl

theorem exec_unmappedRead (s : State) (off : BitVec 25) : exec (.unmappedRead off) s = exec (.lowWordRead off) s := rfl

/-! Accesses with errors (R9, R14, R15, R698) -/

theorem pbaWord_bar0 {off : Nat} (h : off < bar4) : pbaWord off = none := if_neg (by simp; omega)

/-- The errors of an access of BAR0. -/
theorem Device.accFaults_bar0 (d : Device) {off : Nat} (h : off < bar4) (narrow : Bool) :
    d.accFaults off narrow = (if narrow then [R.GLB_ACC_ERR.NARROW] else []) ++
      (if (regAt off).isNone then [R.GLB_ACC_ERR.UNMAPPED] else if d.domOn (domainOf off) then [] else [R.GLB_ACC_ERR.OFF]) := by
  simp [Device.accFaults, pbaWord_bar0 h]

/-- A whole-word access of a register in a domain that is on has no error. -/
theorem Device.accFaults_on (d : Device) {off : Nat} {r : RegAt} (hr : regAt off = some r) (hon : d.domOn (domainOf off) = true) :
    d.accFaults off false = [] := by
  simp [Device.accFaults, hr, hon]

theorem Device.accFaults_subset (d : Device) (off : Nat) (narrow : Bool) : d.accFaults off narrow ⊆ accErrs := by
  unfold Device.accFaults
  refine List.append_subset.mpr ⟨?_, ?_⟩
  · split <;> decide
  · split
    · decide
    · split <;> decide

theorem Tx.hostWrite_faulty (t : Tx d0) {off be : Nat} (data : Nat) (h4 : off % 4 = 0) (hne : t.d.accFaults off (be != 15) ≠ []) :
    t.hostWrite off be data = t.report off (t.d.accFaults off (be != 15)) := by
  have h : off / 4 * 4 = off := by omega
  cases he : t.d.accFaults off (be != 15) with
  | nil => exact absurd he hne
  | cons E Es => simp only [Tx.hostWrite, h, he]

theorem Tx.hostRead_faulty (t : Tx d0) {off : Nat} (h4 : off % 4 = 0) (hne : t.d.accFaults off false ≠ []) :
    t.hostRead off = (0, t.report off (t.d.accFaults off false)) := by
  have h : off / 4 * 4 = off := by omega
  cases he : t.d.accFaults off false with
  | nil => exact absurd he hne
  | cons E Es => simp only [Tx.hostRead, h, he]

/-- An access at `off` with the errors `Es` did nothing from `s` to `t` but report them and send `outs`. -/
structure Discarded (off : Nat) (Es : List Fld) (outs : List Out) (s t : State) : Prop where
  out : t.dev.out = outs
  reports : Reports off Es s.dev t.dev
  frame : t = { s with dev := { s.dev with flds := t.dev.flds, again := [], evNow := [], out := outs, pba := t.dev.pba } }

section
variable (s : State) {off : BitVec 25} {Es : List Fld} (h4 : off.toNat % 4 = 0) (hb : off.toNat < bar4) (hne : Es ≠ [])
include h4 hb hne

/-- A write of BAR0 that has errors is discarded. -/
theorem exec_regWrite_faulty {be : BitVec 4} (data : Word) (hE : s.dev.accFaults off.toNat (be.toNat != 15) = Es) :
    ∃ t, exec (.regWrite off be data) s = .next t ∧ Discarded off.toNat Es [] s t := by
  subst hE
  obtain ⟨hrep, honly⟩ := (Tx.accessed s.dev).accErr_reports off.toNat (s.dev.accFaults_subset off.toNat (be.toNat != 15)) hne
  have hframe := s.afterAccess_of_regFileOnly honly
  rw [← Tx.accessed_accFaults] at hne
  rw [exec_regWrite, Tx.hostWrite_faulty _ _ h4 hne, Tx.report_bar0 _ hb, Tx.accessed_accFaults]
  exact ⟨_, rfl, by rw [hframe], hrep.of_flds_eq rfl rfl, hframe⟩

/-- A read of BAR0 that has errors answers 0. -/
theorem exec_lowWordRead_faulty (hE : s.dev.accFaults off.toNat false = Es) :
    ∃ t, exec (.lowWordRead off) s = .next t ∧ Discarded off.toNat Es [.read 0] s t := by
  subst hE
  obtain ⟨hrep, honly⟩ := (Tx.accessed s.dev).accErr_reports off.toNat (s.dev.accFaults_subset off.toNat false) hne
  have hframe := s.afterAccess_send honly (.read 0)
  rw [← Tx.accessed_accFaults] at hne
  rw [exec_lowWordRead, Tx.hostRead_faulty _ h4 hne]
  simp only [Tx.report_bar0 _ hb, Tx.accessed_accFaults]
  exact ⟨_, rfl, by rw [hframe], hrep.of_flds_eq rfl rfl, hframe⟩

end

/-! Reads (R12) -/

theorem Tx.hostRead_on (t : Tx d0) {off : Nat} {r : RegAt} (h4 : off % 4 = 0) (hr : regAt off = some r) (hon : t.d.domOn (domainOf off) = true) :
    t.hostRead off = t.readReg r off := by
  have h : off / 4 * 4 = off := by omega
  simp only [Tx.hostRead, h, t.d.accFaults_on hr hon, hr]

theorem Tx.readReg_of_ne_qstat (t : Tx d0) {r : RegAt} (off : Nat) (h : r.reg ≠ .GLB_UNIT_QSTAT) :
    t.readReg r off = (t.d.readWord r off, t.each (latchedBy r off) (fun o t => t.upd (.latch o (some (t.d.liveAt o))))) := if_neg h

theorem latchedBy_lowWord {r : RegAt} (h : lowWord r.reg = true) (off : Nat) : latchedBy r off = [off + 4] := if_pos h

theorem lowWord_ne_qstat {r : Reg} (h : lowWord r = true) : r ≠ .GLB_UNIT_QSTAT := by
  rintro rfl
  exact absurd h (by decide)

theorem Device.readWord_live (d : Device) (r : RegAt) {off : Nat} (h : bget (fun _ => none) d.latch off = none) : d.readWord r off = d.live32 r := by
  simp only [Device.readWord, h]

theorem Device.readWord_latched (d : Device) {r : RegAt} {off w : Nat} (h : bget (fun _ => none) d.latch off = some w) (hr : r.reg ≠ .RD_DSTAT) :
    d.readWord r off = w := by
  simp only [Device.readWord, h, hr, if_false]

/-- A read of a register in a domain that is on sends its word, and latches the offsets of its group. -/
theorem exec_lowWordRead_on (s : State) {off : BitVec 25} {r : RegAt} (h4 : off.toNat % 4 = 0) (hr : regAt off.toNat = some r)
    (hon : s.dev.domOn (domainOf off.toNat) = true) (hq : r.reg ≠ .GLB_UNIT_QSTAT) :
    exec (.lowWordRead off) s =
      .next (s.afterAccess (((Tx.accessed s.dev).each (latchedBy r off.toNat) (fun o t => t.upd (.latch o (some (t.d.liveAt o))))).send
        (.read (s.dev.readWord r off.toNat))).d) := by
  rw [← Tx.accessed_domOn] at hon
  rw [exec_lowWordRead, (Tx.accessed s.dev).hostRead_on h4 hr hon, Tx.readReg_of_ne_qstat _ _ hq, Tx.accessed_readWord]

/-! Writes (R13) -/

section
variable (t : Tx d0) {off : Nat} (data : Nat) {r : RegAt} (h4 : off % 4 = 0) (hr : regAt off = some r) (hon : t.d.domOn (domainOf off) = true)
include h4 hr hon

/-- A low word written is held. -/
theorem Tx.hostWrite_heldLow (hl : heldLow r = true) : t.hostWrite off 15 data = t.upd (.held off (some data)) := by
  have h : off / 4 * 4 = off := by omega
  simp only [Tx.hostWrite, h, bne_self_eq_false, t.d.accFaults_on hr hon, hr, hl, if_true]

/-- A high word written with a low word held writes both. -/
theorem Tx.hostWrite_pair {lo : RegAt} {v : Nat} (hl : heldLow r = false) (hlo : lowOf off = some lo)
    (hv : bget (fun _ => none) t.d.held (off - 4) = some v) :
    t.hostWrite off 15 data = ((t.upd (.held (off - 4) none)).putReg lo (off - 4) v).putReg r off data := by
  have h : off / 4 * 4 = off := by omega
  simp only [Tx.hostWrite, h, bne_self_eq_false, t.d.accFaults_on hr hon, hr, hl, hlo, hv, Bool.false_eq_true, if_false]

/-- A high word written with no low word held is written alone. -/
theorem Tx.hostWrite_notHeld (hl : heldLow r = false) (hv : bget (fun _ => none) t.d.held (off - 4) = none) :
    t.hostWrite off 15 data = t.writeReg r off data := by
  have h : off / 4 * 4 = off := by omega
  cases hlo : lowOf off <;>
    simp only [Tx.hostWrite, h, bne_self_eq_false, t.d.accFaults_on hr hon, hr, hl, hlo, hv, Bool.false_eq_true, if_false]

/-- A write of a word that belongs to no pair is written alone. -/
theorem Tx.hostWrite_single (hl : heldLow r = false) (hlo : lowOf off = none) : t.hostWrite off 15 data = t.writeReg r off data := by
  have h : off / 4 * 4 = off := by omega
  simp only [Tx.hostWrite, h, bne_self_eq_false, t.d.accFaults_on hr hon, hr, hl, hlo, Bool.false_eq_true, if_false]

end

/-! Writes of registers that only hold values (R16, R19, R20) -/

theorem Tx.writeReg_holdsOnly (t : Tx d0) {r : RegAt} (off data : Nat) (h : holdsOnly r.reg = true) : t.writeReg r off data = t.putReg r off data := by
  revert h
  unfold Tx.writeReg holdsOnly
  split <;> simp

theorem Tx.putFld_rw (t : Tx d0) {F : Fld} (v : Nat) (ok : Bool) (h : F.acc = .rw) : t.putFld F v ok = t.when ok (fun t => t.w F v) := by
  simp only [Tx.putFld, h, Tx.when]

theorem Tx.putFld_wl (t : Tx d0) {F : Fld} (v : Nat) (ok : Bool) (h : F.acc = .wl) : t.putFld F v ok = t := by
  simp only [Tx.putFld, h]

/-- A write of a register of one RW field that has no reserved encoding writes the field. -/
theorem Tx.putReg_rw (t : Tx d0) {r : RegAt} {F : Fld} (off data : Nat) (hr : r.flds = [F]) (hF : F.acc = .rw)
    (hok : t.d.encOk r F (bitsOf data F.hi F.lo) = true) : t.putReg r off data = t.w F (bitsOf data F.hi F.lo) := by
  simp [Tx.putReg, hr, hok, Tx.putFld_rw, hF, Tx.when]

/-- A write that the Watch denies: it is counted, its offset is captured, and the denial is reported (R20). -/
def Tx.watchDeny (t : Tx d0) (off : Nat) : Tx d0 := ((t.inc R.WATCH_DENY_CNT.COUNT).w R.WATCH_DENY_ADDR.OFFSET off).ev R.WATCH_EVT.DENY

theorem Tx.watchDeny_onlyFields (t : Tx d0) (off : Nat) :
    OnlyFields [R.WATCH_DENY_CNT.COUNT, R.WATCH_DENY_ADDR.OFFSET, R.WATCH_EVT.DENY] t.d (t.watchDeny off).d :=
  ((t.w_onlyFields _ _).trans (Tx.w_onlyFields _ _ _)).trans (Tx.ev_onlyFields _ _)

theorem Tx.watchDeny_regFileOnly (t : Tx d0) (off : Nat) : RegFileOnly t.d (t.watchDeny off).d :=
  ((t.w_regFileOnly _ _).trans (Tx.w_regFileOnly _ _ _)).trans (Tx.ev_regFileOnly _ _)

theorem Tx.watchDeny_count (t : Tx d0) (off : Nat) (h : t.d.f R.WATCH_DENY_CNT.COUNT < 2 ^ 32) :
    (t.watchDeny off).d.f R.WATCH_DENY_CNT.COUNT = satInc 32 (t.d.f R.WATCH_DENY_CNT.COUNT) := by
  rw [Tx.watchDeny, Tx.ev_f_other _ _ _ (by decide), Tx.w_f_other _ _ _ _ (by decide)]
  exact t.add_f_same R.WATCH_DENY_CNT.COUNT 1 h

/-- Where a write may be denied: only the fields of a denial may change. -/
theorem Tx.when_watchDeny_onlyFields (t : Tx d0) (c : Bool) (off : Nat) :
    OnlyFields [R.WATCH_DENY_CNT.COUNT, R.WATCH_DENY_ADDR.OFFSET, R.WATCH_EVT.DENY] t.d (t.when c (fun t => t.watchDeny off)).d := by
  cases c
  · exact .refl _ _
  · exact t.watchDeny_onlyFields off

theorem Tx.when_watchDeny_regFileOnly (t : Tx d0) (c : Bool) (off : Nat) : RegFileOnly t.d (t.when c (fun t => t.watchDeny off)).d := by
  cases c
  · exact .refl _
  · exact t.watchDeny_regFileOnly off

theorem Tx.when_watchDeny_count (t : Tx d0) (c : Bool) (off : Nat) (h : t.d.f R.WATCH_DENY_CNT.COUNT < 2 ^ 32) :
    (t.when c (fun t => t.watchDeny off)).d.f R.WATCH_DENY_CNT.COUNT =
      if c then satInc 32 (t.d.f R.WATCH_DENY_CNT.COUNT) else t.d.f R.WATCH_DENY_CNT.COUNT := by
  cases c
  · rfl
  · exact t.watchDeny_count off h

end Sys2Proof.Machine
end

section
/-! SUPPORT. The monitor windows MON_WIN (R19, R20, R642) and the word pairs TB_SYNC_LOAD and FAB_START (R13) as registers that a write reaches. -/
namespace Sys2Proof.Machine

variable {d0 : Device}

/-! MON_WIN -/

/-- Window `q` as the register map finds it. -/
def monWin (q : Nat) : RegAt := ⟨.MON_WIN, [q], [R.MON_WIN.FAULT q, R.MON_WIN.WARN q]⟩

theorem regAt_monWin (q : Fin 4) : regAt (0x700 + 0x10 * q.val) = some (monWin q) := by
  fin_cases q <;> rfl

theorem lowOf_monWin (q : Fin 4) : lowOf (0x700 + 0x10 * q.val) = none := by
  fin_cases q <;> rfl

/-- A write of WARN alone: a value below FAULT is taken, any other is a reserved encoding (R19). -/
def Tx.putWarn (t : Tx d0) (q off v : Nat) : Tx d0 :=
  if v < t.d.f (R.MON_WIN.FAULT q) then t.w (R.MON_WIN.WARN q) v else t.report off [R.GLB_ACC_ERR.RSVD_ENC]

/-- A write of a window writes WARN, and is denied where it would change FAULT or falls in the clock of a Watch update of it (R642). -/
theorem Tx.putReg_monWin (t : Tx d0) (q off data : Nat) :
    t.putReg (monWin q) off data =
      (t.putWarn q off (bitsOf data 15 0)).when (t.d.f (R.MON_WIN.FAULT q) != bitsOf data 31 16 || t.d.evNow.contains (R.MON_WIN.FAULT q).key)
        (fun t => t.watchDeny off) := by
  have hF : (R.MON_WIN.FAULT q).acc = .wl := rfl
  have hW : (R.MON_WIN.WARN q).acc = .rw := rfl
  have hFault : bitsOf data (R.MON_WIN.FAULT q).hi (R.MON_WIN.FAULT q).lo = bitsOf data 31 16 := rfl
  have hWarn : bitsOf data (R.MON_WIN.WARN q).hi (R.MON_WIN.WARN q).lo = bitsOf data 15 0 := rfl
  by_cases hw : bitsOf data 15 0 < t.d.f (R.MON_WIN.FAULT q) <;>
    simp [Tx.putReg, monWin, Tx.putFld_wl, Tx.putFld_rw, hF, hW, hFault, hWarn, Device.encOk, Tx.putWarn, Tx.when, hw, Tx.f, Tx.watchDeny]

/-- A write of a window in a domain that is on. -/
theorem Tx.hostWrite_monWin (t : Tx d0) (q : Fin 4) {off : Nat} (data : Nat) (hoff : off = 0x700 + 0x10 * q.val) (hon : t.d.domOn (domainOf off) = true) :
    t.hostWrite off 15 data =
      (t.putWarn q off (bitsOf data 15 0)).when (t.d.f (R.MON_WIN.FAULT q) != bitsOf data 31 16 || t.d.evNow.contains (R.MON_WIN.FAULT q).key)
        (fun t => t.watchDeny off) := by
  have hr : regAt off = some (monWin q) := hoff ▸ regAt_monWin q
  rw [t.hostWrite_single data (by omega) hr hon rfl (hoff ▸ lowOf_monWin q), t.writeReg_holdsOnly off data rfl, t.putReg_monWin]

/-- Neither field of a window stands where a field of an access error or of a denial does. -/
theorem monWin_key_notMem (q : Fin 4) (F : Fld) (hF : F = R.MON_WIN.FAULT q ∨ F = R.MON_WIN.WARN q) :
    F.key ∉ [R.GLB_ACC_ERR.RSVD_ENC, R.GLB_ACC_ERR.MULTI, R.GLB_ACC_ADDR.OFFSET].map Fld.key ∧
    F.key ∉ [R.WATCH_DENY_CNT.COUNT, R.WATCH_DENY_ADDR.OFFSET, R.WATCH_EVT.DENY].map Fld.key := by
  rcases hF with rfl | rfl <;> revert q <;> decide

/-- FAULT and the count of denials stand where no field that a write of WARN may change does, and the bit of a reserved encoding stands apart from WARN. -/
theorem putWarn_key_notMem (q : Fin 4) :
    (∀ F, F = R.MON_WIN.FAULT q ∨ F = R.WATCH_DENY_CNT.COUNT →
      F.key ∉ [R.MON_WIN.WARN q, R.GLB_ACC_ERR.RSVD_ENC, R.GLB_ACC_ERR.MULTI, R.GLB_ACC_ADDR.OFFSET].map Fld.key) ∧
    R.GLB_ACC_ERR.RSVD_ENC.key ≠ (R.MON_WIN.WARN q).key := by
  refine ⟨?_, by revert q; decide⟩
  rintro F (rfl | rfl) <;> revert q <;> decide

section
variable (t : Tx d0) (q : Fin 4) {off v : Nat}

/-- A reserved encoding is reported and changes nothing else (R19). -/
theorem Tx.putWarn_reserved (hb : off < bar4) (h : ¬ v < t.d.f (R.MON_WIN.FAULT q)) :
    Reports off [R.GLB_ACC_ERR.RSVD_ENC] t.d (t.putWarn q off v).d ∧ RegFileOnly t.d (t.putWarn q off v).d := by
  rw [Tx.putWarn, if_neg h, t.report_bar0 hb]
  exact t.accErr_reports off (by decide) (by simp)

theorem Tx.putWarn_taken (off : Nat) (h : v < t.d.f (R.MON_WIN.FAULT q)) : t.putWarn q off v = t.w (R.MON_WIN.WARN q) v := if_pos h

theorem Tx.putWarn_regFileOnly (hb : off < bar4) : RegFileOnly t.d (t.putWarn q off v).d := by
  by_cases h : v < t.d.f (R.MON_WIN.FAULT q)
  · rw [t.putWarn_taken q off h]
    exact t.w_regFileOnly _ _
  · exact (t.putWarn_reserved q hb h).2

theorem Tx.putWarn_onlyFields (hb : off < bar4) :
    OnlyFields [R.MON_WIN.WARN q, R.GLB_ACC_ERR.RSVD_ENC, R.GLB_ACC_ERR.MULTI, R.GLB_ACC_ADDR.OFFSET] t.d (t.putWarn q off v).d := by
  by_cases h : v < t.d.f (R.MON_WIN.FAULT q)
  · rw [t.putWarn_taken q off h]
    exact (t.w_onlyFields _ _).mono (by simp)
  · exact (t.putWarn_reserved q hb h).1.only.mono (by simp)

theorem Tx.putWarn_warn (hb : off < bar4) (hv : v < 2 ^ 16) :
    (t.putWarn q off v).d.f (R.MON_WIN.WARN q) = if v < t.d.f (R.MON_WIN.FAULT q) then v else t.d.f (R.MON_WIN.WARN q) := by
  by_cases h : v < t.d.f (R.MON_WIN.FAULT q)
  · rw [t.putWarn_taken q off h, Tx.w_f_same, if_pos h]
    exact Nat.mod_eq_of_lt hv
  · rw [if_neg h]
    exact (t.putWarn_reserved q hb h).1.only _ (monWin_key_notMem q _ (.inr rfl)).1

end

/-! Word pairs -/

/-- `L` and `H` are the whole words of a writable 64-bit quantity that only holds its value, found at their offsets as `l` and `h` (R11, R13). -/
structure WordPair (L H : Fld) (l h : RegAt) : Prop where
  low : regAt L.off = some l
  high : regAt H.off = some h
  lowFlds : l.flds = [L]
  highFlds : h.flds = [H]
  lowField : L = ⟨L.off, 31, 0, .rw, 0⟩
  highField : H = ⟨H.off, 31, 0, .rw, 0⟩
  next : H.off = L.off + 4
  aligned : L.off % 4 = 0
  domain : domainOf H.off = domainOf L.off
  heldLow : Machine.heldLow l = true
  notLow : Machine.heldLow h = false
  holds : holdsOnly h.reg = true
  lowEnc : ∀ (d : Device) v, d.encOk l L v = true
  highEnc : ∀ (d : Device) v, d.encOk h H v = true

theorem wordPair_syncLoad :
    WordPair R.TB_SYNC_LOAD_LO.LOAD R.TB_SYNC_LOAD_HI.LOAD ⟨.TB_SYNC_LOAD_LO, [], [R.TB_SYNC_LOAD_LO.LOAD]⟩ ⟨.TB_SYNC_LOAD_HI, [], [R.TB_SYNC_LOAD_HI.LOAD]⟩ := by
  constructor <;> intros <;> rfl

theorem wordPair_fabStart :
    WordPair R.FAB_START_LO.START R.FAB_START_HI.START ⟨.FAB_START_LO, [], [R.FAB_START_LO.START]⟩ ⟨.FAB_START_HI, [], [R.FAB_START_HI.START]⟩ := by
  constructor <;> intros <;> rfl

namespace WordPair

variable {L H : Fld} {l h : RegAt} (p : WordPair L H l h) (t : Tx d0)
include p

theorem key_ne : H.key ≠ L.key := by
  have := p.next
  rw [p.lowField, p.highField]
  simp only [Fld.key]
  omega

theorem lowOf_high : lowOf H.off = some l := by
  rw [lowOf, if_neg (by have := p.next; omega), p.next, Nat.add_sub_cancel, p.low]
  simp [Option.filter, p.heldLow]

theorem putReg_low (off v : Nat) : t.putReg l off v = t.w L (v % 2 ^ 32) := by
  have hbits : bitsOf v L.hi L.lo = v % 2 ^ 32 := by rw [p.lowField]; simp [bitsOf]
  rw [← hbits]
  exact t.putReg_rw off v p.lowFlds (by rw [p.lowField]) (p.lowEnc _ _)

theorem putReg_high (off v : Nat) : t.putReg h off v = t.w H (v % 2 ^ 32) := by
  have hbits : bitsOf v H.hi H.lo = v % 2 ^ 32 := by rw [p.highField]; simp [bitsOf]
  rw [← hbits]
  exact t.putReg_rw off v p.highFlds (by rw [p.highField]) (p.highEnc _ _)

theorem w_low_f (t : Tx d0) (v : Nat) : (t.w L (v % 2 ^ 32)).d.f L = v % 2 ^ 32 := by
  have hw : L.width = 32 := by rw [p.lowField]; rfl
  rw [Tx.w_f_same, hw, Nat.mod_mod]

theorem w_high_f (t : Tx d0) (v : Nat) : (t.w H (v % 2 ^ 32)).d.f H = v % 2 ^ 32 := by
  have hw : H.width = 32 := by rw [p.highField]; rfl
  rw [Tx.w_f_same, hw, Nat.mod_mod]

variable (data : Nat) (hon : t.d.domOn (domainOf L.off) = true)
include hon

theorem hostWrite_low : t.hostWrite L.off 15 data = t.upd (.held L.off (some data)) :=
  t.hostWrite_heldLow data p.aligned p.low hon p.heldLow

theorem hostWrite_high_held {v : Nat} (hv : bget (fun _ => none) t.d.held L.off = some v) :
    t.hostWrite H.off 15 data = ((t.upd (.held L.off none)).w L (v % 2 ^ 32)).w H (data % 2 ^ 32) := by
  have hoff : H.off - 4 = L.off := by have := p.next; omega
  rw [t.hostWrite_pair data (by have := p.next; have := p.aligned; omega) p.high (p.domain ▸ hon) p.notLow p.lowOf_high (by rw [hoff, hv]),
    hoff, p.putReg_low, p.putReg_high]

theorem hostWrite_high_alone (hv : bget (fun _ => none) t.d.held L.off = none) : t.hostWrite H.off 15 data = t.w H (data % 2 ^ 32) := by
  have hoff : H.off - 4 = L.off := by have := p.next; omega
  rw [t.hostWrite_notHeld data (by have := p.next; have := p.aligned; omega) p.high (p.domain ▸ hon) p.notLow (by rw [hoff, hv]),
    t.writeReg_holdsOnly _ _ p.holds, p.putReg_high]

end WordPair

end Sys2Proof.Machine
end

section
/-! SUPPORT. Host accesses of chapter 00: the statements on undefined offsets, narrow writes, reserved encodings and Watch-locked bits, and words of
64-bit quantities. -/
namespace Sys2Proof.Machine

/-- Settles O6: the one error of the access is UNMAPPED, and an access with errors does nothing but report them. -/
theorem undefinedOffset : Obligations.UndefinedOffset := by
  intro s off data c h4 hb hr hc d
  have hE : d.accFaults off.toNat false = [R.GLB_ACC_ERR.UNMAPPED] := by simp [d.accFaults_bar0 hb, hr]
  obtain ⟨t, ht, hdisc⟩ : ∃ t, exec c s = .next t ∧
      Discarded off.toNat [R.GLB_ACC_ERR.UNMAPPED] (if c = .unmappedRead off then [.read 0] else []) s t := by
    rcases hc with rfl | rfl
    · rw [exec_unmappedRead, if_pos rfl]
      exact exec_lowWordRead_faulty s h4 hb (List.cons_ne_nil _ _) hE
    · rw [if_neg (by simp)]
      exact exec_regWrite_faulty s h4 hb (List.cons_ne_nil _ _) data hE
  obtain ⟨hout, hrep, hframe⟩ := hdisc
  refine ⟨t, ht, hout, hrep.set _ (by simp), hrep.addr_bar0 hb, hrep.multi, hrep.only, ?_⟩
  rw [hout]
  exact hframe

/-- Settles O7: NARROW is among the errors of the access, with UNMAPPED or OFF beside it, and an access with errors does nothing but report them. -/
theorem narrowWrite : Obligations.NarrowWrite := by
  intro s off be data h4 hb hbe d there on
  have hn : (be.toNat != 15) = true := bne_iff_ne.mpr (fun h => hbe (BitVec.eq_of_toNat_eq h))
  have hE : d.accFaults off.toNat (be.toNat != 15) = R.GLB_ACC_ERR.NARROW ::
      (if there then (if on then [] else [R.GLB_ACC_ERR.OFF]) else [R.GLB_ACC_ERR.UNMAPPED]) := by
    cases hr : regAt off.toNat <;> simp [d.accFaults_bar0 hb, hn, there, on, hr]
  obtain ⟨t, ht, hout, hrep, hframe⟩ := exec_regWrite_faulty s h4 hb (List.cons_ne_nil _ _) data hE
  refine ⟨t, ht, hout, hrep.set _ (by simp), hrep.addr_bar0 hb, hrep.multi, hrep.only.mono ?_, hframe⟩
  cases there <;> cases on <;> simp

/-- Settles O10: the write of WARN, then the denial where FAULT would change, which leaves what the write of WARN did. -/
theorem reservedAndLocked : Obligations.ReservedAndLocked := by
  intro s q off data hoff hon d warn fault
  have hb : off.toNat < bar4 := by have := q.isLt; simp only [bar4]; omega
  have hwarn : warn < 2 ^ 16 := Nat.mod_lt _ (by decide)
  let u := (Tx.accessed d).putWarn q off.toNat warn
  let denied := d.f (R.MON_WIN.FAULT q) != fault || d.evNow.contains (R.MON_WIN.FAULT q).key
  let v := u.when denied (fun t => t.watchDeny off.toNat)
  have hwrite : (Tx.accessed d).hostWrite off.toNat 15 data.toNat = v := (Tx.accessed d).hostWrite_monWin q data.toNat hoff hon
  have hu : OnlyFields _ d u.d := (Tx.accessed d).putWarn_onlyFields q (v := warn) hb
  have hv := u.when_watchDeny_onlyFields denied off.toNat
  have hframe := ((Tx.accessed d).putWarn_regFileOnly q (v := warn) hb).trans (u.when_watchDeny_regFileOnly denied off.toNat)
  have hcount : u.d.f R.WATCH_DENY_CNT.COUNT = d.f R.WATCH_DENY_CNT.COUNT := hu _ ((putWarn_key_notMem q).1 _ (.inr rfl))
  refine ⟨s.afterAccess v.d, by rw [exec_wordWrite, hwrite], ?_, ?_, fun hbad => ?_, fun hgood => ?_, fun hlt => ?_,
    s.afterAccess_of_regFileOnly hframe⟩
  · exact (hv _ (monWin_key_notMem q _ (.inr rfl)).2).trans ((Tx.accessed d).putWarn_warn q hb hwarn)
  · exact (hv _ (monWin_key_notMem q _ (.inl rfl)).2).trans (hu _ ((putWarn_key_notMem q).1 _ (.inl rfl)))
  · have hrep := ((Tx.accessed d).putWarn_reserved q (v := warn) hb hbad).1
    refine ⟨(hv _ (by decide)).trans (hrep.set _ (by simp)), fun hst => (hv _ (by decide)).trans ((hrep.addr_bar0 hb).trans ?_)⟩
    rw [Tx.accessed_errStands, hst, if_neg Bool.false_ne_true]
  · have hw : u = (Tx.accessed d).w (R.MON_WIN.WARN q) warn := (Tx.accessed d).putWarn_taken q off.toNat hgood
    refine (hv _ (by decide)).trans ?_
    rw [hw, Tx.w_f_other _ _ _ _ (putWarn_key_notMem q).2, Tx.accessed_f]
  · refine (u.when_watchDeny_count denied off.toNat (by rw [hcount]; exact hlt)).trans ?_
    have hdenied : denied = true ↔ ¬ (fault = d.f (R.MON_WIN.FAULT q) ∧ d.evNow.contains (R.MON_WIN.FAULT q).key = false) := by
      rw [not_and_or, Bool.not_eq_false, ← ne_eq, ne_comm, ← bne_iff_ne, ← Bool.or_eq_true]
    rw [hcount, if_congr hdenied rfl rfl, ite_not]

/-- Settles O11: a register whose latch is empty answers its live word, one that is latched its latch; only the group's latches change. -/
theorem lowWordReadLatches : Obligations.LowWordReadLatches := by
  refine ⟨fun s off r h4 hr hl hon hfree => ?_, fun s off r w h4 hr hgroup hne hq hon hlatch => ?_⟩
  · rw [exec_lowWordRead_on s h4 hr hon (lowWord_ne_qstat hl), latchedBy_lowWord hl, s.dev.readWord_live r hfree, Tx.each_cons, Tx.each_nil,
      Tx.accessed_liveAt, s.afterAccess_latch]
    exact ⟨_, rfl, rfl, bget_bset_same (fun _ => none) s.dev.latch (off.toNat + 4) (some (s.dev.liveAt (off.toNat + 4))),
      fun k hk => bget_bset_other (fun _ => none) s.dev.latch (off.toNat + 4) k (some (s.dev.liveAt (off.toNat + 4))) hk, rfl⟩
  · rw [exec_lowWordRead_on s h4 hr hon hq, hgroup, s.dev.readWord_latched hlatch hne, Tx.each_nil, s.afterAccess_read]
    exact ⟨_, rfl, rfl, rfl⟩

section
variable {L H : Fld} {l h : RegAt} (p : WordPair L H l h) (s : State) (data : Word) (hon : s.dev.domOn (domainOf L.off) = true)
include p hon

/-- The low word of a pair written in a domain that is on is held, in place of a word held before. -/
theorem WordPair.exec_lowWordWrite {lo : BitVec 25} (hlo : lo.toNat = L.off) :
    ∃ t, exec (.lowWordWrite lo 15 data) s = .next t ∧ bget (fun _ => none) t.dev.held L.off = some data.toNat ∧
      (∀ F, t.dev.f F = s.dev.f F) ∧ (∀ k, k ≠ L.off → bget (fun _ => none) t.dev.held k = bget (fun _ => none) s.dev.held k) ∧
      t = { s with dev := { s.dev with held := t.dev.held, again := [], evNow := [], out := [] } } := by
  let a := Tx.accessed s.dev
  let x := a.upd (.held L.off (some data.toNat))
  have hexec : exec (.lowWordWrite lo 15 data) s = .next (s.afterAccess x.d) := by
    rw [Machine.exec_lowWordWrite, exec_wordWrite, hlo, p.hostWrite_low a _ (by rw [Tx.accessed_domOn, hon])]
  have hheld : x.d.held = bset (fun _ => none) s.dev.held L.off (some data.toNat) := rfl
  have hsame : bget (fun _ => none) x.d.held L.off = some data.toNat := by rw [hheld, bget_bset_same]
  have hother : ∀ k, k ≠ L.off → bget (fun _ => none) x.d.held k = bget (fun _ => none) s.dev.held k :=
    fun k hk => by rw [hheld, bget_bset_other _ _ _ _ _ hk]
  have hf : ∀ F, x.d.f F = s.dev.f F := fun _ => rfl
  have hframe : s.afterAccess x.d = { s with dev := { s.dev with held := x.d.held, again := [], evNow := [], out := [] } } :=
    s.afterAccess_of_wordsOnly (a.held_wordsOnly L.off (some data.toNat))
  clear_value x
  exact ⟨s.afterAccess x.d, hexec, hsame, hf, hother, hframe⟩

/-- The high word of a pair written in a domain that is on is written with the low word that is held, if any. -/
theorem WordPair.exec_highWordWrite {hi : BitVec 25} (hhi : hi.toNat = H.off) :
    ∃ t, exec (.highWordWrite hi 15 data) s = .next t ∧ t.dev.f H = data.toNat ∧
      t.dev.f L = (match bget (fun _ => none) s.dev.held L.off with
        | some v => v % 2 ^ 32
        | none => s.dev.f L) ∧
      bget (fun _ => none) t.dev.held L.off = none ∧ OnlyFields [L, H] s.dev t.dev ∧
      t = { s with dev := { s.dev with flds := t.dev.flds, held := t.dev.held, again := [], evNow := [], out := [] } } := by
  let a := Tx.accessed s.dev
  have ha : a.d.domOn (domainOf L.off) = true := by rw [Tx.accessed_domOn, hon]
  have hdata : data.toNat % 2 ^ 32 = data.toNat := Nat.mod_eq_of_lt data.isLt
  have hL := p.key_ne.symm
  cases hv : bget (fun _ => none) s.dev.held L.off with
  | some v =>
    let u := a.upd (.held L.off none)
    let w := u.w L (v % 2 ^ 32)
    let x := w.w H (data.toNat % 2 ^ 32)
    have hexec : exec (.highWordWrite hi 15 data) s = .next (s.afterAccess x.d) := by
      rw [Machine.exec_highWordWrite, exec_wordWrite, hhi, p.hostWrite_high_held a _ ha hv]
    have hH : x.d.f H = data.toNat := (p.w_high_f w _).trans hdata
    have hLv : x.d.f L = v % 2 ^ 32 := (w.w_f_other _ _ _ hL).trans (p.w_low_f u v)
    have hheld : bget (fun _ => none) x.d.held L.off = none := bget_bset_same (fun _ => none) s.dev.held L.off none
    have honly : OnlyFields [L, H] u.d x.d := (u.w_onlyFields L _).trans (w.w_onlyFields H _)
    have hwords : WordsOnly a.d x.d := ((a.held_wordsOnly _ _).trans (u.w_wordsOnly _ _)).trans (w.w_wordsOnly _ _)
    clear_value x
    exact ⟨s.afterAccess x.d, hexec, hH, hLv, hheld, honly, s.afterAccess_of_wordsOnly hwords⟩
  | none =>
    let x := a.w H (data.toNat % 2 ^ 32)
    have hexec : exec (.highWordWrite hi 15 data) s = .next (s.afterAccess x.d) := by
      rw [Machine.exec_highWordWrite, exec_wordWrite, hhi, p.hostWrite_high_alone a _ ha hv]
    have hH : x.d.f H = data.toNat := (p.w_high_f a _).trans hdata
    have hLs : x.d.f L = s.dev.f L := a.w_f_other _ _ _ hL
    have hheld : bget (fun _ => none) x.d.held L.off = none := hv
    have honly : OnlyFields [L, H] a.d x.d := (a.w_onlyFields H _).mono (by simp)
    have hwords : WordsOnly a.d x.d := a.w_wordsOnly _ _
    clear_value x
    exact ⟨s.afterAccess x.d, hexec, hH, hLs, hheld, honly, s.afterAccess_of_wordsOnly hwords⟩

end

/-- Settles O12: both quantities are word pairs. -/
theorem heldLowWord : Obligations.HeldLowWord := by
  intro s L H lo hi data hLH hlo hhi hon
  rcases hLH with ⟨rfl, rfl⟩ | ⟨rfl, rfl⟩
  · exact ⟨wordPair_syncLoad.exec_lowWordWrite s data hon hlo, wordPair_syncLoad.exec_highWordWrite s data hon hhi⟩
  · exact ⟨wordPair_fabStart.exec_lowWordWrite s data hon hlo, wordPair_fabStart.exec_highWordWrite s data hon hhi⟩

end Sys2Proof.Machine
end

section
/-! SUPPORT. The requests for a tower image (R71, R72, R77, R84). -/
namespace Sys2Proof.Machine

variable {d0 : Device}

/-! What a request may change -/

/-- From `d` to `e` nothing may have changed but the register file. -/
def RegsOnly (d e : Device) : Prop := ∃ flds, e = { d with flds := flds }

theorem RegsOnly.refl (d : Device) : RegsOnly d d := ⟨_, rfl⟩

theorem RegsOnly.trans {d e g : Device} (h : RegsOnly d e) (h' : RegsOnly e g) : RegsOnly d g := by
  obtain ⟨_, rfl⟩ := h
  obtain ⟨_, rfl⟩ := h'
  exact ⟨_, rfl⟩

theorem RegsOnly.img {d e : Device} (h : RegsOnly d e) : e.img = d.img := by
  obtain ⟨_, rfl⟩ := h
  rfl

theorem Tx.w_regsOnly (t : Tx d0) (F : Fld) (v : Nat) : RegsOnly t.d (t.w F v).d := ⟨_, rfl⟩

/-- From `d` to `e` nothing may have changed but the register file and the state of image loading. -/
def ImageOnly (d e : Device) : Prop := ∃ flds img, e = { d with flds := flds, img := img }

theorem RegsOnly.imageOnly {d e : Device} (h : RegsOnly d e) : ImageOnly d e := by
  obtain ⟨_, rfl⟩ := h
  exact ⟨_, _, rfl⟩

theorem ImageOnly.trans {d e g : Device} (h : ImageOnly d e) (h' : ImageOnly e g) : ImageOnly d g := by
  obtain ⟨_, _, rfl⟩ := h
  obtain ⟨_, _, rfl⟩ := h'
  exact ⟨_, _, rfl⟩

theorem Tx.modImg_imageOnly (t : Tx d0) (g : ImageSt → ImageSt) : ImageOnly t.d (t.modImg g).d := ⟨_, _, rfl⟩

@[simp] theorem Tx.modImg_f (t : Tx d0) (g : ImageSt → ImageSt) (F : Fld) : (t.modImg g).d.f F = t.d.f F := rfl
@[simp] theorem Tx.modImg_img (t : Tx d0) (g : ImageSt → ImageSt) : (t.modImg g).d.img = g t.d.img := rfl

theorem Tx.modImg_onlyFields (t : Tx d0) (g : ImageSt → ImageSt) : OnlyFields [] t.d (t.modImg g).d := fun _ _ => rfl

/-- A request that touches the register file alone. -/
theorem State.afterAccess_of_regsOnly (s : State) {d : Device} (h : RegsOnly (Tx.accessed s.dev).d d) :
    s.afterAccess d = { s with dev := { s.dev with flds := d.flds, again := [], evNow := [], out := [] } } := by
  obtain ⟨_, rfl⟩ := h
  rfl

/-- A request that touches the register file and the state of image loading alone. -/
theorem State.afterAccess_of_imageOnly (s : State) {d : Device} (h : ImageOnly (Tx.accessed s.dev).d d) :
    s.afterAccess d = { s with dev := { s.dev with flds := d.flds, img := d.img, again := [], evNow := [], out := [] } } := by
  obtain ⟨_, _, rfl⟩ := h
  rfl

/-- A request that touches the register file and the state of image loading, and then sets events. -/
theorem State.afterAccess_of_imageOnly_regFileOnly (s : State) {d e : Device} (h : ImageOnly (Tx.accessed s.dev).d d) (h' : RegFileOnly d e) :
    s.afterAccess e = { s with dev := { s.dev with flds := e.flds, img := e.img, pba := e.pba, again := [], evNow := [], out := [] } } := by
  obtain ⟨_, _, rfl⟩ := h
  obtain ⟨_, _, _, rfl⟩ := h'
  rfl

/-- A host write of a register in a domain that is on does what the register's write does. -/
theorem commit_hostReg (off : Nat) (g : {d0 : Device} → Tx d0 → Tx d0) (s : State) (hon : s.dev.domOn (domainOf off) = true) :
    commit (fun t => t.hostReg off g) s = .next (s.afterAccess (g (Tx.accessed s.dev)).d) := by
  have h : (Tx.accessed s.dev).d.domOn (domainOf off) = true := hon
  have hreg : (Tx.start s.dev).hostReg off g = (g (Tx.accessed s.dev)).upd (.evNow []) := congrArg (fun t => Tx.upd t (.evNow [])) (if_pos h)
  rw [commit, hreg]
  rfl

/-! 64-bit values (R11) -/

/-- What a 64-bit value held in two word fields reads after a write of it. -/
theorem Tx.w64_f64 (t : Tx d0) {L H : Fld} (v : Nat) (hL : L.width = 32) (hH : H.width = 32) (hne : L.key ≠ H.key) :
    (t.w64 L H v).d.f64 L H = v % 2 ^ 64 := by
  rw [Tx.w64, Device.f64, Tx.w_f_same, Tx.w_f_other _ _ _ _ hne, Tx.w_f_same, hL, hH]
  omega

theorem Tx.w64_onlyFields (t : Tx d0) (L H : Fld) (v : Nat) : OnlyFields [L, H] t.d (t.w64 L H v).d :=
  (t.w_onlyFields L _).trans (Tx.w_onlyFields _ H _)

theorem Tx.w64_regsOnly (t : Tx d0) (L H : Fld) (v : Nat) : RegsOnly t.d (t.w64 L H v).d := (t.w_regsOnly L _).trans (Tx.w_regsOnly _ H _)

/-- A 64-bit value reads as before where neither of its words may have changed. -/
theorem OnlyFields.f64 {Gs : List Fld} {d e : Device} (h : OnlyFields Gs d e) {L H : Fld} (hL : L.key ∉ Gs.map Fld.key) (hH : H.key ∉ Gs.map Fld.key) :
    e.f64 L H = d.f64 L H := by
  rw [Device.f64, Device.f64, h L hL, h H hH]

theorem OnlyFields.b {Gs : List Fld} {d e : Device} (h : OnlyFields Gs d e) {F : Fld} (hF : F.key ∉ Gs.map Fld.key) : e.b F = d.b F := by
  rw [Device.b, Device.b, h F hF]

/-! The operations that the requests share -/

theorem Tx.imgCode_regsOnly (t : Tx d0) (c : Nat) : RegsOnly t.d (t.imgCode c).d := t.w_regsOnly _ _

theorem Tx.imgCode_onlyFields (t : Tx d0) (c : Nat) : OnlyFields [R.GLB_IMG_STAT.CODE] t.d (t.imgCode c).d := t.w_onlyFields _ _

theorem Tx.imgCode_f_same (t : Tx d0) (c : Nat) : (t.imgCode c).d.f R.GLB_IMG_STAT.CODE = c % 2 ^ 8 := t.w_f_same _ _

/-- The image that was pending is dropped, and a commit held for it with it (R84). -/
structure PendDropped (d e : Device) : Prop where
  loadState : e.f R.GLB_IMG_STAT.LOAD_STATE = 0
  commitHeld : e.f R.GLB_IMG_STAT.COMMIT_HELD = 0
  pendId : e.f64 R.GLB_IMG_PEND_ID_LO.VALUE R.GLB_IMG_PEND_ID_HI.VALUE = 0
  img : e.img = { d.img with pend := none }
  onlyFields : OnlyFields [R.GLB_IMG_PEND_ID_LO.VALUE, R.GLB_IMG_PEND_ID_HI.VALUE, R.GLB_IMG_STAT.COMMIT_HELD, R.GLB_IMG_STAT.LOAD_STATE] d e
  imageOnly : ImageOnly d e

theorem Tx.dropPend_spec (t : Tx d0) : PendDropped t.d t.dropPend.d := by
  let a := t.modImg (fun x => { x with pend := none })
  let b := a.pendId 0
  let c := b.wb R.GLB_IMG_STAT.COMMIT_HELD false
  have hregs : RegsOnly a.d t.dropPend.d := ((a.w64_regsOnly _ _ 0).trans (b.w_regsOnly _ _)).trans (c.w_regsOnly _ _)
  have hwrites : OnlyFields [R.GLB_IMG_STAT.COMMIT_HELD, R.GLB_IMG_STAT.LOAD_STATE] b.d t.dropPend.d := (b.w_onlyFields _ _).trans (c.w_onlyFields _ _)
  refine ⟨c.w_f_same _ _, ?_, ?_, hregs.img, ?_, (t.modImg_imageOnly _).trans hregs.imageOnly⟩
  · exact (c.w_f_other _ _ _ (by decide)).trans (b.w_f_same _ _)
  · rw [hwrites.f64 (by decide) (by decide)]
    exact a.w64_f64 0 rfl rfl (by decide)
  · exact ((t.modImg_onlyFields _).trans (a.w64_onlyFields _ _ 0)).trans hwrites

theorem Tx.toCommitting_onlyFields (t : Tx d0) : OnlyFields [R.GLB_IMG_STAT.COMMIT_HELD, R.GLB_IMG_STAT.LOAD_STATE] t.d t.toCommitting.d :=
  (t.w_onlyFields _ _).trans (Tx.w_onlyFields _ _ _)

theorem Tx.toCommitting_regsOnly (t : Tx d0) : RegsOnly t.d t.toCommitting.d := (t.w_regsOnly _ _).trans (Tx.w_regsOnly _ _ _)

@[simp] theorem Tx.toCommitting_loadState (t : Tx d0) : t.toCommitting.d.f R.GLB_IMG_STAT.LOAD_STATE = 3 := Tx.w_f_same ..

@[simp] theorem Tx.toCommitting_commitHeld (t : Tx d0) : t.toCommitting.d.f R.GLB_IMG_STAT.COMMIT_HELD = 0 :=
  (Tx.w_f_other _ _ _ _ (by decide)).trans (t.w_f_same _ _)

/-! LOAD -/

theorem exec_imgLoad (s : State) (hon : s.dev.domOn (domainOf R.GLB_IMG_CTL.LOAD.off) = true) :
    exec .imgLoad s = .next (s.afterAccess (Tx.accessed s.dev).imgLoad.d) := commit_hostReg _ Tx.imgLoad s hon

theorem Tx.imgLoad_held (t : Tx d0) (h : t.d.cxlTesting = true) : t.imgLoad = t.stHold 0 := if_pos h

/-- A LOAD is refused while an image is checked or committed, or a commit is held. -/
def Device.loadBusy (d : Device) : Bool :=
  d.f R.GLB_IMG_STAT.LOAD_STATE = 1 || d.f R.GLB_IMG_STAT.LOAD_STATE = 3 || d.b R.GLB_IMG_STAT.COMMIT_HELD

theorem Tx.imgLoad_busy (t : Tx d0) (hc : t.d.cxlTesting = false) (h : t.d.loadBusy = true) : t.imgLoad = t.imgCode 0x20 := by
  rw [Tx.imgLoad, if_neg (by simp [hc])]
  exact if_pos h

/-- The device once LOAD is accepted: the base and length are latched and the check has started. -/
def Tx.checkStarted (t : Tx d0) : Tx d0 :=
  let u := t.dropPend
  let base := u.f R.GLB_IMG_BASE_LO.ADDR * 4096 + u.f R.GLB_IMG_BASE_HI.ADDR * 2 ^ 32
  (((u.modImg (fun x => { x with latBase := base, latLen := u.f R.GLB_IMG_LEN.LEN })).w R.GLB_IMG_STAT.SECTION 0).w R.GLB_IMG_ERR_OFF.OFFSET 0).w
    R.GLB_IMG_STAT.LOAD_STATE 1

theorem Tx.imgLoad_accepted (t : Tx d0) (hc : t.d.cxlTesting = false) (h : t.d.loadBusy = false) : t.imgLoad = t.checkStarted := by
  rw [Tx.imgLoad, if_neg (by simp [hc])]
  exact if_neg (by rw [← Bool.not_eq_true] at h; exact h)


theorem Device.loadBusy_iff (d : Device) :
    d.loadBusy = true ↔ d.f R.GLB_IMG_STAT.LOAD_STATE = 1 ∨ d.f R.GLB_IMG_STAT.LOAD_STATE = 3 ∨ d.b R.GLB_IMG_STAT.COMMIT_HELD = true := by
  simp [Device.loadBusy, or_assoc]

/-- What an accepted LOAD makes of the device (R71, R73). -/
structure CheckStarted (d e : Device) : Prop where
  loadState : e.f R.GLB_IMG_STAT.LOAD_STATE = 1
  sect : e.f R.GLB_IMG_STAT.SECTION = 0
  errOff : e.f R.GLB_IMG_ERR_OFF.OFFSET = 0
  pendId : e.f64 R.GLB_IMG_PEND_ID_LO.VALUE R.GLB_IMG_PEND_ID_HI.VALUE = 0
  img : e.img = { d.img with
    pend := none, latBase := d.f R.GLB_IMG_BASE_LO.ADDR * 4096 + d.f R.GLB_IMG_BASE_HI.ADDR * 2 ^ 32, latLen := d.f R.GLB_IMG_LEN.LEN }
  onlyFields : OnlyFields [R.GLB_IMG_STAT.LOAD_STATE, R.GLB_IMG_STAT.SECTION, R.GLB_IMG_ERR_OFF.OFFSET, R.GLB_IMG_PEND_ID_LO.VALUE,
    R.GLB_IMG_PEND_ID_HI.VALUE, R.GLB_IMG_STAT.COMMIT_HELD] d e
  imageOnly : ImageOnly d e

theorem Tx.checkStarted_spec (t : Tx d0) : CheckStarted t.d t.checkStarted.d := by
  have hdrop := t.dropPend_spec
  let u := t.dropPend
  let a := u.modImg (fun x => { x with
    latBase := u.f R.GLB_IMG_BASE_LO.ADDR * 4096 + u.f R.GLB_IMG_BASE_HI.ADDR * 2 ^ 32, latLen := u.f R.GLB_IMG_LEN.LEN })
  let b := a.w R.GLB_IMG_STAT.SECTION 0
  let c := b.w R.GLB_IMG_ERR_OFF.OFFSET 0
  have hregs : RegsOnly a.d t.checkStarted.d := ((a.w_regsOnly _ 0).trans (b.w_regsOnly _ 0)).trans (c.w_regsOnly _ 1)
  have hlast : OnlyFields [R.GLB_IMG_STAT.LOAD_STATE] c.d t.checkStarted.d := c.w_onlyFields _ 1
  have hwrites : OnlyFields [R.GLB_IMG_STAT.SECTION, R.GLB_IMG_ERR_OFF.OFFSET, R.GLB_IMG_STAT.LOAD_STATE] u.d t.checkStarted.d :=
    (((u.modImg_onlyFields _).trans (a.w_onlyFields _ 0)).trans (b.w_onlyFields _ 0)).trans hlast
  refine ⟨c.w_f_same _ 1, ?_, (hlast _ (by decide)).trans (b.w_f_same _ 0), ?_, ?_, (hdrop.onlyFields.trans hwrites).mono (by simp),
    (hdrop.imageOnly.trans (u.modImg_imageOnly _)).trans hregs.imageOnly⟩
  · exact (hlast _ (by decide)).trans ((b.w_f_other _ _ 0 (by decide)).trans (a.w_f_same _ 0))
  · exact (hwrites.f64 (by decide) (by decide)).trans hdrop.pendId
  · have hfield : ∀ F : Fld, F.key ∉ _ → u.f F = t.d.f F := hdrop.onlyFields
    rw [hregs.img, Tx.modImg_img, hdrop.img, hfield _ (by decide), hfield _ (by decide), hfield _ (by decide)]

/-! COMMIT -/

section
variable (t : Tx d0)

theorem Tx.imgCommit_of_empty (h : t.d.f R.GLB_IMG_STAT.LOAD_STATE = 0) : t.imgCommit = t.imgCode 0x21 := by
  simp only [Tx.imgCommit, Tx.f, h]

theorem Tx.imgCommit_of_checking (h : t.d.f R.GLB_IMG_STAT.LOAD_STATE = 1) : t.imgCommit = t.wb R.GLB_IMG_STAT.COMMIT_HELD true := by
  simp only [Tx.imgCommit, Tx.f, h]

theorem Tx.imgCommit_of_held (h : t.d.f R.GLB_IMG_STAT.LOAD_STATE = 2) (hh : t.d.b R.GLB_IMG_STAT.COMMIT_HELD = true) : t.imgCommit = t := by
  simp only [Tx.imgCommit, Tx.f, Tx.b, h, hh, if_true]

/-- In a run the commit of a pending image is held. -/
theorem Tx.imgCommit_of_pending_running (h : t.d.f R.GLB_IMG_STAT.LOAD_STATE = 2) (hh : t.d.b R.GLB_IMG_STAT.COMMIT_HELD = false)
    (hr : t.d.running = true) : t.imgCommit = (t.imgCode 0).wb R.GLB_IMG_STAT.COMMIT_HELD true := by
  have hr' : (t.imgCode 0).running = true := ((t.imgCode_onlyFields 0).b (by decide)).trans hr
  simp only [Tx.imgCommit, Tx.f, Tx.b, h, hh, hr', Bool.false_eq_true, if_true, if_false]

theorem Tx.imgCommit_of_pending_idle (h : t.d.f R.GLB_IMG_STAT.LOAD_STATE = 2) (hh : t.d.b R.GLB_IMG_STAT.COMMIT_HELD = false)
    (hr : t.d.running = false) : t.imgCommit = (t.imgCode 0).toCommitting := by
  have hr' : (t.imgCode 0).running = false := ((t.imgCode_onlyFields 0).b (by decide)).trans hr
  simp only [Tx.imgCommit, Tx.f, Tx.b, h, hh, hr', Bool.false_eq_true, if_false]

theorem Tx.imgCommit_of_committing (h : 3 ≤ t.d.f R.GLB_IMG_STAT.LOAD_STATE) : t.imgCommit = t.imgCode 0x20 := by
  obtain ⟨n, hn⟩ := Nat.exists_eq_add_of_le' h
  simp only [Tx.imgCommit, Tx.f, hn]

theorem Tx.imgCommit_regsOnly : RegsOnly t.d t.imgCommit.d := by
  unfold Tx.imgCommit
  split
  · exact t.imgCode_regsOnly _
  · exact t.w_regsOnly _ _
  · split
    · exact .refl _
    · dsimp only
      split
      · exact (t.imgCode_regsOnly 0).trans (Tx.w_regsOnly _ _ _)
      · exact (t.imgCode_regsOnly 0).trans (Tx.toCommitting_regsOnly _)
  · exact t.imgCode_regsOnly _

theorem Tx.imgCommit_onlyFields : OnlyFields [R.GLB_IMG_STAT.CODE, R.GLB_IMG_STAT.COMMIT_HELD, R.GLB_IMG_STAT.LOAD_STATE] t.d t.imgCommit.d := by
  unfold Tx.imgCommit
  split
  · exact (t.imgCode_onlyFields _).mono (by simp)
  · exact (t.w_onlyFields _ _).mono (by simp)
  · split
    · exact .refl _ _
    · dsimp only
      split
      · exact ((t.imgCode_onlyFields 0).trans (Tx.w_onlyFields _ _ _)).mono (by simp)
      · exact (t.imgCode_onlyFields 0).trans (Tx.toCommitting_onlyFields _)
  · exact (t.imgCode_onlyFields _).mono (by simp)

/-- COMMIT moves LOAD_STATE in PENDING alone. -/
theorem Tx.imgCommit_loadState (h : t.d.f R.GLB_IMG_STAT.LOAD_STATE ≠ 2) :
    t.imgCommit.d.f R.GLB_IMG_STAT.LOAD_STATE = t.d.f R.GLB_IMG_STAT.LOAD_STATE := by
  unfold Tx.imgCommit
  split
  · exact t.imgCode_onlyFields _ _ (by decide)
  · exact t.w_onlyFields _ _ _ (by decide)
  · next h2 => exact absurd h2 h
  · exact t.imgCode_onlyFields _ _ (by decide)

/-- COMMIT of a pending image is accepted: COMMITTING begins where no run is in progress, and in a run the commit is held (R77). -/
theorem Tx.imgCommit_pending (h : t.d.f R.GLB_IMG_STAT.LOAD_STATE = 2) (hh : t.d.b R.GLB_IMG_STAT.COMMIT_HELD = false) :
    t.imgCommit.d.f R.GLB_IMG_STAT.CODE = 0 ∧ t.imgCommit.d.f R.GLB_IMG_STAT.COMMIT_HELD = t.d.running.toNat ∧
      t.imgCommit.d.f R.GLB_IMG_STAT.LOAD_STATE = if t.d.running then 2 else 3 := by
  have hcode := t.imgCode_onlyFields 0
  cases hr : t.d.running with
  | true =>
    rw [t.imgCommit_of_pending_running h hh hr]
    have hheld := (t.imgCode 0).w_onlyFields R.GLB_IMG_STAT.COMMIT_HELD true.toNat
    exact ⟨(hheld _ (by decide)).trans (t.imgCode_f_same 0), Tx.w_f_same .., ((hheld _ (by decide)).trans (hcode _ (by decide))).trans h⟩
  | false =>
    rw [t.imgCommit_of_pending_idle h hh hr]
    exact ⟨(Tx.toCommitting_onlyFields _ _ (by decide)).trans (t.imgCode_f_same 0), Tx.toCommitting_commitHeld _, Tx.toCommitting_loadState _⟩

end

/-- What a COMMIT makes of the device, by the state of the image (R77, R84). -/
structure CommitAsked (d e : Device) : Prop where
  empty : d.f R.GLB_IMG_STAT.LOAD_STATE = 0 → e.f R.GLB_IMG_STAT.CODE = 0x21
  committing : 3 ≤ d.f R.GLB_IMG_STAT.LOAD_STATE → e.f R.GLB_IMG_STAT.CODE = 0x20
  checking : d.f R.GLB_IMG_STAT.LOAD_STATE = 1 → e.f R.GLB_IMG_STAT.COMMIT_HELD = 1 ∧ e.f R.GLB_IMG_STAT.CODE = d.f R.GLB_IMG_STAT.CODE
  pending : d.f R.GLB_IMG_STAT.LOAD_STATE = 2 → d.b R.GLB_IMG_STAT.COMMIT_HELD = false → e.f R.GLB_IMG_STAT.CODE = 0 ∧
    e.f R.GLB_IMG_STAT.COMMIT_HELD = d.running.toNat ∧ e.f R.GLB_IMG_STAT.LOAD_STATE = if d.running then 2 else 3
  held : d.f R.GLB_IMG_STAT.LOAD_STATE = 2 → d.b R.GLB_IMG_STAT.COMMIT_HELD = true → ∀ F, e.f F = d.f F
  loadState : d.f R.GLB_IMG_STAT.LOAD_STATE ≠ 2 → e.f R.GLB_IMG_STAT.LOAD_STATE = d.f R.GLB_IMG_STAT.LOAD_STATE
  onlyFields : OnlyFields [R.GLB_IMG_STAT.CODE, R.GLB_IMG_STAT.COMMIT_HELD, R.GLB_IMG_STAT.LOAD_STATE] d e
  regsOnly : RegsOnly d e

theorem Tx.imgCommit_spec (t : Tx d0) : CommitAsked t.d t.imgCommit.d where
  empty h := by
    rw [t.imgCommit_of_empty h]
    exact t.imgCode_f_same _
  committing h := by
    rw [t.imgCommit_of_committing h]
    exact t.imgCode_f_same _
  checking h := by
    rw [t.imgCommit_of_checking h]
    exact ⟨t.w_f_same _ _, t.w_onlyFields _ _ _ (by decide)⟩
  pending := t.imgCommit_pending
  held h hh _ := by rw [t.imgCommit_of_held h hh]
  loadState := t.imgCommit_loadState
  onlyFields := t.imgCommit_onlyFields
  regsOnly := t.imgCommit_regsOnly

theorem exec_imgCommit (s : State) (hon : s.dev.domOn (domainOf R.GLB_IMG_CTL.COMMIT.off) = true) :
    ∃ x : Tx s.dev, exec .imgCommit s = .next (s.afterAccess x.d) ∧ CommitAsked (Tx.accessed s.dev).d x.d :=
  ⟨_, commit_hostReg _ Tx.imgCommit s hon, Tx.imgCommit_spec _⟩

/-! DISCARD -/

section
variable (t : Tx d0)

theorem Tx.imgDiscard_of_empty (h : t.d.f R.GLB_IMG_STAT.LOAD_STATE = 0) : t.imgDiscard = t.imgCode 0x21 := by
  simp only [Tx.imgDiscard, Tx.f, h]

theorem Tx.imgDiscard_of_checking (h : t.d.f R.GLB_IMG_STAT.LOAD_STATE = 1) :
    t.imgDiscard = (t.dropPend.imgCode 0x22).ev R.GLB_DEV_EVT.IMG_DONE := by
  simp only [Tx.imgDiscard, Tx.f, h]

theorem Tx.imgDiscard_of_pending (h : t.d.f R.GLB_IMG_STAT.LOAD_STATE = 2) : t.imgDiscard = t.dropPend.imgCode 0 := by
  simp only [Tx.imgDiscard, Tx.f, h]

theorem Tx.imgDiscard_of_committing (h : 3 ≤ t.d.f R.GLB_IMG_STAT.LOAD_STATE) : t.imgDiscard = t.imgCode 0x20 := by
  obtain ⟨n, hn⟩ := Nat.exists_eq_add_of_le' h
  simp only [Tx.imgDiscard, Tx.f, hn]

end

/-- What the drop of an image with a CODE makes of the device (R84); IMG_DONE is set where a check was in progress. -/
structure Discards (code : Nat) (done : Bool) (d e : Device) : Prop where
  img : e.img = { d.img with pend := none }
  loadState : e.f R.GLB_IMG_STAT.LOAD_STATE = 0
  commitHeld : e.f R.GLB_IMG_STAT.COMMIT_HELD = 0
  pendId : e.f64 R.GLB_IMG_PEND_ID_LO.VALUE R.GLB_IMG_PEND_ID_HI.VALUE = 0
  code : e.f R.GLB_IMG_STAT.CODE = code % 2 ^ 8
  imgDone : e.f R.GLB_DEV_EVT.IMG_DONE = if done then 1 else d.f R.GLB_DEV_EVT.IMG_DONE
  onlyFields : OnlyFields [R.GLB_IMG_STAT.CODE, R.GLB_IMG_STAT.COMMIT_HELD, R.GLB_IMG_STAT.LOAD_STATE, R.GLB_IMG_PEND_ID_LO.VALUE,
    R.GLB_IMG_PEND_ID_HI.VALUE, R.GLB_DEV_EVT.IMG_DONE] d e

theorem Tx.dropPend_imgCode (t : Tx d0) (c : Nat) : Discards c false t.d (t.dropPend.imgCode c).d ∧ ImageOnly t.d (t.dropPend.imgCode c).d := by
  have hdrop := t.dropPend_spec
  have hcode := t.dropPend.imgCode_onlyFields c
  have hregs := t.dropPend.imgCode_regsOnly c
  exact ⟨⟨hregs.img.trans hdrop.img, (hcode _ (by decide)).trans hdrop.loadState, (hcode _ (by decide)).trans hdrop.commitHeld,
    (hcode.f64 (by decide) (by decide)).trans hdrop.pendId, t.dropPend.imgCode_f_same c,
    (hcode _ (by decide)).trans (hdrop.onlyFields _ (by decide)), (hdrop.onlyFields.trans hcode).mono (by simp)⟩,
    hdrop.imageOnly.trans hregs.imageOnly⟩

/-- A check in progress that ends as an image is dropped sets IMG_DONE. -/
theorem Tx.discards_imgDone {c : Nat} {b : Bool} {d : Device} (t : Tx d0) (h : Discards c b d t.d) :
    Discards c true d (t.ev R.GLB_DEV_EVT.IMG_DONE).d := by
  have hev := t.ev_onlyFields R.GLB_DEV_EVT.IMG_DONE
  exact ⟨(t.ev_img _).trans h.img, (hev _ (by decide)).trans h.loadState, (hev _ (by decide)).trans h.commitHeld,
    (hev.f64 (by decide) (by decide)).trans h.pendId, (hev _ (by decide)).trans h.code, t.ev_f_same _ rfl, (h.onlyFields.trans hev).mono (by simp)⟩

theorem Tx.imgDiscard_onlyFields (t : Tx d0) :
    OnlyFields [R.GLB_IMG_STAT.CODE, R.GLB_IMG_STAT.COMMIT_HELD, R.GLB_IMG_STAT.LOAD_STATE, R.GLB_IMG_PEND_ID_LO.VALUE, R.GLB_IMG_PEND_ID_HI.VALUE,
      R.GLB_DEV_EVT.IMG_DONE] t.d t.imgDiscard.d := by
  unfold Tx.imgDiscard
  split
  · exact (t.imgCode_onlyFields _).mono (by simp)
  · exact (Tx.discards_imgDone _ (t.dropPend_imgCode 0x22).1).onlyFields
  · exact (t.dropPend_imgCode 0).1.onlyFields
  · exact (t.imgCode_onlyFields _).mono (by simp)

/-- A DISCARD drops the image and may then set an event; it touches nothing else. -/
theorem Tx.imgDiscard_frame (t : Tx d0) : ∃ x, ImageOnly t.d x ∧ RegFileOnly x t.imgDiscard.d := by
  unfold Tx.imgDiscard
  split
  · exact ⟨_, (t.imgCode_regsOnly _).imageOnly, .refl _⟩
  · exact ⟨_, (t.dropPend_imgCode 0x22).2, Tx.ev_regFileOnly _ _⟩
  · exact ⟨_, (t.dropPend_imgCode 0).2, .refl _⟩
  · exact ⟨_, (t.imgCode_regsOnly _).imageOnly, .refl _⟩

/-- DISCARD of an image that is checked or pending. -/
theorem Tx.imgDiscard_discards (t : Tx d0) (h : t.d.f R.GLB_IMG_STAT.LOAD_STATE = 1 ∨ t.d.f R.GLB_IMG_STAT.LOAD_STATE = 2) :
    Discards (if t.d.f R.GLB_IMG_STAT.LOAD_STATE = 1 then 0x22 else 0) (t.d.f R.GLB_IMG_STAT.LOAD_STATE = 1) t.d t.imgDiscard.d := by
  rcases h with h | h
  · rw [t.imgDiscard_of_checking h, h]
    exact Tx.discards_imgDone _ (t.dropPend_imgCode 0x22).1
  · rw [t.imgDiscard_of_pending h, h]
    exact (t.dropPend_imgCode 0).1

/-- DISCARD where no image is checked or pending. -/
theorem Tx.imgDiscard_refused (t : Tx d0) (h : ¬ (t.d.f R.GLB_IMG_STAT.LOAD_STATE = 1 ∨ t.d.f R.GLB_IMG_STAT.LOAD_STATE = 2)) :
    t.imgDiscard = t.imgCode (if t.d.f R.GLB_IMG_STAT.LOAD_STATE = 0 then 0x21 else 0x20) := by
  by_cases h0 : t.d.f R.GLB_IMG_STAT.LOAD_STATE = 0
  · rw [t.imgDiscard_of_empty h0, if_pos h0]
  · rw [t.imgDiscard_of_committing (by omega), if_neg h0]

/-- What a DISCARD makes of the device, by the state of the image (R84). -/
structure DiscardAsked (d e : Device) : Prop where
  empty : d.f R.GLB_IMG_STAT.LOAD_STATE = 0 → e.f R.GLB_IMG_STAT.CODE = 0x21
  committing : 3 ≤ d.f R.GLB_IMG_STAT.LOAD_STATE → e.f R.GLB_IMG_STAT.CODE = 0x20
  dropped : d.f R.GLB_IMG_STAT.LOAD_STATE = 1 ∨ d.f R.GLB_IMG_STAT.LOAD_STATE = 2 →
    Discards (if d.f R.GLB_IMG_STAT.LOAD_STATE = 1 then 0x22 else 0) (d.f R.GLB_IMG_STAT.LOAD_STATE = 1) d e
  refused : ¬ (d.f R.GLB_IMG_STAT.LOAD_STATE = 1 ∨ d.f R.GLB_IMG_STAT.LOAD_STATE = 2) → e.img = d.img ∧ OnlyFields [R.GLB_IMG_STAT.CODE] d e
  onlyFields : OnlyFields [R.GLB_IMG_STAT.CODE, R.GLB_IMG_STAT.COMMIT_HELD, R.GLB_IMG_STAT.LOAD_STATE, R.GLB_IMG_PEND_ID_LO.VALUE,
    R.GLB_IMG_PEND_ID_HI.VALUE, R.GLB_DEV_EVT.IMG_DONE] d e
  frame : ∃ x, ImageOnly d x ∧ RegFileOnly x e

theorem Tx.imgDiscard_spec (t : Tx d0) : DiscardAsked t.d t.imgDiscard.d where
  empty h := by
    rw [t.imgDiscard_of_empty h]
    exact t.imgCode_f_same _
  committing h := by
    rw [t.imgDiscard_of_committing h]
    exact t.imgCode_f_same _
  dropped := t.imgDiscard_discards
  refused h := by
    rw [t.imgDiscard_refused h]
    exact ⟨rfl, t.imgCode_onlyFields _⟩
  onlyFields := t.imgDiscard_onlyFields
  frame := t.imgDiscard_frame

theorem exec_imgDiscard (s : State) (hon : s.dev.domOn (domainOf R.GLB_IMG_CTL.DISCARD.off) = true) :
    ∃ x : Tx s.dev, exec .imgDiscard s = .next (s.afterAccess x.d) ∧ DiscardAsked (Tx.accessed s.dev).d x.d :=
  ⟨_, commit_hostReg _ Tx.imgDiscard s hon, Tx.imgDiscard_spec _⟩

/-! A held commit goes on (R77) -/

theorem exec_committingStart (s : State) : exec .committingStart s = .next { s with dev := (Tx.start s.dev).heldCommit.d } := by rfl

/-- A commit that is held for a pending image and may go on. -/
def Device.commitDue (d : Device) : Bool := d.f R.GLB_IMG_STAT.LOAD_STATE = 2 && d.b R.GLB_IMG_STAT.COMMIT_HELD && !d.running

theorem Tx.heldCommit_eq (t : Tx d0) : t.heldCommit = if t.d.commitDue then t.toCommitting else t := rfl

/-- IMG_LOAD while the CXL test of a self-test runs (R690). -/
theorem exec_imgLoad_held (s : State) (hon : s.dev.domOn (domainOf R.GLB_IMG_CTL.LOAD.off) = true) (hc : s.dev.cxlTesting = true) :
    exec .imgLoad s = .next { s with dev := { s.dev with
      st := { s.dev.st with held := if s.dev.st.held.contains 0 then s.dev.st.held else s.dev.st.held ++ [0] }, again := [], evNow := [], out := [] } } := by
  rw [exec_imgLoad s hon, Tx.imgLoad_held _ hc]
  rfl

/-- IMG_LOAD that is refused (R84). -/
theorem exec_imgLoad_busy (s : State) (hon : s.dev.domOn (domainOf R.GLB_IMG_CTL.LOAD.off) = true) (hc : s.dev.cxlTesting = false)
    (hb : s.dev.loadBusy = true) :
    ∃ t, exec .imgLoad s = .next t ∧ t.dev.f R.GLB_IMG_STAT.CODE = 0x20 ∧ t.dev.img = s.dev.img ∧ OnlyFields [R.GLB_IMG_STAT.CODE] s.dev t.dev ∧
      t = { s with dev := { s.dev with flds := t.dev.flds, img := t.dev.img, again := [], evNow := [], out := [] } } := by
  let a := Tx.accessed s.dev
  let x := a.imgCode 0x20
  have hexec : exec .imgLoad s = .next (s.afterAccess x.d) := by rw [exec_imgLoad s hon, Tx.imgLoad_busy _ hc hb]
  have hcode : x.d.f R.GLB_IMG_STAT.CODE = 0x20 := a.imgCode_f_same 0x20
  have hregs : RegsOnly a.d x.d := a.imgCode_regsOnly 0x20
  have honly : OnlyFields [R.GLB_IMG_STAT.CODE] a.d x.d := a.imgCode_onlyFields 0x20
  clear_value x
  exact ⟨s.afterAccess x.d, hexec, hcode, hregs.img, honly, s.afterAccess_of_imageOnly hregs.imageOnly⟩

/-- IMG_LOAD that is accepted (R71, R72). -/
theorem exec_imgLoad_accepted (s : State) (hon : s.dev.domOn (domainOf R.GLB_IMG_CTL.LOAD.off) = true) (hc : s.dev.cxlTesting = false)
    (hb : s.dev.loadBusy = false) :
    ∃ x : Tx s.dev, exec .imgLoad s = .next (s.afterAccess x.d) ∧ CheckStarted (Tx.accessed s.dev).d x.d := by
  refine ⟨_, exec_imgLoad s hon, ?_⟩
  rw [Tx.imgLoad_accepted _ hc hb]
  exact Tx.checkStarted_spec _

/-- Settles O18: a request by the state of the image is one of a few operations on the register file and the state of image loading. -/
theorem imageRequests : Obligations.ImageRequests := by
  refine ⟨exec_imgLoad_held, fun s hon hc => ?_, fun s hon => ?_, fun s hon => ?_, fun s hls hheld hrun => ?_⟩
  · cases hb : s.dev.loadBusy with
    | true =>
      obtain ⟨t, hexec, hcode, himg, honly, hframe⟩ := exec_imgLoad_busy s hon hc hb
      refine ⟨t, hexec, fun ⟨hls, hheld⟩ => ?_, fun _ => ⟨hcode, himg, honly⟩, hframe⟩
      rcases s.dev.loadBusy_iff.mp hb with h | h | h
      · omega
      · omega
      · rw [hheld] at h
        contradiction
    | false =>
      obtain ⟨x, hexec, hstart⟩ := exec_imgLoad_accepted s hon hc hb
      refine ⟨_, hexec, fun _ => ⟨hstart.loadState, hstart.sect, hstart.errOff, hstart.pendId, hstart.img, hstart.onlyFields⟩, fun h => ?_,
        s.afterAccess_of_imageOnly hstart.imageOnly⟩
      rw [s.dev.loadBusy_iff.mpr h] at hb
      contradiction
  · obtain ⟨x, hexec, hasked⟩ := exec_imgCommit s hon
    exact ⟨_, hexec, hasked.empty, hasked.committing, hasked.checking, fun ⟨h, hh⟩ => hasked.pending h hh, fun ⟨h, hh⟩ => hasked.held h hh,
      hasked.loadState, hasked.onlyFields, s.afterAccess_of_regsOnly hasked.regsOnly⟩
  · obtain ⟨x, hexec, hasked⟩ := exec_imgDiscard s hon
    obtain ⟨y, himg, hregs⟩ := hasked.frame
    refine ⟨_, hexec, hasked.empty, hasked.committing, fun h => ?_, hasked.refused, hasked.onlyFields,
      s.afterAccess_of_imageOnly_regFileOnly himg hregs⟩
    have hdrop := hasked.dropped h
    refine ⟨hdrop.img, hdrop.loadState, hdrop.commitHeld, hdrop.pendId, hdrop.code.trans ?_, hdrop.imgDone.trans ?_⟩
    · rcases h with h | h <;> simp [h]
    · rcases h with h | h <;> simp [h]
  · have hdue : (Tx.start s.dev).d.commitDue = true := by
      have hdue' : s.dev.commitDue = true := by simp [Device.commitDue, hls, hheld, hrun]
      exact hdue'
    rw [exec_committingStart, Tx.heldCommit_eq, if_pos hdue]
    exact ⟨_, rfl, Tx.toCommitting_loadState _, Tx.toCommitting_commitHeld _, Tx.toCommitting_onlyFields _, rfl⟩

end Sys2Proof.Machine
end

section
/-! SUPPORT. The end of an image check (R73, R77, R485): what the checks read of the device, and what their result makes of it. -/
namespace Sys2Proof.Machine

variable {d0 : Device}

/-! What the checks of an image read -/

/-- The device with CXL memory and the state of image loading alone. -/
def Device.imgOnly (d : Device) : Device := { cxl := d.cxl, img := d.img }

section
variable (d : Device)

theorem Device.imgOnly_imgLe : d.imgOnly.imgLe = d.imgLe := by rfl

theorem Device.imgOnly_imgBytes : d.imgOnly.imgBytes = d.imgBytes := by rfl

theorem Device.imgOnly_sect : d.imgOnly.sect = d.sect := by rfl

theorem Device.imgOnly_sectRecs : d.imgOnly.sectRecs = d.sectRecs := by rfl

theorem Device.imgOnly_imgOp : d.imgOnly.imgOp = d.imgOp := by rfl

theorem Device.imgOnly_imgStreams : d.imgOnly.imgStreams = d.imgStreams := by rfl

theorem Device.imgOnly_segStarts : d.imgOnly.segStarts = d.segStarts := by rfl

theorem Device.imgOnly_resBad : d.imgOnly.resBad = d.resBad := by rfl

theorem Device.imgOnly_namedRecs : d.imgOnly.namedRecs = d.namedRecs := by rfl

theorem Device.imgOnly_withNext : d.imgOnly.withNext = d.withNext := by rfl

theorem Device.imgOnly_segOps : d.imgOnly.segOps = d.segOps := by
  funext stop k
  induction k with
  | zero => rfl
  | succ k ih =>
    funext i
    simp only [Device.segOps, imgOnly_imgOp, ih]

theorem Device.imgOnly_streamBad : d.imgOnly.streamBad = d.streamBad := by
  funext s resCnt acqs
  simp only [Device.streamBad, imgOnly_segStarts, imgOnly_sectRecs, imgOnly_imgLe, imgOnly_imgOp, imgOnly_segOps]

theorem Device.imgOnly_chkSched : d.imgOnly.chkSched = d.chkSched := by
  simp only [Device.chkSched, imgOnly_sect, imgOnly_sectRecs, imgOnly_imgLe, imgOnly_imgBytes, imgOnly_imgStreams, imgOnly_streamBad, imgOnly_resBad,
    imgOnly_namedRecs, imgOnly_withNext]

theorem Device.imgOnly_chkCalGap : d.imgOnly.chkCalGap = d.chkCalGap := by
  simp only [Device.chkCalGap, imgOnly_sect, imgOnly_sectRecs, imgOnly_imgStreams, imgOnly_segStarts, imgOnly_segOps]

theorem Device.imgOnly_chkPoison : d.imgOnly.chkPoison = d.chkPoison := by
  funext p
  simp only [Device.chkPoison, Device.sectAt, imgOnly_sect]
  rfl

/-- Every check but that of the region reads CXL memory and the state of image loading alone. -/
theorem Device.imgChecks_eq (poisoned : List Nat) : d.imgChecks poisoned = (d.imgOnly.imgChecks poisoned).set 5 (0x06, fun _ => d.chkRegion) := by
  simp only [Device.imgChecks, imgOnly_chkSched, imgOnly_chkCalGap, imgOnly_chkPoison]
  rfl

theorem Device.parseImage_eq : d.parseImage = d.imgOnly.parseImage := by rfl

end

/-- The region check reads the capacity, the regions of the image and of the rings: no poison note and no ECC_EVT bit. -/
theorem Device.chkRegion_congr {d e : Device} (himg : e.img = d.img) (hrings : e.rings = d.rings) (hf : OnlyFields [R.ECC_EVT.CXL_POISON] d e) :
    e.chkRegion = d.chkRegion := by
  have hcap : e.capacity = d.capacity := by
    rw [Device.capacity, Device.capacity, Device.cxlUp, Device.cxlUp, hf.b (by decide), hf _ (by decide)]
  have hon : e.ringOn = d.ringOn := by
    funext n
    have hdrain : e.b R.ACQ_DRAIN_CTL.EN = d.b R.ACQ_DRAIN_CTL.EN := hf.b (by decide)
    have hstrm : e.b (R.ACQ_STRM_CTL.EN (n - 1)) = d.b (R.ACQ_STRM_CTL.EN (n - 1)) := hf.b (by
      simp only [List.map_cons, List.map_nil, List.mem_singleton, Fld.key, R.ACQ_STRM_CTL.EN, R.ECC_EVT.CXL_POISON]
      omega)
    rw [Device.ringOn, Device.ringOn, hdrain, hstrm]
  have hreg : e.ringRegions = d.ringRegions := by
    funext n
    simp only [Device.ringRegions, Device.ring, hon, hrings]
  simp only [Device.chkRegion, himg, hcap, hreg]

theorem Device.imgCheck_congr {d e : Device} (honly : e.imgOnly = d.imgOnly) (hreg : e.chkRegion = d.chkRegion) (poisoned : List Nat) :
    e.imgCheck poisoned = d.imgCheck poisoned := by
  rw [Device.imgCheck, Device.imgChecks_eq, honly, hreg, ← Device.imgChecks_eq, Device.imgCheck]

/-! A check that fails -/

theorem lowest_cons_isSome (x : Fail) (r : List Fail) : (lowest (x :: r)).isSome = true := by
  induction r generalizing x with
  | nil => rfl
  | cons y r ih =>
    have hstep : lowest (x :: y :: r) = lowest ((if y.1 < x.1 then y else x) :: r) := by
      by_cases hlt : y.1 < x.1
      · simp [lowest, hlt]
      · simp [lowest, hlt]
    rw [hstep]
    exact ih _

/-- An image with a poisoned line inside it fails a check (R485). -/
theorem Device.imgCheck_of_poison (d : Device) {poisoned : List Nat} (h : poisoned.any (fun o => o < d.img.latLen) = true) :
    (d.imgCheck poisoned).isSome = true := by
  have hne : d.chkPoison poisoned ≠ [] := by
    obtain ⟨o, ho, hlt⟩ := List.any_eq_true.mp h
    exact List.ne_nil_of_mem (List.mem_map_of_mem (List.mem_filter.mpr ⟨ho, hlt⟩))
  refine List.findSome?_isSome_iff.mpr ⟨(0x07, fun _ => d.chkPoison poisoned), by simp [Device.imgChecks], ?_⟩
  obtain ⟨x, r, hcons⟩ := List.exists_cons_of_ne_nil hne
  rw [Option.isSome_map, hcons]
  exact lowest_cons_isSome x r

/-- From `d` to `e` nothing may have changed but the register file, the state of image loading, the pending vectors and the note of the clock's events. -/
def ImageRegsOnly (d e : Device) : Prop := ∃ flds img pba evNow, e = { d with flds := flds, img := img, pba := pba, evNow := evNow }

theorem ImageRegsOnly.trans {d e g : Device} (h : ImageRegsOnly d e) (h' : ImageRegsOnly e g) : ImageRegsOnly d g := by
  obtain ⟨_, _, _, _, rfl⟩ := h
  obtain ⟨_, _, _, _, rfl⟩ := h'
  exact ⟨_, _, _, _, rfl⟩

theorem ImageRegsOnly.cxlPoison {d e : Device} (h : ImageRegsOnly d e) (a : Nat) : e.cxlPoison a = d.cxlPoison a := by
  obtain ⟨_, _, _, _, rfl⟩ := h
  rfl

theorem ImageOnly.imageRegsOnly {d e : Device} (h : ImageOnly d e) : ImageRegsOnly d e := by
  obtain ⟨_, _, rfl⟩ := h
  exact ⟨_, _, _, _, rfl⟩

theorem RegFileOnly.imageRegsOnly {d e : Device} (h : RegFileOnly d e) : ImageRegsOnly d e := by
  obtain ⟨_, _, _, rfl⟩ := h
  exact ⟨_, _, _, _, rfl⟩

/-! The read of the image (R485) -/

/-- A run establishes for each element what its own operation sets and every operation keeps. -/
theorem Tx.each_sets {α : Type} {Q : α → Tx d0 → Prop} {l : List α} {g : α → Tx d0 → Tx d0} (hset : ∀ a ∈ l, ∀ u, Q a (g a u))
    (hkeep : ∀ a ∈ l, ∀ b ∈ l, ∀ u, Q a u → Q a (g b u)) (t : Tx d0) : ∀ a ∈ l, Q a (t.each l g) := by
  induction l generalizing t with
  | nil => simp
  | cons b r ih =>
    intro a ha
    rcases List.mem_cons.mp ha with rfl | har
    · exact Tx.each_keeps (Q a) (g a t) r g (hset a ha t) (fun c hc u hu => hkeep a ha c (by simp [hc]) u hu)
    · exact ih (fun c hc => hset c (by simp [hc])) (fun c hc c' hc' => hkeep c (by simp [hc]) c' (by simp [hc'])) (g b t) a har

/-- Each line read counts from then on as the read found it. -/
theorem Tx.notePoison_cxlPoison (t : Tx d0) (addrs bad : List Nat) :
    ∀ a ∈ addrs, (t.notePoison addrs bad).d.cxlPoison a = bad.any (fun b => b / 64 == a / 64) := by
  refine Tx.each_sets (Q := fun a u => u.d.cxlPoison a = bad.any (fun b => b / 64 == a / 64)) (fun a _ u => ?_) (fun a _ c _ u hu => ?_) t
  · dsimp only
    split
    · next h => exact h
    · exact bget_bset_same ..
  · dsimp only
    split
    · exact hu
    · by_cases hac : a / 64 = c / 64
      · simp only [Device.cxlPoison, Tx.upd_d, applyUpd_cxlBad_eq, hac, bget_bset_same]
      · simp only [Device.cxlPoison, Tx.upd_d, applyUpd_cxlBad_eq, bget_bset_other _ _ _ _ _ hac]
        exact hu

theorem Tx.notePoison_frame (t : Tx d0) (addrs bad : List Nat) : ∃ cxlBad, (t.notePoison addrs bad).d = { t.d with cxlBad := cxlBad } := by
  refine Tx.each_keeps (fun u => ∃ cxlBad, u.d = { t.d with cxlBad := cxlBad }) t addrs _ ⟨_, rfl⟩ (fun a _ u hu => ?_)
  dsimp only
  split
  · exact hu
  · obtain ⟨_, hu⟩ := hu
    exact ⟨_, by rw [Tx.upd_d, hu]; rfl⟩

/-- The image under check has been read, with poison at the image offsets `poisoned`. -/
def Tx.imageRead (poisoned : List Nat) (t : Tx d0) : Tx d0 :=
  let u := t.notePoison ((List.range (t.d.img.latLen / 64)).map (fun i => t.d.img.latBase + 64 * i)) (poisoned.map (fun o => t.d.img.latBase + o))
  u.when (poisoned.any (fun o => o < u.d.img.latLen)) (fun t => t.ev R.ECC_EVT.CXL_POISON)

/-- What the read of the image makes of the device. -/
structure ImageRead (poisoned : List Nat) (d e : Device) : Prop where
  lines : ∀ i, i < d.img.latLen / 64 →
    e.cxlPoison (d.img.latBase + 64 * i) = poisoned.any (fun o => (d.img.latBase + o) / 64 == (d.img.latBase + 64 * i) / 64)
  bad : poisoned.any (fun o => o < d.img.latLen) = true → e.f R.ECC_EVT.CXL_POISON = 1
  good : poisoned.any (fun o => o < d.img.latLen) = false → e.f R.ECC_EVT.CXL_POISON = d.f R.ECC_EVT.CXL_POISON
  onlyFields : OnlyFields [R.ECC_EVT.CXL_POISON] d e
  frame : ∃ flds cxlBad pba evNow, e = { d with flds := flds, cxlBad := cxlBad, pba := pba, evNow := evNow }

theorem Tx.imageRead_spec (poisoned : List Nat) (t : Tx d0) : ImageRead poisoned t.d (t.imageRead poisoned).d := by
  have hlines := t.notePoison_cxlPoison ((List.range (t.d.img.latLen / 64)).map (fun i => t.d.img.latBase + 64 * i))
    (poisoned.map (fun o => t.d.img.latBase + o))
  have hframe := t.notePoison_frame ((List.range (t.d.img.latLen / 64)).map (fun i => t.d.img.latBase + 64 * i))
    (poisoned.map (fun o => t.d.img.latBase + o))
  rw [Tx.imageRead]
  generalize t.notePoison _ _ = u at hlines hframe
  have hread : ∀ i, i < t.d.img.latLen / 64 →
      u.d.cxlPoison (t.d.img.latBase + 64 * i) = poisoned.any (fun o => (t.d.img.latBase + o) / 64 == (t.d.img.latBase + 64 * i) / 64) := by
    intro i hi
    rw [hlines _ (List.mem_map_of_mem (List.mem_range.mpr hi)), List.any_map]
    rfl
  obtain ⟨cxlBad, hframe⟩ := hframe
  have himg : u.d.img = t.d.img := by rw [hframe]
  rw [himg]
  have hf : ∀ F, u.d.f F = t.d.f F := fun F => by rw [hframe]; rfl
  cases hbad : poisoned.any (fun o => o < t.d.img.latLen) with
  | true =>
    have hev := u.ev_frame R.ECC_EVT.CXL_POISON
    refine ⟨fun i hi => ?_, fun _ => u.ev_f_same _ rfl, fun h => absurd (hbad.symm.trans h) (by decide), fun F hF => ?_, ?_⟩
    · rw [← hread i hi, Tx.when, if_pos rfl, hev]
      rfl
    · exact (u.ev_onlyFields _ F hF).trans (hf F)
    · rw [hframe] at hev
      exact ⟨_, _, _, _, hev⟩
  | false => exact ⟨hread, fun h => absurd (hbad.symm.trans h) (by decide), fun _ => hf _, fun F _ => hf F, ⟨_, _, _, _, hframe⟩⟩

namespace ImageRead

variable {poisoned : List Nat} {d e : Device} (h : ImageRead poisoned d e)
include h

theorem img : e.img = d.img := by
  obtain ⟨_, _, _, _, rfl⟩ := h.frame
  rfl

theorem imgOnly : e.imgOnly = d.imgOnly := by
  obtain ⟨_, _, _, _, rfl⟩ := h.frame
  rfl

theorem rings : e.rings = d.rings := by
  obtain ⟨_, _, _, _, rfl⟩ := h.frame
  rfl

/-- What the read notes does not bear on the checks. -/
theorem imgCheck : e.imgCheck poisoned = d.imgCheck poisoned :=
  Device.imgCheck_congr h.imgOnly (Device.chkRegion_congr h.img h.rings h.onlyFields) poisoned

/-- What the read notes stands after what the result of the check changes. -/
theorem frame_trans {g : Device} (h' : ImageRegsOnly e g) :
    ∃ flds img cxlBad pba evNow, g = { d with flds := flds, img := img, cxlBad := cxlBad, pba := pba, evNow := evNow } := by
  obtain ⟨_, _, _, _, rfl⟩ := h.frame
  obtain ⟨_, _, _, _, rfl⟩ := h'
  exact ⟨_, _, _, _, _, rfl⟩

theorem parseImage : e.parseImage = d.parseImage := by rw [e.parseImage_eq, h.imgOnly, ← d.parseImage_eq]

end ImageRead

/-! What the result of a check makes of the device -/

/-- The fields that the end of a check may change, but for the note of poison. -/
def checkFlds : List Fld :=
  [R.GLB_IMG_STAT.LOAD_STATE, R.GLB_IMG_STAT.CODE, R.GLB_IMG_STAT.SECTION, R.GLB_IMG_STAT.COMMIT_HELD, R.GLB_IMG_ERR_OFF.OFFSET,
    R.GLB_IMG_PEND_ID_LO.VALUE, R.GLB_IMG_PEND_ID_HI.VALUE, R.GLB_DEV_EVT.IMG_DONE]

/-- The check has failed with a code at an offset of a section. -/
def Tx.checkFailed (t : Tx d0) (code off sect : Nat) : Tx d0 :=
  ((((t.dropPend).imgCode code).w R.GLB_IMG_STAT.SECTION sect).w R.GLB_IMG_ERR_OFF.OFFSET off).ev R.GLB_DEV_EVT.IMG_DONE

/-- What the failure of a check makes of the device (R73). -/
structure CheckFailed (code off sect : Nat) (d e : Device) : Prop where
  imgDone : e.f R.GLB_DEV_EVT.IMG_DONE = 1
  loadState : e.f R.GLB_IMG_STAT.LOAD_STATE = 0
  code : e.f R.GLB_IMG_STAT.CODE = code % 2 ^ R.GLB_IMG_STAT.CODE.width
  sect : e.f R.GLB_IMG_STAT.SECTION = sect % 2 ^ R.GLB_IMG_STAT.SECTION.width
  errOff : e.f R.GLB_IMG_ERR_OFF.OFFSET = off % 2 ^ 32
  img : e.img = { d.img with pend := none }
  onlyFields : OnlyFields checkFlds d e
  frame : ImageRegsOnly d e

theorem Tx.checkFailed_spec (t : Tx d0) (code off sect : Nat) : CheckFailed code off sect t.d (t.checkFailed code off sect).d := by
  obtain ⟨hdrop, himg⟩ := t.dropPend_imgCode code
  let a := t.dropPend.imgCode code
  let b := a.w R.GLB_IMG_STAT.SECTION sect
  let c := b.w R.GLB_IMG_ERR_OFF.OFFSET off
  have hev : OnlyFields [R.GLB_DEV_EVT.IMG_DONE] c.d (t.checkFailed code off sect).d := c.ev_onlyFields _
  have hoff : OnlyFields [R.GLB_IMG_ERR_OFF.OFFSET, R.GLB_DEV_EVT.IMG_DONE] b.d (t.checkFailed code off sect).d := (b.w_onlyFields _ off).trans hev
  have hrest : OnlyFields [R.GLB_IMG_STAT.SECTION, R.GLB_IMG_ERR_OFF.OFFSET, R.GLB_DEV_EVT.IMG_DONE] a.d (t.checkFailed code off sect).d :=
    (a.w_onlyFields _ sect).trans hoff
  have hregs : RegsOnly a.d c.d := (a.w_regsOnly _ sect).trans (b.w_regsOnly _ off)
  exact ⟨c.ev_f_same _ rfl, (hrest _ (by decide)).trans hdrop.loadState, (hrest _ (by decide)).trans hdrop.code,
    (hoff _ (by decide)).trans (a.w_f_same _ sect), (hev _ (by decide)).trans (b.w_f_same _ off),
    ((c.ev_img _).trans hregs.img).trans hdrop.img, (hdrop.onlyFields.trans hrest).mono (by simp [checkFlds]),
    (himg.trans hregs.imageOnly).imageRegsOnly.trans (c.ev_regFileOnly _).imageRegsOnly⟩

/-- The image has passed and is pending; a commit held for it is still to go on. -/
def Tx.checkPassed (t : Tx d0) (im : Image) : Tx d0 :=
  ((((t.modImg (fun x => { x with pend := some im })).pendId im.id).imgCode 0).w R.GLB_IMG_STAT.LOAD_STATE 2).ev R.GLB_DEV_EVT.IMG_DONE

/-- What an image that passes makes of the device (R73). -/
structure CheckPassed (im : Image) (d e : Device) : Prop where
  imgDone : e.f R.GLB_DEV_EVT.IMG_DONE = 1
  loadState : e.f R.GLB_IMG_STAT.LOAD_STATE = 2
  code : e.f R.GLB_IMG_STAT.CODE = 0
  pendId : e.f64 R.GLB_IMG_PEND_ID_LO.VALUE R.GLB_IMG_PEND_ID_HI.VALUE = im.id % 2 ^ 64
  img : e.img = { d.img with pend := some im }
  onlyFields : OnlyFields [R.GLB_IMG_PEND_ID_LO.VALUE, R.GLB_IMG_PEND_ID_HI.VALUE, R.GLB_IMG_STAT.CODE, R.GLB_IMG_STAT.LOAD_STATE,
    R.GLB_DEV_EVT.IMG_DONE] d e
  frame : ImageRegsOnly d e

theorem Tx.checkPassed_spec (t : Tx d0) (im : Image) : CheckPassed im t.d (t.checkPassed im).d := by
  let a := t.modImg (fun x => { x with pend := some im })
  let b := a.pendId im.id
  let c := b.imgCode 0
  let g := c.w R.GLB_IMG_STAT.LOAD_STATE 2
  have hev : OnlyFields [R.GLB_DEV_EVT.IMG_DONE] g.d (t.checkPassed im).d := g.ev_onlyFields _
  have hstate : OnlyFields [R.GLB_IMG_STAT.LOAD_STATE, R.GLB_DEV_EVT.IMG_DONE] c.d (t.checkPassed im).d := (c.w_onlyFields _ 2).trans hev
  have hcode : OnlyFields [R.GLB_IMG_STAT.CODE, R.GLB_IMG_STAT.LOAD_STATE, R.GLB_DEV_EVT.IMG_DONE] b.d (t.checkPassed im).d :=
    (b.imgCode_onlyFields 0).trans hstate
  have hregs : RegsOnly a.d g.d := ((a.w64_regsOnly _ _ im.id).trans (b.imgCode_regsOnly 0)).trans (c.w_regsOnly _ 2)
  exact ⟨g.ev_f_same _ rfl, (hev _ (by decide)).trans (c.w_f_same _ 2), (hstate _ (by decide)).trans (b.imgCode_f_same 0),
    (hcode.f64 (by decide) (by decide)).trans (a.w64_f64 im.id rfl rfl (by decide)), (g.ev_img _).trans hregs.img,
    ((t.modImg_onlyFields _).trans (a.w64_onlyFields _ _ im.id)).trans hcode,
    ((t.modImg_imageOnly _).trans hregs.imageOnly).imageRegsOnly.trans (g.ev_regFileOnly _).imageRegsOnly⟩

/-! IMG_CHECK_DONE -/

theorem exec_imgCheckDone (s : State) (poisoned : List Nat) :
    exec (.imgCheckDone poisoned) s = .next { s with dev := (effImgCheckDone poisoned (Tx.start s.dev)).d } := by rfl

/-- The image has been read, and the checks decide. -/
def Tx.checkEnds (poisoned : List Nat) (t : Tx d0) : Tx d0 :=
  match t.d.imgCheck poisoned with
  | some (code, off, sect) => t.checkFailed code off sect
  | none => (t.checkPassed t.d.parseImage).heldCommit

theorem effImgCheckDone_eq (t : Tx d0) (poisoned : List Nat) (h : t.d.f R.GLB_IMG_STAT.LOAD_STATE = 1) :
    effImgCheckDone poisoned t = (t.imageRead poisoned).checkEnds poisoned := by
  exact if_neg (not_not.mpr h)

/-- A commit that was held while the image was checked goes on where no run is in progress (R77, R84). -/
structure HeldCommitTaken (d e : Device) : Prop where
  loadState : e.f R.GLB_IMG_STAT.LOAD_STATE = if d.b R.GLB_IMG_STAT.COMMIT_HELD && !d.running then 3 else 2
  commitHeld : e.b R.GLB_IMG_STAT.COMMIT_HELD = (d.b R.GLB_IMG_STAT.COMMIT_HELD && d.running)
  onlyFields : OnlyFields [R.GLB_IMG_STAT.COMMIT_HELD, R.GLB_IMG_STAT.LOAD_STATE] d e
  regsOnly : RegsOnly d e

theorem Tx.heldCommit_spec (t : Tx d0) (h : t.d.f R.GLB_IMG_STAT.LOAD_STATE = 2) : HeldCommitTaken t.d t.heldCommit.d := by
  have hdue : t.d.commitDue = (t.d.b R.GLB_IMG_STAT.COMMIT_HELD && !t.d.running) := by simp [Device.commitDue, h]
  rw [Tx.heldCommit_eq, hdue]
  cases hheld : t.d.b R.GLB_IMG_STAT.COMMIT_HELD with
  | false => exact ⟨by simp [h, hheld], by simp [hheld], .refl _ _, .refl _⟩
  | true =>
    cases hrun : t.d.running with
    | true => exact ⟨by simp [h, hrun], by simp [hheld, hrun], .refl _ _, .refl _⟩
    | false => exact ⟨by simp [hheld, hrun], by simp [Device.b, hrun], t.toCommitting_onlyFields, t.toCommitting_regsOnly⟩

/-- What the end of a check makes of the device (R73, R77). -/
structure CheckDone (poisoned : List Nat) (d e : Device) : Prop where
  imgDone : e.f R.GLB_DEV_EVT.IMG_DONE = 1
  bad : poisoned.any (fun o => o < d.img.latLen) = true → e.f R.ECC_EVT.CXL_POISON = 1
  good : poisoned.any (fun o => o < d.img.latLen) = false → e.f R.ECC_EVT.CXL_POISON = d.f R.ECC_EVT.CXL_POISON
  lines : ∀ i, i < d.img.latLen / 64 →
    e.cxlPoison (d.img.latBase + 64 * i) = poisoned.any (fun o => (d.img.latBase + o) / 64 == (d.img.latBase + 64 * i) / 64)
  failed : ∀ code off sect, d.imgCheck poisoned = some (code, off, sect) → e.f R.GLB_IMG_STAT.LOAD_STATE = 0 ∧
    e.f R.GLB_IMG_STAT.CODE = code % 2 ^ R.GLB_IMG_STAT.CODE.width ∧ e.f R.GLB_IMG_STAT.SECTION = sect % 2 ^ R.GLB_IMG_STAT.SECTION.width ∧
    e.f R.GLB_IMG_ERR_OFF.OFFSET = off % 2 ^ 32 ∧ e.img = { d.img with pend := none }
  passed : d.imgCheck poisoned = none →
    e.f R.GLB_IMG_STAT.LOAD_STATE = (if d.b R.GLB_IMG_STAT.COMMIT_HELD && !d.running then 3 else 2) ∧ e.f R.GLB_IMG_STAT.CODE = 0 ∧
    e.b R.GLB_IMG_STAT.COMMIT_HELD = (d.b R.GLB_IMG_STAT.COMMIT_HELD && d.running) ∧ e.img = { d.img with pend := some d.parseImage } ∧
    e.f64 R.GLB_IMG_PEND_ID_LO.VALUE R.GLB_IMG_PEND_ID_HI.VALUE = d.parseImage.id % 2 ^ 64
  onlyFields : OnlyFields (checkFlds ++ [R.ECC_EVT.CXL_POISON]) d e
  frame : ∃ flds img cxlBad pba evNow, e = { d with flds := flds, img := img, cxlBad := cxlBad, pba := pba, evNow := evNow }

theorem effImgCheckDone_spec (t : Tx d0) (poisoned : List Nat) (h : t.d.f R.GLB_IMG_STAT.LOAD_STATE = 1) :
    CheckDone poisoned t.d (effImgCheckDone poisoned t).d := by
  have hread := t.imageRead_spec poisoned
  have hcheck := hread.imgCheck
  have hparse := hread.parseImage
  rw [effImgCheckDone_eq t poisoned h, Tx.checkEnds]
  generalize t.imageRead poisoned = u at hread hcheck hparse
  rw [hcheck, hparse]
  cases hres : t.d.imgCheck poisoned with
  | some x =>
    obtain ⟨code, off, sect⟩ := x
    have hfail := u.checkFailed_spec code off sect
    dsimp only
    generalize u.checkFailed code off sect = e at hfail
    have hpoison := hfail.onlyFields R.ECC_EVT.CXL_POISON (by decide)
    refine ⟨hfail.imgDone, fun hb => hpoison.trans (hread.bad hb), fun hg => hpoison.trans (hread.good hg),
      fun i hi => (hfail.frame.cxlPoison _).trans (hread.lines i hi), fun c o x hx => ?_, fun hx => ?_,
      (hread.onlyFields.trans hfail.onlyFields).mono (by simp), hread.frame_trans hfail.frame⟩
    · rw [hres] at hx
      obtain ⟨rfl, rfl, rfl⟩ : code = c ∧ off = o ∧ sect = x := by simpa using hx
      exact ⟨hfail.loadState, hfail.code, hfail.sect, hfail.errOff, by rw [hfail.img, hread.img]⟩
    · rw [hres] at hx
      contradiction
  | none =>
    have hpass := u.checkPassed_spec t.d.parseImage
    dsimp only
    generalize u.checkPassed t.d.parseImage = v at hpass
    have hheld := v.heldCommit_spec hpass.loadState
    generalize v.heldCommit = e at hheld
    have hf : OnlyFields _ u.d e.d := hpass.onlyFields.trans hheld.onlyFields
    have hpoison := hf R.ECC_EVT.CXL_POISON (by decide)
    have hwas : v.d.b R.GLB_IMG_STAT.COMMIT_HELD = t.d.b R.GLB_IMG_STAT.COMMIT_HELD := (hpass.onlyFields.b (by decide)).trans (hread.onlyFields.b (by decide))
    have hrun : v.d.running = t.d.running := (hpass.onlyFields.b (by decide)).trans (hread.onlyFields.b (by decide))
    have hframe : ImageRegsOnly u.d e.d := hpass.frame.trans hheld.regsOnly.imageOnly.imageRegsOnly
    refine ⟨(hheld.onlyFields _ (by decide)).trans hpass.imgDone, fun hb => hpoison.trans (hread.bad hb), fun hg => hpoison.trans (hread.good hg),
      fun i hi => (hframe.cxlPoison _).trans (hread.lines i hi), fun c o x hx => ?_, fun _ => ⟨?_, (hheld.onlyFields _ (by decide)).trans hpass.code, ?_, ?_,
      (hheld.onlyFields.f64 (by decide) (by decide)).trans hpass.pendId⟩, (hread.onlyFields.trans hf).mono (by simp [checkFlds]), hread.frame_trans hframe⟩
    · rw [hres] at hx
      contradiction
    · rw [hheld.loadState, hwas, hrun]
    · rw [hheld.commitHeld, hwas, hrun]
    · rw [hheld.regsOnly.img, hpass.img, hread.img]

/-! What the last command sent out does not bear on the checks -/

theorem Tx.start_imgCheck (d : Device) (poisoned : List Nat) : (Tx.start d).d.imgCheck poisoned = d.imgCheck poisoned := by
  have honly : (Tx.start d).d.imgOnly = d.imgOnly := rfl
  have hreg : (Tx.start d).d.chkRegion = d.chkRegion := Device.chkRegion_congr rfl rfl fun _ _ => rfl
  exact Device.imgCheck_congr honly hreg poisoned

theorem Tx.start_parseImage (d : Device) : (Tx.start d).d.parseImage = d.parseImage := by
  have honly : (Tx.start d).d.imgOnly = d.imgOnly := rfl
  rw [Device.parseImage_eq, honly, ← Device.parseImage_eq]

end Sys2Proof.Machine
end

section
/-! SUPPORT. The commit tick (R79): what the later parts of an installation leave alone. -/
namespace Sys2Proof.Machine

variable {d0 : Device}

/-! What an installation keeps -/

/-- The pieces that no part of an installation changes once the image is the committed one. -/
def commitPieces : List Piece := [.img, .run, .time, .power, .thermal, .calib, .st, .keep, .fw, .svc, .host, .cxl, .patchWait]

/-- The fields that the commit reports in (R79), and those that say what the part is doing. -/
def commitFlds : List Fld :=
  [R.GLB_IMG_STAT.ACTIVE, R.GLB_IMG_STAT.LOAD_STATE, R.GLB_IMG_ACT_ID_LO.VALUE, R.GLB_IMG_ACT_ID_HI.VALUE, R.GLB_IMG_COMMIT_EPOCH_LO.VALUE,
    R.GLB_IMG_COMMIT_EPOCH_HI.VALUE, R.GLB_UNIT_SELF.VALID, R.GLB_UNIT_SELF.DEV, R.GLB_RUN_STAT.RUNNING, R.TB_STAT.AWAKE]

/-- From `d` to `e` the pieces and fields above are kept, and no engine has entered STATE FAULT. -/
structure Spared (d e : Device) : Prop where
  piece : ∀ p ∈ commitPieces, Same d e p
  fld : ∀ F ∈ commitFlds, e.f F = d.f F
  calm : ∀ k, e.f (R.SCH_STAT.STATE k) = 3 → d.f (R.SCH_STAT.STATE k) = 3

/-- A write of the field is no write of a field above, nor of an engine's STATE. -/
structure Aside (F : Fld) : Prop where
  fld : ∀ G ∈ commitFlds, G.key ≠ F.key
  state : ∀ k, (R.SCH_STAT.STATE k).key ≠ F.key

/-- The keys of tile registers at `o` in their block, but for those of an engine's STATE. -/
def sparedPlace (o lo : Nat) : Bool := o < 0x20000 && lo < 32 && !((o == 0x2000 || o == 0x2040) && lo == 30)

theorem commitFlds_low : ∀ G ∈ commitFlds, G.key < 32 * 0x40000 := by decide

theorem Aside.of_place {F : Fld} (h : 0x40000 ≤ F.off) (hp : sparedPlace (F.off % 0x20000) F.lo = true) : Aside F := by
  simp only [sparedPlace, Bool.and_eq_true, Bool.not_eq_true', Bool.and_eq_false_iff, Bool.or_eq_false_iff, decide_eq_true_eq, beq_eq_false_iff_ne] at hp
  constructor
  · intro G hG
    have := commitFlds_low G hG
    simp only [Fld.key] at this ⊢
    omega
  · intro k
    simp only [Fld.key, R.SCH_STAT.STATE, tileOff]
    omega

/-- A replicated register of the tile blocks (R696). -/
theorem Aside.tile {per base stride lo : Nat} (h : (List.range per).all (fun j => sparedPlace (base + stride * j) lo) = true := by decide)
    (hper : 0 < per := by decide) {i hi : Nat} {acc : Acc} {rst : Nat} : Aside ⟨tileOff per base stride i, hi, lo, acc, rst⟩ := by
  have hplace : sparedPlace (base + stride * (i % per)) lo = true := List.all_eq_true.mp h _ (List.mem_range.mpr (Nat.mod_lt i hper))
  have hlt : base + stride * (i % per) < 0x20000 := by
    simp only [sparedPlace, Bool.and_eq_true, decide_eq_true_eq] at hplace
    exact hplace.1.1
  have hmod : tileOff per base stride i % 0x20000 = base + stride * (i % per) := by
    simp only [tileOff]
    omega
  exact .of_place (by simp only [tileOff]; omega) (by rw [hmod]; exact hplace)

/-- A register that a tile block holds once. -/
theorem Aside.tileReg {base lo : Nat} (h : sparedPlace (base % 0x20000) lo = true := by decide) (hb : 0x40000 ≤ base := by decide)
    {i hi : Nat} {acc : Acc} {rst : Nat} : Aside ⟨base + 0x20000 * i, hi, lo, acc, rst⟩ := by
  have hmod : (base + 0x20000 * i) % 0x20000 = base % 0x20000 := by omega
  exact .of_place (by dsimp only; omega) (by rw [hmod]; exact h)

/-- A register below the tile blocks. -/
theorem Aside.low {F : Fld} (h : F.key < 32 * 0x100000) (hF : ∀ G ∈ commitFlds, G.key ≠ F.key) : Aside F := by
  refine ⟨hF, fun k => ?_⟩
  simp only [Fld.key, R.SCH_STAT.STATE, tileOff] at h ⊢
  omega

theorem Aside.port {lo p hi : Nat} (hp : p < 9) (hlo : lo < 32 := by decide) {acc : Acc} {rst : Nat} :
    Aside ⟨0x40100 + 0x20 * p, hi, lo, acc, rst⟩ := by
  refine .of_place (by dsimp only; omega) ?_
  simp only [sparedPlace]
  have h1 : (0x40100 + 0x20 * p) % 0x20000 = 0x100 + 0x20 * p := by omega
  have h2 : 0x100 + 0x20 * p < 0x300 := by omega
  rw [h1]
  simp only [Bool.and_eq_true, Bool.not_eq_true', Bool.and_eq_false_iff, Bool.or_eq_false_iff, decide_eq_true_eq, beq_eq_false_iff_ne]
  omega


/-! Primitive operations -/

theorem Same.trans {d e g : Device} {p : Piece} (h : Same d e p) (h' : Same e g p) : Same d g p := by
  cases p <;> exact Eq.trans h' h

/-- An update of no piece above and no register. -/
def Upd.spares (u : Upd) : Bool := !u.setsRegs && commitPieces.all (fun p => !u.hits p)

/-- The tick depends on AWAKE and the timebase alone (R93). -/
theorem Device.now_congr {d e : Device} (hb : e.b R.TB_STAT.AWAKE = d.b R.TB_STAT.AWAKE) (ht : e.time = d.time) : e.now = d.now := by
  rw [Device.now, Device.now, hb, ht]

namespace Spared

theorem refl (d : Device) : Spared d d := ⟨fun p _ => by cases p <;> rfl, fun _ _ => rfl, fun _ h => h⟩

theorem trans {d e g : Device} (h : Spared d e) (h' : Spared e g) : Spared d g :=
  ⟨fun p hp => (h.piece p hp).trans (h'.piece p hp), fun F hF => (h'.fld F hF).trans (h.fld F hF), fun k hk => h.calm k (h'.calm k hk)⟩

theorem running {d e : Device} (h : Spared d e) : e.running = d.running := congrArg (· == 1) (h.fld R.GLB_RUN_STAT.RUNNING (by decide))

theorem now {d e : Device} (h : Spared d e) : e.now = d.now :=
  Device.now_congr (congrArg (· == 1) (h.fld R.TB_STAT.AWAKE (by decide))) (h.piece .time (by decide))

theorem f64 {d e : Device} (h : Spared d e) {L H : Fld} (hL : L ∈ commitFlds) (hH : H ∈ commitFlds) : e.f64 L H = d.f64 L H := by
  rw [Device.f64, Device.f64, h.fld L hL, h.fld H hH]

section
variable {d : Device} {t : Tx d0} (h : Spared d t.d)
include h

theorem upd {u : Upd} (hu : u.spares = true := by rfl) : Spared d (t.upd u).d := by
  simp only [Upd.spares, Bool.and_eq_true, Bool.not_eq_true', List.all_eq_true] at hu
  obtain ⟨hregs, hpieces⟩ := hu
  have hf : ∀ F, (t.upd u).d.f F = t.d.f F := fun F => applyUpd_f t.d u F (by simp [hregs])
  refine ⟨fun p hp => (h.piece p hp).trans (applyUpd_same t.d u p (by simp [hpieces p hp])), fun F hF => (hf F).trans (h.fld F hF), fun k hk => ?_⟩
  exact h.calm k ((hf _).symm.trans hk)

theorem w {F : Fld} (hF : Aside F) (v : Nat) : Spared d (t.w F v).d :=
  ⟨h.piece, fun G hG => (t.w_f_other F G v (hF.fld G hG)).trans (h.fld G hG), fun k hk => h.calm k ((t.w_f_other F _ v (hF.state k)).symm.trans hk)⟩

theorem wb {F : Fld} (hF : Aside F) (v : Bool) : Spared d (t.wb F v).d := h.w hF _

theorem w64 {L H : Fld} (hL : Aside L) (hH : Aside H) (v : Nat) : Spared d (t.w64 L H v).d := (h.w hL _).w hH _

theorem inc {F : Fld} (hF : Aside F) : Spared d (t.inc F).d := h.w hF _

theorem ev {F : Fld} (hF : Aside F) : Spared d (t.ev F).d := by
  refine ⟨fun p hp => (h.piece p hp).trans (t.ev_same F p ?_ ?_), fun G hG => (t.ev_f_other F G (hF.fld G hG)).trans (h.fld G hG),
    fun k hk => h.calm k ((t.ev_f_other F _ (hF.state k)).symm.trans hk)⟩
  · rintro rfl
    exact absurd hp (by decide)
  · rintro rfl
    exact absurd hp (by decide)

omit h in
theorem ite {c : Prop} [Decidable c] {x y : Tx d0} (hx : Spared d x.d) (hy : Spared d y.d) : Spared d (if c then x else y).d := by
  split
  · exact hx
  · exact hy

theorem each {α : Type} (l : List α) {g : α → Tx d0 → Tx d0} (hg : ∀ a ∈ l, ∀ u : Tx d0, Spared d u.d → Spared d (g a u).d) :
    Spared d (t.each l g).d := Tx.each_keeps (fun u => Spared d u.d) t l g h hg

/-- An engine's STATE is cleared. -/
theorem clearState (e : Nat) : Spared d (t.w (R.SCH_STAT.STATE e) 0).d := by
  refine ⟨h.piece, fun G hG => (t.w_f_other _ G 0 ?_).trans (h.fld G hG), fun k hk => ?_⟩
  · have := commitFlds_low G hG
    simp only [Fld.key, R.SCH_STAT.STATE, tileOff] at this ⊢
    omega
  · by_cases hke : (R.SCH_STAT.STATE k).key = (R.SCH_STAT.STATE e).key
    · have hkf : (t.w (R.SCH_STAT.STATE e) 0).d.f (R.SCH_STAT.STATE k) = 0 := by
        have hsame : R.SCH_STAT.STATE k = R.SCH_STAT.STATE e := by
          simp only [Fld.key, R.SCH_STAT.STATE] at hke ⊢
          rw [show tileOff 2 0x2000 0x40 k = tileOff 2 0x2000 0x40 e by omega]
        rw [hsame, Tx.w_f_same, Nat.zero_mod]
      omega
    · exact h.calm k ((t.w_f_other _ _ 0 hke).symm.trans hk)

/-! The parts of an installation -/

theorem showSeq (e : Nat) : Spared d (t.showSeq e).d := by
  unfold Tx.showSeq
  dsimp only
  split
  · refine (((Spared.w ?_ .tile 0).w .tile 0).w .tile 0).w .tile 0
    split
    · exact h
    · exact h.w .tile 0
  · exact ((((((h.w .tile _).w .tile _).wb .tile _).w .tile _).w .tile _).w .tile _).w .tile _

omit h in
/-- Beside its STATE, what is cleared of an engine's fault is spared. -/
theorem clearFault_of_state {e : Nat} (hs : Spared d (if t.f (R.SCH_STAT.STATE e) = 3 then t.w (R.SCH_STAT.STATE e) 0 else t).d) :
    Spared d (t.clearFault e).d := by
  have hrest := ((((hs.w (F := R.SCH_STAT.FAULT e) .tile 0).w (F := R.ENG_FAULT.CODE e) .tile 0).w (F := R.ENG_FAULT.TRAP e) .tile 0).w
    (F := R.ENG_FAULT.SPACE e) .tile 0).w (F := R.ENG_FAULT.UPC e) .tile 0
  exact .ite ((hrest.w (F := R.ENG_STAT.SEQ_STATE e) .tile 0).upd.showSeq e) hrest

theorem clearFault (e : Nat) : Spared d (t.clearFault e).d := clearFault_of_state (.ite (h.clearState e) h)

theorem setClamp (k w : Nat) : Spared d (t.setClamp k w).d :=
  .ite h.upd (.ite ((((Spared.ite h.upd h.upd.upd).wb .tile _).w .tile _).wb .tile _) (h.upd.wb .tileReg _))

theorem clampAdd (k mask : Nat) : Spared d (t.clampAdd k mask).d := h.setClamp k _

theorem armClamp (k : Nat) : Spared d (t.armClamp k).d := .ite h (h.setClamp k _)

theorem loadCode (c code : Nat) : Spared d (t.loadCode c code).d := (Spared.ite h h.upd).w .tile _

theorem emptyHeld (c : Nat) : Spared d (t.emptyHeld c).d := (h.w .tile 0).w .tile 0

theorem commitFlux (c : Nat) : Spared d (t.commitFlux c).d := by
  have hgroup := h.w (F := R.FLX_OUT_STAT.GROUP c) .tile (t.d.groupOf c)
  exact .ite hgroup.upd (((hgroup.upd.upd.emptyHeld c).loadCode c 0).clampAdd _ _)

theorem idleFlux (tl : Nat) : Spared d (t.idleFlux tl).d := h.each _ fun _ _ _ hu => .ite hu (hu.loadCode _ _)

theorem markNow (tl : Nat) (v : Bool) : Spared d (t.markNow tl v).d := by
  have hlevel := h.wb (F := R.FLX_MARK.LEVEL tl) .tileReg v
  have hstretch := h.ev (F := R.FLX_EVT.MARK_STRETCH tl) .tileReg
  unfold Tx.markNow Tx.when
  exact .ite h.upd (.ite (Spared.ite (hlevel.inc .tileReg) hlevel).upd hstretch.upd)

theorem idleTile (tl : Nat) : Spared d (t.idleTile tl).d := (h.idleFlux tl).markNow tl _

theorem zeroFrame (f : Nat) : Spared d (t.zeroFrame f).d := by
  have hnote : Spared d (t.noteFrame f).d := h.upd
  exact .ite h (((hnote.w64 .tile .tile 0).w .tile 0).w64 .tile .tile 0)

theorem commitTile (tl : Nat) : Spared d (t.commitTile tl).d := by
  have hclamp := h.each (tileOutputs tl) (g := fun k t => t.armClamp k) fun k _ u hu => hu.armClamp k
  have hflux := hclamp.each (List.range 8) (g := fun i t => t.commitFlux (8 * tl + i)) fun i _ u hu => hu.commitFlux _
  refine Spared.each (Spared.each (Spared.each ((hflux.idleTile tl).wb .tileReg _) _ ?_) _ ?_) _ ?_
  · exact fun i _ u hu => hu.zeroFrame _
  · exact fun i _ u hu => hu.wb .tile _
  · exact fun i _ u hu => hu.wb .tile _

theorem dropOwners : Spared d t.dropOwners.d := by
  refine h.each _ fun c _ u hu => ?_
  split
  · exact hu.upd
  · exact hu

theorem poisonLines (ls : List Nat) : Spared d (t.poisonLines ls).d :=
  .ite h ((h.each ls fun _ _ _ hu => hu.upd).ev (.low (by decide) (by decide)))

theorem loadForks : Spared d t.loadForks.d := by
  have hzero := h.upd (u := .fillLines (classBase 3 0) (classBase 3 0 + 16384) .zero)
  unfold Tx.loadForks
  dsimp only
  split
  · exact hzero
  · exact .ite hzero ((hzero.each _ fun _ _ _ hu => hu.upd).poisonLines _)

theorem loadTables (im : Image) : Spared d (t.loadTables im).d := .ite h.upd (h.upd.poisonLines _)

theorem showPorts : Spared d t.showPorts.d :=
  ((h.wb (.low (by decide) (by decide)) _).wb (.low (by decide) (by decide)) _).wb (.low (by decide) (by decide)) _

theorem askBlock (wave : Bool) (block : Nat) : Spared d (t.askBlock wave block).d := by
  unfold Tx.askBlock
  split
  · exact .ite h.upd h
  · exact h

theorem fetchBlock (wave : Bool) (block : Nat) : Spared d (t.fetchBlock wave block).d := .ite h (h.upd.askBlock wave block)

theorem preload (e : Nat) : Spared d (t.preload e).d := by
  unfold Tx.preload
  split
  · exact h
  · exact (h.each _ fun b _ u hu => hu.fetchBlock false b).each _ fun b _ u hu => hu.fetchBlock true b

end

end Spared

/-! The installation in three parts -/

/-- The pending image becomes the committed one (R79). -/
def Tx.takeImage (im : Image) (t : Tx d0) : Tx d0 :=
  let t := (t.modImg (fun x => { x with pend := none, act := some im })).modTwin (fun x => { x with absent := false })
  let t := ((t.wb R.GLB_IMG_STAT.ACTIVE true).w R.GLB_IMG_STAT.LOAD_STATE 0).wb R.GLB_IMG_STAT.COMMIT_HELD false
  (t.w64 R.GLB_IMG_ACT_ID_LO.VALUE R.GLB_IMG_ACT_ID_HI.VALUE im.id).pendId 0

/-- The tick of the commit and the device that the image names are shown (R79). -/
def Tx.showCommit (im : Image) (t : Tx d0) : Tx d0 :=
  let t := t.w64 R.GLB_IMG_COMMIT_EPOCH_LO.VALUE R.GLB_IMG_COMMIT_EPOCH_HI.VALUE t.now.toNat
  ((t.wb R.GLB_UNIT_SELF.VALID true).w R.GLB_UNIT_SELF.DEV im.dev).w R.GLB_UNIT_SELF.UNIT_ID (t.d.tree.self)

/-- STATE FAULT is cleared in every engine (R79). -/
def Tx.clearFaults (t : Tx d0) : Tx d0 := t.each (List.range 64) (fun e t => t.clearFault e)

/-- The tables of the image take effect (R78), and the commit is reported (R79). -/
def Tx.installTables (im : Image) (t : Tx d0) : Tx d0 :=
  let t := ((((t.upd (.dropRes 0 64)).upd .dropBad).upd .dropSums).upd (.cxlReads [])).dropOwners
  let t := t.loadForks.loadTables im
  let t := t.each ((List.range 32).filter t.d.tileOn) (fun tl t => t.commitTile tl)
  let t := t.each (List.range 9) (fun p t =>
    let x := t.d.statIn p
    let t := t.wb (R.FAB_PORT_STAT.NBR_OK p) (!x.cells.isEmpty && (t.d.portRec p).map (fun r => rb r 3) == some (t.f (R.FAB_PORT_STAT.NBR_DEV p)))
    t.wb (R.FAB_PORT_STAT.PLAN_OK p) (x.whole == some im.plan))
  let t := (t.wb R.FAB_STAT.PLAN (!t.d.fabric.isEmpty)).wb R.FAB_STAT.ANISE t.d.aniseMode
  let t := t.each (List.range 9) (fun p t => t.wb (R.FAB_PORT_STAT.USED p) (t.d.portRec p).isSome)
  let t := t.showPorts
  (t.each (List.range 64) (fun e t => t.preload e)).ev R.GLB_DEV_EVT.IMG_COMMIT

theorem Tx.install_eq (t : Tx d0) (im : Image) : t.install im = ((t.takeImage im).showCommit im).clearFaults.installTables im := by rfl

theorem Spared.clearFaults {d : Device} {t : Tx d0} (h : Spared d t.d) : Spared d t.clearFaults.d := h.each _ fun e _ _ hu => hu.clearFault e

theorem Tx.clearFault_state_ne (t : Tx d0) (e : Nat) : (t.clearFault e).d.f (R.SCH_STAT.STATE e) ≠ 3 := by
  have hs := Spared.clearFault_of_state (t := t) (e := e) (.refl _)
  refine fun h => ?_
  have h3 := hs.calm e h
  by_cases hf : t.f (R.SCH_STAT.STATE e) = 3
  · rw [if_pos hf, Tx.w_f_same, Nat.zero_mod] at h3
    contradiction
  · rw [if_neg hf] at h3
    exact hf h3

/-- No engine is left in STATE FAULT. -/
theorem Tx.clearFaults_state_ne (t : Tx d0) (e : Fin 64) : t.clearFaults.d.f (R.SCH_STAT.STATE e) ≠ 3 :=
  Tx.each_sets (Q := fun e u => u.d.f (R.SCH_STAT.STATE e) ≠ 3) (fun e _ u => u.clearFault_state_ne e)
    (fun e _ b _ u hu h => hu ((Spared.refl u.d).clearFault b |>.calm e h)) t e.val (List.mem_range.mpr e.isLt)

theorem Tx.installTables_spared (t : Tx d0) (im : Image) : Spared t.d (t.installTables im).d := by
  have hport : ∀ p ∈ List.range 9, p < 9 := fun p hp => List.mem_range.mp hp
  have htables := (((((Spared.refl t.d).upd (u := .dropRes 0 64)).upd (u := .dropBad)).upd (u := .dropSums)).upd (u := .cxlReads [])).dropOwners.loadForks.loadTables im
  unfold Tx.installTables
  refine Spared.ev (Spared.each (Spared.showPorts (Spared.each (Spared.wb (Spared.wb (Spared.each (Spared.each htables _ ?_) _ ?_) ?_ _) ?_ _) _ ?_)) _ ?_) ?_
  · exact fun tl _ u hu => hu.commitTile tl
  · exact fun p hp u hu => (hu.wb (.port (hport p hp)) _).wb (.port (hport p hp)) _
  · exact .low (by decide) (by decide)
  · exact .low (by decide) (by decide)
  · exact fun p hp u hu => hu.wb (.port (hport p hp)) _
  · exact fun e _ u hu => hu.preload e
  · exact .low (by decide) (by decide)

theorem Tx.installTables_imgCommit (t : Tx d0) (im : Image) : (t.installTables im).d.f R.GLB_DEV_EVT.IMG_COMMIT = 1 := Tx.ev_f_same _ _ rfl

/-! The commit's reports -/

theorem RegsOnly.same {d e : Device} (h : RegsOnly d e) (p : Piece) : Same d e p := by
  obtain ⟨_, rfl⟩ := h
  cases p <;> rfl

theorem Tx.modImg_same (t : Tx d0) (g : ImageSt → ImageSt) {p : Piece} (h : p ≠ .img) : Same t.d (t.modImg g).d p :=
  applyUpd_same t.d (.img (g t.d.img)) p (by simpa only [Upd.hits, beq_iff_eq] using h)

theorem Tx.modTwin_same (t : Tx d0) (g : Twin → Twin) {p : Piece} (h : p ≠ .twin) : Same t.d (t.modTwin g).d p :=
  applyUpd_same t.d (.twin (g t.d.twin)) p (by simpa only [Upd.hits, beq_iff_eq] using h)

/-- What the image that becomes the committed one makes of the device. -/
structure ImageTaken (im : Image) (d e : Device) : Prop where
  img : e.img = { d.img with pend := none, act := some im }
  active : e.f R.GLB_IMG_STAT.ACTIVE = 1
  loadState : e.f R.GLB_IMG_STAT.LOAD_STATE = 0
  actId : e.f64 R.GLB_IMG_ACT_ID_LO.VALUE R.GLB_IMG_ACT_ID_HI.VALUE = im.id % 2 ^ 64
  onlyFields : OnlyFields [R.GLB_IMG_STAT.ACTIVE, R.GLB_IMG_STAT.LOAD_STATE, R.GLB_IMG_STAT.COMMIT_HELD, R.GLB_IMG_ACT_ID_LO.VALUE,
    R.GLB_IMG_ACT_ID_HI.VALUE, R.GLB_IMG_PEND_ID_LO.VALUE, R.GLB_IMG_PEND_ID_HI.VALUE] d e
  piece : ∀ p, p ≠ .img → p ≠ .twin → Same d e p

theorem Tx.takeImage_spec (t : Tx d0) (im : Image) : ImageTaken im t.d (t.takeImage im).d := by
  let u := t.modImg (fun x => { x with pend := none, act := some im })
  let a := u.modTwin (fun x => { x with absent := false })
  let b := a.wb R.GLB_IMG_STAT.ACTIVE true
  let c := b.w R.GLB_IMG_STAT.LOAD_STATE 0
  let g := c.wb R.GLB_IMG_STAT.COMMIT_HELD false
  let k := g.w64 R.GLB_IMG_ACT_ID_LO.VALUE R.GLB_IMG_ACT_ID_HI.VALUE im.id
  have hk : OnlyFields [R.GLB_IMG_PEND_ID_LO.VALUE, R.GLB_IMG_PEND_ID_HI.VALUE] k.d (t.takeImage im).d := k.w64_onlyFields _ _ 0
  have hc := ((c.w_onlyFields R.GLB_IMG_STAT.COMMIT_HELD false.toNat).trans (g.w64_onlyFields _ _ im.id)).trans hk
  have hb := (b.w_onlyFields R.GLB_IMG_STAT.LOAD_STATE 0).trans hc
  have ha : OnlyFields _ t.d _ := (a.w_onlyFields R.GLB_IMG_STAT.ACTIVE true.toNat).trans hb
  have hregs : RegsOnly a.d (t.takeImage im).d :=
    ((a.w_regsOnly _ _).trans (b.w_regsOnly _ _)).trans (((c.w_regsOnly _ _).trans (g.w64_regsOnly _ _ _)).trans (k.w64_regsOnly _ _ _))
  exact ⟨hregs.img, (hb _ (by decide)).trans (a.w_f_same _ _), (hc _ (by decide)).trans (b.w_f_same _ _),
    (hk.f64 (by decide) (by decide)).trans (g.w64_f64 _ rfl rfl (by decide)), ha,
    fun p hi ht => ((t.modImg_same _ hi).trans (u.modTwin_same _ ht)).trans (hregs.same p)⟩

/-- What the show of the commit's tick and device makes of the device. -/
structure CommitShown (im : Image) (d e : Device) : Prop where
  epoch : e.f64 R.GLB_IMG_COMMIT_EPOCH_LO.VALUE R.GLB_IMG_COMMIT_EPOCH_HI.VALUE = d.now.toNat % 2 ^ 64
  valid : e.f R.GLB_UNIT_SELF.VALID = 1
  dev : e.f R.GLB_UNIT_SELF.DEV = im.dev % 2 ^ 8
  onlyFields : OnlyFields [R.GLB_IMG_COMMIT_EPOCH_LO.VALUE, R.GLB_IMG_COMMIT_EPOCH_HI.VALUE, R.GLB_UNIT_SELF.VALID, R.GLB_UNIT_SELF.DEV,
    R.GLB_UNIT_SELF.UNIT_ID] d e
  regsOnly : RegsOnly d e

theorem Tx.showCommit_spec (t : Tx d0) (im : Image) : CommitShown im t.d (t.showCommit im).d := by
  let a := t.w64 R.GLB_IMG_COMMIT_EPOCH_LO.VALUE R.GLB_IMG_COMMIT_EPOCH_HI.VALUE t.now.toNat
  let b := a.wb R.GLB_UNIT_SELF.VALID true
  let c := b.w R.GLB_UNIT_SELF.DEV im.dev
  have hc : OnlyFields [R.GLB_UNIT_SELF.UNIT_ID] c.d (t.showCommit im).d := c.w_onlyFields _ _
  have hb := (b.w_onlyFields R.GLB_UNIT_SELF.DEV im.dev).trans hc
  have ha := (a.w_onlyFields R.GLB_UNIT_SELF.VALID true.toNat).trans hb
  exact ⟨(ha.f64 (by decide) (by decide)).trans (t.w64_f64 _ rfl rfl (by decide)), (hb _ (by decide)).trans (a.w_f_same _ _),
    (hc _ (by decide)).trans (b.w_f_same _ _), (t.w64_onlyFields _ _ _).trans ha,
    ((t.w64_regsOnly _ _ _).trans (a.w_regsOnly _ _)).trans ((b.w_regsOnly _ _).trans (c.w_regsOnly _ _))⟩

/-- What an installation reports of the commit but for STATE and IMG_COMMIT (R79). -/
structure Reported (im : Image) (d e : Device) : Prop where
  img : e.img = { d.img with pend := none, act := some im }
  active : e.f R.GLB_IMG_STAT.ACTIVE = 1
  loadState : e.f R.GLB_IMG_STAT.LOAD_STATE = 0
  actId : e.f64 R.GLB_IMG_ACT_ID_LO.VALUE R.GLB_IMG_ACT_ID_HI.VALUE = im.id % 2 ^ 64
  epoch : e.f64 R.GLB_IMG_COMMIT_EPOCH_LO.VALUE R.GLB_IMG_COMMIT_EPOCH_HI.VALUE = d.now.toNat % 2 ^ 64
  valid : e.f R.GLB_UNIT_SELF.VALID = 1
  dev : e.f R.GLB_UNIT_SELF.DEV = im.dev % 2 ^ 8
  running : e.running = d.running
  piece : ∀ p ∈ commitPieces, p ≠ .img → Same d e p

theorem ImageTaken.reported {im : Image} {d e g : Device} (h : ImageTaken im d e) (h' : CommitShown im e g) : Reported im d g := by
  have hf := h'.onlyFields
  have hnow : e.now = d.now := Device.now_congr (h.onlyFields.b (by decide)) (h.piece .time (by decide) (by decide))
  refine ⟨h'.regsOnly.img.trans h.img, (hf _ (by decide)).trans h.active, (hf _ (by decide)).trans h.loadState, (hf.f64 (by decide) (by decide)).trans h.actId,
    by rw [h'.epoch, hnow], h'.valid, h'.dev, (hf.b (by decide)).trans (h.onlyFields.b (by decide)), fun p hp hi => ?_⟩
  refine (h.piece p hi ?_).trans (h'.regsOnly.same p)
  rintro rfl
  exact absurd hp (by decide)

/-! COMMIT_TICK -/

/-- The commit of a pending image with no patch set waiting and the Watch started (R79, R246). -/
theorem effCommitTick_eq (t : Tx d0) {im : Image} (hpend : t.d.img.pend = some im) (hls : t.d.f R.GLB_IMG_STAT.LOAD_STATE = 3)
    (hpatch : t.d.patchWait = none) (hfw : t.d.fw.started = true) : effCommitTick t = t.clearFaults.install im := by
  have hspared := (Spared.refl t.d).clearFaults
  have hkept : t.clearFaults.d.patchWait = t.d.patchWait := hspared.piece .patchWait (by decide)
  have hpatch' : t.clearFaults.d.patchWait = none := hkept.trans hpatch
  have hnow : t.clearFaults.patchNow = t.clearFaults := by simp only [Tx.patchNow, hpatch']
  have htick : effCommitTick t = t.clearFaults.patchNow.install im := by
    simp [effCommitTick, hpend, hls, hpatch, hfw, Tx.f, Tx.clearFaults]
  rw [htick, hnow]

theorem exec_commitTick (s : State) : exec .commitTick s = .next { s with dev := (effCommitTick (Tx.start s.dev)).d } := by rfl

theorem Spared.start (d : Device) : Spared d (Tx.start d).d := (Spared.refl d : Spared d (⟨d, .start⟩ : Tx d).d).upd

/-- What COMMIT_TICK makes of the device (R79). -/
theorem exec_commitTick_installs (s : State) {im : Image} (hpend : s.dev.img.pend = some im) (hls : s.dev.f R.GLB_IMG_STAT.LOAD_STATE = 3)
    (hpatch : s.dev.patchWait = none) (hfw : s.dev.fw.started = true) :
    ∃ u v x : Tx s.dev, exec .commitTick s = .next { s with dev := x.d } ∧ Spared s.dev u.d ∧ Reported im u.d v.d ∧ Spared v.d x.d ∧
      (∀ e : Fin 64, x.d.f (R.SCH_STAT.STATE e) ≠ 3) ∧ x.d.f R.GLB_DEV_EVT.IMG_COMMIT = 1 := by
  let u := (Tx.start s.dev).clearFaults
  let v := (u.takeImage im).showCommit im
  have hx := v.clearFaults.installTables_spared im
  refine ⟨u, v, v.clearFaults.installTables im, ?_, (Spared.start s.dev).clearFaults, (u.takeImage_spec im).reported (Tx.showCommit_spec _ im), ?_, fun e he => ?_, ?_⟩
  · rw [exec_commitTick, effCommitTick_eq _ hpend hls hpatch hfw, Tx.install_eq]
  · exact (Spared.refl v.d).clearFaults.trans hx
  · exact v.clearFaults_state_ne e (hx.calm e he)
  · exact Tx.installTables_imgCommit _ _

/-- Settles O19: the read of the image bears on no check, so the checks of the device as it was decide; what follows the commit's reports spares them. -/
theorem imageCheckAndCommit : Obligations.ImageCheckAndCommit := by
  refine ⟨fun s poisoned hls => ?_, fun s im hpend hls hid hdev hpatch hfw => ?_⟩
  · have hdone := effImgCheckDone_spec (Tx.start s.dev) poisoned hls
    have hexec := exec_imgCheckDone s poisoned
    have hcheck := Tx.start_imgCheck s.dev poisoned
    have hparse := Tx.start_parseImage s.dev
    generalize effImgCheckDone poisoned (Tx.start s.dev) = e at hdone hexec
    obtain ⟨hev, hbad, hgood, hlines, hfailed, hpassed, honly, hframe⟩ := hdone
    rw [hcheck] at hfailed hpassed
    rw [hparse] at hpassed
    refine ⟨_, hexec, hev, fun hb => ⟨s.dev.imgCheck_of_poison hb, hbad hb⟩, hgood, hlines, fun hf => ?_, fun hf => hpassed hf, honly, ?_⟩
    · obtain ⟨⟨code, off, sect⟩, hx⟩ := Option.isSome_iff_exists.mp hf
      dsimp only
      rw [hx]
      exact hfailed code off sect hx
    · obtain ⟨_, _, _, _, _, he⟩ := hframe
      rw [he]
      rfl
  · obtain ⟨u, v, x, hexec, hu, hv, hx, hstate, hevt⟩ := exec_commitTick_installs s hpend hls hpatch hfw
    have hpiece : ∀ p ∈ commitPieces, p ≠ .img → Same s.dev x.d p := fun p hp hne =>
      ((hu.piece p hp).trans (hv.piece p hp hne)).trans (hx.piece p hp)
    have himg : x.d.img = v.d.img := hx.piece .img (by decide)
    have himg0 : u.d.img = s.dev.img := hu.piece .img (by decide)
    refine ⟨_, hexec, ?_, (hx.fld _ (by decide)).trans hv.active, (hx.fld _ (by decide)).trans hv.loadState, ?_, ?_, (hx.fld _ (by decide)).trans hv.valid,
      ?_, hevt, hstate, rfl, (hx.running.trans hv.running).trans hu.running, hpiece .run (by decide) (by decide), hpiece .time (by decide) (by decide),
      hpiece .power (by decide) (by decide), hpiece .thermal (by decide) (by decide), hpiece .calib (by decide) (by decide),
      hpiece .st (by decide) (by decide), hpiece .keep (by decide) (by decide), hpiece .fw (by decide) (by decide), hpiece .svc (by decide) (by decide),
      hpiece .host (by decide) (by decide), hpiece .cxl (by decide) (by decide)⟩
    · exact himg.trans (by rw [hv.img, himg0])
    · exact (hx.f64 (by decide) (by decide)).trans (hv.actId.trans (Nat.mod_eq_of_lt hid))
    · exact (hx.f64 (by decide) (by decide)).trans (hv.epoch.trans (by rw [hu.now]; exact Nat.mod_eq_of_lt s.dev.now.isLt))
    · exact (hx.fld _ (by decide)).trans (hv.dev.trans (Nat.mod_eq_of_lt (by omega)))

end Sys2Proof.Machine
end

section
/-! SUPPORT. SYNC_OUT in SOURCE mode (R23, R102, R103). -/
namespace Sys2Proof.Machine

variable {d0 : Device}

@[simp] theorem Tx.modTime_f (t : Tx d0) (g : Timebase → Timebase) (F : Fld) : (t.modTime g).d.f F = t.d.f F := rfl
@[simp] theorem Tx.modTime_time (t : Tx d0) (g : Timebase → Timebase) : (t.modTime g).d.time = g t.d.time := rfl

/-- From `d` to `e` nothing may have changed but the register file, the timebase, the pending vectors and the note of the clock's events. -/
def TimeOnly (d e : Device) : Prop := ∃ flds time pba evNow, e = { d with flds := flds, time := time, pba := pba, evNow := evNow }

theorem TimeOnly.trans {d e g : Device} (h : TimeOnly d e) (h' : TimeOnly e g) : TimeOnly d g := by
  obtain ⟨_, _, _, _, rfl⟩ := h
  obtain ⟨_, _, _, _, rfl⟩ := h'
  exact ⟨_, _, _, _, rfl⟩

theorem RegFileOnly.timeOnly {d e : Device} (h : RegFileOnly d e) : TimeOnly d e := by
  obtain ⟨_, _, _, rfl⟩ := h
  exact ⟨_, _, _, _, rfl⟩

theorem RegFileOnly.time {d e : Device} (h : RegFileOnly d e) : e.time = d.time := by
  obtain ⟨_, _, _, rfl⟩ := h
  rfl

theorem Tx.modTime_timeOnly (t : Tx d0) (g : Timebase → Timebase) : TimeOnly t.d (t.modTime g).d := ⟨_, _, _, _, rfl⟩

/-- A host access that touches the register file, the timebase and the pending vectors alone. -/
theorem State.afterAccess_of_timeOnly (s : State) {d : Device} (h : TimeOnly (Tx.accessed s.dev).d d) :
    s.afterAccess d = { s with dev := { s.dev with flds := d.flds, time := d.time, pba := d.pba, again := [], evNow := [], out := [] } } := by
  obtain ⟨_, _, _, _, rfl⟩ := h
  rfl

theorem exec_syncGen (s : State) (hon : s.dev.domOn (domainOf R.TB_CTL.SYNC_GEN.off) = true) :
    exec .syncGen s = .next (s.afterAccess (Tx.accessed s.dev).syncGen.d) := commit_hostReg _ Tx.syncGen s hon

theorem Tx.syncGen_of_not_source (t : Tx d0) (h : t.d.f R.TB_CTL.SOUT_MODE ≠ 2) : t.syncGen = t := if_pos h

/-- A pulse is still being driven: the write is discarded (R103). -/
theorem Tx.syncGen_of_driven (t : Tx d0) (h : t.d.f R.TB_CTL.SOUT_MODE = 2) (hs : t.d.time.sout = true) (hn : t.d.soutStarts = false) :
    t.syncGen = t.ev R.TB_STAT.SYNC_IGNORED := by
  simp [Tx.syncGen, Tx.f, h, hs, hn]

/-- No pulse is driven, or one starts in this clock: the bit asks for the next one (R23, R102). -/
theorem Tx.syncGen_of_free (t : Tx d0) (h : t.d.f R.TB_CTL.SOUT_MODE = 2) (hf : t.d.time.sout = false ∨ t.d.soutStarts = true) :
    t.syncGen = (t.wb R.TB_CTL.SYNC_GEN true).modTime (fun x => { x with soutNext := true }) := by
  rcases hf with hf | hf <;> simp [Tx.syncGen, Tx.f, h, hf]

theorem Tx.syncGen_timeOnly (t : Tx d0) : TimeOnly t.d t.syncGen.d := by
  unfold Tx.syncGen
  split
  · exact (RegFileOnly.refl _).timeOnly
  · split
    · exact (t.ev_regFileOnly _).timeOnly
    · exact (t.w_regFileOnly _ _).timeOnly.trans (Tx.modTime_timeOnly _ _)

/-- Settles O16: by SOUT_MODE and the pulse, a write of SYNC_GEN is nothing, an event or a request; the end of a pulse is one update. -/
theorem syncOut : Obligations.SyncOut := by
  refine ⟨fun s hon => ?_, fun s hout hleft => ?_⟩
  · let t := Tx.accessed s.dev
    refine ⟨_, exec_syncGen s hon, fun ⟨hsrc, hfree⟩ => ?_, fun ⟨hsrc, hsout, hstarts⟩ => ?_, fun hsrc => ?_,
      s.afterAccess_of_timeOnly t.syncGen_timeOnly⟩
    · rw [t.syncGen_of_free hsrc hfree]
      have hset : (t.wb R.TB_CTL.SYNC_GEN true).d.f R.TB_CTL.SYNC_GEN = 1 := t.w_f_same _ _
      have honly : OnlyFields [R.TB_CTL.SYNC_GEN] t.d (t.wb R.TB_CTL.SYNC_GEN true).d := t.w_onlyFields _ _
      exact ⟨hset, rfl, honly⟩
    · rw [t.syncGen_of_driven hsrc hsout hstarts]
      exact ⟨t.ev_f_same _ rfl, t.ev_time _, t.ev_onlyFields _⟩
    · rw [t.syncGen_of_not_source hsrc]
      rfl
  · have hend : effSyncOutPulseEnd (Tx.start s.dev) = (Tx.start s.dev).modTime (fun x => { x with sout := false }) :=
      if_pos (by rw [show (Tx.start s.dev).d.time = s.dev.time from rfl, hout, hleft]; rfl)
    show commit effSyncOutPulseEnd s = _
    rw [commit, hend]
    rfl

end Sys2Proof.Machine
end

section
/-! SUPPORT. The operations SETF, SHIFTP and LOOP (R113, R115, R174): the release of an operation, and what each does to its frame or its loop register. -/
namespace Sys2Proof.Machine

variable {d0 : Device}

/-! Release -/

/-- From `d` to `e` nothing may have changed but the register file, engines, tiles, the pending vectors and the note of the clock's events. -/
def EnginesOnly (d e : Device) : Prop :=
  ∃ flds engines tiles pba evNow, e = { d with flds := flds, engines := engines, tiles := tiles, pba := pba, evNow := evNow }

theorem EnginesOnly.trans {d e g : Device} (h : EnginesOnly d e) (h' : EnginesOnly e g) : EnginesOnly d g := by
  obtain ⟨_, _, _, _, _, rfl⟩ := h
  obtain ⟨_, _, _, _, _, rfl⟩ := h'
  exact ⟨_, _, _, _, _, rfl⟩

/-- From `d` to `e` nothing may have changed but the register file and engines. -/
def EngineRegsOnly (d e : Device) : Prop := ∃ flds engines, e = { d with flds := flds, engines := engines }

theorem EngineRegsOnly.trans {d e g : Device} (h : EngineRegsOnly d e) (h' : EngineRegsOnly e g) : EngineRegsOnly d g := by
  obtain ⟨_, _, rfl⟩ := h
  obtain ⟨_, _, rfl⟩ := h'
  exact ⟨_, _, rfl⟩

theorem State.of_enginesOnly (s : State) {x : Device} (h : EnginesOnly (Tx.start s.dev).d x) :
    ({ s with dev := x } : State) = { s with dev := { s.dev with
      flds := x.flds, engines := x.engines, tiles := x.tiles, pba := x.pba, evNow := x.evNow, out := [] } } := by
  obtain ⟨_, _, _, _, _, rfl⟩ := h
  rfl

theorem EngineRegsOnly.enginesOnly {d e : Device} (h : EngineRegsOnly d e) : EnginesOnly d e := by
  obtain ⟨_, _, rfl⟩ := h
  exact ⟨_, _, _, _, _, rfl⟩

theorem EngineRegsOnly.now {d e : Device} (h : EngineRegsOnly d e) (hf : e.f R.TB_STAT.AWAKE = d.f R.TB_STAT.AWAKE) : e.now = d.now := by
  have hb : e.b R.TB_STAT.AWAKE = d.b R.TB_STAT.AWAKE := congrArg (· == 1) hf
  obtain ⟨_, _, rfl⟩ := h
  exact Device.now_congr hb rfl

theorem RegFileOnly.enginesOnly {d e : Device} (h : RegFileOnly d e) : EnginesOnly d e := by
  obtain ⟨_, _, _, rfl⟩ := h
  exact ⟨_, _, _, _, _, rfl⟩

theorem RegsOnly.engineRegsOnly {d e : Device} (h : RegsOnly d e) : EngineRegsOnly d e := by
  obtain ⟨_, rfl⟩ := h
  exact ⟨_, _, rfl⟩

theorem RegsOnly.eng {d e : Device} (h : RegsOnly d e) : e.eng = d.eng := by
  obtain ⟨_, rfl⟩ := h
  rfl

theorem RegFileOnly.eng {d e : Device} (h : RegFileOnly d e) : e.eng = d.eng := by
  obtain ⟨_, _, _, rfl⟩ := h
  rfl

@[simp] theorem Tx.modEng_f (t : Tx d0) (e : Nat) (g : Engine → Engine) (F : Fld) : (t.modEng e g).d.f F = t.d.f F := rfl

@[simp] theorem Tx.modEng_eng_same (t : Tx d0) (e : Nat) (g : Engine → Engine) : (t.modEng e g).d.eng e = g (t.d.eng e) :=
  bget_bset_same (fun _ => ({} : Engine)) t.d.engines e (g (t.d.eng e))

theorem Tx.modEng_onlyEngine (t : Tx d0) (e : Nat) (g : Engine → Engine) : OnlyEngine e t.d (t.modEng e g).d :=
  fun k hk => bget_bset_other (fun _ => ({} : Engine)) t.d.engines e k (g (t.d.eng e)) hk

theorem Tx.modEng_engineRegsOnly (t : Tx d0) (e : Nat) (g : Engine → Engine) : EngineRegsOnly t.d (t.modEng e g).d := ⟨_, _, rfl⟩

/-- The operation at an engine's head has left its queue, and of the engine nothing else has changed. -/
structure Dequeued (e : Nat) (rest : List QOp) (d x : Device) : Prop where
  eng : x.eng e = { d.eng e with queue := rest }
  depth : x.f (R.ENG_QUEUE.DEPTH e) = rest.length % 2 ^ (R.ENG_QUEUE.DEPTH e).width
  onlyEngine : OnlyEngine e d x
  onlyFields : OnlyFields [R.ENG_QUEUE.DEPTH e, R.ENG_QUEUE.MAX e] d x
  engineRegsOnly : EngineRegsOnly d x

theorem Tx.setQueue_spec (t : Tx d0) (e : Nat) (rest : List QOp) : Dequeued e rest t.d (t.setQueue e rest).d := by
  let u := t.modEng e (fun x => { x with queue := rest })
  let v := u.w (R.ENG_QUEUE.DEPTH e) rest.length
  have hu : OnlyEngine e t.d u.d := t.modEng_onlyEngine e _
  have hv : Dequeued e rest t.d v.d :=
    ⟨t.modEng_eng_same e (fun x => { x with queue := rest }), u.w_f_same _ _, hu,
      (u.w_onlyFields (R.ENG_QUEUE.DEPTH e) rest.length).mono (by simp),
      (t.modEng_engineRegsOnly e _).trans (u.w_regsOnly _ _).engineRegsOnly⟩
  have hset : t.setQueue e rest = if v.d.f (R.ENG_QUEUE.MAX e) < rest.length then v.w (R.ENG_QUEUE.MAX e) rest.length else v := rfl
  rw [hset]
  split
  · have hmax := v.w_onlyFields (R.ENG_QUEUE.MAX e) rest.length
    refine ⟨hv.eng, (hmax _ ?_).trans hv.depth, hv.onlyEngine, (hv.onlyFields.trans hmax).mono (by simp),
      hv.engineRegsOnly.trans (v.w_regsOnly _ _).engineRegsOnly⟩
    simp [Fld.key, R.ENG_QUEUE.DEPTH, R.ENG_QUEUE.MAX]
  · exact hv

/-- An operation that heads its queue and is valid is released to its meaning (R150, R206). -/
theorem Tx.issue_heads {d : Device} {e code : Nat} {q : QOp} {rest : List QOp} (h : Heads d e code q rest)
    (go : QOp → Tx d → Tx d) : (Tx.start d).issue e code go = go q ((Tx.start d).setQueue e rest) := by
  obtain ⟨hhead, hvalid, _, hcode⟩ := h
  have hstart : (Tx.start d).d.headOp e = some (q, rest) := hhead
  rw [Tx.issue, hstart]
  simp [hvalid, hcode]

/-- Where an operation that follows the release leaves the queues alone, the release stands. -/
theorem Dequeued.released {e : Nat} {rest : List QOp} {d x y : Device} (h : Dequeued e rest d x) (hq : (y.eng e).queue = (x.eng e).queue)
    (hd : y.f (R.ENG_QUEUE.DEPTH e) = x.f (R.ENG_QUEUE.DEPTH e)) : Released e rest y :=
  ⟨by rw [hq, h.eng], hd.trans h.depth⟩

theorem OnlyEngine.trans {e : Nat} {d x y : Device} (h : OnlyEngine e d x) (h' : OnlyEngine e x y) : OnlyEngine e d y :=
  fun k hk => (h' k hk).trans (h k hk)

/-! Frames (R113 to R115) -/

theorem Tx.noteFrame_frame (t : Tx d0) (f : Nat) : ∃ tiles, (t.noteFrame f).d = { t.d with tiles := tiles } := ⟨_, rfl⟩

/-- A value that fits the two words it is held in reads as it was written. -/
theorem Tx.w64_f64_of_lt (t : Tx d0) {L H : Fld} {v : Nat} (hL : L.width = 32) (hv : v < 2 ^ (32 + H.width)) (hH : H.width ≤ 32) (hne : L.key ≠ H.key) :
    (t.w64 L H v).d.f64 L H = v := by
  have hhi : v / 2 ^ 32 < 2 ^ H.width := by
    rw [Nat.div_lt_iff_lt_mul (by decide), ← Nat.pow_add, Nat.add_comm]
    exact hv
  have hle : 2 ^ H.width ≤ 2 ^ 32 := Nat.pow_le_pow_right (by decide) hH
  rw [Tx.w64, Device.f64, Tx.w_f_same, Tx.w_f_other _ _ _ _ hne, Tx.w_f_same, hL, Nat.mod_eq_of_lt (by omega : v / 2 ^ 32 < 2 ^ 32),
    Nat.mod_eq_of_lt hhi]
  omega

/-- The fields that hold a frame's F, and those that hold its E. -/
def freqFields (f : Nat) : List Fld := [R.NCO_FREQ_LO.F_LO f, R.NCO_FREQ_HI.F_HI f]
def refFields (f : Nat) : List Fld := [R.NCO_REF_LO.REF f, R.NCO_REF_HI.REF f]

/-- The words of a frame, its COLLIDE and an engine's DEPTH stand at different places. -/
structure FrameKeys (f : Nat) : Prop where
  freq : (R.NCO_FREQ_LO.F_LO f).key ≠ (R.NCO_FREQ_HI.F_HI f).key
  ref : (R.NCO_REF_LO.REF f).key ≠ (R.NCO_REF_HI.REF f).key
  freqLo_ref : (R.NCO_FREQ_LO.F_LO f).key ∉ (refFields f).map Fld.key
  freqHi_ref : (R.NCO_FREQ_HI.F_HI f).key ∉ (refFields f).map Fld.key
  collide : (R.NCO_STAT.COLLIDE f).key ∉ (freqFields f ++ refFields f).map Fld.key
  theta : (R.NCO_PHASE.THETA f).key ∉ ([R.NCO_STAT.COLLIDE f] ++ freqFields f ++ refFields f).map Fld.key
  refLo : (R.NCO_REF_LO.REF f).key ∉ ([R.NCO_STAT.COLLIDE f] ++ freqFields f).map Fld.key
  refHi : (R.NCO_REF_HI.REF f).key ∉ ([R.NCO_STAT.COLLIDE f] ++ freqFields f).map Fld.key
  words_theta : ∀ F ∈ freqFields f ++ refFields f, F.key ≠ (R.NCO_PHASE.THETA f).key
  queue : ∀ e, ∀ F ∈ [R.ENG_QUEUE.DEPTH e, R.ENG_QUEUE.MAX e], F.key ∉ ([R.NCO_STAT.COLLIDE f] ++ freqFields f ++ refFields f ++ [R.NCO_PHASE.THETA f]).map Fld.key

theorem frameKeys (f : Nat) : FrameKeys f := by
  constructor
  all_goals
    simp only [freqFields, refFields, Fld.key, R.NCO_FREQ_LO.F_LO, R.NCO_FREQ_HI.F_HI, R.NCO_REF_LO.REF, R.NCO_REF_HI.REF, R.NCO_STAT.COLLIDE,
      R.NCO_PHASE.THETA, R.ENG_QUEUE.DEPTH, R.ENG_QUEUE.MAX, tileOff, List.mem_cons, List.map_cons, List.map_nil,
      List.not_mem_nil, List.cons_append, List.nil_append, forall_eq_or_imp, or_false, forall_eq]
    omega

/-- A release leaves every frame, COLLIDE and the tick as they were. -/
theorem Dequeued.frame {e : Nat} {rest : List QOp} {d x : Device} (h : Dequeued e rest d x) (f : Nat) :
    x.frame f = d.frame f ∧ x.f (R.NCO_STAT.COLLIDE f) = d.f (R.NCO_STAT.COLLIDE f) ∧ x.now = d.now := by
  have hne : ∀ F ∈ [R.NCO_STAT.COLLIDE f] ++ freqFields f ++ refFields f ++ [R.NCO_PHASE.THETA f], x.f F = d.f F := by
    intro F hF
    refine h.onlyFields F fun hm => ?_
    obtain ⟨G, hG, hk⟩ := List.mem_map.mp hm
    exact (frameKeys f).queue e G hG (hk ▸ List.mem_map_of_mem hF)
  simp only [freqFields, refFields, List.cons_append, List.nil_append, List.forall_mem_cons] at hne
  obtain ⟨hc, hflo, hfhi, hrlo, hrhi, hth, -⟩ := hne
  refine ⟨?_, hc, h.engineRegsOnly.now (h.onlyFields _ ?_)⟩
  · rw [Device.frame, Device.frame, Device.f64, Device.f64, hflo, hfhi, hth, hrlo, hrhi]
  · simp [Fld.key, R.ENG_QUEUE.DEPTH, R.ENG_QUEUE.MAX, R.TB_STAT.AWAKE, tileOff]
    omega

/-- A SETF as it sets its frame (R113, R115): what it makes of the words, of COLLIDE and of the engine's note of the frames set on this tick. -/
structure FrameSet (e lf o : Nat) (d x : Device) : Prop where
  frame : x.frame (32 * (e / 2) + lf) = (o % 2 ^ 48, (d.frame (32 * (e / 2) + lf)).2.1,
    if o.testBit 63 then d.now.toNat else (d.frame (32 * (e / 2) + lf)).2.2)
  collide : x.f (R.NCO_STAT.COLLIDE (32 * (e / 2) + lf)) =
    if (d.eng e).setTick.any (fun c => c.1 == lf && c.2 == d.now) then 1 else d.f (R.NCO_STAT.COLLIDE (32 * (e / 2) + lf))
  queue : (x.eng e).queue = (d.eng e).queue
  onlyEngine : OnlyEngine e d x
  onlyFields : OnlyFields ([R.NCO_STAT.COLLIDE (32 * (e / 2) + lf)] ++ freqFields (32 * (e / 2) + lf) ++ refFields (32 * (e / 2) + lf)) d x
  enginesOnly : EnginesOnly d x

theorem Tx.setFrame_spec (t : Tx d0) (e : Nat) (q : QOp) : FrameSet e (opTarget q.bits) (opOperand q.bits) t.d (t.setFrame e q).d := by
  let lf := opTarget q.bits
  let f := 32 * (e / 2) + lf
  let o := opOperand q.bits
  have k := frameKeys f
  let u := t.noteFrame f
  let coll := (t.d.eng e).setTick.any (fun c => c.1 == lf && c.2 == t.d.now)
  let v := if coll then u.ev (R.NCO_STAT.COLLIDE f) else u
  have hv : OnlyFields [R.NCO_STAT.COLLIDE f] t.d v.d ∧ RegFileOnly u.d v.d ∧ v.d.f (R.NCO_STAT.COLLIDE f) = if coll then 1 else t.d.f (R.NCO_STAT.COLLIDE f) := by
    simp only [v]
    split
    · exact ⟨u.ev_onlyFields _, u.ev_regFileOnly _, u.ev_f_same _ rfl⟩
    · exact ⟨fun _ _ => rfl, .refl _, rfl⟩
  obtain ⟨hvf, hvr, hvc⟩ := hv
  let g : Engine → Engine := fun x => { x with setTick := x.setTick.filter (fun c => c.2 == t.d.now && c.1 != lf) ++ [(lf, t.d.now)] }
  let w := v.modEng e g
  let x := w.w64 (R.NCO_FREQ_LO.F_LO f) (R.NCO_FREQ_HI.F_HI f) (o % 2 ^ 48)
  let y := if o.testBit 63 then x.w64 (R.NCO_REF_LO.REF f) (R.NCO_REF_HI.REF f) t.d.now.toNat else x
  have hset : t.setFrame e q = y := rfl
  have hx : OnlyFields (freqFields f) v.d x.d := w.w64_onlyFields _ _ _
  have hxF : x.d.f64 (R.NCO_FREQ_LO.F_LO f) (R.NCO_FREQ_HI.F_HI f) = o % 2 ^ 48 :=
    w.w64_f64_of_lt rfl (Nat.mod_lt _ (by decide)) (by decide : 16 ≤ 32) k.freq
  have hy : OnlyFields (refFields f) x.d y.d ∧ RegsOnly x.d y.d ∧
      y.d.f64 (R.NCO_REF_LO.REF f) (R.NCO_REF_HI.REF f) = if o.testBit 63 then t.d.now.toNat else x.d.f64 (R.NCO_REF_LO.REF f) (R.NCO_REF_HI.REF f) := by
    simp only [y]
    split
    · exact ⟨x.w64_onlyFields _ _ _, x.w64_regsOnly _ _ _, (x.w64_f64 _ rfl rfl k.ref).trans (Nat.mod_eq_of_lt t.d.now.isLt)⟩
    · exact ⟨fun _ _ => rfl, .refl _, rfl⟩
  obtain ⟨hyf, hyr, hyE⟩ := hy
  have hveng : v.d.eng = t.d.eng := hvr.eng
  have hyeng : y.d.eng = w.d.eng := hyr.eng
  have hweng : w.d.eng e = g (t.d.eng e) := (v.modEng_eng_same e g).trans (congrArg g (congrFun hveng e))
  rw [hset]
  refine ⟨?_, ?_, ?_, ?_, (hvf.trans hx).trans hyf, ?_⟩
  · have hF : y.d.f64 (R.NCO_FREQ_LO.F_LO f) (R.NCO_FREQ_HI.F_HI f) = o % 2 ^ 48 := (hyf.f64 k.freqLo_ref k.freqHi_ref).trans hxF
    have hth : y.d.f (R.NCO_PHASE.THETA f) = t.d.f (R.NCO_PHASE.THETA f) := ((hvf.trans hx).trans hyf) _ k.theta
    have hE : x.d.f64 (R.NCO_REF_LO.REF f) (R.NCO_REF_HI.REF f) = t.d.f64 (R.NCO_REF_LO.REF f) (R.NCO_REF_HI.REF f) :=
      (hvf.trans hx).f64 k.refLo k.refHi
    rw [hE] at hyE
    exact Prod.ext hF (Prod.ext hth hyE)
  · exact ((hx.trans hyf) _ k.collide).trans hvc
  · rw [hyeng, hweng]
  · intro k hk
    rw [hyeng, v.modEng_onlyEngine e g k hk, hveng]
  · have hu : EnginesOnly t.d u.d := ⟨_, _, _, _, _, rfl⟩
    have hwx : EngineRegsOnly v.d x.d := (v.modEng_engineRegsOnly e g).trans (w.w64_regsOnly _ _ _).engineRegsOnly
    exact ((hu.trans hvr.enginesOnly).trans hwx.enginesOnly).trans hyr.engineRegsOnly.enginesOnly

/-- What SETF does as it heads its queue. -/
theorem exec_setf (s : State) (e : Fin 64) {q : QOp} {rest : List QOp} (h : Heads s.dev e 0x02 q rest) :
    exec (.setf e) s = .next { s with dev := (((Tx.start s.dev).setQueue e rest).setFrame e q).d } := by
  show commit (effSetf e) s = _
  rw [commit, effSetf, Tx.issue_heads h]

/-- Θ of a frame grows (R113). -/
structure FrameShifted (f delta : Nat) (d x : Device) : Prop where
  theta : x.f (R.NCO_PHASE.THETA f) = (d.f (R.NCO_PHASE.THETA f) + delta) % 2 ^ 32
  onlyFields : OnlyFields [R.NCO_PHASE.THETA f] d x
  frame : ∃ flds tiles, x = { d with flds := flds, tiles := tiles }

theorem Tx.shiftFrame_spec (t : Tx d0) (e : Nat) (q : QOp) :
    FrameShifted (32 * (e / 2) + opTarget q.bits) (opOperand q.bits) t.d (t.shiftFrame e q).d := by
  let f := 32 * (e / 2) + opTarget q.bits
  let u := t.noteFrame f
  have hw := u.w_onlyFields (R.NCO_PHASE.THETA f) (u.f (R.NCO_PHASE.THETA f) + opOperand q.bits % 2 ^ 32)
  refine ⟨(u.w_f_same _ _).trans ?_, hw, ⟨_, _, rfl⟩⟩
  show (t.d.f (R.NCO_PHASE.THETA f) + opOperand q.bits % 2 ^ 32) % 2 ^ 32 = _
  exact Nat.add_mod_mod _ _ _

theorem FrameShifted.frame_eq {f delta : Nat} {d x : Device} (h : FrameShifted f delta d x) :
    x.frame f = ((d.frame f).1, ((d.frame f).2.1 + delta) % 2 ^ 32, (d.frame f).2.2) := by
  have hwords : ∀ F ∈ freqFields f ++ refFields f, x.f F = d.f F := fun F hF => h.onlyFields F (by simpa using (frameKeys f).words_theta F hF)
  simp only [freqFields, refFields, List.cons_append, List.nil_append, List.forall_mem_cons] at hwords
  obtain ⟨hflo, hfhi, hrlo, hrhi, -⟩ := hwords
  simp only [Device.frame, Device.f64, hflo, hfhi, hrlo, hrhi, h.theta]

theorem exec_shiftp (s : State) (e : Fin 64) {q : QOp} {rest : List QOp} (h : Heads s.dev e 0x03 q rest) :
    exec (.shiftp e) s = .next { s with dev := (((Tx.start s.dev).setQueue e rest).shiftFrame e q).d } := by
  show commit (effShiftp e) s = _
  rw [commit, effShiftp, Tx.issue_heads h]

/-! LOOP (R174) -/

theorem loopCopy_zero (f : Fetch) (r : Nat) : loopCopy f r 0 = (true, f) := rfl

/-- The copy of a loop register as its LOOP finds it: one that is not active takes the count. -/
def Fetch.taken (f : Fetch) (r count : Nat) : Fetch :=
  if f.active.testBit r then f else { f with left := f.left.set r count, active := f.active ||| 2 ^ r }

theorem loopCopy_taken (f : Fetch) (r : Nat) {count : Nat} (hc : count ≠ 0) :
    let g := f.taken r count
    let n := g.left.getD r 0 - 1
    loopCopy f r count = if 0 < n then (true, { g with left := g.left.set r n })
      else (false, { g with left := g.left.set r n, active := g.active &&& (15 - 2 ^ r) }) := by
  rw [loopCopy, if_neg hc]
  rfl

theorem Fetch.taken_active (f : Fetch) (r count : Nat) : (f.taken r count).active.testBit r = true := by
  unfold Fetch.taken
  split
  · assumption
  · simp

theorem Fetch.taken_left (f : Fetch) {r count : Nat} (hr : r < f.left.length) :
    (f.taken r count).left.getD r 0 = (if f.active.testBit r then f.left.getD r 0 else count) ∧
      ∀ n, (f.taken r count).left.set r n = f.left.set r n := by
  unfold Fetch.taken
  split
  · exact ⟨rfl, fun _ => rfl⟩
  · exact ⟨by simp [hr], fun n => by simp⟩

/-- The register counts down, branches while its count is above one, and is active no longer after its last pass. -/
theorem loopCopy_of_ne_zero (f : Fetch) (r : Fin 4) {count : Nat} (hleft : f.left.length = 4) (hc : count ≠ 0) :
    let n := if f.active.testBit r then f.left.getD r 0 else count
    (loopCopy f r count).1 = decide (1 < n) ∧ (loopCopy f r count).2.left = f.left.set r (n - 1) ∧
      (loopCopy f r count).2.active.testBit r = decide (1 < n) := by
  intro n
  have hcopy := loopCopy_taken f r hc
  have hr : r.val < f.left.length := by omega
  obtain ⟨hn, hset⟩ := f.taken_left (count := count) hr
  have hactive := f.taken_active r count
  have hoff : (15 - 2 ^ r.val).testBit r = false := (by decide : ∀ r : Fin 4, (15 - 2 ^ r.val).testBit r = false) r
  simp only [hn, hset] at hcopy
  rw [hcopy]
  by_cases h1 : 1 < n
  · rw [if_pos (Nat.sub_pos_of_lt h1), decide_eq_true h1]
    exact ⟨rfl, rfl, hactive⟩
  · rw [if_neg (by omega : ¬ 0 < n - 1), decide_eq_false h1]
    exact ⟨rfl, rfl, by rw [Nat.testBit_and, hoff, Bool.and_false]⟩

theorem exec_loop (s : State) (e : Fin 64) {q : QOp} {rest : List QOp} (h : Heads s.dev e 0x12 q rest) :
    exec (.loop e) s = .next { s with dev := (((Tx.start s.dev).setQueue e rest).loopOn e q).d } := by
  show commit (effLoop e) s = _
  rw [commit, effLoop, Tx.issue_heads h]

/-- A segment that starts shows its pointer and that it runs. -/
theorem Tx.enterSeg_spec (t : Tx d0) (e ptr : Nat) :
    Enters e ptr t.d (t.enterSeg e ptr).d ∧ (t.enterSeg e ptr).d.eng e = { t.d.eng e with segStart := t.d.now, segs := (t.d.eng e).segs + 1 } ∧
      OnlyEngine e t.d (t.enterSeg e ptr).d ∧ EngineRegsOnly t.d (t.enterSeg e ptr).d ∧
      OnlyFields [R.SCH_SEG.POINTER e, R.SCH_STAT.STATE e, R.SCH_STAT.WAITING e] t.d (t.enterSeg e ptr).d := by
  let g : Engine → Engine := fun x => { x with segStart := t.d.now, segs := x.segs + 1 }
  let u := t.modEng e g
  let v := u.w (R.SCH_SEG.POINTER e) ptr
  let w := v.w (R.SCH_STAT.STATE e) 1
  have hue : u.d.eng e = g (t.d.eng e) := t.modEng_eng_same e g
  have hw := v.w_onlyFields (R.SCH_STAT.STATE e) 1
  have hx := w.w_onlyFields (R.SCH_STAT.WAITING e) 0
  refine ⟨⟨?_, ?_, w.w_f_same _ _, congrArg Engine.segStart hue⟩, hue, t.modEng_onlyEngine e g, ?_, ((u.w_onlyFields _ ptr).trans hw).trans hx⟩
  · exact ((hw.trans hx) _ (by simp [Fld.key, R.SCH_SEG.POINTER, R.SCH_STAT.STATE, R.SCH_STAT.WAITING, tileOff]; omega)).trans (u.w_f_same _ _)
  · exact (hx _ (by simp [Fld.key, R.SCH_STAT.STATE, R.SCH_STAT.WAITING])).trans (v.w_f_same _ _)
  · exact (t.modEng_engineRegsOnly e g).trans
      (((u.w_regsOnly _ _).trans (v.w_regsOnly _ _)).trans (w.w_regsOnly _ _)).engineRegsOnly

/-- What a LOOP makes of its loop register (R174). -/
structure Looped (e : Nat) (q : QOp) (d x : Device) : Prop where
  active : x.f (R.SCH_STAT.LOOP_ACTIVE e) = (loopCopy { active := d.f (R.SCH_STAT.LOOP_ACTIVE e), left := (d.eng e).left } (opTarget q.bits % 4)
    (opOperand q.bits % 2 ^ 32)).2.active % 16
  left : (x.eng e).left = (loopCopy { active := d.f (R.SCH_STAT.LOOP_ACTIVE e), left := (d.eng e).left } (opTarget q.bits % 4)
    (opOperand q.bits % 2 ^ 32)).2.left
  enters : Enters e (if (loopCopy { active := d.f (R.SCH_STAT.LOOP_ACTIVE e), left := (d.eng e).left } (opTarget q.bits % 4)
    (opOperand q.bits % 2 ^ 32)).1 then opOperand q.bits / 2 ^ 32 else q.idx + 1) d x
  queue : (x.eng e).queue = (d.eng e).queue
  onlyEngine : OnlyEngine e d x
  onlyFields : OnlyFields [R.SCH_STAT.LOOP_ACTIVE e, R.SCH_SEG.POINTER e, R.SCH_STAT.STATE e, R.SCH_STAT.WAITING e] d x
  engineRegsOnly : EngineRegsOnly d x

theorem Tx.loopOn_spec (t : Tx d0) (e : Nat) (q : QOp) : Looped e q t.d (t.loopOn e q).d := by
  let c := loopCopy { active := t.d.f (R.SCH_STAT.LOOP_ACTIVE e), left := (t.d.eng e).left } (opTarget q.bits % 4) (opOperand q.bits % 2 ^ 32)
  let g : Engine → Engine := fun x => { x with left := c.2.left }
  let u := t.modEng e g
  let v := u.w (R.SCH_STAT.LOOP_ACTIVE e) c.2.active
  obtain ⟨henter, heng, hengs, hregs, honly⟩ := v.enterSeg_spec e (if c.1 then opOperand q.bits / 2 ^ 32 else q.idx + 1)
  have hv : OnlyFields [R.SCH_STAT.LOOP_ACTIVE e] t.d v.d := u.w_onlyFields _ _
  have hve : v.d.eng e = g (t.d.eng e) := t.modEng_eng_same e g
  have hvo : OnlyEngine e t.d v.d := t.modEng_onlyEngine e g
  have hvr : EngineRegsOnly t.d v.d := (t.modEng_engineRegsOnly e g).trans (u.w_regsOnly _ _).engineRegsOnly
  have hnow : v.d.now = t.d.now := hvr.now (hv _ (by simp [Fld.key, R.SCH_STAT.LOOP_ACTIVE, R.TB_STAT.AWAKE, tileOff]; omega))
  have hloop : t.loopOn e q = v.enterSeg e (if c.1 then opOperand q.bits / 2 ^ 32 else q.idx + 1) := rfl
  rw [hloop]
  obtain ⟨hptr, hstate, hwait, hseg⟩ := henter
  refine ⟨?_, ?_, ⟨hptr, hstate, hwait, hseg.trans hnow⟩, ?_, hvo.trans hengs, hv.trans honly, hvr.trans hregs⟩
  · refine (honly _ ?_).trans (u.w_f_same _ _)
    simp [Fld.key, R.SCH_SEG.POINTER, R.SCH_STAT.STATE, R.SCH_STAT.WAITING, R.SCH_STAT.LOOP_ACTIVE, tileOff]
    omega
  · rw [heng, hve]
  · rw [heng, hve]

/-- Settles O22: the release takes the operation from its queue, and what the operation then does leaves queue and DEPTH alone. -/
theorem framesAndLoop : Obligations.FramesAndLoop := by
  refine ⟨fun s e q rest h => ?_, fun s e q rest h => ?_, fun s e q rest h => ?_, fun f r count hleft hactive => ?_⟩
  · let t := Tx.start s.dev
    have hq := t.setQueue_spec e.val rest
    have hset := (t.setQueue e.val rest).setFrame_spec e.val q
    have hexec := exec_setf s e h
    have k := frameKeys (32 * (e.val / 2) + opTarget q.bits)
    generalize (t.setQueue e.val rest).setFrame e.val q = y at hset hexec
    generalize (t.setQueue e.val rest) = x at hq hset
    obtain ⟨hxf, hxc, hxn⟩ := hq.frame (32 * (e.val / 2) + opTarget q.bits)
    refine ⟨_, hexec, ?_, ?_, hq.released hset.queue (hset.onlyFields _ ?_), hq.onlyEngine.trans hset.onlyEngine,
      (hq.onlyFields.trans hset.onlyFields).mono ?_, ?_⟩
    · rw [hset.frame, hxf, hxn]
      rfl
    · rw [hset.collide, hxc, hxn, hq.eng]
      rfl
    · exact fun hm => k.queue e _ List.mem_cons_self (by rw [List.map_append]; exact List.mem_append_left _ hm)
    · simp [freqFields, refFields]
    · exact s.of_enginesOnly (hq.engineRegsOnly.enginesOnly.trans hset.enginesOnly)
  · let t := Tx.start s.dev
    have hq := t.setQueue_spec e.val rest
    have hshift := (t.setQueue e.val rest).shiftFrame_spec e.val q
    have hexec := exec_shiftp s e h
    have k := frameKeys (32 * (e.val / 2) + opTarget q.bits)
    generalize (t.setQueue e.val rest).shiftFrame e.val q = y at hshift hexec
    generalize (t.setQueue e.val rest) = x at hq hshift
    obtain ⟨hxf, -, -⟩ := hq.frame (32 * (e.val / 2) + opTarget q.bits)
    obtain ⟨_, _, hframe⟩ := hshift.frame
    have heng : y.d.eng = x.d.eng := by
      rw [hframe]
      rfl
    refine ⟨_, hexec, ?_, hq.released (congrArg Engine.queue (congrFun heng _)) (hshift.onlyFields _ ?_), fun j hj => ?_,
      (hq.onlyFields.trans hshift.onlyFields).mono (by simp), ?_⟩
    · rw [hshift.frame_eq, hxf]
      rfl
    · exact fun hm => k.queue e _ List.mem_cons_self (by rw [List.map_append]; exact List.mem_append_right _ hm)
    · rw [heng]
      exact hq.onlyEngine j hj
    · obtain ⟨_, _, hx⟩ := hq.engineRegsOnly
      rw [hframe, hx]
      rfl
  · let t := Tx.start s.dev
    have hq := t.setQueue_spec e.val rest
    have hloop := (t.setQueue e.val rest).loopOn_spec e.val q
    have hexec := exec_loop s e h
    generalize (t.setQueue e.val rest).loopOn e.val q = y at hloop hexec
    generalize (t.setQueue e.val rest) = x at hq hloop
    have hactive : x.d.f (R.SCH_STAT.LOOP_ACTIVE e) = s.dev.f (R.SCH_STAT.LOOP_ACTIVE e) := hq.onlyFields _ (by
      simp [Fld.key, R.ENG_QUEUE.DEPTH, R.ENG_QUEUE.MAX, R.SCH_STAT.LOOP_ACTIVE, tileOff]
      omega)
    have hnow : x.d.now = s.dev.now := (hq.frame 0).2.2
    have hleft : (x.d.eng e).left = (s.dev.eng e).left := by
      rw [hq.eng]
      rfl
    obtain ⟨hact, hlft, ⟨hptr, hstate, hwait, hseg⟩, hqueue, heng, hfields, hregs⟩ := hloop
    rw [hactive, hleft] at hact hlft hptr
    refine ⟨_, hexec, hact, hlft, ⟨hptr, hstate, hwait, hseg.trans hnow⟩, hq.released hqueue (hfields _ ?_), hq.onlyEngine.trans heng,
      (hq.onlyFields.trans hfields).mono (by simp), ?_⟩
    · simp [Fld.key, R.ENG_QUEUE.DEPTH, R.SCH_STAT.LOOP_ACTIVE, R.SCH_SEG.POINTER, R.SCH_STAT.STATE, R.SCH_STAT.WAITING, tileOff]
      omega
    · obtain ⟨_, _, hy⟩ := hq.engineRegsOnly.trans hregs
      rw [hy]
      rfl
  · exact ⟨fun hc => by rw [hc]; exact loopCopy_zero f r, fun hc => loopCopy_of_ne_zero f r hleft hc⟩

end Sys2Proof.Machine
end

section
/-! SUPPORT. Epoch syncs (R96 to R101): the sampling edge at which a sync is taken, and the load edge at which it loads the epoch. -/
namespace Sys2Proof.Machine

variable {d0 : Device}

/-! The sampling edge -/

theorem TimeOnly.refl (d : Device) : TimeOnly d d := ⟨_, _, _, _, rfl⟩

theorem RegsOnly.timeOnly {d e : Device} (h : RegsOnly d e) : TimeOnly d e := by
  obtain ⟨_, rfl⟩ := h
  exact ⟨_, _, _, _, rfl⟩

theorem Tx.modTime_onlyFields (t : Tx d0) (g : Timebase → Timebase) : OnlyFields [] t.d (t.modTime g).d := fun _ _ => rfl

/-- What a command makes of the state where it touches the register file, the timebase, the pending vectors and the events of the clock alone. -/
theorem State.of_timeOnly (s : State) {x : Device} (h : TimeOnly (Tx.start s.dev).d x) :
    ({ s with dev := x } : State) = { s with dev := { s.dev with flds := x.flds, time := x.time, pba := x.pba, evNow := x.evNow, out := [] } } := by
  obtain ⟨_, _, _, _, rfl⟩ := h
  rfl

theorem exec_syncInPulse (s : State) (pos : Fin 32) :
    exec (.syncInPulse pos) s = .next { s with dev := (effSyncInPulse pos.val (Tx.start s.dev)).d } := by rfl

/-- A pulse that is not armed, or that comes in a run, is ignored (R99, R101). -/
theorem effSyncInPulse_ignored (t : Tx d0) (pos : Nat) (hrise : t.d.time.syncRise = true) (h : t.d.b R.TB_CTL.SYNC_ARM = false ∨ t.d.running = true) :
    effSyncInPulse pos t = (t.modTime (fun x => { x with syncRise := false })).ev R.TB_STAT.SYNC_IGNORED := by
  have hc : (!t.d.b R.TB_CTL.SYNC_ARM || t.d.running) = true := by
    rcases h with h | h <;> simp [h]
  unfold effSyncInPulse
  rw [hrise]
  exact if_pos hc

/-- The sync that a sampling edge takes (R96, R97). -/
def Device.syncNow (d : Device) : SyncTaken :=
  ⟨BitVec.ofNat 64 (d.f64 R.TB_SYNC_LOAD_LO.LOAD R.TB_SYNC_LOAD_HI.LOAD), d.f R.TB_SYNC_DELAY.DELAY⟩

/-- The sync of a sampling edge is taken: it waits for its load edge, and the arming is spent. -/
def Tx.takeSync (t : Tx d0) : Tx d0 :=
  ((t.modTime (fun x => { x with syncRise := false })).wb R.TB_CTL.SYNC_ARM false).modTime (fun x => { x with sync := x.sync ++ [t.d.syncNow] })

theorem effSyncInPulse_taken (t : Tx d0) (pos : Nat) (hrise : t.d.time.syncRise = true) (harm : t.d.b R.TB_CTL.SYNC_ARM = true)
    (hrun : t.d.running = false) :
    effSyncInPulse pos t = if t.takeSync.d.b R.TB_STAT.AWAKE && 1 ≤ pos && pos ≤ 20 then
        let u := (t.takeSync.wb R.TB_SYNC_POS.VALID true).w R.TB_SYNC_POS.POS pos
        if pos = 1 || pos = 20 then u.ev R.TB_STAT.SYNC_MARGIN else u
      else t.takeSync.wb R.TB_SYNC_POS.VALID false := by
  have hc : ¬ (!t.d.b R.TB_CTL.SYNC_ARM || t.d.running) = true := by simp [harm, hrun]
  unfold effSyncInPulse
  rw [hrise]
  exact (if_neg (by simp)).trans ((if_neg hc).trans rfl)

/-- What a sampling edge makes of the device where its sync is taken (R97, R98, R100). -/
structure SyncTakenAt (pos : Nat) (d x : Device) : Prop where
  time : x.time = { d.time with syncRise := false, sync := d.time.sync ++ [d.syncNow] }
  arm : x.f R.TB_CTL.SYNC_ARM = 0
  valid : x.f R.TB_SYNC_POS.VALID = (d.b R.TB_STAT.AWAKE).toNat
  position : d.b R.TB_STAT.AWAKE = true → x.f R.TB_SYNC_POS.POS = pos
  margin : x.f R.TB_STAT.SYNC_MARGIN = if d.b R.TB_STAT.AWAKE = true ∧ (pos = 1 ∨ pos = 20) then 1 else d.f R.TB_STAT.SYNC_MARGIN
  onlyFields : OnlyFields [R.TB_CTL.SYNC_ARM, R.TB_SYNC_POS.VALID, R.TB_SYNC_POS.POS, R.TB_STAT.SYNC_MARGIN] d x
  timeOnly : TimeOnly d x

theorem Tx.takeSync_time (t : Tx d0) : t.takeSync.d.time = { t.d.time with syncRise := false, sync := t.d.time.sync ++ [t.d.syncNow] } := rfl

theorem Tx.takeSync_arm (t : Tx d0) : t.takeSync.d.f R.TB_CTL.SYNC_ARM = 0 :=
  (t.modTime (fun x => { x with syncRise := false })).w_f_same R.TB_CTL.SYNC_ARM 0

theorem Tx.takeSync_onlyFields (t : Tx d0) : OnlyFields [R.TB_CTL.SYNC_ARM] t.d t.takeSync.d :=
  (t.modTime (fun x => { x with syncRise := false })).w_onlyFields R.TB_CTL.SYNC_ARM 0

theorem Tx.takeSync_timeOnly (t : Tx d0) : TimeOnly t.d t.takeSync.d := ⟨_, _, _, _, rfl⟩

theorem effSyncInPulse_spec (t : Tx d0) {pos : Nat} (h1 : 1 ≤ pos) (h20 : pos ≤ 20) (hrise : t.d.time.syncRise = true)
    (harm : t.d.b R.TB_CTL.SYNC_ARM = true) (hrun : t.d.running = false) : SyncTakenAt pos t.d (effSyncInPulse pos t).d := by
  have htake := t.takeSync_onlyFields
  rw [effSyncInPulse_taken t pos hrise harm hrun, htake.b (by decide)]
  cases hawake : t.d.b R.TB_STAT.AWAKE with
  | false =>
    have hw := t.takeSync.w_onlyFields R.TB_SYNC_POS.VALID 0
    rw [if_neg (by simp)]
    refine ⟨t.takeSync_time, (hw _ (by decide)).trans t.takeSync_arm, ?_, ?_, ?_, (htake.trans hw).mono (by simp),
      t.takeSync_timeOnly.trans (t.takeSync.w_regsOnly _ _).timeOnly⟩
    · rw [hawake]
      exact t.takeSync.w_f_same _ _
    · simp [hawake]
    · rw [hawake, if_neg (by simp)]
      exact (htake.trans hw) _ (by decide)
  | true =>
    let v := t.takeSync.wb R.TB_SYNC_POS.VALID true
    let u := v.w R.TB_SYNC_POS.POS pos
    let x := if pos = 1 || pos = 20 then u.ev R.TB_STAT.SYNC_MARGIN else u
    have hv : OnlyFields [R.TB_SYNC_POS.VALID] t.takeSync.d v.d := t.takeSync.w_onlyFields _ _
    have hu : OnlyFields [R.TB_SYNC_POS.POS] v.d u.d := v.w_onlyFields _ _
    have hx : RegFileOnly u.d x.d ∧ OnlyFields [R.TB_STAT.SYNC_MARGIN] u.d x.d ∧
        x.d.f R.TB_STAT.SYNC_MARGIN = if pos = 1 ∨ pos = 20 then 1 else u.d.f R.TB_STAT.SYNC_MARGIN := by
      simp only [x, Bool.or_eq_true, decide_eq_true_eq]
      split
      · exact ⟨u.ev_regFileOnly _, u.ev_onlyFields _, u.ev_f_same _ rfl⟩
      · exact ⟨.refl _, fun _ _ => rfl, rfl⟩
    obtain ⟨hxr, hxf, hxm⟩ := hx
    have htu := (htake.trans hv).trans hu
    rw [if_pos (by simp [h1, h20])]
    refine ⟨hxr.time.trans t.takeSync_time, ((hv.trans hu).trans hxf _ (by decide)).trans t.takeSync_arm, ?_, fun _ => ?_, ?_,
      (htu.trans hxf).mono (by simp), ?_⟩
    · rw [hawake]
      exact ((hu.trans hxf) _ (by decide)).trans (t.takeSync.w_f_same _ _)
    · exact (hxf _ (by decide)).trans ((v.w_f_same _ _).trans (Nat.mod_eq_of_lt (by simp [Fld.width, R.TB_SYNC_POS.POS]; omega)))
    · rw [hawake, hxm, htu _ (by decide)]
      simp
    · exact (t.takeSync_timeOnly.trans ((t.takeSync.w_regsOnly _ _).trans (v.w_regsOnly _ _)).timeOnly).trans hxr.timeOnly

/-! The load edge -/

theorem RegsOnly.regFileOnly {d e : Device} (h : RegsOnly d e) : RegFileOnly d e := by
  obtain ⟨_, rfl⟩ := h
  exact ⟨_, _, _, rfl⟩

theorem RegFileOnly.tile {d e : Device} (h : RegFileOnly d e) : e.tile = d.tile := by
  obtain ⟨_, _, _, rfl⟩ := h
  rfl

theorem Tx.showPorts_regsOnly (t : Tx d0) : RegsOnly t.d t.showPorts.d := ⟨_, rfl⟩

theorem Tx.showPorts_onlyFields (t : Tx d0) :
    OnlyFields [R.TB_STAT.SYNC_OK, R.FAB_STAT.PORTS_OK, R.GLB_IMG_STAT.PLAN_MISMATCH] t.d t.showPorts.d :=
  (Tx.w_onlyFields _ _ _).trans ((Tx.w_onlyFields _ _ _).trans (Tx.w_onlyFields _ _ _))

theorem Tx.modTile_tile (t : Tx d0) (n k : Nat) (g : Tile → Tile) :
    (t.modTile n g).d.tile k = if k = n then g (t.d.tile n) else t.d.tile k := bget_bset (fun _ => ({} : Tile)) t.d.tiles n k (g (t.d.tile n))

/-- From `d` to `e` nothing may have changed but tiles. -/
def TilesOnly (d e : Device) : Prop := ∃ tiles, e = { d with tiles := tiles }

theorem TilesOnly.f {d e : Device} (h : TilesOnly d e) : e.f = d.f := by
  obtain ⟨_, rfl⟩ := h
  rfl

theorem TilesOnly.time {d e : Device} (h : TilesOnly d e) : e.time = d.time := by
  obtain ⟨_, rfl⟩ := h
  rfl

/-- A tile's note of replaced frame words is dropped. -/
def Tile.forget (x : Tile) : Tile := { x with hist := [] }

theorem Tile.forget_of_isEmpty {x : Tile} (h : x.hist.isEmpty = true) : x.forget = x := by
  rw [Tile.forget, ← List.isEmpty_iff.mp h]

def Tx.forgetTile (n : Nat) (t : Tx d0) : Tx d0 := if (t.d.tile n).hist.isEmpty then t else t.modTile n (fun x => { x with hist := [] })

theorem Tx.dropHist_eq (t : Tx d0) : t.dropHist = t.each (t.d.tiles.map Prod.fst) Tx.forgetTile := rfl

theorem Tx.forgetTile_tile (t : Tx d0) (n k : Nat) :
    (t.forgetTile n).d.tile k = if k = n then (t.d.tile k).forget else t.d.tile k := by
  unfold Tx.forgetTile
  split
  · next he =>
    split
    · next hk => rw [hk, Tile.forget_of_isEmpty he]
    · rfl
  · rw [t.modTile_tile]
    split
    · next hk =>
      rw [hk]
      rfl
    · rfl

theorem Tx.each_forgetTile_tile (t : Tx d0) (l : List Nat) (k : Nat) :
    (t.each l Tx.forgetTile).d.tile k = if k ∈ l then (t.d.tile k).forget else t.d.tile k := by
  induction l generalizing t with
  | nil => rfl
  | cons n r ih =>
    rw [Tx.each_cons, ih, t.forgetTile_tile]
    by_cases hn : k = n <;> by_cases hr : k ∈ r <;> simp [hn, hr, Tile.forget]

/-- No tile keeps the frame words that were replaced before (R111). -/
theorem Tx.dropHist_tile (t : Tx d0) (k : Nat) : t.dropHist.d.tile k = (t.d.tile k).forget := by
  rw [t.dropHist_eq, t.each_forgetTile_tile]
  split
  · rfl
  · next hk =>
    have hnone : t.d.tile k = {} := bget_of_not_mem _ _ _ fun c hc he => hk (he ▸ List.mem_map_of_mem hc)
    rw [hnone]
    rfl

theorem Tx.dropHist_tilesOnly (t : Tx d0) : TilesOnly t.d t.dropHist.d := by
  refine Tx.each_keeps (fun u => TilesOnly t.d u.d) t _ _ ⟨_, rfl⟩ fun tl _ u hu => ?_
  split
  · exact hu
  · obtain ⟨_, hu⟩ := hu
    exact ⟨_, by rw [Tx.modTile, Tx.upd_d, hu]; rfl⟩

/-- The load edge of one sync: what it reports (R97, R98). -/
def Tx.noteSync (t : Tx d0) : Tx d0 := ((t.wb R.TB_STAT.SYNCED true).inc R.TB_STAT.SYNC_COUNT).ev R.GLB_DEV_EVT.TB_SYNC

def syncFields : List Fld := [R.TB_STAT.SYNCED, R.TB_STAT.SYNC_COUNT, R.GLB_DEV_EVT.TB_SYNC]

theorem Tx.noteSync_onlyFields (t : Tx d0) : OnlyFields syncFields t.d t.noteSync.d :=
  (Tx.w_onlyFields _ _ _).trans ((Tx.w_onlyFields _ _ _).trans (Tx.ev_onlyFields _ _))

theorem Tx.noteSync_regFileOnly (t : Tx d0) : RegFileOnly t.d t.noteSync.d :=
  ((t.w_regFileOnly _ _).trans (Tx.w_regFileOnly _ _ _)).trans (Tx.ev_regFileOnly _ _)

theorem Tx.noteSync_synced (t : Tx d0) : t.noteSync.d.f R.TB_STAT.SYNCED = 1 := by
  let u := t.wb R.TB_STAT.SYNCED true
  have hev := (u.inc R.TB_STAT.SYNC_COUNT).ev_onlyFields R.GLB_DEV_EVT.TB_SYNC
  have hinc : OnlyFields [R.TB_STAT.SYNC_COUNT] u.d (u.inc R.TB_STAT.SYNC_COUNT).d := u.w_onlyFields _ _
  exact ((hinc.trans hev) _ (by decide)).trans (t.w_f_same _ _)

theorem Tx.noteSync_event (t : Tx d0) : t.noteSync.d.f R.GLB_DEV_EVT.TB_SYNC = 1 := Tx.ev_f_same _ _ rfl

theorem Tx.noteSync_count (t : Tx d0) (h : t.d.f R.TB_STAT.SYNC_COUNT < 2 ^ R.TB_STAT.SYNC_COUNT.width) :
    t.noteSync.d.f R.TB_STAT.SYNC_COUNT = satInc R.TB_STAT.SYNC_COUNT.width (t.d.f R.TB_STAT.SYNC_COUNT) := by
  let u := t.wb R.TB_STAT.SYNCED true
  have hu : u.d.f R.TB_STAT.SYNC_COUNT = t.d.f R.TB_STAT.SYNC_COUNT := t.w_onlyFields R.TB_STAT.SYNCED 1 _ (by decide)
  refine ((u.inc R.TB_STAT.SYNC_COUNT).ev_onlyFields R.GLB_DEV_EVT.TB_SYNC _ (by decide)).trans ?_
  rw [Tx.inc, Tx.add_f_same _ _ _ (hu ▸ h), hu]
  rfl

/-- The timebase at a load edge: the epoch is the loaded one, and the syncs that were due are done (R97). -/
def Timebase.load (x : Timebase) (epoch old : Epoch) (awake : Bool) : Timebase :=
  { x with sync := x.sync.filter (fun y => y.left ≠ 0), coarse := epoch, fine := if awake then epoch else x.fine, before := some old }

theorem Tx.syncLoad_eq (t : Tx d0) (load : Epoch) :
    t.syncLoad load = ((t.modTime (fun x => x.load load t.d.now (t.d.b R.TB_STAT.AWAKE))).dropHist.each t.d.syncsDue (fun _ u => u.noteSync)).showPorts := rfl

/-- From `d` to `e` nothing may have changed but the register file, the timebase, tiles, the pending vectors and the note of the clock's events. -/
def SyncOnly (d e : Device) : Prop :=
  ∃ flds time tiles pba evNow, e = { d with flds := flds, time := time, tiles := tiles, pba := pba, evNow := evNow }

/-- What a load edge makes of the device (R97, R98, R111). -/
structure SyncLoaded (load : Epoch) (d x : Device) : Prop where
  time : x.time = d.time.load load d.now (d.b R.TB_STAT.AWAKE)
  synced : d.syncsDue ≠ [] → x.f R.TB_STAT.SYNCED = 1 ∧ x.f R.GLB_DEV_EVT.TB_SYNC = 1
  count : d.f R.TB_STAT.SYNC_COUNT < 2 ^ R.TB_STAT.SYNC_COUNT.width → (∃ y, d.syncsDue = [y]) →
    x.f R.TB_STAT.SYNC_COUNT = satInc R.TB_STAT.SYNC_COUNT.width (d.f R.TB_STAT.SYNC_COUNT)
  onlyFields : OnlyFields (syncFields ++ [R.TB_STAT.SYNC_OK, R.FAB_STAT.PORTS_OK, R.GLB_IMG_STAT.PLAN_MISMATCH]) d x
  tile : ∀ k, x.tile k = (d.tile k).forget
  frame : SyncOnly d x

theorem Tx.syncLoad_spec (t : Tx d0) (load : Epoch) : SyncLoaded load t.d (t.syncLoad load).d := by
  let a := t.modTime (fun x => x.load load t.d.now (t.d.b R.TB_STAT.AWAKE))
  let u := a.dropHist
  let v := u.each t.d.syncsDue (fun _ u => u.noteSync)
  have huf : u.d.f = t.d.f := a.dropHist_tilesOnly.f
  have hut : u.d.time = t.d.time.load load t.d.now (t.d.b R.TB_STAT.AWAKE) := a.dropHist_tilesOnly.time
  have hvf : OnlyFields syncFields u.d v.d :=
    Tx.each_keeps (fun w => OnlyFields syncFields u.d w.d) u _ _ (.refl _ _) fun _ _ w hw =>
      (hw.trans w.noteSync_onlyFields).mono (by simp)
  have hvr : RegFileOnly u.d v.d :=
    Tx.each_keeps (fun w => RegFileOnly u.d w.d) u _ _ (.refl _) fun _ _ w hw => hw.trans w.noteSync_regFileOnly
  have hx := v.showPorts_onlyFields
  have hxr := hvr.trans v.showPorts_regsOnly.regFileOnly
  rw [t.syncLoad_eq]
  refine ⟨hxr.time.trans hut, fun hdue => ?_, fun hlt ⟨y, hy⟩ => ?_, ?_, fun k => ?_, ?_⟩
  · have hset : v.d.f R.TB_STAT.SYNCED = 1 ∧ v.d.f R.GLB_DEV_EVT.TB_SYNC = 1 := by
      obtain ⟨y, hy⟩ := List.exists_mem_of_ne_nil _ hdue
      exact Tx.each_sets (Q := fun (_ : SyncTaken) w => w.d.f R.TB_STAT.SYNCED = 1 ∧ w.d.f R.GLB_DEV_EVT.TB_SYNC = 1)
        (fun _ _ w => ⟨w.noteSync_synced, w.noteSync_event⟩) (fun _ _ _ _ w _ => ⟨w.noteSync_synced, w.noteSync_event⟩) u y hy
    exact ⟨(hx _ (by decide)).trans hset.1, (hx _ (by decide)).trans hset.2⟩
  · have hcount : u.d.f R.TB_STAT.SYNC_COUNT = t.d.f R.TB_STAT.SYNC_COUNT := congrFun huf _
    have hv : v = u.noteSync := by
      simp only [v, hy, Tx.each_cons, Tx.each_nil]
    refine (hx _ (by decide)).trans ?_
    rw [hv, u.noteSync_count (hcount ▸ hlt), hcount]
  · intro F hF
    rw [(hvf.trans hx) F hF, huf]
  · rw [hxr.tile]
    exact a.dropHist_tile k
  · obtain ⟨_, hu⟩ := a.dropHist_tilesOnly
    obtain ⟨_, _, _, hxu⟩ := hxr
    rw [hxu, hu]
    exact ⟨_, _, _, _, _, rfl⟩

theorem Tx.takeSyncs_none (t : Tx d0) (h : t.d.syncsDue = []) : t.takeSyncs = t := by
  rw [Tx.takeSyncs, h]
  rfl

theorem Tx.takeSyncs_some (t : Tx d0) {y : SyncTaken} (h : t.d.syncsDue.getLast? = some y) :
    t.takeSyncs = if t.d.b R.TB_STAT.AWAKE then (t.syncLoad y.load).openTick else t.syncLoad y.load := by
  have hawake : (t.syncLoad y.load).b R.TB_STAT.AWAKE = t.d.b R.TB_STAT.AWAKE := (t.syncLoad_spec y.load).onlyFields.b (by decide)
  rw [Tx.takeSyncs, h]
  dsimp only
  rw [hawake]

/-- The load edge of the syncs that are due, the last of which decides the epoch (R97, log 78). -/
theorem exec_syncLoad (s : State) {y : SyncTaken} (h : s.dev.syncsDue.getLast? = some y) :
    exec .syncLoad s = .next { s with dev := if s.dev.b R.TB_STAT.AWAKE then ((Tx.start s.dev).syncLoad y.load).openTick.d
      else ((Tx.start s.dev).syncLoad y.load).d } := by
  have htake := (Tx.start s.dev).takeSyncs_some h
  show commit effSyncLoad s = _
  rw [commit, effSyncLoad, htake, apply_ite Tx.d]
  rfl

/-- Settles O15: a sampling edge takes or ignores its pulse by SYNC_ARM and the run, and a load edge is a load with its reports. -/
theorem syncTakenAndLoaded : Obligations.SyncTakenAndLoaded := by
  refine ⟨fun s pos h1 h20 hrise harm hrun => ?_, fun s pos hrise h => ?_, fun s y hy => ?_⟩
  · have h := effSyncInPulse_spec (Tx.start s.dev) h1 h20 hrise harm hrun
    have hexec := exec_syncInPulse s pos
    generalize effSyncInPulse pos.val (Tx.start s.dev) = x at h hexec
    exact ⟨_, hexec, h.time, h.arm, h.valid, h.position, h.margin, h.onlyFields, s.of_timeOnly h.timeOnly⟩
  · have hx := effSyncInPulse_ignored (Tx.start s.dev) pos hrise h
    let u := (Tx.start s.dev).modTime (fun x => { x with syncRise := false })
    have hexec := exec_syncInPulse s pos
    rw [hx] at hexec
    exact ⟨_, hexec, u.ev_time _, u.ev_f_same _ rfl, u.ev_onlyFields _,
      s.of_timeOnly ((Tx.modTime_timeOnly _ _).trans (u.ev_regFileOnly _).timeOnly)⟩
  · have h := (Tx.start s.dev).syncLoad_spec y.load
    have hne : s.dev.syncsDue ≠ [] := by
      intro hnil
      rw [hnil] at hy
      cases hy
    refine ⟨exec_syncLoad s hy, h.time, (h.synced hne).1, (h.synced hne).2, fun hlt hdue => h.count hlt ⟨y, hdue⟩, h.onlyFields, fun tl => h.tile tl, ?_⟩
    obtain ⟨_, _, _, _, _, hx⟩ := h.frame
    rw [hx]
    rfl

end Sys2Proof.Machine
end

section
/-! SUPPORT. The checks of a start as a tick ends (R701), and what the refusal of a start does. -/
namespace Sys2Proof.Machine

variable {d0 : Device}

/-! Refusals -/

/-- The report of the owning block for a code of R701. -/
def refuseEvent (code : Nat) : Option Fld :=
  match code with
  | 3 => some R.TB_STAT.NOSYNC_RUN
  | 5 => some R.THM_EVT.RUN_REFUSED
  | 6 => some R.PWR_EVT.RUN_REFUSED
  | 7 => some R.ACQ_DRAIN_STAT.NORUN
  | 8 => some R.CAL_EVT.RUN_REFUSED
  | 9 => some R.GLB_ST_STAT.RUN_REFUSED
  | 10 => some R.TWIN_EVT.RUN_REFUSED
  | 11 => some R.FAB_EVT.START_REFUSED
  | _ => none

/-- The reason that the owning block's status shows beside its report. -/
def Device.refuseWhy (d : Device) (code : Nat) : Option (Fld × Nat) :=
  match code with
  | 6 => some (R.PWR_STAT.REFUSE, if d.streamOff then 1 else 2)
  | 10 => some (R.TWIN_STAT.WHY, 8)
  | 11 => some (R.FAB_STAT.REFUSE, d.fabricRefuse)
  | _ => none

/-- A start that is refused is no longer pending, and the refusal is shown with its code. -/
def Tx.refuseShown (t : Tx d0) (code : Nat) : Tx d0 :=
  (((t.wb R.GLB_RUN_STAT.PENDING false).ev R.GLB_RUN_STAT.REFUSED).w R.GLB_RUN_STAT.REFUSE code).ripenHeld

/-- The owning block reports the refusal. -/
def Tx.refuseReport (t : Tx d0) (code : Nat) : Tx d0 :=
  let u := t.each (refuseEvent code).toList (fun E u => u.ev E)
  u.each (t.d.refuseWhy code).toList (fun p u => u.w p.1 p.2)

theorem Tx.refuseRun_eq (t : Tx d0) {code : Nat} (h : code ≤ 11) : t.refuseRun code = (t.refuseShown code).refuseReport code := by
  interval_cases code <;> rfl

/-- From `d` to `e` nothing may have changed but the register file, output settings, the pending vectors and the note of the clock's events. -/
def OutCfgsOnly (d e : Device) : Prop :=
  ∃ flds outCfgs pba evNow, e = { d with flds := flds, outCfgs := outCfgs, pba := pba, evNow := evNow }

theorem OutCfgsOnly.trans {d e g : Device} (h : OutCfgsOnly d e) (h' : OutCfgsOnly e g) : OutCfgsOnly d g := by
  obtain ⟨_, _, _, _, rfl⟩ := h
  obtain ⟨_, _, _, _, rfl⟩ := h'
  exact ⟨_, _, _, _, rfl⟩

theorem RegFileOnly.outCfgsOnly {d e : Device} (h : RegFileOnly d e) : OutCfgsOnly d e := by
  obtain ⟨_, _, _, rfl⟩ := h
  exact ⟨_, _, _, _, rfl⟩

theorem OutCfgsOnly.run {d e : Device} (h : OutCfgsOnly d e) : e.run = d.run := by
  obtain ⟨_, _, _, _, rfl⟩ := h
  rfl

theorem Tx.ripenHeld_frame (t : Tx d0) : OutCfgsOnly t.d t.ripenHeld.d ∧ t.ripenHeld.d.f = t.d.f := by
  refine Tx.each_keeps (fun u => OutCfgsOnly t.d u.d ∧ u.d.f = t.d.f) t _ _ ⟨⟨_, _, _, _, rfl⟩, rfl⟩ fun c _ u hu => ?_
  split
  · exact ⟨hu.1.trans ⟨_, _, _, _, rfl⟩, hu.2⟩
  · exact hu

/-- What the refusal of a start with a code makes of the device (R701). -/
structure StartRefused (code : Nat) (d e : Device) : Prop where
  pending : e.f R.GLB_RUN_STAT.PENDING = 0
  refused : e.f R.GLB_RUN_STAT.REFUSED = 1
  refuse : e.f R.GLB_RUN_STAT.REFUSE = code
  onlyFields : OnlyFields refuseFields d e
  frame : OutCfgsOnly d e

theorem Tx.refuseShown_spec (t : Tx d0) {code : Nat} (h : code ≤ 11) : StartRefused code t.d (t.refuseShown code).d := by
  let u := t.wb R.GLB_RUN_STAT.PENDING false
  let v := u.ev R.GLB_RUN_STAT.REFUSED
  let w := v.w R.GLB_RUN_STAT.REFUSE code
  have hu : OnlyFields [R.GLB_RUN_STAT.PENDING] t.d u.d := t.w_onlyFields _ _
  have hv : OnlyFields [R.GLB_RUN_STAT.REFUSED] u.d v.d := u.ev_onlyFields _
  have hw : OnlyFields [R.GLB_RUN_STAT.REFUSE] v.d w.d := v.w_onlyFields _ _
  obtain ⟨hframe, hf⟩ := w.ripenHeld_frame
  have hshown : (t.refuseShown code).d.f = w.d.f := hf
  have hregs : RegFileOnly t.d w.d := ((t.w_regFileOnly _ _).trans (u.ev_regFileOnly _)).trans (v.w_regFileOnly _ _)
  refine ⟨?_, ?_, ?_, fun F hF => ?_, hregs.outCfgsOnly.trans hframe⟩
  · rw [hshown, (hv.trans hw) _ (by decide)]
    exact t.w_f_same _ _
  · rw [hshown, hw _ (by decide)]
    exact u.ev_f_same _ rfl
  · rw [hshown]
    exact (v.w_f_same _ _).trans (Nat.mod_eq_of_lt (by simp [Fld.width, R.GLB_RUN_STAT.REFUSE]; omega))
  · rw [hshown]
    exact ((hu.trans hv).trans hw).mono (by simp [refuseFields]) F hF

/-- The fields of the owning blocks' reports stand elsewhere than the refusal itself. -/
theorem refuseReport_keys {code : Nat} {d : Device} :
    (∀ E ∈ (refuseEvent code).toList, E ∈ refuseFields.drop 3) ∧ ∀ p ∈ (d.refuseWhy code).toList, p.1 ∈ refuseFields.drop 3 := by
  constructor
  · intro E hE
    unfold refuseEvent at hE
    split at hE <;> simp_all [refuseFields]
  · intro p hp
    unfold Device.refuseWhy at hp
    split at hp <;> simp_all [refuseFields]

theorem Tx.refuseReport_frame (t : Tx d0) (code : Nat) :
    OnlyFields (refuseFields.drop 3) t.d (t.refuseReport code).d ∧ RegFileOnly t.d (t.refuseReport code).d := by
  obtain ⟨hE, hW⟩ := refuseReport_keys (code := code) (d := t.d)
  let P : Tx d0 → Prop := fun u => OnlyFields (refuseFields.drop 3) t.d u.d ∧ RegFileOnly t.d u.d
  have hev : P (t.each (refuseEvent code).toList (fun E u => u.ev E)) :=
    Tx.each_keeps P t _ _ ⟨.refl _ _, .refl _⟩ fun E hm u hu =>
      ⟨(hu.1.trans (u.ev_onlyFields E)).mono (by simpa using hE E hm), hu.2.trans (u.ev_regFileOnly E)⟩
  exact Tx.each_keeps P _ _ _ hev fun p hm u hu =>
    ⟨(hu.1.trans (u.w_onlyFields p.1 p.2)).mono (by simpa using hW p hm), hu.2.trans (u.w_regFileOnly p.1 p.2)⟩

theorem Tx.refuseRun_spec (t : Tx d0) {code : Nat} (h : code ≤ 11) : StartRefused code t.d (t.refuseRun code).d := by
  have hs := t.refuseShown_spec h
  obtain ⟨hf, hr⟩ := (t.refuseShown code).refuseReport_frame code
  rw [t.refuseRun_eq h]
  exact ⟨(hf _ (by decide)).trans hs.pending, (hf _ (by decide)).trans hs.refused, (hf _ (by decide)).trans hs.refuse,
    (hs.onlyFields.trans hf).mono (List.append_subset.mpr ⟨List.Subset.refl _, List.drop_subset _ _⟩), hs.frame.trans hr.outCfgsOnly⟩

theorem ite_le_of_le {c : Prop} [Decidable c] {a b n : Nat} (ha : a ≤ n) (hb : b ≤ n) : (if c then a else b) ≤ n := by
  split
  · exact ha
  · exact hb

/-- The codes of R701. -/
theorem Device.startRefuse_le (d : Device) : d.startRefuse ≤ 11 := by
  unfold Device.startRefuse Device.startRefuseFor
  dsimp only
  iterate 11 refine ite_le_of_le (by decide) ?_
  decide

/-! The checks as a tick ends -/

/-- A start is pending, and no run is in progress. -/
def Device.startWaits (d : Device) : Bool := d.b R.GLB_RUN_STAT.PENDING && !d.running

/-- The check refuses the start at once (R701, log 243). -/
def Device.startRefused (d : Device) : Bool := d.startWaits && d.startRefuse != 0 && d.startsNext

/-- The check keeps what it has found until a later tick. -/
def Tx.noteFound (t : Tx d0) (v : Option Nat) : Tx d0 := if t.d.run.found = v then t else t.modRun (fun r => { r with found := v })

theorem Tx.noteFound_d (t : Tx d0) (v : Option Nat) : (t.noteFound v).d = { t.d with run := { t.d.run with found := v } } := by
  unfold Tx.noteFound
  split
  · next h => rw [← h]
  · rfl

theorem Tx.startCheck_eq (t : Tx d0) : t.startCheck =
    if t.d.startRefused then (t.noteFound none).refuseRun t.d.startRefuse
    else t.noteFound (if t.d.startWaits then some t.d.startRefuse else none) := by
  have hcheck : t.startCheck = if !t.d.b R.GLB_RUN_STAT.PENDING || t.d.running then t.noteFound none
      else if t.d.startRefuse ≠ 0 && t.d.startsNext then (t.noteFound none).refuseRun t.d.startRefuse else t.noteFound (some t.d.startRefuse) := rfl
  rw [hcheck]
  unfold Device.startRefused Device.startWaits
  cases t.d.b R.GLB_RUN_STAT.PENDING <;> cases t.d.running <;> simp

/-- A check that refuses nothing notes what it has found, and no more. -/
theorem Tx.startCheck_noted (t : Tx d0) (h : t.d.startRefused = false) :
    t.startCheck.d = { t.d with run := { t.d.run with found := if t.d.startWaits then some t.d.startRefuse else none } } := by
  rw [t.startCheck_eq, h]
  exact t.noteFound_d _

theorem Tx.startCheck_refused (t : Tx d0) (h : t.d.startRefused = true) :
    StartRefused t.d.startRefuse { t.d with run := { t.d.run with found := none } } t.startCheck.d := by
  rw [t.startCheck_eq, h, ← t.noteFound_d]
  exact Tx.refuseRun_spec _ t.d.startRefuse_le

/-- What the check of a start makes of the device (R701, log 243). -/
structure StartChecked (d e : Device) : Prop where
  run : e.run = { d.run with found := if d.startWaits && !d.startRefused then some d.startRefuse else none }
  refused : d.startRefused = true →
    e.f R.GLB_RUN_STAT.PENDING = 0 ∧ e.f R.GLB_RUN_STAT.REFUSED = 1 ∧ e.f R.GLB_RUN_STAT.REFUSE = d.startRefuse
  noted : d.startRefused = false → e.outCfgs = d.outCfgs ∧ e.pba = d.pba
  onlyFields : OnlyFields (if d.startRefused then refuseFields else []) d e
  frame : ∃ flds run outCfgs pba evNow, e = { d with flds := flds, run := run, outCfgs := outCfgs, pba := pba, evNow := evNow }

theorem Tx.startCheck_spec (t : Tx d0) : StartChecked t.d t.startCheck.d := by
  cases hr : t.d.startRefused with
  | true =>
    have h := t.startCheck_refused hr
    refine ⟨?_, fun _ => ⟨h.pending, h.refused, h.refuse⟩, fun hf => ?_, ?_, ?_⟩
    · rw [h.frame.run, hr, Bool.not_true, Bool.and_false]
      rfl
    · rw [hr] at hf
      contradiction
    · rw [hr]
      exact h.onlyFields
    · obtain ⟨_, _, _, _, hx⟩ := h.frame
      exact ⟨_, _, _, _, _, hx⟩
  | false =>
    have h := t.startCheck_noted hr
    rw [h]
    refine ⟨?_, fun ht => ?_, fun _ => ⟨rfl, rfl⟩, fun _ _ => rfl, ⟨_, _, _, _, _, rfl⟩⟩
    · rw [hr, Bool.not_false, Bool.and_true]
    · rw [hr] at ht
      contradiction

end Sys2Proof.Machine
end

section
/-! SUPPORT. A REFCLK edge while the fast clocks sleep (R88, R95, R102, R701): what it does to the timebase, and that it depends on the device alone. -/
namespace Sys2Proof.Machine

variable {d0 : Device}

/-! The edge in parts -/

/-- What an edge asleep makes of the counters, of SYNC_IN's level and of the syncs in flight (R88, R95, R97). -/
def Timebase.edge (x : Timebase) (level : Bool) : Timebase :=
  { x with coarse := x.coarse + 20, ticks := x.ticks + 20, good := min 1000 (if x.refclk then x.good + 1 else 0), refclk := true, held := false,
           before := none, syncIn := level, syncRise := level && !x.syncIn, sync := x.sync.map (fun y => { y with left := y.left - 1 }) }

/-- A pulse of REPEAT mode is asked for by a sync (R102). -/
def Tx.repeatPulse (t : Tx d0) (rise : Bool) : Tx d0 :=
  if rise && t.f R.TB_CTL.SOUT_MODE = 1 then t.modTime (fun x => { x with soutNext := true }) else t

/-- The power state counts the edges of a wake. -/
def Tx.edgePower (t : Tx d0) : Tx d0 :=
  t.modPower (fun x => { x with atEdge := true, wakeEdges := if t.f R.PWR_STAT.STATE = 1 then x.wakeEdges + 1 else x.wakeEdges })

/-- The edge asleep, behind the checks of a start. -/
def Tx.edge (t : Tx d0) (level : Bool) : Tx d0 :=
  (((t.modTime (fun x => x.edge level)).soutEdge).repeatPulse (level && !t.d.time.syncIn)).edgePower.showWait

/-- Asleep, an edge is the checks of a start, a new clock, and the edge itself, behind the loads that are due. -/
theorem effRefclkEdge_asleep (t : Tx d0) (level : Bool) (hon : t.d.domOn 0 = true) (hsleep : t.takeSyncs.d.b R.TB_STAT.AWAKE = false) :
    effRefclkEdge level t = t.takeSyncs.startCheck.newClock.edge level := by
  have hon' : ¬ (!t.d.domOn 0) = true := by simp [hon]
  have hb : t.takeSyncs.b R.TB_STAT.AWAKE = false := hsleep
  unfold effRefclkEdge
  rw [if_neg hon']
  simp only [hb, Bool.false_eq_true, if_false]
  rfl

theorem Tx.newClock_d (t : Tx d0) : t.newClock.d = { t.d with evNow := [], again := [], run := { t.d.run with before := none } } := by
  let u := (t.upd (.evNow [])).upd (.again [])
  have hnew : t.newClock = if t.d.run.before.isSome then u.modRun (fun r => { r with before := none }) else u := rfl
  have hu : u.d = { t.d with evNow := [], again := [] } := rfl
  by_cases h : t.d.run.before.isSome = true
  · have hmod : (u.modRun (fun r => { r with before := none })).d = { u.d with run := { u.d.run with before := none } } := rfl
    rw [hnew, if_pos h, hmod, hu]
  · have hb : t.d.run.before = none := Option.not_isSome_iff_eq_none.mp h
    have hrun : ({ t.d.run with before := none } : RunSt) = t.d.run := by rw [← hb]
    rw [hnew, if_neg h, hrun, hu]

theorem Tx.showWait_onlyFields (t : Tx d0) : OnlyFields [R.PWR_STAT.WAIT] t.d t.showWait.d := t.w_onlyFields _ _

theorem Tx.showWait_regsOnly (t : Tx d0) : RegsOnly t.d t.showWait.d := t.w_regsOnly _ _

/-- What the edge itself makes of the device (R88, R95, R97, R102). -/
structure Edged (level : Bool) (d x : Device) : Prop where
  time : x.time = { d.time.edge level with
    sout := d.time.sout || d.time.soutNext, soutNext := (level && !d.time.syncIn) && d.f R.TB_CTL.SOUT_MODE == 1
    soutLeft := if d.time.soutNext then 4 else d.time.soutLeft - 1 }
  syncGen : x.f R.TB_CTL.SYNC_GEN = if d.time.soutNext then 0 else d.f R.TB_CTL.SYNC_GEN
  power : x.power = { d.power with atEdge := true, wakeEdges := if d.f R.PWR_STAT.STATE = 1 then d.power.wakeEdges + 1 else d.power.wakeEdges }
  onlyFields : OnlyFields [R.TB_CTL.SYNC_GEN, R.PWR_STAT.WAIT] d x
  frame : ∃ flds time power, x = { d with flds := flds, time := time, power := power }

theorem Tx.soutEdge_spec (t : Tx d0) :
    t.soutEdge.d.time = { t.d.time with sout := t.d.time.sout || t.d.time.soutNext, soutNext := false,
                                        soutLeft := if t.d.time.soutNext then 4 else t.d.time.soutLeft - 1 } ∧
      t.soutEdge.d.f R.TB_CTL.SYNC_GEN = (if t.d.time.soutNext then 0 else t.d.f R.TB_CTL.SYNC_GEN) ∧
      OnlyFields [R.TB_CTL.SYNC_GEN] t.d t.soutEdge.d ∧ ∃ flds time, t.soutEdge.d = { t.d with flds := flds, time := time } := by
  unfold Tx.soutEdge
  cases h : t.d.time.soutNext with
  | true =>
    let u := t.modTime (fun x => { x with soutNext := false, sout := true, soutLeft := 4 })
    rw [if_pos rfl]
    refine ⟨?_, u.w_f_same _ _, u.w_onlyFields _ _, ⟨_, _, rfl⟩⟩
    simp
    rfl
  | false =>
    rw [if_neg (by simp)]
    refine ⟨?_, rfl, fun _ _ => rfl, ⟨_, _, rfl⟩⟩
    simp [← h]

theorem Tx.repeatPulse_spec (t : Tx d0) (rise : Bool) (h : t.d.time.soutNext = false) :
    (t.repeatPulse rise).d = { t.d with time := { t.d.time with soutNext := rise && t.d.f R.TB_CTL.SOUT_MODE == 1 } } := by
  unfold Tx.repeatPulse
  cases hr : rise && t.d.f R.TB_CTL.SOUT_MODE == 1 with
  | true =>
    have hc : (rise && decide (t.f R.TB_CTL.SOUT_MODE = 1)) = true := hr
    rw [if_pos hc]
    rfl
  | false =>
    have hc : ¬ (rise && decide (t.f R.TB_CTL.SOUT_MODE = 1)) = true := by
      rw [show (rise && decide (t.f R.TB_CTL.SOUT_MODE = 1)) = false from hr]
      decide
    rw [if_neg hc, ← h]

theorem Tx.edge_spec (t : Tx d0) (level : Bool) : Edged level t.d (t.edge level).d := by
  let a := t.modTime (fun x => x.edge level)
  let rise := level && !t.d.time.syncIn
  obtain ⟨htime, hgen, honly, hframe⟩ := a.soutEdge_spec
  have hpulse := a.soutEdge.repeatPulse_spec rise (by rw [htime])
  have hmode : a.soutEdge.d.f R.TB_CTL.SOUT_MODE = t.d.f R.TB_CTL.SOUT_MODE := honly _ (by decide)
  have hstate : a.soutEdge.d.f R.PWR_STAT.STATE = t.d.f R.PWR_STAT.STATE := honly _ (by decide)
  have hct : (a.soutEdge.repeatPulse rise).d.time = { t.d.time.edge level with
      sout := t.d.time.sout || t.d.time.soutNext, soutNext := rise && t.d.f R.TB_CTL.SOUT_MODE == 1
      soutLeft := if t.d.time.soutNext then 4 else t.d.time.soutLeft - 1 } := by
    rw [hpulse, htime, hmode]
    rfl
  have hcf : (a.soutEdge.repeatPulse rise).d.f = a.soutEdge.d.f := by
    rw [hpulse]
    rfl
  have hcframe : ∃ flds time, (a.soutEdge.repeatPulse rise).d = { t.d with flds := flds, time := time } := by
    obtain ⟨_, _, hframe⟩ := hframe
    rw [hpulse, hframe]
    exact ⟨_, _, rfl⟩
  have hedge : t.edge level = (a.soutEdge.repeatPulse rise).edgePower.showWait := rfl
  rw [hedge]
  generalize a.soutEdge.repeatPulse rise = c at hct hcf hcframe
  have hwait := c.edgePower.showWait_onlyFields
  have hcp : c.d.power = t.d.power := by
    obtain ⟨_, _, hc⟩ := hcframe
    rw [hc]
  have hpower : c.edgePower.d.power =
      { c.d.power with atEdge := true, wakeEdges := if c.d.f R.PWR_STAT.STATE = 1 then c.d.power.wakeEdges + 1 else c.d.power.wakeEdges } := rfl
  refine ⟨hct, (hwait _ (by decide)).trans ((congrFun hcf _).trans hgen), hpower.trans ?_, fun F hF => ?_, ?_⟩
  · rw [hcp, hcf, hstate]
  · refine (hwait F fun hm => hF (List.mem_cons_of_mem _ hm)).trans ((congrFun hcf F).trans (honly F fun hm => hF ?_))
    simp only [List.map_cons, List.map_nil, List.mem_singleton] at hm
    simp [hm]
  · obtain ⟨_, _, hc⟩ := hcframe
    obtain ⟨_, hx⟩ := c.edgePower.showWait_regsOnly
    have hp : c.edgePower.d = { c.d with power := c.edgePower.d.power } := rfl
    rw [hx, hp, hc]
    exact ⟨_, _, _, rfl⟩

/-! An edge depends on the device alone, not on where the command started -/

section
variable {d1 : Device} {t : Tx d0} {u : Tx d1} (h : t.d = u.d)

theorem Tx.ite_d_congr {c c' : Prop} [Decidable c] [Decidable c'] {x y : Tx d0} {x' y' : Tx d1} (hc : c ↔ c') (hx : x.d = x'.d) (hy : y.d = y'.d) :
    (if c then x else y).d = (if c' then x' else y').d := by
  rw [apply_ite Tx.d, apply_ite Tx.d, hx, hy]
  exact if_congr hc rfl rfl

include h

theorem Tx.upd_d_congr (v : Upd) : (t.upd v).d = (u.upd v).d := congrArg (applyUpd · v) h

theorem Tx.w_d_congr (F : Fld) (v : Nat) : (t.w F v).d = (u.w F v).d := Tx.upd_d_congr h _

theorem Tx.modTime_d_congr (g : Timebase → Timebase) : (t.modTime g).d = (u.modTime g).d := congrArg (fun d => applyUpd d (.time (g d.time))) h

theorem Tx.each_d_congr {α : Type} (l : List α) {g : α → Tx d0 → Tx d0} {g' : α → Tx d1 → Tx d1}
    (hg : ∀ a x y, x.d = y.d → (g a x).d = (g' a y).d) : (t.each l g).d = (u.each l g').d := by
  induction l generalizing t u with
  | nil => exact h
  | cons a r ih => exact ih (hg a t u h)

theorem Tx.ev_d_congr (F : Fld) : (t.ev F).d = (u.ev F).d := by
  have hnote : (t.upd (.evNow (if t.d.evNow.contains F.key then t.d.evNow else F.key :: t.d.evNow))).d =
      (u.upd (.evNow (if u.d.evNow.contains F.key then u.d.evNow else F.key :: u.d.evNow))).d :=
    congrArg (fun d : Device => applyUpd d (.evNow (if d.evNow.contains F.key then d.evNow else F.key :: d.evNow))) h
  rw [Tx.ev_eq, Tx.ev_eq]
  refine Tx.ite_d_congr (by rw [h]) hnote ?_
  cases vectorOf F.key with
  | none => exact Tx.w_d_congr hnote F 1
  | some v => exact Tx.upd_d_congr (Tx.w_d_congr hnote F 1) _

theorem Tx.ripenHeld_d_congr : t.ripenHeld.d = u.ripenHeld.d :=
  Tx.each_d_congr h _ fun c x y hxy => Tx.ite_d_congr (by rw [Tx.b, Tx.b, hxy])
    (congrArg (fun d : Device => applyUpd d (.outCfg c { d.outCfg c with ripe := true })) hxy) hxy

theorem Tx.refuseRun_d_congr {code : Nat} (hcode : code ≤ 11) : (t.refuseRun code).d = (u.refuseRun code).d := by
  have hshown : (t.refuseShown code).d = (u.refuseShown code).d :=
    Tx.ripenHeld_d_congr (Tx.w_d_congr (Tx.ev_d_congr (Tx.w_d_congr h _ _) _) _ _)
  rw [t.refuseRun_eq hcode, u.refuseRun_eq hcode]
  unfold Tx.refuseReport
  rw [hshown]
  exact Tx.each_d_congr (Tx.each_d_congr hshown _ fun E _ _ hxy => Tx.ev_d_congr hxy E) _ fun p _ _ hxy => Tx.w_d_congr hxy _ _

theorem Tx.noteFound_d_congr (v : Option Nat) : (t.noteFound v).d = (u.noteFound v).d := by rw [t.noteFound_d, u.noteFound_d, h]

theorem Tx.startCheck_d_congr : t.startCheck.d = u.startCheck.d := by
  rw [t.startCheck_eq, u.startCheck_eq, h]
  exact Tx.ite_d_congr Iff.rfl (Tx.refuseRun_d_congr (Tx.noteFound_d_congr h none) u.d.startRefuse_le) (Tx.noteFound_d_congr h _)

theorem Tx.newClock_d_congr : t.newClock.d = u.newClock.d := by rw [t.newClock_d, u.newClock_d, h]

theorem Tx.soutEdge_d_congr : t.soutEdge.d = u.soutEdge.d :=
  Tx.ite_d_congr (by rw [h]) (Tx.w_d_congr (Tx.modTime_d_congr h _) _ _) (Tx.modTime_d_congr h _)

theorem Tx.repeatPulse_d_congr (rise : Bool) : (t.repeatPulse rise).d = (u.repeatPulse rise).d :=
  Tx.ite_d_congr (by rw [Tx.f, Tx.f, h]) (Tx.modTime_d_congr h _) h

theorem Tx.edgePower_d_congr : t.edgePower.d = u.edgePower.d :=
  congrArg (fun d : Device => applyUpd d (.power { d.power with
    atEdge := true, wakeEdges := if d.f R.PWR_STAT.STATE = 1 then d.power.wakeEdges + 1 else d.power.wakeEdges })) h

theorem Tx.showWait_d_congr : t.showWait.d = u.showWait.d :=
  congrArg (fun d : Device => applyUpd d (.fld R.PWR_STAT.WAIT (if d.power.wakeReq && d.f R.PWR_STAT.STATE = 0 then d.wakeMiss else 0))) h

theorem Tx.edge_d_congr (level : Bool) : (t.edge level).d = (u.edge level).d := by
  unfold Tx.edge
  rw [h]
  exact Tx.showWait_d_congr (Tx.edgePower_d_congr (Tx.repeatPulse_d_congr (Tx.soutEdge_d_congr (Tx.modTime_d_congr h _)) _))

end

/-! The command -/

theorem exec_refclkEdge (s : State) (level : Bool) :
    exec (.refclkEdge level) s = .next { s with dev := (effRefclkEdge level (Tx.start s.dev)).d } := by rfl

theorem Device.domOn_congr {d e : Device} (hon : e.f R.PWR_DOM_STAT.ON = d.f R.PWR_DOM_STAT.ON) (hup : e.f R.PWR_TILE_STAT.UP = d.f R.PWR_TILE_STAT.UP)
    (hp : e.power = d.power) (k : Nat) : e.domOn k = d.domOn k := by
  rw [Device.domOn, Device.domOn, hon, hup, hp]

/-- What the loads that are due leave of an edge asleep: it is still asleep, and no load is due any more. -/
theorem Tx.takeSyncs_asleep (t : Tx d0) (hsleep : t.d.b R.TB_STAT.AWAKE = false) :
    t.takeSyncs.d.b R.TB_STAT.AWAKE = false ∧ (∀ k, t.takeSyncs.d.domOn k = t.d.domOn k) ∧ t.takeSyncs.d.syncsDue = [] ∧ t.takeSyncs.d.out = t.d.out := by
  cases hdue : t.d.syncsDue.getLast? with
  | none =>
    have hnil := List.getLast?_eq_none_iff.mp hdue
    rw [t.takeSyncs_none hnil]
    exact ⟨hsleep, fun _ => rfl, hnil, rfl⟩
  | some y =>
    have htake := t.takeSyncs_some hdue
    rw [hsleep, if_neg Bool.false_ne_true] at htake
    have hload := t.syncLoad_spec y.load
    obtain ⟨_, _, _, _, _, hx⟩ := hload.frame
    rw [htake]
    refine ⟨(hload.onlyFields.b (by decide)).trans hsleep, Device.domOn_congr (hload.onlyFields _ (by decide)) (hload.onlyFields _ (by decide)) ?_, ?_, ?_⟩
    · rw [hx]
    · rw [Device.syncsDue, hload.time]
      simp [Timebase.load, List.filter_filter]
    · rw [hx]

/-- A load that falls on the edge comes before it: behind the load, the edge is what it would have been. -/
theorem exec_refclkEdge_of_syncLoad {s u : State} (level : Bool) (hon : s.dev.domOn 0 = true) (hsleep : s.dev.b R.TB_STAT.AWAKE = false)
    (hload : exec .syncLoad s = .next u) : exec (.refclkEdge level) s = exec (.refclkEdge level) u := by
  let t := Tx.start s.dev
  have hu : u = { s with dev := t.takeSyncs.d } := (Host.Outcome.next.inj hload).symm
  obtain ⟨hsleep', hon', hdue, hout⟩ := t.takeSyncs_asleep hsleep
  let v := Tx.start t.takeSyncs.d
  have hv : v.d = t.takeSyncs.d := by
    show ({ t.takeSyncs.d with out := [] } : Device) = _
    rw [show ([] : List Out) = t.takeSyncs.d.out from hout.symm]
  have hvs : v.takeSyncs = v := v.takeSyncs_none (by rw [hv, hdue])
  rw [hu, exec_refclkEdge, exec_refclkEdge, effRefclkEdge_asleep t level hon hsleep',
    effRefclkEdge_asleep v level (by rw [hv, hon']; exact hon) (by rw [hvs, hv]; exact hsleep'), hvs,
    Tx.edge_d_congr (Tx.newClock_d_congr (Tx.startCheck_d_congr hv)) level]

theorem exec_refclkEdge_off (s : State) (level : Bool) (hoff : s.dev.domOn 0 = false) :
    exec (.refclkEdge level) s = .next { s with dev := { s.dev with out := [] } } := by
  have heff : effRefclkEdge level (Tx.start s.dev) = Tx.start s.dev := if_pos (by
    rw [show (Tx.start s.dev).d.domOn 0 = false from hoff]
    rfl)
  rw [exec_refclkEdge, heff]
  rfl

/-- An edge asleep with no load due (R88, R95, R102, R701). -/
theorem exec_refclkEdge_asleep (s : State) (level : Bool) (hon : s.dev.domOn 0 = true) (hsleep : s.dev.b R.TB_STAT.AWAKE = false)
    (hdue : s.dev.syncsDue = []) :
    exec (.refclkEdge level) s = .next { s with dev := ((Tx.start s.dev).startCheck.newClock.edge level).d } := by
  have hvs : (Tx.start s.dev).takeSyncs = Tx.start s.dev := (Tx.start s.dev).takeSyncs_none hdue
  rw [exec_refclkEdge, effRefclkEdge_asleep _ level hon (by rw [hvs]; exact hsleep), hvs]

/-- Settles O14: the edge itself is the same whatever the check of a start has found, and depends on the device alone. -/
theorem refclkEdgeAsleep : Obligations.RefclkEdgeAsleep := by
  refine ⟨fun s u level hon hsleep hload => exec_refclkEdge_of_syncLoad level hon hsleep hload, exec_refclkEdge_off, fun s level hon hsleep hdue => ?_⟩
  let t := Tx.start s.dev
  have hcheck := t.startCheck_spec
  have hedge := t.startCheck.newClock.edge_spec level
  have hexec := exec_refclkEdge_asleep s level hon hsleep hdue
  rw [t.startCheck.newClock_d] at hedge
  obtain ⟨htime, hgen, hpower, hfields, _, _, _, hx⟩ := hedge
  generalize (t.startCheck.newClock.edge level).d = x at htime hgen hpower hfields hx hexec
  obtain ⟨hrun, hrefused, hnoted, honly, _, _, _, _, _, hc⟩ := hcheck
  have hcf : OnlyFields refuseFields t.d t.startCheck.d := honly.mono (by split <;> simp)
  generalize t.startCheck.d = c at htime hgen hpower hfields hx hrun hrefused hnoted honly hcf hc
  have hmode : c.f R.TB_CTL.SOUT_MODE = s.dev.f R.TB_CTL.SOUT_MODE := hcf _ (by decide)
  have hgen0 : c.f R.TB_CTL.SYNC_GEN = s.dev.f R.TB_CTL.SYNC_GEN := hcf _ (by decide)
  have hstate : c.f R.PWR_STAT.STATE = s.dev.f R.PWR_STAT.STATE := hcf _ (by decide)
  have hct : c.time = s.dev.time := by rw [hc]; rfl
  have hcp : c.power = s.dev.power := by rw [hc]; rfl
  have hxf : OnlyFields [R.TB_CTL.SYNC_GEN, R.PWR_STAT.WAIT] c x := hfields
  have hxt : x.time = { c.time.edge level with
      sout := c.time.sout || c.time.soutNext, soutNext := (level && !c.time.syncIn) && c.f R.TB_CTL.SOUT_MODE == 1
      soutLeft := if c.time.soutNext then 4 else c.time.soutLeft - 1 } := htime
  have hxg : x.f R.TB_CTL.SYNC_GEN = if c.time.soutNext then 0 else c.f R.TB_CTL.SYNC_GEN := hgen
  have hxp : x.power = { c.power with
      atEdge := true, wakeEdges := if c.f R.PWR_STAT.STATE = 1 then c.power.wakeEdges + 1 else c.power.wakeEdges } := hpower
  rw [hct, hmode] at hxt
  rw [hct, hgen0] at hxg
  rw [hcp, hstate] at hxp
  refine ⟨_, hexec, hxt, hxg, hxp, ?_, fun hr => ?_, fun hr => ?_, ?_, ?_⟩
  · rw [hx]
    dsimp only
    rw [hrun]
    rfl
  · obtain ⟨hpend, href, hcode⟩ := hrefused hr
    refine ⟨congrArg (· == 1) ((hxf _ (by decide)).trans hpend), (hxf _ (by decide)).trans href, (hxf _ (by decide)).trans hcode⟩
  · obtain ⟨houts, hpba⟩ := hnoted hr
    rw [hx]
    exact ⟨houts, hpba⟩
  · exact (honly.trans hxf).mono (by
      intro F hF
      rw [List.mem_append] at hF ⊢
      exact hF.symm)
  · rw [hx, hc]
    rfl

end Sys2Proof.Machine
end

section
/-! SUPPORT. What the parts of a timebase fault leave alone (R107 to R109). -/
namespace Sys2Proof.Machine

variable {d0 : Device}

/-! The relation -/

/-- The fields below the port and tile blocks that the parts of a timebase fault keep, but for those that a part is said to write. -/
def restFlds : List Fld :=
  [R.TB_STAT.REF_LOST, R.TB_STAT.REF_OK, R.TB_STAT.SYNCED, R.TB_STAT.AWAKE, R.TB_STAT.LOCKED, R.PWR_STAT.STATE, R.GLB_RUN_STAT.RUNNING,
    R.CAL_STAT.FG_BUSY, R.CAL_REQ_STAT.RESULT, R.PWR_DOM_STAT.ON, R.PWR_TILE_STAT.UP]

/-- From `d` to `e` the timebase, the fields above but for those in `out`, a port out of service, a clamp with reason FAULT and an engine that is over
are kept. STATE FAULT is kept and entered with code 8 alone: by every engine where `strict`, else by every engine that is over. -/
structure Rest (strict : Bool) (out : List Fld) (d e : Device) : Prop where
  time : e.time = d.time
  reset : e.power.reset = d.power.reset
  ended : e.run.ended = d.run.ended
  fld : ∀ F ∈ restFlds, F ∉ out → e.f F = d.f F
  port : ∀ p < 9, d.f (R.FAB_PORT_STAT.IN_SERVICE p) = 0 → e.f (R.FAB_PORT_STAT.IN_SERVICE p) = 0
  clamp : ∀ k, (d.clampOf k).testBit 1 = true → (e.clampOf k).testBit 1 = true
  dead : ∀ k, (d.eng k).live = false → (e.eng k).live = false
  stays : ∀ k, strict = true ∨ (d.eng k).live = false → d.f (R.SCH_STAT.STATE k) = 3 → e.f (R.SCH_STAT.STATE k) = 3
  fresh : ∀ k, strict = true ∨ (d.eng k).live = false → e.f (R.SCH_STAT.STATE k) = 3 →
    e.f (R.SCH_STAT.FAULT k) = 8 ∨ d.f (R.SCH_STAT.STATE k) = 3 ∧ e.f (R.SCH_STAT.FAULT k) = d.f (R.SCH_STAT.FAULT k)

/-- A write of the field is no write of a field that the relation speaks of. -/
structure Apart (F : Fld) : Prop where
  fld : ∀ G ∈ restFlds, G.key ≠ F.key
  port : ∀ p < 9, (R.FAB_PORT_STAT.IN_SERVICE p).key ≠ F.key
  state : ∀ k, (R.SCH_STAT.STATE k).key ≠ F.key
  fault : ∀ k, (R.SCH_STAT.FAULT k).key ≠ F.key

theorem restFlds_low : ∀ G ∈ restFlds, G.key < 32 * 0x10120 := by decide

theorem restFlds_inj : ∀ G ∈ restFlds, ∀ F ∈ restFlds, G.key = F.key → G = F := by decide

/-- The key of a tile register at `o` in its block is none of an engine's STATE or FAULT. -/
def restPlace (o lo : Nat) : Bool := o < 0x20000 && lo < 32 && !((o == 0x2000 || o == 0x2040) && (lo == 30 || lo == 24))

theorem Apart.of_place {F : Fld} (h : 0x100000 ≤ F.off) (hp : restPlace (F.off % 0x20000) F.lo = true) : Apart F := by
  simp only [restPlace, Bool.and_eq_true, Bool.not_eq_true', Bool.and_eq_false_iff, Bool.or_eq_false_iff, decide_eq_true_eq, beq_eq_false_iff_ne] at hp
  refine ⟨fun G hG => ?_, fun p hp => ?_, fun k => ?_, fun k => ?_⟩
  · have := restFlds_low G hG
    simp only [Fld.key] at this ⊢
    omega
  · simp only [Fld.key, R.FAB_PORT_STAT.IN_SERVICE]
    omega
  · simp only [Fld.key, R.SCH_STAT.STATE, tileOff]
    omega
  · simp only [Fld.key, R.SCH_STAT.FAULT, tileOff]
    omega

/-- A replicated register of the tile blocks (R696). -/
theorem Apart.tile {per base stride lo : Nat} (h : 0 < per ∧ (List.range per).all (fun j => restPlace (base + stride * j) lo) = true)
    {i hi : Nat} {acc : Acc} {rst : Nat} : Apart ⟨tileOff per base stride i, hi, lo, acc, rst⟩ := by
  obtain ⟨hper, h⟩ := h
  have hplace : restPlace (base + stride * (i % per)) lo = true := List.all_eq_true.mp h _ (List.mem_range.mpr (Nat.mod_lt i hper))
  have hlt : base + stride * (i % per) < 0x20000 := by
    simp only [restPlace, Bool.and_eq_true, decide_eq_true_eq] at hplace
    exact hplace.1.1
  have hmod : tileOff per base stride i % 0x20000 = base + stride * (i % per) := by
    simp only [tileOff]
    omega
  exact .of_place (by simp only [tileOff]; omega) (by rw [hmod]; exact hplace)

/-- A register that a tile block holds once. -/
theorem Apart.tileReg {base lo : Nat} (h : 0x100000 ≤ base ∧ restPlace (base % 0x20000) lo = true)
    {i hi : Nat} {acc : Acc} {rst : Nat} : Apart ⟨base + 0x20000 * i, hi, lo, acc, rst⟩ := by
  obtain ⟨hb, h⟩ := h
  have hmod : (base + 0x20000 * i) % 0x20000 = base % 0x20000 := by omega
  exact .of_place (by dsimp only; omega) (by rw [hmod]; exact h)

/-- A register below the port blocks, at an offset that a bound on the replica gives. -/
theorem Apart.below {F : Fld} (hF : ∀ G ∈ restFlds, G.key ≠ F.key) (h : F.key < 32 * 0x40100) : Apart F := by
  refine ⟨hF, fun p _ => ?_, fun k => ?_, fun k => ?_⟩
  · simp only [Fld.key, R.FAB_PORT_STAT.IN_SERVICE] at h ⊢
    omega
  · simp only [Fld.key, R.SCH_STAT.STATE, tileOff] at h ⊢
    omega
  · simp only [Fld.key, R.SCH_STAT.FAULT, tileOff] at h ⊢
    omega

theorem Apart.low {F : Fld} (h : (restFlds.all (fun G => G.key != F.key) && decide (F.key < 32 * 0x40100)) = true) : Apart F := by
  simp only [Bool.and_eq_true, List.all_eq_true, bne_iff_ne, decide_eq_true_eq] at h
  exact .below h.1 h.2

/-- A register of the Keep (chapter 19). -/
theorem Apart.keep {F : Fld} (h : (decide (0x100000 ≤ F.off) && restPlace (F.off % 0x20000) F.lo) = true) : Apart F := by
  simp only [Bool.and_eq_true, decide_eq_true_eq] at h
  exact .of_place h.1 h.2

/-- A register above the domain blocks whose field begins at no bit where those of ports and engines begin. -/
theorem Apart.of_lo {F : Fld} (h : 0x10120 ≤ F.off) (hlo : F.lo < 32) (h30 : F.lo ≠ 30) (h24 : F.lo ≠ 24) : Apart F := by
  refine ⟨fun G hG => ?_, fun p hp => ?_, fun k => ?_, fun k => ?_⟩
  · have := restFlds_low G hG
    simp only [Fld.key] at this ⊢
    omega
  · simp only [Fld.key, R.FAB_PORT_STAT.IN_SERVICE]
    omega
  · simp only [Fld.key, R.SCH_STAT.STATE, tileOff]
    omega
  · simp only [Fld.key, R.SCH_STAT.FAULT, tileOff]
    omega

/-- A register of a stream slot: no register above lies at its place in the slot's block. -/
theorem Apart.strm {off lo : Nat} (h : off % 0x20 = 0x14 ∧ lo = 0 ∨ off % 0x20 = 0xc ∧ lo = 8 ∨ off % 0x20 = 0x18 ∧ lo = 0) {hi : Nat} {acc : Acc} {rst : Nat} :
    Apart ⟨off, hi, lo, acc, rst⟩ := by
  refine ⟨fun G hG => ?_, fun p hp => ?_, fun k => ?_, fun k => ?_⟩
  · simp only [restFlds, List.mem_cons, List.not_mem_nil, or_false] at hG
    rcases hG with rfl | rfl | rfl | rfl | rfl | rfl | rfl | rfl | rfl | rfl | rfl <;>
      simp only [Fld.key, R.TB_STAT.REF_LOST, R.TB_STAT.REF_OK, R.TB_STAT.SYNCED, R.TB_STAT.AWAKE, R.TB_STAT.LOCKED, R.PWR_STAT.STATE,
        R.GLB_RUN_STAT.RUNNING, R.CAL_STAT.FG_BUSY, R.CAL_REQ_STAT.RESULT, R.PWR_DOM_STAT.ON, R.PWR_TILE_STAT.UP] <;> omega
  · simp only [Fld.key, R.FAB_PORT_STAT.IN_SERVICE]
    omega
  · simp only [Fld.key, R.SCH_STAT.STATE, tileOff]
    omega
  · simp only [Fld.key, R.SCH_STAT.FAULT, tileOff]
    omega

/-- An update of no piece that the relation speaks of, and of no register. -/
def Upd.rests (u : Upd) : Bool := !u.setsRegs && [Piece.time, .power, .run, .clamps, .engines].all (fun p => !u.hits p)

theorem Device.clampOf_congr {d e : Device} (h : Same d e .clamps) : e.clampOf = d.clampOf := by
  funext k
  rw [Device.clampOf, Device.clampOf, show e.clamps = d.clamps from h]

theorem Device.eng_congr {d e : Device} (h : Same d e .engines) : e.eng = d.eng := by
  funext k
  rw [Device.eng, Device.eng, show e.engines = d.engines from h]

/-- What keeps the pieces and the fields that the relation speaks of. -/
theorem Rest.of_same {strict : Bool} {out : List Fld} {d e : Device} (hp : ∀ p ∈ [Piece.time, .power, .run, .clamps, .engines], Same d e p)
    (hf : ∀ F ∈ restFlds, F ∉ out → e.f F = d.f F) (hport : ∀ p < 9, d.f (R.FAB_PORT_STAT.IN_SERVICE p) = 0 → e.f (R.FAB_PORT_STAT.IN_SERVICE p) = 0)
    (hstate : ∀ k, e.f (R.SCH_STAT.STATE k) = d.f (R.SCH_STAT.STATE k)) (hfault : ∀ k, e.f (R.SCH_STAT.FAULT k) = d.f (R.SCH_STAT.FAULT k)) :
    Rest strict out d e where
  time := hp .time (by simp)
  reset := congrArg Power.reset (show e.power = d.power from hp .power (by simp))
  ended := congrArg RunSt.ended (show e.run = d.run from hp .run (by simp))
  fld := hf
  port := hport
  clamp k hk := by rw [Device.clampOf_congr (hp .clamps (by simp))]; exact hk
  dead k hk := by rw [Device.eng_congr (hp .engines (by simp))]; exact hk
  stays k _ hk := (hstate k).trans hk
  fresh k _ hk := .inr ⟨(hstate k).symm.trans hk, hfault k⟩

namespace Rest

theorem refl (strict : Bool) (out : List Fld) (d : Device) : Rest strict out d d :=
  of_same (fun p _ => by cases p <;> rfl) (fun _ _ _ => rfl) (fun _ _ h => h) (fun _ => rfl) fun _ => rfl

theorem trans {strict : Bool} {out : List Fld} {d e g : Device} (h : Rest strict out d e) (h' : Rest strict out e g) : Rest strict out d g where
  time := h'.time.trans h.time
  reset := h'.reset.trans h.reset
  ended := h'.ended.trans h.ended
  fld F hF ho := (h'.fld F hF ho).trans (h.fld F hF ho)
  port p hp h0 := h'.port p hp (h.port p hp h0)
  clamp k hk := h'.clamp k (h.clamp k hk)
  dead k hk := h'.dead k (h.dead k hk)
  stays k hk h3 := h'.stays k (hk.imp id (h.dead k)) (h.stays k hk h3)
  fresh k hk h3 := by
    rcases h'.fresh k (hk.imp id (h.dead k)) h3 with h8 | ⟨he, hf⟩
    · exact .inl h8
    · rcases h.fresh k hk he with h8 | ⟨hd, hg⟩
      · exact .inl (hf.trans h8)
      · exact .inr ⟨hd, hf.trans hg⟩

/-- Less is kept where more may be written. -/
theorem mono {strict : Bool} {out out' : List Fld} {d e : Device} (h : Rest strict out d e) (hs : out ⊆ out') : Rest strict out' d e :=
  { h with fld := fun F hF ho => h.fld F hF fun hm => ho (hs hm) }

theorem relax {strict : Bool} {out : List Fld} {d e : Device} (h : Rest true out d e) : Rest strict out d e :=
  { h with stays := fun k _ => h.stays k (.inl rfl), fresh := fun k _ => h.fresh k (.inl rfl) }

theorem now {strict : Bool} {d e : Device} (h : Rest strict [] d e) : e.now = d.now :=
  Device.now_congr (congrArg (· == 1) (h.fld R.TB_STAT.AWAKE (by decide) (by simp))) h.time

theorem tileOn {strict : Bool} {d e : Device} (h : Rest strict [] d e) : e.tileOn = d.tileOn := by
  funext k
  rw [Device.tileOn, Device.tileOn, Device.domOn, Device.domOn, h.fld R.PWR_DOM_STAT.ON (by decide) (by simp), h.reset,
    h.fld R.PWR_TILE_STAT.UP (by decide) (by simp)]

/-! Primitive operations -/

section
variable {strict : Bool} {out : List Fld} {d : Device} {t : Tx d0} (h : Rest strict out d t.d)
include h

theorem upd {u : Upd} (hu : u.rests = true) : Rest strict out d (t.upd u).d := by
  simp only [Upd.rests, Bool.and_eq_true, Bool.not_eq_true', List.all_eq_true] at hu
  obtain ⟨hregs, hpieces⟩ := hu
  have hf : ∀ F, (t.upd u).d.f F = t.d.f F := fun F => applyUpd_f t.d u F (by simp [hregs])
  exact h.trans (of_same (fun p hp => applyUpd_same t.d u p (by simp [hpieces p hp])) (fun F _ _ => hf F) (fun p _ h0 => (hf _).trans h0)
    (fun k => hf _) fun k => hf _)

theorem w {F : Fld} (hF : Apart F) (v : Nat) : Rest strict out d (t.w F v).d :=
  h.trans (of_same (fun p _ => (t.w_regsOnly F v).same p) (fun G hG _ => t.w_f_other F G v (hF.fld G hG))
    (fun p hp h0 => (t.w_f_other F _ v (hF.port p hp)).trans h0) (fun k => t.w_f_other F _ v (hF.state k)) fun k => t.w_f_other F _ v (hF.fault k))

theorem wb {F : Fld} (hF : Apart F) (v : Bool) : Rest strict out d (t.wb F v).d := h.w hF _

theorem w64 {L H : Fld} (hL : Apart L) (hH : Apart H) (v : Nat) : Rest strict out d (t.w64 L H v).d := (h.w hL _).w hH _

theorem add {F : Fld} (hF : Apart F) (n : Nat) : Rest strict out d (t.add F n).d := h.w hF _

theorem inc {F : Fld} (hF : Apart F) : Rest strict out d (t.inc F).d := h.w hF _

theorem ev {F : Fld} (hF : Apart F) : Rest strict out d (t.ev F).d := by
  refine h.trans (of_same (fun p hp => t.ev_same F p ?_ ?_) (fun G hG _ => t.ev_f_other F G (hF.fld G hG))
    (fun p hp h0 => (t.ev_f_other F _ (hF.port p hp)).trans h0) (fun k => t.ev_f_other F _ (hF.state k)) fun k => t.ev_f_other F _ (hF.fault k))
  · rintro rfl
    exact absurd hp (by decide)
  · rintro rfl
    exact absurd hp (by decide)

/-- A write of a field that the part is said to write. -/
theorem wOut {F : Fld} (hF : F ∈ restFlds) (ho : F ∈ out) (v : Nat) : Rest strict out d (t.w F v).d := by
  have hlow := restFlds_low F hF
  refine h.trans (of_same (fun p _ => (t.w_regsOnly F v).same p) (fun G hG hGo => t.w_f_other F G v fun hk => hGo (restFlds_inj G hG F hF hk ▸ ho))
    (fun p hp h0 => (t.w_f_other F _ v ?_).trans h0) (fun k => t.w_f_other F _ v ?_) fun k => t.w_f_other F _ v ?_)
  · simp only [Fld.key, R.FAB_PORT_STAT.IN_SERVICE] at hlow ⊢
    omega
  · simp only [Fld.key, R.SCH_STAT.STATE, tileOff] at hlow ⊢
    omega
  · simp only [Fld.key, R.SCH_STAT.FAULT, tileOff] at hlow ⊢
    omega

omit h in
theorem ite {c : Prop} [Decidable c] {x y : Tx d0} (hx : Rest strict out d x.d) (hy : Rest strict out d y.d) :
    Rest strict out d (if c then x else y).d := by
  split
  · exact hx
  · exact hy

theorem each {α : Type} (l : List α) {g : α → Tx d0 → Tx d0} (hg : ∀ a ∈ l, ∀ u : Tx d0, Rest strict out d u.d → Rest strict out d (g a u).d) :
    Rest strict out d (t.each l g).d := Tx.each_keeps (fun u => Rest strict out d u.d) t l g h hg

/-- An engine is put where it is over, or was not. -/
theorem engine {e : Nat} {x : Engine} (hx : (t.d.eng e).live = false → x.live = false) : Rest strict out d (t.upd (.engine e x)).d := by
  have hu : ∀ p, p ≠ .engines → Same t.d (t.upd (.engine e x)).d p := fun p hp => applyUpd_same t.d _ p (by simpa [Upd.hits] using hp)
  refine h.trans ⟨hu .time (by simp), congrArg Power.reset (hu .power (by simp)), congrArg RunSt.ended (hu .run (by simp)), fun _ _ _ => rfl,
    fun _ _ h0 => h0, fun k hk => ?_, fun k hk => ?_, fun _ _ h3 => h3, fun _ _ h3 => .inr ⟨h3, rfl⟩⟩
  · rw [Device.clampOf_congr (hu .clamps (by simp))]
    exact hk
  · rw [Device.eng, Tx.upd_d, applyUpd_engine_eq, bget_bset]
    split
    · next hke => exact hx (hke ▸ hk)
    · exact hk

theorem modEng (e : Nat) {g : Engine → Engine} (hg : (t.d.eng e).live = false → (g (t.d.eng e)).live = false) : Rest strict out d (t.modEng e g).d := h.engine hg

end

end Rest

end Sys2Proof.Machine
end

section
/-! SUPPORT. What the operations that a timebase fault and the end of a run are made of leave alone. -/
namespace Sys2Proof.Machine.Rest

variable {d0 : Device} {strict : Bool} {out : List Fld} {d : Device} {t : Tx d0} (h : Rest strict out d t.d)

theorem clampBits (m : Nat) : (0xFF - 32 * (m &&& 6)).testBit 1 = true := by
  have hm : m &&& 6 ≤ 6 := Nat.and_le_right
  interval_cases m &&& 6 <;> rfl

theorem eachUnless {c : Prop} [Decidable c] {x : Tx d0} (hx : Rest strict out d x.d) {α : Type} (l : List α) {g : α → Tx d0 → Tx d0}
    (hg : ∀ a ∈ l, ∀ u : Tx d0, Rest strict out d u.d → Rest strict out d (g a u).d) : Rest strict out d (if c then x else x.each l g).d :=
  .ite hx (hx.each l hg)

include h

/-! Outputs -/

theorem clampWord {k w : Nat} (hw : (t.d.clampOf k).testBit 1 = true → w.testBit 1 = true) : Rest strict out d (t.upd (.clamp k w)).d := by
  have hu : ∀ p, p ≠ .clamps → Same t.d (t.upd (.clamp k w)).d p := fun p hp => applyUpd_same t.d _ p (by simpa [Upd.hits] using hp)
  refine h.trans ⟨hu .time (by simp), congrArg Power.reset (hu .power (by simp)), congrArg RunSt.ended (hu .run (by simp)), fun _ _ _ => rfl,
    fun _ _ h0 => h0, fun j hj => ?_, fun j hj => ?_, fun _ _ h3 => h3, fun _ _ h3 => .inr ⟨h3, rfl⟩⟩
  · rw [Device.clampOf, Tx.upd_d, applyUpd_clamp_eq, bget_bset]
    split
    · next hjk => exact hw (hjk ▸ hj)
    · exact hj
  · rw [Device.eng_congr (hu .engines (by simp))]
    exact hj

omit h in
/-- What shows a clamp word keeps all. -/
theorem showClamp {k w : Nat} (hc : Rest strict out d (t.upd (.clamp k w)).d) : Rest strict out d (t.setClamp k w).d :=
  .ite hc (.ite ((((Rest.ite hc (hc.upd (by rfl))).wb (.tile (by decide)) _).w (.tile (by decide)) _).wb (.tile (by decide)) _) (hc.wb (.tileReg (by decide)) _))

theorem setClamp {k w : Nat} (hw : (t.d.clampOf k).testBit 1 = true → w.testBit 1 = true) : Rest strict out d (t.setClamp k w).d := (h.clampWord hw).showClamp

theorem clampAdd (k mask : Nat) : Rest strict out d (t.clampAdd k mask).d :=
  h.setClamp fun hk => by rw [Nat.testBit_and, Nat.testBit_or, hk, clampBits]; rfl

theorem clampAll (mask : Nat) : Rest strict out d (t.clampAll mask).d := h.each _ fun k _ _ hu => hu.clampAdd k mask

theorem loadCode (c code : Nat) : Rest strict out d (t.loadCode c code).d := (Rest.ite h (h.upd (by rfl))).w (.tile (by decide)) _

theorem emptyHeld (c : Nat) : Rest strict out d (t.emptyHeld c).d := (h.w (.tile (by decide)) 0).w (.tile (by decide)) 0

theorem dropHeld (c : Nat) : Rest strict out d (t.dropHeld c).d := .ite (((h.emptyHeld c).ev (.tile (by decide))).ev (.tileReg (by decide))) h

theorem dropTileHeld (tl : Nat) : Rest strict out d (t.dropTileHeld tl).d := h.each _ fun _ _ _ hu => hu.dropHeld _

theorem idleFlux (tl : Nat) : Rest strict out d (t.idleFlux tl).d := h.each _ fun _ _ _ hu => .ite hu (hu.loadCode _ _)

theorem markNow (tl : Nat) (v : Bool) : Rest strict out d (t.markNow tl v).d := by
  have hlevel := h.wb (F := R.FLX_MARK.LEVEL tl) (.tileReg (by decide)) v
  have hstretch := h.ev (F := R.FLX_EVT.MARK_STRETCH tl) (.tileReg (by decide))
  unfold Tx.markNow Tx.when
  exact .ite (h.upd (by rfl)) (.ite ((Rest.ite (hlevel.inc (.tileReg (by decide))) hlevel).upd (by rfl)) (hstretch.upd (by rfl)))

theorem idleTile (tl : Nat) : Rest strict out d (t.idleTile tl).d := (h.idleFlux tl).markNow tl _

theorem freeMixer (m : Nat) : Rest strict out d (t.freeMixer m).d :=
  .ite (((h.wb (F := R.NCO_MIX_STAT.BUSY m) (.tile (by decide)) false).upd (by rfl)).w (.tile (by decide)) _) h

theorem muteTile (tl : Nat) : Rest strict out d (t.muteTile tl).d :=
  (h.each (List.range 5) (g := fun i t => t.clampAdd (5 * tl + i) 0x20) fun _ _ _ hu => hu.clampAdd _ _).each _ fun _ _ _ hu => hu.freeMixer _

theorem ripenHeld : Rest strict out d t.ripenHeld.d := h.each _ fun _ _ _ hu => .ite (hu.upd (by rfl)) hu

/-! Readout windows, captures and shots -/

theorem modTile (n : Nat) (g : Tile → Tile) : Rest strict out d (t.modTile n g).d := h.upd (by rfl)

theorem closeWin (n E : Nat) (cut : Bool) (flags : Nat) : Rest strict out d (t.closeWin n E cut flags).d := by
  unfold Tx.closeWin
  split
  · exact h
  · exact ((((h.upd (by rfl) (u := .win n none))).wb (.tile (by decide)) _).w (.tile (by decide)) _).modTile _ _

theorem modShot (tl id att : Nat) (g : Shot → Shot) : Rest strict out d (t.modShot tl id att g).d := h.modTile _ _

theorem tryReady (tl : Nat) : Rest strict out d (t.tryReady tl).d := h.each _ fun _ _ _ hu => ((hu.modShot _ _ _ _).upd (by rfl))

theorem closeShot (tl : Nat) : Rest strict out d (t.closeShot tl).d := by
  unfold Tx.closeShot
  split
  · exact h
  · exact (h.modShot _ _ _ _).tryReady tl

theorem showCap (tl : Nat) : Rest strict out d (t.showCap tl).d := by
  unfold Tx.showCap
  split
  · exact h.w (.tileReg (by decide)) 0
  · exact (h.w (.tileReg (by decide)) _).w (.tileReg (by decide)) _

theorem noteBusy (tl : Nat) : Rest strict out d (t.noteBusy tl).d := by
  unfold Tx.noteBusy
  split
  · exact h
  · exact .ite (h.modTile _ _) h

theorem capOver (tl : Nat) : Rest strict out d (t.capOver tl).d := ((h.noteBusy tl).modTile _ _).showCap tl

theorem segDone (tl : Nat) : Rest strict out d (t.segDone tl).d := by
  unfold Tx.segDone
  split
  · exact h
  · exact h.modTile _ _

theorem capShotEnd (tl : Nat) : Rest strict out d (t.capShotEnd tl).d := by
  unfold Tx.capShotEnd
  split
  · exact h
  · exact (Rest.ite (h.segDone tl) (.ite (h.modTile _ _) h)).capOver tl

theorem showRec (tl : Nat) : Rest strict out d (t.showRec tl).d := by
  have hfree := h.w (F := R.ACQ_RECMEM.FREE tl) (.tileReg (by decide)) (16384 - (t.d.tile tl).usedLines)
  exact .ite (hfree.w (.tileReg (by decide)) _) hfree

/-! Writes of lines, and the shot records -/

theorem wrote (l : Nat) : Rest strict out d (t.wrote l).d := .ite (h.upd (by rfl)) h

theorem showLog : Rest strict out d t.showLog.d := by
  refine Rest.w64 (Rest.w (Rest.w (Rest.w (Rest.w (Rest.w (Rest.w (Rest.w (Rest.w (Rest.wb (h.w ?_ _) ?_ _) ?_ _) ?_ _) ?_ _) ?_ _) ?_ _) ?_ _) ?_ _) ?_ _) ?_ ?_ _ <;>
    exact .low (by decide)

theorem overwritten (l : Nat) : Rest strict out d (t.overwritten l).d := by
  unfold Tx.overwritten
  split
  · exact h
  · exact .ite (h.upd (by rfl)).showLog h

theorem writeIn (a : Nat) (bs : List Byte) : Rest strict out d (t.writeIn a bs).d :=
  (((Rest.ite ((h.wrote (a / 64)).upd (by rfl)) (h.wrote (a / 64))).each _ fun _ _ _ hu => (hu.upd (by rfl))).upd (by rfl))

theorem writeLine (l : Nat) (bs : List Byte) : Rest strict out d (t.writeLine l bs).d := (((h.overwritten l).wrote l).upd (by rfl))

theorem writePart (a : Nat) (bs : List Byte) : Rest strict out d (t.writePart a bs).d := .ite h (.ite (h.writeLine _ _) (h.writeIn _ _))

theorem writeBytes (a : Nat) (bs : List Byte) : Rest strict out d (t.writeBytes a bs).d :=
  (h.writePart _ _).each _ fun _ _ _ hu => hu.writePart _ _

theorem putHeader (tl id att : Nat) : Rest strict out d (t.putHeader tl id att).d := by
  unfold Tx.putHeader
  split
  · exact h
  · exact (h.writeBytes _ _).writeBytes _ _

theorem flagTile (tl mask : Nat) : Rest strict out d (t.flagTile tl mask).d := .ite h (h.upd (by rfl))

theorem flagShot (tl id att mask : Nat) : Rest strict out d (t.flagShot tl id att mask).d := by
  unfold Tx.flagShot
  split
  · exact h
  · refine (Rest.putHeader (eachUnless ((h.modShot _ _ _ _).each _ ?_) _ ?_) tl id att).flagTile tl mask
    · exact fun _ _ _ hu => hu.writeBytes _ _
    · exact fun _ _ _ hu => (hu.writeBytes _ _).writeBytes _ _

theorem voidShots : Rest strict out d t.voidShots.d := by
  refine h.each _ fun tl _ u hu => ?_
  split
  · exact hu
  · exact hu.flagShot _ _ _ _

/-! The Keep -/

theorem showQueue : Rest strict out d t.showQueue.d := .ite (h.w (.keep (by decide)) _) h

theorem fault (code detail : Nat) : Rest strict out d (t.fault code detail).d := by
  refine .ite (Rest.showQueue (h.upd (by rfl))) ((Rest.inc ?_ (.keep (by decide))).ev (.keep (by decide)))
  split
  · exact h.upd (by rfl)
  · exact h

theorem checkLive (cls key : Nat) : Rest strict out d (t.checkLive cls key).d := .ite ((h.ev (.keep (by decide))).fault _ _) h

theorem stageAny (cls key : Nat) (body : List Byte) : Rest strict out d (t.stageAny cls key body).d := by
  unfold Tx.stageAny Tx.stage
  dsimp only
  split
  · exact h
  · split
    · exact h.upd (by rfl)
    · split
      · exact h
      · exact Rest.showQueue (h.upd (by rfl))

theorem putTwinRec (attaches takeovers : Nat) : Rest strict out d (t.putTwinRec attaches takeovers).d :=
  (Rest.ite ((h.checkLive 5 0).ev (F := R.TWIN_EVT.PEER_CHANGED) (.low (by decide))) (h.checkLive 5 0)).stageAny _ _ _

/-! Engines -/

theorem raise (e code arg : Nat) : Rest strict out d (t.raise e code arg).d := .ite (.ite (h.upd (by rfl)) h) (.ite h (h.upd (by rfl)))

theorem dropShakes (e : Nat) : Rest strict out d (t.dropShakes e).d := h.upd (by rfl)

theorem quadFault (q : Nat) : Rest strict out d (t.quadFault q).d := .ite (h.w (.low (by decide)) _) h

theorem watchClamp (mask : Nat) : Rest strict out d (t.watchClamp mask).d :=
  (h.clampAll mask).each _ fun _ _ _ hu => .ite (hu.raise _ _ _) hu

/-! The image, the streams and the twin -/

theorem heldCommit : Rest strict out d t.heldCommit.d :=
  .ite ((h.wb (F := R.GLB_IMG_STAT.COMMIT_HELD) (.low (by decide)) false).w (F := R.GLB_IMG_STAT.LOAD_STATE) (.low (by decide)) 3) h

theorem streamsAtEnd : Rest strict out d t.streamsAtEnd.d := by
  refine h.each _ fun s _ u hu => ?_
  dsimp only
  split
  · exact .ite (hu.upd (by rfl)) hu
  · exact hu

theorem doneS {F : Fld} (hF : Apart F) : Rest strict out d (t.doneS F).d := .ite h (h.wb hF false)

theorem drive (sel : Nat) : Rest strict out d (t.drive sel).d := h.w (.low (by decide)) _

theorem showQok : Rest strict out d t.showQok.d := h.w (.low (by decide)) _

theorem showPorts : Rest strict out d t.showPorts.d := ((h.wb (.low (by decide)) _).wb (.low (by decide)) _).wb (.low (by decide)) _

theorem showWait : Rest strict out d t.showWait.d := h.w (.low (by decide)) _

theorem attachStart : Rest strict out d t.attachStart.d :=
  (((((h.upd (by rfl)).doneS (F := R.TWIN_CTL.ATTACH) (.low (by decide))).w (F := R.TWIN_STAT.STATE) (.low (by decide)) 1).w
    (F := R.TWIN_STAT.ROLE) (.low (by decide)) _).drive _).showQok

theorem toSolo : Rest strict out d t.toSolo.d := by
  have hclaim := h.each t.d.twin.claim.toList (g := fun c t => t.w R.TWIN_CTL.CLAIM c) fun c _ u hu => hu.w (.low (by decide)) c
  exact ((((hclaim.upd (by rfl)).w (F := R.TWIN_STAT.STATE) (.low (by decide)) 0).w (F := R.TWIN_STAT.ROLE) (.low (by decide)) 0).drive _).showQok

theorem modTwin (g : Twin → Twin) : Rest strict out d (t.modTwin g).d := h.upd (by rfl)

theorem detach : Rest strict out d t.detach.d := by
  have hasked := ((h.doneS (F := R.TWIN_CTL.DETACH) (.low (by decide))).modTwin (fun x => { x with absent := false })).showPorts
  refine .ite hasked ?_
  exact Rest.showPorts ((Rest.toSolo (.ite ((hasked.drive 0).w (F := R.TWIN_CTL.CLAIM) (.low (by decide)) 0) (hasked.w (.low (by decide)) _))).ev
    (F := R.TWIN_EVT.DETACHED) (.low (by decide)))

theorem twinAsked : Rest strict out d t.twinAsked.d := by
  have hdetach : Rest strict out d (if t.b R.TWIN_CTL.DETACH then t.detach else t).d := .ite h.detach h
  exact .ite h (.ite hdetach.attachStart hdetach)

end Sys2Proof.Machine.Rest
end

section
/-! SUPPORT. What calibrations, self-tests and ports leave alone as they stop. -/
namespace Sys2Proof.Machine.Rest

variable {d0 : Device} {strict : Bool} {out : List Fld} {d : Device} {t : Tx d0} (h : Rest strict out d t.d)
include h

/-! ECC -/

theorem logEcc (kind src l syn pos act : Nat) : Rest strict out d (t.logEcc kind src l syn pos act).d := by
  unfold Tx.logEcc
  split
  · exact h
  · exact .ite (h.ev (.low (by decide))) (Rest.showLog (h.upd (by rfl)))

theorem tagLine (l kind : Nat) : Rest strict out d (t.tagLine l kind).d := .ite (h.upd (by rfl)) h

omit h in
/-- A counter of a class of lines. -/
theorem apart_eccCnt {k hi lo : Nat} (hlo : lo = 0 ∨ lo = 16) {acc : Acc} {rst : Nat} : Apart ⟨0x20020 + 0x4 * k, hi, lo, acc, rst⟩ := by
  rcases hlo with rfl | rfl <;> exact .of_lo (by dsimp only; omega) (by simp) (by simp) (by simp)

theorem uncorrectable (cls l src act : Nat) (ue : Nat × Nat) : Rest strict out d (t.uncorrectable cls l src act ue).d :=
  Rest.logEcc ((h.tagLine l 1).inc (apart_eccCnt (.inl rfl))) _ _ _ _ _ _

theorem corrected (cls l : Nat) : Rest strict out d (t.corrected cls l).d := by
  unfold Tx.corrected
  split
  · exact h
  · exact Rest.upd ((h.add (apart_eccCnt (.inr rfl)) _).ev (.low (by decide))) (by rfl)

theorem readLine (l src act : Nat) : Rest strict out d (t.readLine l src act).d := by
  unfold Tx.readLine
  split
  · exact h
  · next cls _ _ _ =>
    have hcor := h.corrected cls l
    dsimp only
    split
    · exact h.ev (.low (by decide))
    · split
      · exact .ite hcor ((hcor.logEcc _ _ _ _ _ _).ev (.low (by decide)))
      · exact Rest.ev (.ite (hcor.uncorrectable _ _ _ _ _) (.ite (hcor.logEcc _ _ _ _ _ _) ((hcor.logEcc _ _ _ _ _ _).uncorrectable _ _ _ _ _))) (.low (by decide))

/-! Calibrations -/

theorem modCalib (g : Calib → Calib) : Rest strict out d (t.modCalib g).d := h.upd (by rfl)

theorem modCalPath (n : Nat) (g : CalPath → CalPath) : Rest strict out d (t.modCalPath n g).d := h.upd (by rfl)

theorem calPend (cls path : Nat) : Rest strict out d (t.calPend cls path).d := h.modCalPath _ _

theorem writeCoef (a n : Nat) : Rest strict out d (t.writeCoef a n).d := (((h.upd (by rfl) (u := .coef (coefLines a n) t.d.coefData))).upd (by rfl))

theorem dropSteps (p : Nat × Nat × Nat → Bool) : Rest strict out d (t.dropSteps p).d := by
  refine (h.modCalib _).each _ fun s _ u hu => ?_
  have htile : Rest strict out d (if s.1 = 3 then u.modTile s.2.1 (fun x => { x with
      combs := x.combs.filter (fun c => 4 * t.now.toNat < c.2 + 2 ^ 27) ++ [((u.d.stepSamples s).1, min (u.d.stepSamples s).2 (4 * t.now.toNat))] }) else u).d :=
    .ite (hu.modTile _ _) hu
  exact .ite ((htile.modCalPath _ _).calPend _ _) htile

theorem dropDue : Rest strict out d t.dropDue.d := by
  refine Rest.modCalib (h.each _ fun k _ u hu => ?_) _
  dsimp only
  split
  · exact (hu.modCalib _).writeCoef _ _
  · exact hu

theorem showCal : Rest strict out d t.showCal.d := (h.w (.low (by decide)) _).w (.low (by decide)) _

theorem calRenew (cls path : Nat) : Rest strict out d (t.calRenew cls path).d := .ite (h.modCalPath _ _) ((h.modCalPath _ _).calPend _ _)

theorem calPendAll : Rest strict out d t.calPendAll.d := Rest.showCal (h.each _ fun _ _ _ hu => hu.each _ fun _ _ _ hv => hv.calRenew _ _)

theorem dropEstimates : Rest strict out d t.dropEstimates.d := h.each _ fun _ _ _ hu => .ite (hu.modCalPath _ _) hu

theorem loadSet (body : List Byte) : Rest strict out d (t.loadSet body).d := by
  have hlines := (h.modCalib (fun c => { c with body := body, due := allBlocks })).dropEstimates.upd (by rfl)
    (u := .fillLines (classBase 3 0 + 40960) (classBase 3 0 + 40960 + 8192)
      (.coef ((t.modCalib (fun c => { c with body := body, due := allBlocks })).dropEstimates).d.coefData))
  refine hlines.each _ fun tl _ u hu => Rest.each (Rest.each ((hu.wb (.tileReg (by decide)) _).wb (.tileReg (by decide)) _) _ ?_) _ ?_
  · exact fun _ _ _ hv => ((hv.wb (.tile (by decide)) _).wb (.tile (by decide)) _).wb (.tile (by decide)) _
  · exact fun _ _ _ hv => hv.wb (.tile (by decide)) _

theorem useFactory (band : Nat) : Rest strict out d (t.useFactory band).d := .ite h ((h.ev (.keep (by decide))).fault _ _)

theorem reloadCal : Rest strict out d t.reloadCal.d := by
  unfold Tx.reloadCal
  dsimp only
  refine Rest.ev (Rest.calPendAll ?_) (.low (by decide))
  split
  · exact (h.checkLive _ _).loadSet _
  · exact ((h.checkLive _ _).useFactory _).loadSet _

theorem forceBlock (k : Nat) : Rest strict out d (t.forceBlock k).d := by
  have hcoef := ((h.upd (by rfl) (u := .calForce k ((t.d.calib.body.drop (calBlock k).1).take (calBlock k).2)))).writeCoef (14592 + (calBlock k).1) (calBlock k).2
  unfold Tx.forceBlock
  dsimp only
  split
  · exact hcoef
  · split
    · next hlo hhi =>
      refine hcoef.w (.below (fun G hG => ?_) ?_) _
      · have hkey : ∀ G ∈ restFlds, G.key < 32 * 0x520 ∨ 32 * 0x540 ≤ G.key := by decide
        have := hkey G hG
        simp only [Fld.key, R.ACQ_TIN_SKEW.CAL] at this ⊢
        omega
      · simp only [Fld.key, R.ACQ_TIN_SKEW.CAL]
        omega
    · exact hcoef.w (.tileReg (by decide)) _

theorem applyCal (ks : List Nat) : Rest strict out d (t.applyCal ks).d := by
  unfold Tx.applyCal
  dsimp only
  split
  · exact h
  · split
    · exact (h.readLine _ _ _).reloadCal
    · exact (h.each _ fun k _ _ hu => hu.forceBlock k).modCalib _

theorem newBytes (k a n : Nat) : Rest strict out d (t.newBytes k a n).d := (Rest.modCalib ((h.upd (by rfl) (u := .free))) _).writeCoef a n

theorem bgShown (cls path v : Nat) : Rest strict out d (match cls with
    | 0 => t.wb (R.CAL_ADC_Q.CONV path) true
    | 1 => t.wb (R.CAL_DAC_Q.CONV path) true
    | _ => ((t.w (R.CAL_FLX_Q.OFFSET path) v).w (R.CAL_FLX_Q.GAIN path) (v / 65536)).wb (R.CAL_FLX_Q.CONV path) true).d := by
  split
  · exact h.wb (.tileReg (by decide)) true
  · exact h.wb (.tile (by decide)) true
  · exact ((h.w (.tile (by decide)) _).w (.tile (by decide)) _).wb (.tile (by decide)) true

theorem opened : Rest strict out d t.open.2.d := h.upd (by rfl)

theorem unlessNewBytes {c : Prop} [Decidable c] (k a n : Nat) : Rest strict out d (if c then t else t.newBytes k a n).d := .ite h (h.newBytes k a n)

theorem bgMove (cls path : Nat) : Rest strict out d (t.bgMove cls path).d := by
  unfold Tx.bgMove
  dsimp only
  split
  · exact h
  · split
    · exact ((h.modCalPath _ _).opened.bgShown cls path _).unlessNewBytes _ _ _
    · exact (((h.opened : Rest strict out d (t.standing _).2.d).modCalPath _ _).opened.bgShown cls path _).unlessNewBytes _ _ _

theorem applyTick : Rest strict out d t.applyTick.d :=
  .ite h ((h.each _ fun k _ _ hu => hu.bgMove (k / 512) (k % 512)).applyCal _)

/-- A foreground calibration that ends: beside the fields that say so, all is kept. -/
theorem fgAbort (hbusy : R.CAL_STAT.FG_BUSY ∈ out) (hresult : R.CAL_REQ_STAT.RESULT ∈ out) : Rest strict out d t.fgAbort.d := by
  refine .ite (Rest.modCalib (Rest.dropDue (Rest.each (Rest.dropSteps (Rest.wb (Rest.wOut (.ite (h.wOut ?_ hresult 4) h) ?_ hbusy _) (.low (by decide)) false) _) _ ?_)) _) h
  · decide
  · decide
  · exact fun _ _ _ hu => hu.modCalPath _ _

/-! Self-tests -/

theorem modSt (g : SelfTest → SelfTest) : Rest strict out d (t.modSt g).d := h.upd (by rfl)

theorem imgLoad : Rest strict out d t.imgLoad.d := by
  have hdrop : Rest strict out d t.dropPend.d :=
    (((h.upd (by rfl) (u := .img { t.d.img with pend := none })).w64 (L := R.GLB_IMG_PEND_ID_LO.VALUE) (H := R.GLB_IMG_PEND_ID_HI.VALUE)
      (.low (by decide)) (.low (by decide)) 0).wb (F := R.GLB_IMG_STAT.COMMIT_HELD) (.low (by decide)) false).w (F := R.GLB_IMG_STAT.LOAD_STATE) (.low (by decide)) 0
  exact .ite (h.modSt _) (.ite (h.w (F := R.GLB_IMG_STAT.CODE) (.low (by decide)) _)
    ((((hdrop.upd (by rfl)).w (.low (by decide)) _).w (.low (by decide)) _).w (.low (by decide)) _))

theorem showAbove : Rest strict out d t.showAbove.d := by
  unfold Tx.showAbove
  exact Rest.wb (.ite (h.upd (by rfl)) h) (.low (by decide)) _

theorem enableRing (n : Nat) (en : Bool) :
    Rest strict out d (if n = 0 then t.wb R.ACQ_DRAIN_CTL.EN en else t.wb (R.ACQ_STRM_CTL.EN (n - 1)) en).d :=
  .ite (h.wb (.low (by decide)) en) (h.wb (.strm (.inl ⟨by omega, rfl⟩)) en)

theorem ringEnable (n : Nat) : Rest strict out d (t.ringEnable n true).d := by
  have hmap := (h.ev (F := R.ECC_EVT.MAP_ERR) (.low (by decide))).w (F := R.ECC_CXL_STAT.MAP_WHY) (.low (by decide)) (t.d.mapWhy n)
  have hon := ((h.upd (by rfl) (u := .ring n (t.d.ringRegs n)))).enableRing n true
  have hrun := ((hon.w (F := R.ACQ_STRM_WPTR.OFF (n - 1)) (.strm (.inr (.inl ⟨by omega, rfl⟩))) 0).w (F := R.ACQ_STRM_STAT.GAPS (n - 1))
    (.strm (.inr (.inr ⟨by omega, rfl⟩))) 0)
  exact .ite h (.ite (h.modSt _) (.ite hmap (.ite (Rest.showAbove (hon.w (F := R.ACQ_DRAIN_WPTR.OFF) (.low (by decide)) 0)) hrun)))

theorem stRelease : Rest strict out d t.stRelease.d := (h.modSt _).each _ fun _ _ _ hu => .ite hu.imgLoad (hu.ringEnable _)

theorem openFill (l n : Nat) : Rest strict out d (t.openFill l n).d := (((h.upd (by rfl) (u := .fillLines l (l + n) (.free t.d.freeN)))).upd (by rfl))

theorem leftIn (line lines : Nat) (whole : Bool) : Rest strict out d (t.leftIn line lines whole).d := .ite h (h.openFill _ _)

theorem poisonLines (ls : List Nat) : Rest strict out d (t.poisonLines ls).d := .ite h ((h.each ls fun _ _ _ hu => (hu.upd (by rfl))).ev (.low (by decide)))

theorem loadForks : Rest strict out d t.loadForks.d := by
  have hzero := (h.upd (by rfl) (u := .fillLines (classBase 3 0) (classBase 3 0 + 16384) .zero))
  unfold Tx.loadForks
  dsimp only
  split
  · exact hzero
  · exact .ite hzero ((hzero.each _ fun _ _ _ hu => (hu.upd (by rfl))).poisonLines _)

theorem loadTables (im : Image) : Rest strict out d (t.loadTables im).d := .ite (h.upd (by rfl)) ((h.upd (by rfl)).poisonLines _)

theorem losePower (lo hi : Nat) : Rest strict out d (t.losePower lo hi).d := h.upd (by rfl)

theorem refill (wave : Bool) (e : Nat) : Rest strict out d (t.refill wave e).d := by
  unfold Tx.refill
  split
  · exact h
  · exact h.each _ fun _ _ _ hu => Rest.upd (Rest.poisonLines (hu.upd (by rfl)) _) (by rfl)

end Sys2Proof.Machine.Rest
end

section
/-! SUPPORT. What a self-test and the ports leave alone as they stop. -/
namespace Sys2Proof.Machine.Rest

variable {d0 : Device} {strict : Bool} {out : List Fld} {d : Device} {t : Tx d0} (h : Rest strict out d t.d)
include h

theorem modLane (n : Nat) (g : Lane → Lane) : Rest strict out d (t.modLane n g).d := h.upd (by rfl)

theorem modPortUp (n : Nat) (g : PortUp → PortUp) : Rest strict out d (t.modPortUp n g).d := h.upd (by rfl)

omit h in
theorem portLanes_lt {p l : Nat} (hl : l ∈ portLanes p) : l < 4 := by
  unfold portLanes at hl
  split at hl <;> simp at hl <;> omega

omit h in
/-- A register of a lane of the link ports. -/
theorem apart_lane {p l lo hi : Nat} (hp : p < 9) (hl : l < 4) (hlo : lo < 32) {acc : Acc} {rst : Nat} :
    Apart ⟨0x31010 + 0x40 * p + 4 * l, hi, lo, acc, rst⟩ := by
  refine .below (fun G hG => ?_) ?_
  · have := restFlds_low G hG
    simp only [Fld.key] at this ⊢
    omega
  · simp only [Fld.key]
    omega

omit h in
/-- A register of a link port. -/
theorem apart_link {p off lo hi : Nat} (hp : p < 9) (hoff : off = 0x31000 ∨ off = 0x31004) (hlo : lo < 32) {acc : Acc} {rst : Nat} :
    Apart ⟨off + 0x40 * p, hi, lo, acc, rst⟩ := by
  refine .below (fun G hG => ?_) ?_
  · have := restFlds_low G hG
    simp only [Fld.key] at this ⊢
    omega
  · simp only [Fld.key]
    omega

omit h in
/-- What a port's cells have told. -/
theorem apart_port {p lo hi : Nat} (hlo : lo < 32) (h30 : lo ≠ 30) (h24 : lo ≠ 24) {acc : Acc} {rst : Nat} :
    Apart ⟨0x40100 + 0x20 * p, hi, lo, acc, rst⟩ := .of_lo (by dsimp only; omega) hlo h30 h24

theorem portAttempt {p : Nat} (hp : p < 9) : Rest strict out d (t.portAttempt p).d := by
  refine Rest.w (Rest.w (Rest.w (Rest.each (h.modPortUp _ _) _ ?_) ?_ 0) ?_ 0) ?_ 1
  · exact fun l hl u hu => (hu.modLane _ _).wb (apart_lane hp (portLanes_lt hl) (by omega)) false
  · exact apart_link hp (.inr rfl) (by omega)
  · exact apart_link hp (.inr rfl) (by omega)
  · exact apart_link hp (.inr rfl) (by omega)

theorem portSend {p : Nat} (hp : p < 9) : Rest strict out d (t.portSend p).d := by
  refine .ite (Rest.doneS (Rest.portAttempt (Rest.w (Rest.each (h.checkLive _ _) _ ?_) ?_ _) hp) ?_) h
  · exact fun _ _ _ hu => hu.modLane _ _
  · exact apart_link hp (.inr rfl) (by omega)
  · exact apart_link hp (.inl rfl) (by omega)

theorem stRestore (test : Nat) (whole : Bool) : Rest strict out d (t.stRestore test whole).d := by
  unfold Tx.stRestore
  split
  · exact h.each _ fun _ _ _ hu => ((hu.leftIn _ _ _).refill _ _).refill _ _
  · exact h.each _ fun _ _ _ hu => (hu.leftIn _ _ _).refill _ _
  · exact h.each _ fun _ _ _ hu => hu.losePower _ _
  · exact h.each _ fun _ _ _ hu => hu.losePower _ _
  · split
    · exact h
    · split
      · exact h.loadForks.loadTables _
      · exact h.losePower _ _
  · exact .ite h (((h.upd (by rfl) (u := .cxlFill ⟨_, _, .free t.d.freeN⟩))).upd (by rfl))
  · exact h.modCalib _
  · exact h.each _ fun p hp _ hu => hu.portSend (List.mem_range.mp hp)
  · exact h

theorem stAbort : Rest strict out d t.stAbort.d := by
  unfold Tx.stAbort
  dsimp only
  split
  · refine Rest.w (Rest.wb (Rest.stRelease (Rest.modSt ?_ _)) (.low (by decide)) false) (.low (by decide)) 3
    split
    · exact (h.modSt _).stRestore _ _
    · exact h.modSt _
  · exact h

/-! Ports -/

/-- A port is shown out of service. -/
theorem leaveService (p : Fin 9) : Rest strict out d (t.wb (R.FAB_PORT_STAT.IN_SERVICE p) false).d := by
  have hp := p.isLt
  have hother : ∀ G : Fld, G.key ≠ (R.FAB_PORT_STAT.IN_SERVICE p).key → (t.wb (R.FAB_PORT_STAT.IN_SERVICE p) false).d.f G = t.d.f G :=
    fun G hG => t.w_f_other _ G _ hG
  refine h.trans (of_same (fun q _ => (t.w_regsOnly _ _).same q) (fun G hG _ => hother G ?_) (fun q hq h0 => ?_) (fun k => hother _ ?_) fun k => hother _ ?_)
  · have := restFlds_low G hG
    simp only [Fld.key, R.FAB_PORT_STAT.IN_SERVICE] at this ⊢
    omega
  · by_cases hqp : q = p
    · subst hqp
      exact Tx.w_f_same ..
    · refine (hother _ ?_).trans h0
      simp only [Fld.key, R.FAB_PORT_STAT.IN_SERVICE]
      omega
  · simp only [Fld.key, R.FAB_PORT_STAT.IN_SERVICE, R.SCH_STAT.STATE, tileOff]
    omega
  · simp only [Fld.key, R.FAB_PORT_STAT.IN_SERVICE, R.SCH_STAT.FAULT, tileOff]
    omega

end Sys2Proof.Machine.Rest
end

section
/-! SUPPORT. What the voids of a member that loses its peer, and the fast clocks as they stop, leave alone (R109, R633, R671). -/
namespace Sys2Proof.Machine

variable {d0 : Device}

/-! A void, in three parts -/

/-- The engine waits for its repeat, and its registers and sequencer tell of the void. -/
def Tx.voidMark (t : Tx d0) (e : Nat) : Tx d0 :=
  let x := t.d.eng e
  let now := t.now.toNat
  let s := x.snap
  let sp : SafePoint := { cand := BitVec.ofNat 64 (repeatCand s.b0.toNat (leadOf s.dom) now), dom := s.dom, res := s.res, ptr := s.ptr, rep := true }
  let t := t.modEng e (fun x => { x with
    queue := [], fetch := {}, safe := some sp, waiting := none, anise := none, notice := false, voids := x.voids + 1, voidDue := none
    latch := none })
  let t := (t.dropShakes e).w (R.ENG_QUEUE.DEPTH e) 0
  let t := ((t.w (R.SCH_STAT.STATE e) 2).w (R.SCH_STAT.WAITING e) 0).w (R.SCH_STAT.VOIDED e) 1
  ((t.inc (R.SCH_CNT.VOIDS e)).ev (R.SCH_EVT.VOID e)).raise e 2 now

/-- The shot of the tile carries VOID. -/
def Tx.voidShot (t : Tx d0) (tl : Nat) : Tx d0 :=
  match t.d.curShot tl with
  | none => t
  | some sh => t.flagShot tl sh.id sh.attempt 0x40

/-- The engine's outputs, windows and capture, and the tile's shot, close. -/
def Tx.voidClose (t : Tx d0) (e now : Nat) : Tx d0 :=
  let tl := e / 2
  let t := (t.voidShot tl).setDig tl none
  let t := if e % 2 = 0 then t.muteTile tl else t.modTile tl (fun y => { y with sends := [], resv := none })
  let t := if e % 2 = 0 && (t.d.eng (e + 1)).live then t
    else (t.each (List.range 16) (fun i t => t.closeWin (16 * tl + i) now true 0x40)).capShotEnd tl
  let t := if t.d.tileHeld tl then ((t.capShotEnd tl).closeShot tl).showRec tl else t
  (t.dropTileHeld tl).idleTile tl

/-- The other engines of the hold domain in the same attempt are told. -/
def Tx.voidNotice (t : Tx d0) (e : Nat) (s : Snapshot) : Tx d0 :=
  t.each (t.d.fellows e s.dom) (fun y t =>
    let z := t.d.eng y
    if y ≠ e && z.live && z.snap.b0 = s.b0 && z.snap.dom = s.dom && !(match z.safe with | some q => q.rep | none => false) then
      t.modEng y (fun z => { z with notice := true })
    else t)

/-- The engine waits for a repeat already. -/
def Engine.repeats (x : Engine) : Bool := match x.safe with
  | some s => s.rep
  | none => false

theorem Tx.voidEngine_eq (t : Tx d0) (e : Nat) : t.voidEngine e =
    if !(t.d.eng e).live || (t.d.eng e).repeats then t else ((t.voidMark e).voidClose e t.now.toNat).voidNotice e (t.d.eng e).snap := rfl

namespace Rest

variable {out : List Fld} {d : Device} {t : Tx d0}

/-- The STATE of an engine that is not over is none that the relation speaks of. -/
theorem stateLive {e : Nat} (h : Rest false out d t.d) (hlive : (t.d.eng e).live = true) (v : Nat) : Rest false out d (t.w (R.SCH_STAT.STATE e) v).d := by
  have hsame := fun p => (t.w_regsOnly (R.SCH_STAT.STATE e) v).same p
  have hkey : ∀ k, (t.d.eng k).live = false → (R.SCH_STAT.STATE k).key ≠ (R.SCH_STAT.STATE e).key := by
    intro k hk hkey
    have hke : k = e := by
      simp only [Fld.key, R.SCH_STAT.STATE, tileOff] at hkey
      omega
    rw [hke, hlive] at hk
    contradiction
  have hfault : ∀ k, (t.w (R.SCH_STAT.STATE e) v).d.f (R.SCH_STAT.FAULT k) = t.d.f (R.SCH_STAT.FAULT k) := by
    refine fun k => t.w_f_other _ _ v ?_
    simp only [Fld.key, R.SCH_STAT.STATE, R.SCH_STAT.FAULT, tileOff]
    omega
  refine h.trans ⟨hsame .time, congrArg Power.reset (hsame .power), congrArg RunSt.ended (hsame .run), fun G hG _ => t.w_f_other _ G v ?_,
    fun p hp h0 => (t.w_f_other _ _ v ?_).trans h0, fun _ hk => hk, fun _ hk => hk, fun k hk h3 => ?_, fun k hk h3 => ?_⟩
  · have := restFlds_low G hG
    simp only [Fld.key, R.SCH_STAT.STATE, tileOff] at this ⊢
    omega
  · simp only [Fld.key, R.FAB_PORT_STAT.IN_SERVICE, R.SCH_STAT.STATE, tileOff]
    omega
  · exact (t.w_f_other _ _ v (hkey k (by simpa using hk))).trans h3
  · exact .inr ⟨(t.w_f_other _ _ v (hkey k (by simpa using hk))).symm.trans h3, hfault k⟩

theorem voidMark {e : Nat} (h : Rest false out d t.d) (hlive : (t.d.eng e).live = true) : Rest false out d (t.voidMark e).d := by
  have hmod : ∀ g : Engine → Engine, (g (t.d.eng e)).live = (t.d.eng e).live → ∀ v, Rest false out d (((t.modEng e g).dropShakes e).w (R.ENG_QUEUE.DEPTH e) v).d :=
    fun g hg v => ((h.modEng e (by rw [hg]; exact id)).dropShakes e).w (.tile (by decide)) v
  have heng : ∀ g : Engine → Engine, (g (t.d.eng e)).live = (t.d.eng e).live →
      ((((t.modEng e g).dropShakes e).w (R.ENG_QUEUE.DEPTH e) 0).d.eng e).live = true :=
    fun g hg => (congrArg Engine.live (t.modEng_eng_same e g)).trans (hg.trans hlive)
  exact (((((((hmod _ rfl 0).stateLive (heng _ rfl) 2).w (.tile (by decide)) 0).w (.tile (by decide)) 1).inc (.tile (by decide))).ev (.tile (by decide))).raise e 2 _)

theorem voidShot {strict : Bool} (h : Rest strict out d t.d) (tl : Nat) : Rest strict out d (t.voidShot tl).d := by
  unfold Tx.voidShot
  split
  · exact h
  · exact h.flagShot _ _ _ _

theorem voidClose {strict : Bool} (h : Rest strict out d t.d) (e now : Nat) : Rest strict out d (t.voidClose e now).d := by
  have hshot : Rest strict out d ((t.voidShot (e / 2)).setDig (e / 2) none).d := ((h.voidShot _).upd (by rfl))
  unfold Tx.voidClose
  dsimp only
  generalize (t.voidShot (e / 2)).setDig (e / 2) none = u at hshot
  have hmute : Rest strict out d (if e % 2 = 0 then u.muteTile (e / 2) else u.modTile (e / 2) (fun y => { y with sends := [], resv := none })).d :=
    .ite (hshot.muteTile _) (hshot.modTile _ _)
  generalize (if e % 2 = 0 then u.muteTile (e / 2) else u.modTile (e / 2) (fun y => { y with sends := [], resv := none })) = v at hmute
  have hwins : Rest strict out d (if (e % 2 = 0 && (v.d.eng (e + 1)).live) = true then v
      else (v.each (List.range 16) (fun i t => t.closeWin (16 * (e / 2) + i) now true 0x40)).capShotEnd (e / 2)).d :=
    .ite hmute ((hmute.each _ fun _ _ _ hu => hu.closeWin _ _ _ _).capShotEnd _)
  exact (Rest.ite (((hwins.capShotEnd _).closeShot _).showRec _) hwins).dropTileHeld _ |>.idleTile _

theorem voidNotice {strict : Bool} (h : Rest strict out d t.d) (e : Nat) (s : Snapshot) : Rest strict out d (t.voidNotice e s).d :=
  h.each _ fun y _ _ hu => .ite (hu.modEng y id) hu

theorem voidEngine (h : Rest false out d t.d) (e : Nat) : Rest false out d (t.voidEngine e).d := by
  rw [Tx.voidEngine_eq]
  split
  · exact h
  · next hlive =>
    simp only [Bool.or_eq_true, Bool.not_eq_true', not_or, Bool.not_eq_false] at hlive
    exact ((h.voidMark hlive.1).voidClose e _).voidNotice e _

theorem voidQuads (h : Rest false out d t.d) (mask : Nat) : Rest false out d (t.voidQuads mask).d := h.each _ fun e _ _ hu => .ite (hu.voidEngine e) hu

theorem lostPeer (h : Rest false out d t.d) : Rest false out d t.lostPeer.d := by
  have hlost := (((h.w (F := R.TWIN_STAT.STATE) (.low (by decide)) 3).ev (F := R.TWIN_EVT.HB_LOST) (.low (by decide))).fault 0x0502 0).w64 (L := R.TWIN_HO_EPOCH_LO.EPOCH)
    (H := R.TWIN_HO_EPOCH_HI.EPOCH) (.low (by decide)) (.low (by decide)) (((t.w R.TWIN_STAT.STATE 3).ev R.TWIN_EVT.HB_LOST).fault 0x0502 0).now.toNat
  refine .ite ((h.toSolo.ev (F := R.TWIN_EVT.ATTACH_REFUSED) (.low (by decide))).w (F := R.TWIN_STAT.WHY) (.low (by decide)) 7) (.ite h ?_)
  exact ((Rest.upd ((Rest.ite (hlost.voidQuads _) hlost).modTwin _) (by rfl) (u := .dropDigs 0 32)).putTwinRec 0 1).showQok.showPorts

end Rest

/-! A port leaves service, in three parts -/

/-- The lanes of a port in service keep their settings for a WARM start. -/
def Tx.portKeep (t : Tx d0) (p : Nat) : Tx d0 :=
  let band := t.f R.THM_STAT.BAND
  if t.b (R.FAB_PORT_STAT.IN_SERVICE p) then
    (t.modPortUp p (fun x => { x with warm := some band })).each (portLanes p) (fun l t => t.modLane (4 * p + l) (fun x => { x with kept := x.set }))
  else t

/-- What the port has shown is cleared; a member in MIRROR may lose its peer with it. -/
def Tx.portClear (t : Tx d0) (p : Nat) (was : Bool) : Tx d0 :=
  let t := t.w (R.LNK_PORT_STAT.PHASE p) 0
  let t := (t.w (R.LNK_PORT_STAT.LANES p) 0).w (R.LNK_PORT_STAT.RATE p) 0
  let t := ((t.wb (R.FAB_PORT_STAT.NBR_OK p) false).wb (R.FAB_PORT_STAT.EPOCH_OK p) false).wb (R.FAB_PORT_STAT.PLAN_OK p) false
  let t := t.upd (.stat p {})
  let t := t.each (portLanes p) (fun l t =>
    ((t.wb (R.LNK_LANE_STAT.LOCK p l) false).wb (R.LNK_LANE_STAT.PRECODE_TX p l) false).wb (R.LNK_LANE_STAT.PRECODE_RX p l) false)
  let t := if p = 8 && was then t.lostPeer else t
  t.showPorts

theorem Tx.portLeave_eq (t : Tx d0) (p : Nat) :
    t.portLeave p = ((t.portKeep p).wb (R.FAB_PORT_STAT.IN_SERVICE p) false).portClear p (t.b (R.FAB_PORT_STAT.IN_SERVICE p)) := rfl

namespace Rest

variable {out : List Fld} {d : Device} {t : Tx d0}

theorem portKeep {strict : Bool} (h : Rest strict out d t.d) (p : Nat) : Rest strict out d (t.portKeep p).d :=
  .ite ((h.modPortUp _ _).each _ fun _ _ _ hu => hu.modLane _ _) h

theorem portClear (h : Rest false out d t.d) (p : Fin 9) (was : Bool) : Rest false out d (t.portClear p was).d := by
  have hlink := ((h.w (F := R.LNK_PORT_STAT.PHASE p) (apart_link p.isLt (.inr rfl) (by omega)) 0).w (F := R.LNK_PORT_STAT.LANES p)
    (apart_link p.isLt (.inr rfl) (by omega)) 0).w (F := R.LNK_PORT_STAT.RATE p) (apart_link p.isLt (.inr rfl) (by omega)) 0
  have hport := ((hlink.wb (F := R.FAB_PORT_STAT.NBR_OK p) (apart_port (by omega) (by omega) (by omega)) false).wb (F := R.FAB_PORT_STAT.EPOCH_OK p)
    (apart_port (by omega) (by omega) (by omega)) false).wb (F := R.FAB_PORT_STAT.PLAN_OK p) (apart_port (by omega) (by omega) (by omega)) false
  have hlanes := ((hport.upd (by rfl) (u := .stat p {}))).each (portLanes p) (g := fun l t =>
      ((t.wb (R.LNK_LANE_STAT.LOCK p l) false).wb (R.LNK_LANE_STAT.PRECODE_TX p l) false).wb (R.LNK_LANE_STAT.PRECODE_RX p l) false) fun l hl u hu =>
    ((hu.wb (apart_lane p.isLt (portLanes_lt hl) (by omega)) false).wb (apart_lane p.isLt (portLanes_lt hl) (by omega)) false).wb
      (apart_lane p.isLt (portLanes_lt hl) (by omega)) false
  exact (Rest.ite hlanes.lostPeer hlanes).showPorts

theorem portLeave (h : Rest false out d t.d) (p : Fin 9) : Rest false out d (t.portLeave p).d := by
  rw [Tx.portLeave_eq]
  exact ((h.portKeep p).leaveService p).portClear p _

end Rest

theorem Tx.portLeave_service (t : Tx d0) (p : Fin 9) : (t.portLeave p).d.f (R.FAB_PORT_STAT.IN_SERVICE p) = 0 := by
  rw [Tx.portLeave_eq]
  exact (Rest.portClear (.refl false [] _) p _).port p p.isLt (Tx.w_f_same ..)

/-! The fast clocks stop -/

/-- What the end of the fast clocks leaves, beside what it keeps. -/
structure Gated (d e : Device) : Prop where
  awake : e.f R.TB_STAT.AWAKE = 0
  locked : e.f R.TB_STAT.LOCKED = 0
  state : e.f R.PWR_STAT.STATE = 0
  ports : ∀ p : Fin 9, e.f (R.FAB_PORT_STAT.IN_SERVICE p) = 0
  rest : Rest false [R.TB_STAT.AWAKE, R.TB_STAT.LOCKED, R.PWR_STAT.STATE] d e

/-- Every port leaves service. -/
def Tx.portsLeave (t : Tx d0) : Tx d0 := t.each (List.range 9) (fun p t => t.portLeave p)

theorem Rest.portsLeave {out : List Fld} {d : Device} {t : Tx d0} (h : Rest false out d t.d) : Rest false out d t.portsLeave.d :=
  h.each _ fun p hp _ hu => hu.portLeave ⟨p, List.mem_range.mp hp⟩

theorem Tx.portsLeave_service (t : Tx d0) (p : Fin 9) : t.portsLeave.d.f (R.FAB_PORT_STAT.IN_SERVICE p) = 0 :=
  Tx.each_sets (Q := fun p u => u.d.f (R.FAB_PORT_STAT.IN_SERVICE p) = 0) (fun p hp u => u.portLeave_service ⟨p, List.mem_range.mp hp⟩)
    (fun p hp q hq u hu => ((Rest.refl false [] u.d).portLeave ⟨q, List.mem_range.mp hq⟩).port p (List.mem_range.mp hp) hu) t p (List.mem_range.mpr p.isLt)

/-- The block's own clocks stop, and a rate clamp that waited is over. -/
def Tx.gateRest (t : Tx d0) : Tx d0 :=
  let t := t.modPower (fun x => { x with wakeEdges := 0, clocks := 0, idle := 0 })
  let t := (t.wb R.SCRUB_STAT.RUNNING false).each (List.range 4) (fun q t => t.wb (R.MON_STAT.RUNNING q) false)
  if t.d.thermal.rateT0.isSome then (t.modThermal (fun x => { x with rateT0 := none })).watchClamp 8 else t

theorem Tx.gate_eq (t : Tx d0) :
    t.gate = ((((((t.dropSteps t.d.stepOn).wb R.TB_STAT.AWAKE false).wb R.TB_STAT.LOCKED false).portsLeave).gateRest).w R.PWR_STAT.STATE 0).showQok := rfl

theorem Rest.modPower {strict : Bool} {out : List Fld} {d : Device} {t : Tx d0} (h : Rest strict out d t.d) {g : Power → Power}
    (hg : (g t.d.power).reset = t.d.power.reset) : Rest strict out d (t.modPower g).d :=
  h.trans ⟨rfl, hg, rfl, fun _ _ _ => rfl, fun _ _ h0 => h0, fun _ hk => hk, fun _ hk => hk, fun _ _ h3 => h3, fun _ _ h3 => .inr ⟨h3, rfl⟩⟩

theorem Rest.gateRest {strict : Bool} {out : List Fld} {d : Device} {t : Tx d0} (h : Rest strict out d t.d) : Rest strict out d t.gateRest.d := by
  have hmon : ∀ q < 4, Apart (R.MON_STAT.RUNNING q) := by
    intro q hq
    interval_cases q <;> exact (.low (by decide))
  have hclocks := ((h.modPower (g := fun x => { x with wakeEdges := 0, clocks := 0, idle := 0 }) rfl).wb (F := R.SCRUB_STAT.RUNNING) (.low (by decide)) false).each
    (List.range 4) (g := fun q t => t.wb (R.MON_STAT.RUNNING q) false) fun q hq _ hu => hu.wb (hmon q (List.mem_range.mp hq)) false
  exact .ite (Rest.watchClamp (hclocks.upd (by rfl)) 8) hclocks

theorem Tx.gate_spec (t : Tx d0) : Gated t.d t.gate.d := by
  rw [Tx.gate_eq]
  have hsteps := (Rest.refl false [R.TB_STAT.AWAKE, R.TB_STAT.LOCKED, R.PWR_STAT.STATE] t.d).dropSteps t.d.stepOn
  generalize t.dropSteps t.d.stepOn = u at hsteps
  have hoff : Rest false _ t.d ((u.wb R.TB_STAT.AWAKE false).wb R.TB_STAT.LOCKED false).d :=
    (hsteps.wOut (F := R.TB_STAT.AWAKE) (by decide) (by decide) 0).wOut (F := R.TB_STAT.LOCKED) (by decide) (by decide) 0
  have hawake : ((u.wb R.TB_STAT.AWAKE false).wb R.TB_STAT.LOCKED false).d.f R.TB_STAT.AWAKE = 0 :=
    (Tx.w_f_other _ _ _ _ (by decide)).trans (Tx.w_f_same ..)
  have hlocked : ((u.wb R.TB_STAT.AWAKE false).wb R.TB_STAT.LOCKED false).d.f R.TB_STAT.LOCKED = 0 := Tx.w_f_same ..
  generalize (u.wb R.TB_STAT.AWAKE false).wb R.TB_STAT.LOCKED false = v at *
  have hclocks : Rest false [R.PWR_STAT.STATE] v.d (((v.portsLeave.gateRest).w R.PWR_STAT.STATE 0).showQok).d :=
    ((Rest.refl false _ v.d).portsLeave.gateRest.wOut (by decide) (by decide) 0).showQok
  have hports : Rest false [R.PWR_STAT.STATE] v.portsLeave.d (((v.portsLeave.gateRest).w R.PWR_STAT.STATE 0).showQok).d :=
    ((Rest.refl false _ _).gateRest.wOut (by decide) (by decide) 0).showQok
  have hstate : Rest false [] (v.portsLeave.gateRest.w R.PWR_STAT.STATE 0).d _ := (Rest.refl false [] _).showQok
  exact ⟨(hclocks.fld _ (by decide) (by decide)).trans hawake, (hclocks.fld _ (by decide) (by decide)).trans hlocked,
    (hstate.fld _ (by decide) (by decide)).trans (Tx.w_f_same ..), fun p => hports.port p p.isLt (v.portsLeave_service p), hoff.trans (hclocks.mono (by simp))⟩

end Sys2Proof.Machine
end

section
/-! SUPPORT. A run that is stopped, and what it leaves (R109, R201). -/
namespace Sys2Proof.Machine

variable {d0 : Device}

/-! An engine halts, in two parts -/

/-- The engine enters STATE FAULT with a code. -/
def Tx.haltMark (t : Tx d0) (e code : Nat) : Tx d0 := (t.w (R.SCH_STAT.STATE e) 3).w (R.SCH_STAT.FAULT e) code

/-- Its work is gone, its outputs are clamped, and the fault is told of. -/
def Tx.haltRest (t : Tx d0) (e code : Nat) : Tx d0 :=
  let t := (t.w (R.SCH_STAT.WAITING e) 0).w (R.SCH_STAT.VOIDED e) 0
  let t := if (t.d.eng e).live then t.modRun (fun r => { r with quiet := t.now }) else t
  let t := t.modEng e (fun x => { x with live := false, queue := [], fetch := {}, safe := none, waiting := none, latch := none, anise := none })
  let t := (t.dropShakes e).w (R.ENG_QUEUE.DEPTH e) 0
  let t := t.each (engineOutputs e) (fun k t => t.clampAdd k 2)
  let t := (t.pend (64 + 4 * (e / 2) + e % 2)).fault 0x0101 e
  let t := if code = 15 then t else t.raise e 1 t.now.toNat
  t.quadFault (e / 16)

theorem Tx.haltEngine_eq (t : Tx d0) (e code : Nat) :
    t.haltEngine e code = if t.f (R.SCH_STAT.STATE e) = 3 then t else (t.haltMark e code).haltRest e code := rfl

theorem schState_key_inj {k e : Nat} (h : (R.SCH_STAT.STATE k).key = (R.SCH_STAT.STATE e).key) : k = e := by
  simp only [Fld.key, R.SCH_STAT.STATE, tileOff] at h
  omega

theorem schState_ne_fault (k e : Nat) : (R.SCH_STAT.STATE k).key ≠ (R.SCH_STAT.FAULT e).key := by
  simp only [Fld.key, R.SCH_STAT.STATE, R.SCH_STAT.FAULT, tileOff]
  omega

theorem schFault_key_inj {k e : Nat} (h : (R.SCH_STAT.FAULT k).key = (R.SCH_STAT.FAULT e).key) : k = e := by
  simp only [Fld.key, R.SCH_STAT.FAULT, tileOff] at h
  omega

theorem Tx.haltMark_state (t : Tx d0) (e code : Nat) : (t.haltMark e code).d.f (R.SCH_STAT.STATE e) = 3 :=
  (Tx.w_f_other _ _ _ _ (schState_ne_fault e e)).trans (Tx.w_f_same ..)

theorem Tx.haltMark_f_other (t : Tx d0) (e code : Nat) {F : Fld} (hs : F.key ≠ (R.SCH_STAT.STATE e).key) (hf : F.key ≠ (R.SCH_STAT.FAULT e).key) :
    (t.haltMark e code).d.f F = t.d.f F :=
  (Tx.w_f_other _ _ _ _ hf).trans (Tx.w_f_other _ _ _ _ hs)

namespace Rest

variable {strict : Bool} {out : List Fld} {d : Device} {t : Tx d0} (h : Rest strict out d t.d)
include h

theorem haltMark {e : Nat} (hne : t.d.f (R.SCH_STAT.STATE e) ≠ 3) : Rest strict out d (t.haltMark e 8).d := by
  have hsame := fun p => (((t.w_regsOnly (R.SCH_STAT.STATE e) 3).same p).trans (((t.w (R.SCH_STAT.STATE e) 3).w_regsOnly (R.SCH_STAT.FAULT e) 8).same p) :
    Same t.d (t.haltMark e 8).d p)
  have hother : ∀ k, k ≠ e → (t.haltMark e 8).d.f (R.SCH_STAT.STATE k) = t.d.f (R.SCH_STAT.STATE k) ∧
      (t.haltMark e 8).d.f (R.SCH_STAT.FAULT k) = t.d.f (R.SCH_STAT.FAULT k) := fun k hk =>
    ⟨t.haltMark_f_other e 8 (fun hkey => hk (schState_key_inj hkey)) (schState_ne_fault k e),
      t.haltMark_f_other e 8 (schState_ne_fault e k).symm (fun hkey => hk (schFault_key_inj hkey))⟩
  refine h.trans ⟨hsame .time, congrArg Power.reset (hsame .power), congrArg RunSt.ended (hsame .run), fun G hG _ => t.haltMark_f_other e 8 ?_ ?_,
    fun p hp h0 => (t.haltMark_f_other e 8 ?_ ?_).trans h0, fun _ hk => hk, fun _ hk => hk, fun k _ h3 => ?_, fun k _ h3 => ?_⟩
  · have := restFlds_low G hG
    simp only [Fld.key, R.SCH_STAT.STATE, tileOff] at this ⊢
    omega
  · have := restFlds_low G hG
    simp only [Fld.key, R.SCH_STAT.FAULT, tileOff] at this ⊢
    omega
  · simp only [Fld.key, R.FAB_PORT_STAT.IN_SERVICE, R.SCH_STAT.STATE, tileOff]
    omega
  · simp only [Fld.key, R.FAB_PORT_STAT.IN_SERVICE, R.SCH_STAT.FAULT, tileOff]
    omega
  · exact (hother k (by rintro rfl; exact hne h3)).1.trans h3
  · by_cases hke : k = e
    · subst hke
      exact .inl (Tx.w_f_same ..)
    · exact .inr ⟨(hother k hke).1.symm.trans h3, (hother k hke).2⟩

theorem modRun {g : RunSt → RunSt} (hg : (g t.d.run).ended = t.d.run.ended) : Rest strict out d (t.modRun g).d :=
  h.trans ⟨rfl, rfl, hg, fun _ _ _ => rfl, fun _ _ h0 => h0, fun _ hk => hk, fun _ hk => hk, fun _ _ h3 => h3, fun _ _ h3 => .inr ⟨h3, rfl⟩⟩

theorem haltRest (e code : Nat) : Rest strict out d (t.haltRest e code).d := by
  have hshown := (h.w (F := R.SCH_STAT.WAITING e) (.tile (by decide)) 0).w (F := R.SCH_STAT.VOIDED e) (.tile (by decide)) 0
  unfold Tx.haltRest
  dsimp only
  generalize (t.w (R.SCH_STAT.WAITING e) 0).w (R.SCH_STAT.VOIDED e) 0 = u at hshown
  have hrun : Rest strict out d (if (u.d.eng e).live = true then u.modRun (fun r => { r with quiet := u.now }) else u).d := .ite (hshown.modRun rfl) hshown
  have hclamps := (((hrun.modEng e (g := fun x => { x with live := false, queue := [], fetch := {}, safe := none, waiting := none, latch := none, anise := none })
    fun _ => rfl).dropShakes e).w (F := R.ENG_QUEUE.DEPTH e) (.tile (by decide)) 0).each (engineOutputs e) (g := fun k t => t.clampAdd k 2) fun k _ _ hv => hv.clampAdd k 2
  have hfault := ((hclamps.upd (by rfl) (u := .pba (64 + 4 * (e / 2) + e % 2) true))).fault 0x0101 e
  exact (Rest.ite hfault (hfault.raise _ _ _)).quadFault _

theorem haltEngine (e : Nat) : Rest strict out d (t.haltEngine e 8).d := by
  rw [Tx.haltEngine_eq]
  split
  · exact h
  · next hne => exact (h.haltMark hne).haltRest e 8

end Rest

theorem Tx.haltEngine_state (t : Tx d0) (e : Nat) : (t.haltEngine e 8).d.f (R.SCH_STAT.STATE e) = 3 := by
  rw [Tx.haltEngine_eq]
  split
  · next h3 => exact h3
  · exact ((Rest.refl true [] _).haltRest e 8).stays e (.inl rfl) (t.haltMark_state e 8)

/-! The run ends, in parts -/

/-- The run is over, and has ended on this tick. -/
def Tx.runOff (t : Tx d0) : Tx d0 :=
  let now := t.now
  (t.wb R.GLB_RUN_STAT.RUNNING false).modRun (fun r => { r with ended := now, afterEnd := true })

/-- Windows, captures, shots, mixers and outputs close. -/
def Tx.runClose (t : Tx d0) (now : Epoch) : Tx d0 :=
  let age := t.d.age
  let t := t.modKeep (fun k => { k with runAcc := k.runAcc + (age - k.runMark) })
  let t := t.each (List.range 512) (fun n t =>
    if (t.d.win n).isSome then (t.ev (R.RD_EVT.TRUNC (n / 16))).closeWin n (now.toNat - 1) true 4 else t)
  t.each (List.range 32) (fun tl t =>
    let t := ((t.capShotEnd tl).closeShot tl).dropTileHeld tl
    let t := t.each (List.range 20) (fun i t => t.freeMixer (20 * tl + i))
    ((t.when (t.d.tileOn tl) (fun t => t.idleTile tl)).modTile tl (fun x => { x with sends := [], resv := none })))

/-- An engine is over; its STATE is IDLE but for FAULT. -/
def Tx.engOff (t : Tx d0) (now : Epoch) (e : Nat) : Tx d0 :=
  let t := t.upd (.engine e { jump := (t.d.eng e).jump, ended := (t.d.eng e).ended })
  let t := ((t.w (R.SCH_STAT.WAITING e) 0).w (R.SCH_STAT.VOIDED e) 0).w (R.ENG_QUEUE.DEPTH e) 0
  let t := if t.f (R.SCH_STAT.STATE e) = 3 then t else t.w (R.SCH_STAT.STATE e) 0
  t.raise e 6 now.toNat

/-- Every engine is over. -/
def Tx.engsOff (t : Tx d0) (now : Epoch) : Tx d0 := t.each (List.range 64) (fun e u => u.engOff now e)

namespace Rest

variable {strict : Bool} {out : List Fld} {d : Device} {t : Tx d0} (h : Rest strict out d t.d)
include h

theorem runClose (now : Epoch) : Rest strict out d (t.runClose now).d := by
  refine Rest.each (Rest.each ((h.upd (by rfl) (u := .keep _))) _ ?_) _ ?_
  · exact fun n _ u hu => .ite ((hu.ev (.tileReg (by decide))).closeWin _ _ _ _) hu
  · intro tl _ u hu
    have hmix := (((hu.capShotEnd tl).closeShot tl).dropTileHeld tl).each (List.range 20) (g := fun i t => t.freeMixer (20 * tl + i)) fun i _ _ hv => hv.freeMixer _
    exact Rest.modTile (.ite (hmix.idleTile tl) hmix) _ _

/-- The STATE of an engine is cleared but for FAULT. -/
theorem idleState (e : Nat) : Rest strict out d (if t.f (R.SCH_STAT.STATE e) = 3 then t else t.w (R.SCH_STAT.STATE e) 0).d := by
  split
  · exact h
  · next hne =>
    have hsame := fun p => (t.w_regsOnly (R.SCH_STAT.STATE e) 0).same p
    have hother : ∀ G : Fld, G.key ≠ (R.SCH_STAT.STATE e).key → (t.w (R.SCH_STAT.STATE e) 0).d.f G = t.d.f G := fun G hG => t.w_f_other _ G 0 hG
    refine h.trans ⟨hsame .time, congrArg Power.reset (hsame .power), congrArg RunSt.ended (hsame .run), fun G hG _ => hother G ?_,
      fun p hp h0 => (hother _ ?_).trans h0, fun _ hk => hk, fun _ hk => hk, fun k _ h3 => ?_, fun k _ h3 => ?_⟩
    · have := restFlds_low G hG
      simp only [Fld.key, R.SCH_STAT.STATE, tileOff] at this ⊢
      omega
    · simp only [Fld.key, R.FAB_PORT_STAT.IN_SERVICE, R.SCH_STAT.STATE, tileOff]
      omega
    · refine (hother _ fun hkey => hne ?_).trans h3
      rw [← schState_key_inj hkey]
      exact h3
    · by_cases hke : k = e
      · subst hke
        rw [Tx.w_f_same, Nat.zero_mod] at h3
        contradiction
      · exact .inr ⟨(hother _ fun hkey => hke (schState_key_inj hkey)).symm.trans h3, hother _ (schState_ne_fault e k).symm⟩

theorem engOff (now : Epoch) (e : Nat) : Rest strict out d (t.engOff now e).d := by
  have hover := h.engine (e := e) (x := { jump := (t.d.eng e).jump, ended := (t.d.eng e).ended }) fun _ => rfl
  exact ((((hover.w (.tile (by decide)) 0).w (.tile (by decide)) 0).w (.tile (by decide)) 0).idleState e).raise e 6 _

omit h in
/-- Once the engines are over, the end of a run drops what moves between engines, tiles and members, and what waited for it takes effect. -/
theorem endRun (h : Rest strict out d ((t.runOff.runClose t.now).engsOff t.now).d) : Rest strict out d t.endRun.d := by
  refine Rest.twinAsked (Rest.heldCommit (Rest.ripenHeld (Rest.applyTick (Rest.each (Rest.each (Rest.modTwin (Rest.upd ?_ (by rfl) (u := .dropDigs 0 32)) _) _ ?_) _ ?_))))
  · exact Rest.upd (Rest.upd (Rest.streamsAtEnd (h.each _ fun _ _ _ hu => (hu.upd (by rfl)))) (by rfl) (u := .flight [])) (by rfl) (u := .anise _)
  · exact fun _ _ _ hu => hu.upd (by rfl)
  · exact fun _ _ _ hu => hu.upd (by rfl)

end Rest

theorem Tx.engOff_dead (t : Tx d0) (now : Epoch) (e : Nat) : ((t.engOff now e).d.eng e).live = false := by
  have hover : ((t.upd (.engine e { jump := (t.d.eng e).jump, ended := (t.d.eng e).ended })).d.eng e).live = false := by
    rw [Device.eng, Tx.upd_d, applyUpd_engine_eq, bget_bset_same]
  exact (((((Rest.refl false [] _).w (.tile (by decide)) 0).w (.tile (by decide)) 0).w (.tile (by decide)) 0).idleState e |>.raise e 6 _).dead e hover

end Sys2Proof.Machine
end

section
/-! SUPPORT. A run that is stopped, as a whole (R109). -/
namespace Sys2Proof.Machine

variable {d0 : Device}

theorem Tx.engsOff_dead (t : Tx d0) (now : Epoch) (e : Fin 64) : ((t.engsOff now).d.eng e).live = false :=
  Tx.each_sets (Q := fun e u => (u.d.eng e).live = false) (fun e _ u => u.engOff_dead now e)
    (fun e _ b _ u hu => ((Rest.refl false [] u.d).engOff now b).dead e hu) t e.val (List.mem_range.mpr e.isLt)

theorem Tx.clampAdd_bit (t : Tx d0) (k : Nat) : ((t.clampAdd k 2).d.clampOf k).testBit 1 = true := by
  refine (Rest.showClamp (.refl false [] _)).clamp k ?_
  rw [Device.clampOf, Tx.upd_d, applyUpd_clamp_eq, bget_bset_same, Nat.testBit_and, Nat.testBit_or, Rest.clampBits 2]
  simp [Nat.testBit]

theorem Tx.clampAll_clamped (t : Tx d0) : AllClamped 1 (t.clampAll 2).d := fun tl k hk =>
  Tx.each_sets (Q := fun k u => (u.d.clampOf k).testBit 1 = true) (fun k _ u => u.clampAdd_bit k)
    (fun k _ j _ u hu => ((Rest.refl false [] u.d).clampAdd j 2).clamp k hu) t k
    (List.mem_flatMap.mpr ⟨tl.val, List.mem_range.mpr tl.isLt, hk⟩)

/-- What the stop of a run leaves. -/
structure Stopped (d e : Device) : Prop where
  running : e.f R.GLB_RUN_STAT.RUNNING = 0
  ended : e.run.ended = d.now
  time : e.time = d.time
  fld : ∀ F ∈ restFlds, F ≠ R.GLB_RUN_STAT.RUNNING → e.f F = d.f F
  clamped : AllClamped 1 e
  dead : ∀ e' : Fin 64, (e.eng e').live = false
  halted : ∀ e' : Fin 64, d.tileOn (e'.val / 2) = true → e.f (R.SCH_STAT.STATE e') = 3 ∧ (d.f (R.SCH_STAT.STATE e') ≠ 3 → e.f (R.SCH_STAT.FAULT e') = 8)

/-- Shots and windows close with VOID. -/
def Tx.closeAll (t : Tx d0) : Tx d0 :=
  let t := t.voidShots
  t.each (t.d.wins.map Prod.fst) (fun n t => t.closeWin n t.now.toNat true 0x40)

/-- Every engine of a powered tile halts with code 8. -/
def Tx.haltAll (t : Tx d0) : Tx d0 := t.each ((List.range 64).filter (fun e => t.d.tileOn (e / 2))) (fun e t => t.haltEngine e 8)

theorem Tx.stopRun_eq (t : Tx d0) (h : t.d.running = true) : t.stopRun = ((t.closeAll.haltAll).clampAll 2).endRun := if_pos h

theorem Tx.haltAll_state (t : Tx d0) (e : Fin 64) (h : t.d.tileOn (e.val / 2) = true) : t.haltAll.d.f (R.SCH_STAT.STATE e) = 3 :=
  Tx.each_sets (Q := fun e u => u.d.f (R.SCH_STAT.STATE e) = 3) (fun e _ u => u.haltEngine_state e)
    (fun e _ b _ u hu => ((Rest.refl true [] u.d).haltEngine b).stays e (.inl rfl) hu) t e.val (List.mem_filter.mpr ⟨List.mem_range.mpr e.isLt, h⟩)

theorem Tx.runOff_f (t : Tx d0) (F : Fld) : t.runOff.d.f F = (t.w R.GLB_RUN_STAT.RUNNING 0).d.f F := rfl

theorem Tx.runOff_fld (t : Tx d0) {F : Fld} (h : F ∈ restFlds) (hne : F ≠ R.GLB_RUN_STAT.RUNNING) : t.runOff.d.f F = t.d.f F :=
  (t.runOff_f F).trans <| t.w_f_other _ F _ fun hk => hne (restFlds_inj F h _ (by decide) hk)

theorem schStat_low (e : Nat) : (R.SCH_STAT.STATE e).key ≠ R.GLB_RUN_STAT.RUNNING.key ∧ (R.SCH_STAT.FAULT e).key ≠ R.GLB_RUN_STAT.RUNNING.key := by
  simp only [Fld.key, R.SCH_STAT.STATE, R.SCH_STAT.FAULT, R.GLB_RUN_STAT.RUNNING, tileOff]
  omega

theorem Tx.stopRun_spec (t : Tx d0) (h : t.d.running = true) : Stopped t.d t.stopRun.d := by
  rw [t.stopRun_eq h]
  have hclose : Rest true [] t.d t.closeAll.d := (Rest.refl true [] t.d).voidShots.each _ fun _ _ _ hu => hu.closeWin _ _ _ _
  have hafter : Rest true [] t.closeAll.haltAll.d (t.closeAll.haltAll.clampAll 2).d := (Rest.refl true [] _).clampAll 2
  have hhalt : Rest true [] t.d (t.closeAll.haltAll.clampAll 2).d := (hclose.each _ fun e _ _ hu => hu.haltEngine e).clampAll 2
  have hstate : ∀ e : Fin 64, t.d.tileOn (e.val / 2) = true → (t.closeAll.haltAll.clampAll 2).d.f (R.SCH_STAT.STATE e) = 3 :=
    fun e he => hafter.stays e (.inl rfl) (t.closeAll.haltAll_state e (by rw [hclose.tileOn]; exact he))
  have hclamped := t.closeAll.haltAll.clampAll_clamped
  generalize t.closeAll.haltAll.clampAll 2 = u at hhalt hstate hclamped
  have hengs := ((Rest.refl true [] u.runOff.d).runClose u.now).each (List.range 64) (g := fun e v => v.engOff u.now e) fun e _ _ hv => hv.engOff _ e
  have hrun : Rest true [] u.runOff.d u.endRun.d := .endRun hengs
  have htail : Rest true [] ((u.runOff.runClose u.now).engsOff u.now).d u.endRun.d := .endRun (.refl true [] _)
  refine ⟨(hrun.fld _ (by decide) (by simp)).trans ((u.runOff_f _).trans (Tx.w_f_same ..)), hrun.ended.trans hhalt.now, hrun.time.trans hhalt.time,
    fun F hF hne => ((hrun.fld F hF (by simp)).trans (u.runOff_fld hF hne)).trans (hhalt.fld F hF (by simp)),
    fun tl k hk => hrun.clamp k (hclamped tl k hk), fun e => htail.dead e ((u.runOff.runClose u.now).engsOff_dead u.now e), fun e he => ?_⟩
  have hoff : u.runOff.d.f (R.SCH_STAT.STATE e) = 3 :=
    (u.runOff_f _).trans ((u.w_f_other _ _ _ (schStat_low e).1).trans (hstate e he))
  have h3 := hrun.stays e (.inl rfl) hoff
  refine ⟨h3, fun hne => ?_⟩
  have hcode : u.d.f (R.SCH_STAT.FAULT e) = 8 := (hhalt.fresh e (.inl rfl) (hstate e he)).resolve_right fun hd => hne hd.1
  exact (hrun.fresh e (.inl rfl) h3).elim id fun hd => hd.2.trans ((u.runOff_f _).trans ((u.w_f_other _ _ _ (schStat_low e).2).trans hcode))

end Sys2Proof.Machine
end

section
/-! SUPPORT. A timebase fault with no work under way, and the ends of REFCLK and of the PLL's lock (R107 to R109, R726, R727). -/
namespace Sys2Proof.Machine

variable {d0 : Device}

/-! What such a fault touches -/

/-- From `d` to `e` nothing may have changed but the register file, the timebase, the power state, the Keep's queue, the twin's notes, the pending vectors
and the note of the clock's events. -/
def LossOnly (d e : Device) : Prop :=
  ∃ flds time power keep twin pba evNow,
    e = { d with flds := flds, time := time, power := power, keep := keep, twin := twin, pba := pba, evNow := evNow }

theorem LossOnly.trans {d e g : Device} (h : LossOnly d e) (h' : LossOnly e g) : LossOnly d g := by
  obtain ⟨_, _, _, _, _, _, _, rfl⟩ := h
  obtain ⟨_, _, _, _, _, _, _, rfl⟩ := h'
  exact ⟨_, _, _, _, _, _, _, rfl⟩

theorem TimeOnly.lossOnly {d e : Device} (h : TimeOnly d e) : LossOnly d e := by
  obtain ⟨_, _, _, _, rfl⟩ := h
  exact ⟨_, _, _, _, _, _, _, rfl⟩

theorem TimeOnly.power {d e : Device} (h : TimeOnly d e) : e.power = d.power := by
  obtain ⟨_, _, _, _, rfl⟩ := h
  rfl

theorem TimeOnly.twin {d e : Device} (h : TimeOnly d e) : e.twin = d.twin := by
  obtain ⟨_, _, _, _, rfl⟩ := h
  rfl

theorem TimeOnly.st {d e : Device} (h : TimeOnly d e) : e.st = d.st := by
  obtain ⟨_, _, _, _, rfl⟩ := h
  rfl

/-- What a command makes of the state where it touches no more than that. -/
theorem State.of_lossOnly (s : State) {x : Device} (h : LossOnly (Tx.start s.dev).d x) :
    ({ s with dev := x } : State) = { s with dev := { s.dev with
      flds := x.flds, time := x.time, power := x.power, keep := x.keep, twin := x.twin, pba := x.pba, evNow := x.evNow, out := [] } } := by
  obtain ⟨_, _, _, _, _, _, _, rfl⟩ := h
  rfl

/-! A FAULT record -/

/-- The fields in which the Keep shows a FAULT record, or that it was dropped. -/
def faultFlds : List Fld := [R.KEEP_STAT.QUEUE, R.KEEP_CNT.FAULT_DROPPED, R.KEEP_EVT.FAULT_DROP]

/-- From `d` to `e` the Keep has taken a FAULT record, or dropped one. -/
structure Recorded (d e : Device) : Prop where
  onlyFields : OnlyFields faultFlds d e
  frame : ∃ flds keep pba evNow, e = { d with flds := flds, keep := keep, pba := pba, evNow := evNow }

theorem Tx.showQueue_recorded (t : Tx d0) : Recorded t.d t.showQueue.d := by
  unfold Tx.showQueue
  split
  · exact ⟨(t.w_onlyFields _ _).mono (by simp [faultFlds]), _, _, _, _, rfl⟩
  · exact ⟨.refl _ _, _, _, _, _, rfl⟩

theorem Tx.modKeep_recorded (t : Tx d0) (g : Keep → Keep) : Recorded t.d (t.modKeep g).d := ⟨fun _ _ => rfl, _, _, _, _, rfl⟩

theorem Recorded.trans {d e g : Device} (h : Recorded d e) (h' : Recorded e g) : Recorded d g := by
  refine ⟨(h.onlyFields.trans h'.onlyFields).mono (by simp), ?_⟩
  obtain ⟨_, _, _, _, rfl⟩ := h.frame
  obtain ⟨_, _, _, _, rfl⟩ := h'.frame
  exact ⟨_, _, _, _, rfl⟩

theorem Tx.faultDropped_recorded (t : Tx d0) : Recorded t.d ((t.inc R.KEEP_CNT.FAULT_DROPPED).ev R.KEEP_EVT.FAULT_DROP).d := by
  refine ⟨((t.w_onlyFields R.KEEP_CNT.FAULT_DROPPED _).trans (Tx.ev_onlyFields _ _)).mono (by simp [faultFlds]), ?_⟩
  obtain ⟨_, _, _, hx⟩ := (t.w_regFileOnly R.KEEP_CNT.FAULT_DROPPED _).trans ((t.inc R.KEEP_CNT.FAULT_DROPPED).ev_regFileOnly R.KEEP_EVT.FAULT_DROP)
  exact ⟨_, _, _, _, hx⟩

theorem Tx.fault_recorded (t : Tx d0) (code detail : Nat) : Recorded t.d (t.fault code detail).d := by
  unfold Tx.fault
  dsimp only
  split
  · exact (t.modKeep_recorded _).trans (Tx.showQueue_recorded _)
  · split
    · exact (t.modKeep_recorded _).trans (Tx.faultDropped_recorded _)
    · exact t.faultDropped_recorded

/-! A timebase fault, and the work it finds -/

/-- A LEAD notes that its timebase was lost (R629). -/
def Tx.noteTwin (t : Tx d0) : Tx d0 := if t.f R.TWIN_STAT.STATE = 2 then t.modTwin (fun x => { x with lostTime := true }) else t

/-- The detail of the FAULT record of a timebase fault (R652). -/
def Device.lossDetail (d : Device) : Nat := d.f R.TB_STAT.SLIP * 2 + d.f R.TB_STAT.REF_LOST

theorem Tx.timebaseFault_eq (t : Tx d0) : t.timebaseFault = (t.noteTwin.stopWork).fault 0x0102 t.noteTwin.d.lossDetail := rfl

/-- The twin's notes after a timebase fault. -/
def Device.twinLost (d : Device) : Twin := if d.f R.TWIN_STAT.STATE = 2 then { d.twin with lostTime := true } else d.twin

theorem Tx.noteTwin_d (t : Tx d0) : t.noteTwin.d = { t.d with twin := t.d.twinLost } := by
  unfold Tx.noteTwin Device.twinLost Tx.f
  by_cases h : t.d.f R.TWIN_STAT.STATE = 2
  · rw [if_pos h, if_pos h]
    rfl
  · rw [if_neg h, if_neg h]

theorem Tx.stopWork_of_idle (t : Tx d0) (h : Idle t.d) : t.stopWork = t := by
  obtain ⟨hrun, hbusy, hinitial, hbegun⟩ := h
  have hstop : t.stopRun = t := if_neg (by simp [Tx.running, hrun])
  have habort : t.fgAbort = t := if_neg (by simp [Tx.b, hbusy, hinitial])
  have hself : t.stAbort = t := if_neg (by simp [hbegun])
  rw [Tx.stopWork, hstop, habort, hself]

/-- A timebase fault with no work under way. -/
structure IdleFault (d e : Device) : Prop where
  twin : e.twin = d.twinLost
  time : e.time = d.time
  power : e.power = d.power
  onlyFields : OnlyFields faultFlds d e
  frame : LossOnly d e

theorem Tx.timebaseFault_of_idle (t : Tx d0) (h : Idle t.d) : IdleFault t.d t.timebaseFault.d := by
  have hidle : t.noteTwin.stopWork = t.noteTwin := t.noteTwin.stopWork_of_idle (by rw [t.noteTwin_d]; exact h)
  rw [t.timebaseFault_eq, hidle]
  have hrec := t.noteTwin.fault_recorded 0x0102 t.noteTwin.d.lossDetail
  generalize (t.noteTwin.fault 0x0102 t.noteTwin.d.lossDetail).d = x at hrec
  rw [t.noteTwin_d] at hrec
  have honly : OnlyFields faultFlds t.d x := hrec.onlyFields
  obtain ⟨_, _, _, _, hx⟩ := hrec.frame
  subst hx
  exact ⟨rfl, rfl, rfl, honly, _, _, _, _, _, _, _, rfl⟩

theorem Tx.showPorts_syncOk (t : Tx d0) (h : t.d.f R.TB_STAT.SYNCED = 0) : t.showPorts.d.f R.TB_STAT.SYNC_OK = 0 := by
  have hb : t.b R.TB_STAT.SYNCED = false := by simp [Tx.b, Device.b, h]
  refine (Tx.w_f_other _ _ _ _ (by decide)).trans ((Tx.w_f_other _ _ _ _ (by decide)).trans ?_)
  rw [Tx.wb, Tx.w_f_same, hb]
  rfl

/-! REFCLK is lost -/

/-- REFCLK is noted as lost, and a sync on its way is dropped (R107, R727). -/
def Tx.refLost (t : Tx d0) : Tx d0 :=
  let t := (t.ev R.TB_STAT.REF_LOST).wb R.TB_STAT.REF_OK false
  let t := t.wb R.TB_STAT.SYNCED false
  let t := if t.d.time.sync.isEmpty then t else t.ev R.TB_STAT.SYNC_IGNORED
  t.modTime (fun x => { x with held := true, refclk := false, good := 0, sync := [], syncRise := false })

theorem effRefclkLost_eq (t : Tx d0) (h : t.d.time.held = false) (hdue : t.d.syncsDue = []) :
    effRefclkLost t = ((t.refLost.timebaseFault).stopClocks).showPorts.showWait := by
  unfold effRefclkLost
  rw [h, t.takeSyncs_none hdue]
  rfl

/-- What the loss of REFCLK makes of the device before the fault. -/
structure RefLost (d e : Device) : Prop where
  lost : e.f R.TB_STAT.REF_LOST = 1
  refOk : e.f R.TB_STAT.REF_OK = 0
  synced : e.f R.TB_STAT.SYNCED = 0
  ignored : e.f R.TB_STAT.SYNC_IGNORED = if d.time.sync = [] then d.f R.TB_STAT.SYNC_IGNORED else 1
  time : e.time = { d.time with held := true, refclk := false, good := 0, sync := [], syncRise := false }
  onlyFields : OnlyFields [R.TB_STAT.REF_LOST, R.TB_STAT.REF_OK, R.TB_STAT.SYNCED, R.TB_STAT.SYNC_IGNORED] d e
  frame : TimeOnly d e

theorem Tx.refLost_spec (t : Tx d0) : RefLost t.d t.refLost.d := by
  let u := ((t.ev R.TB_STAT.REF_LOST).wb R.TB_STAT.REF_OK false).wb R.TB_STAT.SYNCED false
  have hlost : u.d.f R.TB_STAT.REF_LOST = 1 :=
    (Tx.w_f_other _ _ _ _ (by decide)).trans ((Tx.w_f_other _ _ _ _ (by decide)).trans (t.ev_f_same _ rfl))
  have hok : u.d.f R.TB_STAT.REF_OK = 0 := (Tx.w_f_other _ _ _ _ (by decide)).trans (Tx.w_f_same ..)
  have hsynced : u.d.f R.TB_STAT.SYNCED = 0 := Tx.w_f_same ..
  have honly : OnlyFields [R.TB_STAT.REF_LOST, R.TB_STAT.REF_OK, R.TB_STAT.SYNCED] t.d u.d :=
    ((t.ev_onlyFields _).trans (Tx.w_onlyFields _ _ _)).trans (Tx.w_onlyFields _ _ _)
  have hframe : RegFileOnly t.d u.d := ((t.ev_regFileOnly _).trans (Tx.w_regFileOnly _ _ _)).trans (Tx.w_regFileOnly _ _ _)
  have heq : t.refLost = (if u.d.time.sync.isEmpty then u else u.ev R.TB_STAT.SYNC_IGNORED).modTime
      (fun x => { x with held := true, refclk := false, good := 0, sync := [], syncRise := false }) := rfl
  have htime : u.d.time = t.d.time := hframe.time
  rw [heq]
  clear_value u
  by_cases hs : t.d.time.sync = []
  · rw [if_pos (by rw [htime, hs]; rfl)]
    exact ⟨hlost, hok, hsynced, (honly _ (by decide)).trans (if_pos hs).symm, by rw [Tx.modTime_time, htime],
      honly.mono (by simp), hframe.timeOnly.trans (Tx.modTime_timeOnly _ _)⟩
  · rw [if_neg (by rw [htime]; simpa using hs)]
    have hev := u.ev_onlyFields R.TB_STAT.SYNC_IGNORED
    exact ⟨(hev _ (by decide)).trans hlost, (hev _ (by decide)).trans hok, (hev _ (by decide)).trans hsynced,
      (u.ev_f_same _ rfl).trans (if_neg hs).symm, by rw [Tx.modTime_time, Tx.ev_time, htime], (honly.trans hev).mono (by simp),
      (hframe.trans (u.ev_regFileOnly _)).timeOnly.trans (Tx.modTime_timeOnly _ _)⟩

theorem exec_refclkLost (s : State) : exec .refclkLost s = .next { s with dev := (effRefclkLost (Tx.start s.dev)).d } := by rfl

/-- REFCLK is lost with no work under way: the device before the fast clocks are looked at. -/
structure IdleLost (d e : Device) : Prop where
  lost : e.f R.TB_STAT.REF_LOST = 1
  refOk : e.f R.TB_STAT.REF_OK = 0
  synced : e.f R.TB_STAT.SYNCED = 0
  ignored : e.f R.TB_STAT.SYNC_IGNORED = if d.time.sync = [] then d.f R.TB_STAT.SYNC_IGNORED else 1
  twin : e.twin = d.twinLost
  time : e.time = { d.time with held := true, refclk := false, good := 0, sync := [], syncRise := false }
  power : e.power = d.power
  onlyFields : OnlyFields ([R.TB_STAT.REF_LOST, R.TB_STAT.REF_OK, R.TB_STAT.SYNCED, R.TB_STAT.SYNC_IGNORED] ++ faultFlds) d e
  frame : LossOnly d e

theorem Tx.refLost_timebaseFault (t : Tx d0) (h : Idle t.d) : IdleLost t.d t.refLost.timebaseFault.d := by
  have hlost := t.refLost_spec
  obtain ⟨hrun, hbusy, hinitial, hbegun⟩ := h
  have hfault := t.refLost.timebaseFault_of_idle ⟨(hlost.onlyFields.b (by decide)).trans hrun, (hlost.onlyFields.b (by decide)).trans hbusy,
    (hlost.onlyFields.b (by decide)).trans hinitial, by rw [hlost.frame.st]; exact hbegun⟩
  have hf := hfault.onlyFields
  refine ⟨(hf _ (by decide)).trans hlost.lost, (hf _ (by decide)).trans hlost.refOk, (hf _ (by decide)).trans hlost.synced,
    (hf _ (by decide)).trans hlost.ignored, ?_, hfault.time.trans hlost.time, hfault.power.trans hlost.frame.power, hlost.onlyFields.trans hf,
    hlost.frame.lossOnly.trans hfault.frame⟩
  rw [hfault.twin, Device.twinLost, Device.twinLost, hlost.onlyFields _ (by decide), hlost.frame.twin]

end Sys2Proof.Machine
end

section
/-! SUPPORT. What a timebase fault stops, and the loss of REFCLK and of the PLL's lock in every state (R107 to R109, R678, R726, R727). -/
namespace Sys2Proof.Machine

variable {d0 : Device}

/-! A foreground calibration is aborted -/

/-- The steps of a foreground calibration, its paths and its coefficients not yet applied are given up. -/
def Tx.abortSteps (t : Tx d0) : Tx d0 :=
  let t := t.dropSteps (fun _ => true)
  let t := t.each (t.d.calPaths.map Prod.fst) (fun n t => t.modCalPath n (fun x => { x with fg := false }))
  (t.dropDue).modCalib (fun c => { c with req := 0, wait := false })

theorem Rest.abortSteps {strict : Bool} {out : List Fld} {d : Device} {t : Tx d0} (h : Rest strict out d t.d) : Rest strict out d t.abortSteps.d :=
  Rest.modCalib (Rest.dropDue ((h.dropSteps _).each _ fun _ _ _ hu => hu.modCalPath _ _)) _

theorem Tx.fgAbort_busy (t : Tx d0) (h : t.d.b R.CAL_STAT.FG_BUSY = true) :
    t.fgAbort = (((t.w R.CAL_REQ_STAT.RESULT 4).wb R.CAL_STAT.FG_BUSY false).wb R.CAL_STAT.INITIAL false).abortSteps := by
  have hb : t.b R.CAL_STAT.FG_BUSY = true := h
  unfold Tx.fgAbort
  rw [if_pos (by rw [hb]; rfl), if_pos hb]
  rfl

theorem Tx.fgAbort_spec (t : Tx d0) (h : t.d.b R.CAL_STAT.FG_BUSY = true) :
    t.fgAbort.d.f R.CAL_STAT.FG_BUSY = 0 ∧ t.fgAbort.d.f R.CAL_REQ_STAT.RESULT = 4 := by
  rw [t.fgAbort_busy h]
  have hrest := (Rest.refl false [] (((t.w R.CAL_REQ_STAT.RESULT 4).wb R.CAL_STAT.FG_BUSY false).wb R.CAL_STAT.INITIAL false).d).abortSteps
  exact ⟨(hrest.fld _ (by decide) (by simp)).trans ((Tx.w_f_other _ _ _ _ (by decide)).trans (Tx.w_f_same ..)),
    (hrest.fld _ (by decide) (by simp)).trans ((Tx.w_f_other _ _ _ _ (by decide)).trans ((Tx.w_f_other _ _ _ _ (by decide)).trans (Tx.w_f_same ..)))⟩

/-! A timebase fault -/

/-- The fields that say what work there is. -/
def workFlds : List Fld := [R.GLB_RUN_STAT.RUNNING, R.CAL_STAT.FG_BUSY, R.CAL_REQ_STAT.RESULT]

/-- A calibration and a self-test stop, and the FAULT record is made, behind the end of a run. -/
def Tx.faultRest (t : Tx d0) (detail : Nat) : Tx d0 := (t.fgAbort.stAbort).fault 0x0102 detail

theorem Rest.faultRest {strict : Bool} {out : List Fld} {d : Device} {t : Tx d0} (h : Rest strict out d t.d) (hbusy : R.CAL_STAT.FG_BUSY ∈ out)
    (hresult : R.CAL_REQ_STAT.RESULT ∈ out) (detail : Nat) : Rest strict out d (t.faultRest detail).d := ((h.fgAbort hbusy hresult).stAbort).fault _ _

theorem Tx.timebaseFault_stop (t : Tx d0) : t.timebaseFault = t.noteTwin.stopRun.faultRest t.noteTwin.d.lossDetail := rfl

/-- The run's part of what a timebase fault leaves. -/
structure RunOver (d e : Device) : Prop where
  running : e.f R.GLB_RUN_STAT.RUNNING = 0
  ended : e.run.ended = d.now
  clamped : AllClamped 1 e
  dead : ∀ k : Fin 64, (e.eng k).live = false
  halted : ∀ k : Fin 64, d.tileOn (k.val / 2) = true → e.f (R.SCH_STAT.STATE k) = 3 ∧ (d.f (R.SCH_STAT.STATE k) ≠ 3 → e.f (R.SCH_STAT.FAULT k) = 8)

/-- Once a run is over, what stops behind it leaves it over. -/
theorem RunOver.rest {d e g : Device} {out : List Fld} (h : RunOver d e) (hr : Rest false out e g) (hout : R.GLB_RUN_STAT.RUNNING ∉ out) : RunOver d g := by
  refine ⟨(hr.fld _ (by decide) hout).trans h.running, hr.ended.trans h.ended, fun tl k hk => hr.clamp k (h.clamped tl k hk),
    fun k => hr.dead k (h.dead k), fun k hk => ?_⟩
  obtain ⟨h3, h8⟩ := h.halted k hk
  have hg3 := hr.stays k (.inr (h.dead k)) h3
  exact ⟨hg3, fun hne => (hr.fresh k (.inr (h.dead k)) hg3).elim id fun hd => hd.2.trans (h8 hne)⟩

/-- What a timebase fault leaves, whatever work there was (R109). -/
structure Faulted (d e : Device) : Prop where
  time : e.time = d.time
  fld : ∀ F ∈ restFlds, F ∉ workFlds → e.f F = d.f F
  run : d.running = true → RunOver d e
  abort : d.running = false → d.b R.CAL_STAT.FG_BUSY = true → e.f R.CAL_STAT.FG_BUSY = 0 ∧ e.f R.CAL_REQ_STAT.RESULT = 4

theorem Tx.stopRun_faultRest_spec (t : Tx d0) (detail : Nat) : Faulted t.d (t.stopRun.faultRest detail).d := by
  have hrest : Rest false workFlds t.stopRun.d (t.stopRun.faultRest detail).d := (Rest.refl false workFlds _).faultRest (by decide) (by decide) detail
  cases hrun : t.d.running with
  | true =>
    have hstop := t.stopRun_spec hrun
    have hover : RunOver t.d t.stopRun.d := ⟨hstop.running, hstop.ended, hstop.clamped, hstop.dead, hstop.halted⟩
    have hkept : Rest false [R.CAL_STAT.FG_BUSY, R.CAL_REQ_STAT.RESULT] t.stopRun.d (t.stopRun.faultRest detail).d :=
      (Rest.refl false _ _).faultRest (by decide) (by decide) detail
    exact ⟨hrest.time.trans hstop.time,
      fun F hF hw => (hrest.fld F hF hw).trans (hstop.fld F hF fun hk => hw (hk ▸ by decide)), fun _ => hover.rest hkept (by decide),
      fun h => absurd (hrun.symm.trans h) (by decide)⟩
  | false =>
    have hsame : t.stopRun = t := if_neg (by simp [Tx.running, hrun])
    rw [hsame] at hrest ⊢
    refine ⟨hrest.time, hrest.fld, fun h => absurd (hrun.symm.trans h) (by decide), fun _ hbusy => ?_⟩
    obtain ⟨h0, h4⟩ := t.fgAbort_spec hbusy
    have hlast : Rest false [] t.fgAbort.d (t.faultRest detail).d := ((Rest.refl false [] _).stAbort).fault _ _
    exact ⟨(hlast.fld _ (by decide) (by simp)).trans h0, (hlast.fld _ (by decide) (by simp)).trans h4⟩

theorem Tx.timebaseFault_spec (t : Tx d0) : Faulted t.d t.timebaseFault.d := by
  rw [t.timebaseFault_stop]
  have h := t.noteTwin.stopRun_faultRest_spec t.noteTwin.d.lossDetail
  generalize (t.noteTwin.stopRun.faultRest t.noteTwin.d.lossDetail).d = x at h
  rw [t.noteTwin_d] at h
  refine ⟨h.time, h.fld, fun hr => ?_, h.abort⟩
  obtain ⟨hrunning, hended, hclamped, hdead, hhalted⟩ := h.run hr
  exact ⟨hrunning, hended, hclamped, hdead, hhalted⟩

/-! The clocks asleep -/

theorem Tx.stopClocks_asleep (t : Tx d0) (h : t.d.b R.TB_STAT.AWAKE = false) : t.stopClocks = t.abandonWake := if_neg (by simp [Tx.b, h])

theorem Tx.stopClocks_awake (t : Tx d0) (h : t.d.b R.TB_STAT.AWAKE = true) : t.stopClocks = t.gate := if_pos h

theorem Tx.abandonWake_rest (t : Tx d0) (h : t.d.f R.PWR_STAT.STATE ≠ 1) : t.abandonWake = t := if_neg h

/-- A wake that is aborted is asked for again (R678). -/
structure WakeAborted (d e : Device) : Prop where
  locked : e.f R.TB_STAT.LOCKED = 0
  state : e.f R.PWR_STAT.STATE = 0
  event : e.f R.PWR_EVT.WAKE_ABORT = 1
  power : e.power = { d.power with wakeEdges := 0, clocks := 0, wakeReq := true }
  time : e.time = d.time
  onlyFields : OnlyFields [R.TB_STAT.LOCKED, R.PWR_STAT.STATE, R.PWR_EVT.WAKE_ABORT] d e
  frame : LossOnly d e

theorem Tx.abandonWake_spec (t : Tx d0) (h : t.d.f R.PWR_STAT.STATE = 1) : WakeAborted t.d t.abandonWake.d := by
  let u := ((t.wb R.TB_STAT.LOCKED false).w R.PWR_STAT.STATE 0).ev R.PWR_EVT.WAKE_ABORT
  have heq : t.abandonWake = u.modPower (fun x => { x with wakeEdges := 0, clocks := 0, wakeReq := true }) := if_pos h
  have hlocked : u.d.f R.TB_STAT.LOCKED = 0 := (Tx.ev_f_other _ _ _ (by decide)).trans ((Tx.w_f_other _ _ _ _ (by decide)).trans (Tx.w_f_same ..))
  have hstate : u.d.f R.PWR_STAT.STATE = 0 := (Tx.ev_f_other _ _ _ (by decide)).trans (Tx.w_f_same ..)
  have hevent : u.d.f R.PWR_EVT.WAKE_ABORT = 1 := Tx.ev_f_same _ _ rfl
  have honly : OnlyFields [R.TB_STAT.LOCKED, R.PWR_STAT.STATE, R.PWR_EVT.WAKE_ABORT] t.d u.d :=
    ((t.w_onlyFields _ _).trans (Tx.w_onlyFields _ _ _)).trans (Tx.ev_onlyFields _ _)
  have hframe : RegFileOnly t.d u.d := ((t.w_regFileOnly _ _).trans (Tx.w_regFileOnly _ _ _)).trans (Tx.ev_regFileOnly _ _)
  have hpower : u.d.power = t.d.power := hframe.timeOnly.power
  rw [heq]
  clear_value u
  refine ⟨hlocked, hstate, hevent, ?_, hframe.time, honly, hframe.timeOnly.lossOnly.trans ⟨_, _, _, _, _, _, _, rfl⟩⟩
  rw [← hpower]
  rfl

theorem Device.wakeMiss_odd {d : Device} (h : d.f R.TB_STAT.REF_OK = 0) : d.wakeMiss % 2 = 1 := by
  have hb : d.b R.TB_STAT.REF_OK = false := by simp [Device.b, h]
  simp only [Device.wakeMiss, hb, Bool.not_false, Bool.toNat_true]
  omega

/-- Where a wake is asked for and REFCLK is missing, WAIT shows it (R667). -/
theorem Tx.showWait_bit (t : Tx d0) (hreq : t.d.power.wakeReq = true) (hstate : t.d.f R.PWR_STAT.STATE = 0) (hok : t.d.f R.TB_STAT.REF_OK = 0) :
    (t.showWait.d.f R.PWR_STAT.WAIT).testBit 0 = true := by
  have hmiss := Device.wakeMiss_odd hok
  have hcond : (t.d.power.wakeReq && decide (t.f R.PWR_STAT.STATE = 0)) = true := by
    rw [hreq, show t.f R.PWR_STAT.STATE = 0 from hstate]
    rfl
  rw [Tx.showWait, Tx.w_f_same, if_pos hcond, Nat.testBit_zero, decide_eq_true_eq, show R.PWR_STAT.WAIT.width = 6 from rfl]
  omega

end Sys2Proof.Machine
end

section
/-! SUPPORT. The commands REFCLK_LOST, REFCLK_RESTORED and PLL_LOCK_LOST in each of their cases. -/
namespace Sys2Proof.Machine

variable {d0 : Device}

/-- The ports and the held wake are shown after the loss of REFCLK. -/
theorem Tx.showLoss_onlyFields (t : Tx d0) :
    OnlyFields ([R.TB_STAT.SYNC_OK, R.FAB_STAT.PORTS_OK, R.GLB_IMG_STAT.PLAN_MISMATCH] ++ [R.PWR_STAT.WAIT]) t.d t.showPorts.showWait.d :=
  t.showPorts_onlyFields.trans t.showPorts.showWait_onlyFields

theorem Tx.showLoss_timeOnly (t : Tx d0) : TimeOnly t.d t.showPorts.showWait.d := (t.showPorts_regsOnly.trans t.showPorts.showWait_regsOnly).timeOnly

theorem LossOnly.power_eq {s : State} {x : Device} (h : LossOnly (Tx.start s.dev).d x) (hp : x.power = s.dev.power) :
    ({ s with dev := x } : State) = { s with dev := { s.dev with
      flds := x.flds, time := x.time, keep := x.keep, twin := x.twin, pba := x.pba, evNow := x.evNow, out := [] } } := by
  rw [s.of_lossOnly h, hp]

/-- REFCLK is lost with no work under way and no wake (R107, R727). -/
structure LostAsleep (d e : Device) : Prop where
  lost : e.f R.TB_STAT.REF_LOST = 1
  refOk : e.f R.TB_STAT.REF_OK = 0
  synced : e.f R.TB_STAT.SYNCED = 0
  twin : e.twin = d.twinLost
  syncOk : e.f R.TB_STAT.SYNC_OK = 0
  time : e.time = { d.time with held := true, refclk := false, good := 0, sync := [], syncRise := false }
  ignored : e.f R.TB_STAT.SYNC_IGNORED = if d.time.sync = [] then d.f R.TB_STAT.SYNC_IGNORED else 1
  onlyFields : OnlyFields [R.TB_STAT.REF_LOST, R.TB_STAT.REF_OK, R.TB_STAT.SYNCED, R.TB_STAT.SYNC_OK, R.TB_STAT.SYNC_IGNORED, R.FAB_STAT.PORTS_OK,
    R.GLB_IMG_STAT.PLAN_MISMATCH, R.PWR_STAT.WAIT, R.KEEP_STAT.QUEUE, R.KEEP_CNT.FAULT_DROPPED, R.KEEP_EVT.FAULT_DROP] d e
  power : e.power = d.power
  frame : LossOnly d e

theorem effRefclkLost_asleep (t : Tx d0) (hidle : Idle t.d) (hsleep : t.d.b R.TB_STAT.AWAKE = false) (hstate : t.d.f R.PWR_STAT.STATE ≠ 1)
    (hheld : t.d.time.held = false) (hdue : t.d.syncsDue = []) : LostAsleep t.d (effRefclkLost t).d := by
  rw [effRefclkLost_eq t hheld hdue]
  have hx := t.refLost_timebaseFault hidle
  generalize t.refLost.timebaseFault = x at hx
  have hstop : x.stopClocks = x := by
    rw [x.stopClocks_asleep ((hx.onlyFields.b (by decide)).trans hsleep)]
    exact x.abandonWake_rest (by rw [hx.onlyFields _ (by decide)]; exact hstate)
  rw [hstop]
  have hshow := x.showLoss_onlyFields
  have hframe := x.showLoss_timeOnly
  have hregs := (x.showPorts_regsOnly.trans x.showPorts.showWait_regsOnly).regFileOnly
  exact ⟨(hshow _ (by decide)).trans hx.lost, (hshow _ (by decide)).trans hx.refOk, (hshow _ (by decide)).trans hx.synced, hframe.twin.trans hx.twin,
    (x.showPorts.showWait_onlyFields _ (by decide)).trans (x.showPorts_syncOk hx.synced), hregs.time.trans hx.time, (hshow _ (by decide)).trans hx.ignored,
    (hx.onlyFields.trans hshow).mono (by simp [faultFlds]), hframe.power.trans hx.power, hx.frame.trans hframe.lossOnly⟩

/-- REFCLK is lost in a wake (R678, R726). -/
structure LostWaking (d e : Device) : Prop where
  lost : e.f R.TB_STAT.REF_LOST = 1
  refOk : e.f R.TB_STAT.REF_OK = 0
  synced : e.f R.TB_STAT.SYNCED = 0
  locked : e.f R.TB_STAT.LOCKED = 0
  state : e.f R.PWR_STAT.STATE = 0
  event : e.f R.PWR_EVT.WAKE_ABORT = 1
  wait : (e.f R.PWR_STAT.WAIT).testBit 0 = true
  power : e.power = { d.power with wakeEdges := 0, clocks := 0, wakeReq := true }
  time : e.time = { d.time with held := true, refclk := false, good := 0, sync := [], syncRise := false }
  frame : LossOnly d e

theorem effRefclkLost_waking (t : Tx d0) (hidle : Idle t.d) (hsleep : t.d.b R.TB_STAT.AWAKE = false) (hstate : t.d.f R.PWR_STAT.STATE = 1)
    (hheld : t.d.time.held = false) (hdue : t.d.syncsDue = []) : LostWaking t.d (effRefclkLost t).d := by
  rw [effRefclkLost_eq t hheld hdue]
  have hx := t.refLost_timebaseFault hidle
  generalize t.refLost.timebaseFault = x at hx
  have hy := x.abandonWake_spec ((hx.onlyFields _ (by decide)).trans hstate)
  rw [x.stopClocks_asleep ((hx.onlyFields.b (by decide)).trans hsleep)]
  generalize x.abandonWake = y at hy
  have hshow := y.showLoss_onlyFields
  have hframe := y.showLoss_timeOnly
  have hregs := (y.showPorts_regsOnly.trans y.showPorts.showWait_regsOnly).regFileOnly
  have hpower : y.d.power = { t.d.power with wakeEdges := 0, clocks := 0, wakeReq := true } := by rw [hy.power, hx.power]
  have hok : y.d.f R.TB_STAT.REF_OK = 0 := (hy.onlyFields _ (by decide)).trans hx.refOk
  have hports := y.showPorts_onlyFields
  have hwait := y.showPorts.showWait_bit (by rw [y.showPorts_regsOnly.timeOnly.power, hpower]) ((hports _ (by decide)).trans hy.state)
    ((hports _ (by decide)).trans hok)
  exact ⟨(hshow _ (by decide)).trans ((hy.onlyFields _ (by decide)).trans hx.lost), (hshow _ (by decide)).trans hok,
    (hshow _ (by decide)).trans ((hy.onlyFields _ (by decide)).trans hx.synced), (hshow _ (by decide)).trans hy.locked, (hshow _ (by decide)).trans hy.state,
    (hshow _ (by decide)).trans hy.event, hwait, hframe.power.trans hpower, hregs.time.trans (hy.time.trans hx.time),
    hx.frame.trans (hy.frame.trans hframe.lossOnly)⟩

/-- REFCLK is lost while AWAKE (R109, R671). -/
structure LostAwake (d e : Device) : Prop where
  lost : e.f R.TB_STAT.REF_LOST = 1
  refOk : e.f R.TB_STAT.REF_OK = 0
  synced : e.f R.TB_STAT.SYNCED = 0
  awake : e.f R.TB_STAT.AWAKE = 0
  locked : e.f R.TB_STAT.LOCKED = 0
  state : e.f R.PWR_STAT.STATE = 0
  ports : ∀ p : Fin 9, e.f (R.FAB_PORT_STAT.IN_SERVICE p) = 0
  time : e.time = { d.time with held := true, refclk := false, good := 0, sync := [], syncRise := false }
  run : d.running = true → RunOver d e
  abort : d.running = false → d.b R.CAL_STAT.FG_BUSY = true → e.f R.CAL_STAT.FG_BUSY = 0 ∧ e.f R.CAL_REQ_STAT.RESULT = 4

/-- What is over since a device is over since one like it. -/
theorem RunOver.since {d c e : Device} (h : RunOver c e) (hnow : c.now = d.now) (hon : ∀ k, c.tileOn k = d.tileOn k)
    (hstate : ∀ k, c.f (R.SCH_STAT.STATE k) = d.f (R.SCH_STAT.STATE k)) : RunOver d e :=
  ⟨h.running, h.ended.trans hnow, h.clamped, h.dead, fun k hk => (h.halted k ((hon _).trans hk)).imp id fun h8 hne => h8 (by rw [hstate]; exact hne)⟩

theorem schState_above (k : Nat) {F : Fld} (h : F.key < 32 * 0x100000) : (R.SCH_STAT.STATE k).key ≠ F.key := by
  simp only [Fld.key, R.SCH_STAT.STATE, tileOff] at h ⊢
  omega

theorem Tx.refLost_since (t : Tx d0) : t.refLost.d.now = t.d.now ∧ (∀ k, t.refLost.d.tileOn k = t.d.tileOn k) ∧
    ∀ k, t.refLost.d.f (R.SCH_STAT.STATE k) = t.d.f (R.SCH_STAT.STATE k) := by
  have h := t.refLost_spec
  refine ⟨?_, fun k => Device.domOn_congr (h.onlyFields _ (by decide)) (h.onlyFields _ (by decide)) h.frame.power _, fun k => h.onlyFields _ fun hk => ?_⟩
  · rw [Device.now, Device.now, h.onlyFields.b (by decide), h.time]
  · simp only [List.map_cons, List.map_nil, List.mem_cons, List.not_mem_nil, or_false] at hk
    rcases hk with hk | hk | hk | hk <;> exact schState_above k (by decide) hk

theorem effRefclkLost_awake (t : Tx d0) (hawake : t.d.b R.TB_STAT.AWAKE = true) (hheld : t.d.time.held = false) (hdue : t.d.syncsDue = []) :
    LostAwake t.d (effRefclkLost t).d := by
  rw [effRefclkLost_eq t hheld hdue]
  have hx := t.refLost_spec
  obtain ⟨hnow, hon, hstate⟩ := t.refLost_since
  generalize t.refLost = x at hx hnow hon hstate
  have hy := x.timebaseFault_spec
  generalize x.timebaseFault = y at hy
  have hyf : ∀ F ∈ restFlds, F ∉ workFlds → y.d.f F = x.d.f F := hy.fld
  rw [y.stopClocks_awake ((congrArg (· == 1) (hyf R.TB_STAT.AWAKE (by decide) (by decide))).trans ((hx.onlyFields.b (by decide)).trans hawake))]
  have hz := y.gate_spec
  generalize y.gate = z at hz
  have hshow : Rest false [] z.d z.showPorts.showWait.d := (Rest.refl false [] z.d).showPorts.showWait
  have hrest : Rest false [R.TB_STAT.AWAKE, R.TB_STAT.LOCKED, R.PWR_STAT.STATE] y.d z.showPorts.showWait.d := hz.rest.trans (hshow.mono (by simp))
  refine ⟨?_, ?_, ?_, (hshow.fld _ (by decide) (by simp)).trans hz.awake, (hshow.fld _ (by decide) (by simp)).trans hz.locked,
    (hshow.fld _ (by decide) (by simp)).trans hz.state, fun p => hshow.port p p.isLt (hz.ports p), hrest.time.trans (hy.time.trans hx.time), fun hr => ?_, fun hr hb => ?_⟩
  · exact (hrest.fld _ (by decide) (by decide)).trans ((hyf _ (by decide) (by decide)).trans hx.lost)
  · exact (hrest.fld _ (by decide) (by decide)).trans ((hyf _ (by decide) (by decide)).trans hx.refOk)
  · exact (hrest.fld _ (by decide) (by decide)).trans ((hyf _ (by decide) (by decide)).trans hx.synced)
  · exact ((hy.run ((hx.onlyFields.b (by decide)).trans hr)).rest hrest (by decide)).since hnow hon hstate
  · obtain ⟨h0, h4⟩ := hy.abort ((hx.onlyFields.b (by decide)).trans hr) ((hx.onlyFields.b (by decide)).trans hb)
    exact ⟨(hrest.fld _ (by decide) (by decide)).trans h0, (hrest.fld _ (by decide) (by decide)).trans h4⟩

/-! REFCLK is restored -/

theorem effRefclkRestored_eq (t : Tx d0) (h : 1000 ≤ t.d.time.good) : effRefclkRestored t = (t.wb R.TB_STAT.REF_OK true).showWait := if_neg (by omega)

/-! The PLL loses lock -/

/-- The lock is lost, and the sync with it (R109). -/
def Tx.lockLost (t : Tx d0) : Tx d0 := (t.wb R.TB_STAT.LOCKED false).wb R.TB_STAT.SYNCED false

theorem effPllLockLost_eq (t : Tx d0) (h : t.d.b R.TB_STAT.LOCKED = true) : effPllLockLost t = t.lockLost.timebaseFault.showPorts := if_pos h

theorem Tx.lockLost_locked (t : Tx d0) : t.lockLost.d.f R.TB_STAT.LOCKED = 0 := (Tx.w_f_other _ _ _ _ (by decide)).trans (Tx.w_f_same ..)

theorem Tx.lockLost_synced (t : Tx d0) : t.lockLost.d.f R.TB_STAT.SYNCED = 0 := Tx.w_f_same ..

theorem Tx.lockLost_onlyFields (t : Tx d0) : OnlyFields [R.TB_STAT.LOCKED, R.TB_STAT.SYNCED] t.d t.lockLost.d :=
  (t.w_onlyFields _ _).trans (Tx.w_onlyFields _ _ _)

theorem Tx.lockLost_regsOnly (t : Tx d0) : RegsOnly t.d t.lockLost.d := (t.w_regsOnly _ _).trans (Tx.w_regsOnly _ _ _)

theorem Tx.lockLost_since (t : Tx d0) : t.lockLost.d.now = t.d.now ∧ (∀ k, t.lockLost.d.tileOn k = t.d.tileOn k) ∧
    ∀ k, t.lockLost.d.f (R.SCH_STAT.STATE k) = t.d.f (R.SCH_STAT.STATE k) := by
  have hf := t.lockLost_onlyFields
  have hr := t.lockLost_regsOnly
  refine ⟨Device.now_congr (hf.b (by decide)) hr.regFileOnly.time, fun k => Device.domOn_congr (hf _ (by decide)) (hf _ (by decide)) hr.timeOnly.power _,
    fun k => hf _ fun hk => ?_⟩
  simp only [List.map_cons, List.map_nil, List.mem_cons, List.not_mem_nil, or_false] at hk
  rcases hk with hk | hk <;> exact schState_above k (by decide) hk

/-- The PLL loses lock in a run (R109). -/
structure LockLostRunning (d e : Device) : Prop where
  locked : e.f R.TB_STAT.LOCKED = 0
  synced : e.f R.TB_STAT.SYNCED = 0
  awake : e.f R.TB_STAT.AWAKE = d.f R.TB_STAT.AWAKE
  time : e.time = d.time
  run : RunOver d e

theorem effPllLockLost_running (t : Tx d0) (hrun : t.d.running = true) (hlock : t.d.b R.TB_STAT.LOCKED = true) :
    LockLostRunning t.d (effPllLockLost t).d := by
  rw [effPllLockLost_eq t hlock]
  have hf := t.lockLost_onlyFields
  have hr := t.lockLost_regsOnly
  have hlocked := t.lockLost_locked
  have hsynced := t.lockLost_synced
  obtain ⟨hnow, hon, hstate⟩ := t.lockLost_since
  generalize t.lockLost = x at *
  have hy := x.timebaseFault_spec
  generalize x.timebaseFault = y at hy
  have hshow : Rest false [] y.d y.showPorts.d := (Rest.refl false [] y.d).showPorts
  have hfld : ∀ F ∈ restFlds, F ∉ workFlds → y.showPorts.d.f F = x.d.f F := fun F hF hw => (hshow.fld F hF (by simp)).trans (hy.fld F hF hw)
  exact ⟨(hfld _ (by decide) (by decide)).trans hlocked, (hfld _ (by decide) (by decide)).trans hsynced,
    (hfld _ (by decide) (by decide)).trans (hf _ (by decide)), hshow.time.trans (hy.time.trans hr.regFileOnly.time),
    ((hy.run ((hf.b (by decide)).trans hrun)).rest hshow (by simp)).since hnow hon hstate⟩

/-- The PLL loses lock with no work under way. -/
structure LockLostIdle (d e : Device) : Prop where
  locked : e.f R.TB_STAT.LOCKED = 0
  synced : e.f R.TB_STAT.SYNCED = 0
  twin : e.twin = d.twinLost
  onlyFields : OnlyFields [R.TB_STAT.LOCKED, R.TB_STAT.SYNCED, R.TB_STAT.SYNC_OK, R.FAB_STAT.PORTS_OK, R.GLB_IMG_STAT.PLAN_MISMATCH, R.KEEP_STAT.QUEUE,
    R.KEEP_CNT.FAULT_DROPPED, R.KEEP_EVT.FAULT_DROP] d e
  time : e.time = d.time
  power : e.power = d.power
  frame : LossOnly d e

theorem effPllLockLost_idle (t : Tx d0) (hidle : Idle t.d) (hlock : t.d.b R.TB_STAT.LOCKED = true) : LockLostIdle t.d (effPllLockLost t).d := by
  rw [effPllLockLost_eq t hlock]
  have hf := t.lockLost_onlyFields
  have hr := t.lockLost_regsOnly
  have hlocked := t.lockLost_locked
  have hsynced := t.lockLost_synced
  generalize t.lockLost = x at *
  obtain ⟨hrun, hbusy, hinitial, hbegun⟩ := hidle
  have hy := x.timebaseFault_of_idle ⟨(hf.b (by decide)).trans hrun, (hf.b (by decide)).trans hbusy, (hf.b (by decide)).trans hinitial,
    by rw [hr.timeOnly.st]; exact hbegun⟩
  generalize x.timebaseFault = y at hy
  have hshow := y.showPorts_onlyFields
  have hports := y.showPorts_regsOnly
  refine ⟨(hshow _ (by decide)).trans ((hy.onlyFields _ (by decide)).trans hlocked), (hshow _ (by decide)).trans ((hy.onlyFields _ (by decide)).trans hsynced),
    hports.timeOnly.twin.trans ?_, ((hf.trans hy.onlyFields).trans hshow).mono (by simp [faultFlds]), hports.regFileOnly.time.trans (hy.time.trans hr.regFileOnly.time),
    hports.timeOnly.power.trans (hy.power.trans hr.timeOnly.power), hr.timeOnly.lossOnly.trans (hy.frame.trans hports.timeOnly.lossOnly)⟩
  rw [hy.twin, Device.twinLost, Device.twinLost, hf _ (by decide), hr.timeOnly.twin]

/-! The statement -/

theorem exec_refclkRestored (s : State) : exec .refclkRestored s = .next { s with dev := (effRefclkRestored (Tx.start s.dev)).d } := by rfl

theorem exec_pllLockLost (s : State) : exec .pllLockLost s = .next { s with dev := (effPllLockLost (Tx.start s.dev)).d } := by rfl

theorem Device.b_eq_false {d : Device} {F : Fld} (h : d.f F = 0) : d.b F = false := by simp [Device.b, h]

/-- Settles O17: with no work under way a timebase fault makes its FAULT record alone; else the work stops first, and what stops behind a run, and the
fast clocks with it, leaves the run over, every output clamped and every engine in FAULT. -/
theorem refclkAndLock : Obligations.RefclkAndLock := by
  refine ⟨fun s hidle hsleep hstate hheld hdue => ?_, fun s hidle hsleep hstate hheld hdue => ?_, fun s hawake hheld hdue => ?_, fun s hgood => ?_,
    fun s hrun hlock => ?_, fun s hidle hlock => ?_⟩
  · have h := effRefclkLost_asleep (Tx.start s.dev) hidle hsleep hstate hheld hdue
    exact ⟨_, exec_refclkLost s, h.lost, h.refOk, h.synced, h.twin, h.syncOk, h.time, h.ignored, h.onlyFields, h.frame.power_eq h.power⟩
  · have h := effRefclkLost_waking (Tx.start s.dev) hidle hsleep hstate hheld hdue
    exact ⟨_, exec_refclkLost s, h.lost, h.refOk, h.synced, h.locked, h.state, h.event, h.wait, h.power, h.time, s.of_lossOnly h.frame⟩
  · have h := effRefclkLost_awake (Tx.start s.dev) hawake hheld hdue
    refine ⟨_, exec_refclkLost s, rfl, h.lost, h.refOk, h.synced, h.awake, h.locked, h.state, h.ports, h.time, fun hrun => ?_, fun hrun hbusy => ?_⟩
    · have hover := h.run hrun
      exact ⟨Device.b_eq_false hover.running, hover.clamped, hover.halted⟩
    · obtain ⟨h0, h4⟩ := h.abort hrun hbusy
      exact ⟨Device.b_eq_false h0, h4⟩
  · let t := Tx.start s.dev
    have heq : effRefclkRestored t = (t.wb R.TB_STAT.REF_OK true).showWait := effRefclkRestored_eq t hgood
    have hwait := (t.wb R.TB_STAT.REF_OK true).showWait_onlyFields
    have honly : OnlyFields [R.TB_STAT.REF_OK, R.PWR_STAT.WAIT] t.d (t.wb R.TB_STAT.REF_OK true).showWait.d := (t.w_onlyFields _ _).trans hwait
    refine ⟨_, exec_refclkRestored s, ?_, ?_, ?_⟩
    · rw [heq]
      exact (hwait _ (by decide)).trans (Tx.w_f_same ..)
    · rw [heq]
      exact honly
    · rw [heq]
      rfl
  · have h := effPllLockLost_running (Tx.start s.dev) hrun hlock
    exact ⟨_, exec_pllLockLost s, rfl, h.locked, h.synced, congrArg (· == 1) h.awake, Device.b_eq_false h.run.running, h.run.clamped, h.time, h.run.ended,
      h.run.halted⟩
  · have h := effPllLockLost_idle (Tx.start s.dev) hidle hlock
    refine ⟨_, exec_pllLockLost s, h.locked, h.synced, h.twin, h.onlyFields, ?_⟩
    have hs := h.frame.power_eq h.power
    rw [h.time] at hs
    exact hs

end Sys2Proof.Machine
end

section
/-! SUPPORT. What the work of tiles, memories and calibrations leaves alone of the schedule engines: their state, their registers and the words of the frames. -/
namespace Sys2Proof.Machine

variable {d0 : Device}

/-! The relation -/

/-- Offsets in a tile block of the registers of its engines (SCH_ and ENG_) and of the words of its frames. -/
def enginePlace (o : Nat) : Bool := (0x2000 ≤ o && o < 0x4000) || (0x1000 ≤ o && o < 0x1400 && o % 0x20 != 0x14)

/-- The key of a field of those registers, of AWAKE or of the twin's STATE. -/
def engineKey (k : Nat) : Bool :=
  k == R.TB_STAT.AWAKE.key || k == R.TWIN_STAT.STATE.key || (0x100000 ≤ k / 32 && enginePlace (k / 32 % 0x20000))

/-- From `d` to `e` the tick, the engines and the fields above are kept, and the tiles' own state too where `tiles`. -/
structure Leaves (tiles : Bool) (d e : Device) : Prop where
  time : e.time = d.time
  engines : e.engines = d.engines
  tile : tiles = true → e.tiles = d.tiles
  fld : ∀ F : Fld, engineKey F.key = true → e.f F = d.f F

/-- A write of the field is no write of a field above. -/
def Fld.plain (F : Fld) : Prop := engineKey F.key = false

/-- A tile register at `o` in its block, with the field's lowest bit `lo`, is none above. -/
def plainPlace (o lo : Nat) : Bool := o < 0x20000 && lo < 32 && !enginePlace o

theorem Fld.plain_of_place {F : Fld} (h : 0x100000 ≤ F.off) (hp : plainPlace (F.off % 0x20000) F.lo = true) : F.plain := by
  simp only [plainPlace, Bool.and_eq_true, Bool.not_eq_true', decide_eq_true_eq] at hp
  obtain ⟨⟨-, hlo⟩, hplace⟩ := hp
  have hoff : F.key / 32 = F.off := by
    simp only [Fld.key]
    omega
  have hawake : F.key ≠ R.TB_STAT.AWAKE.key ∧ F.key ≠ R.TWIN_STAT.STATE.key := by
    simp only [Fld.key, R.TB_STAT.AWAKE, R.TWIN_STAT.STATE]
    omega
  simp [Fld.plain, engineKey, hoff, hplace, hawake]

/-- A replicated register of the tile blocks (R696). -/
theorem Fld.plain_tile {per base stride lo : Nat} (h : 0 < per ∧ (List.range per).all (fun j => plainPlace (base + stride * j) lo) = true)
    {i hi : Nat} {acc : Acc} {rst : Nat} : Fld.plain ⟨tileOff per base stride i, hi, lo, acc, rst⟩ := by
  obtain ⟨hper, h⟩ := h
  have hplace : plainPlace (base + stride * (i % per)) lo = true := List.all_eq_true.mp h _ (List.mem_range.mpr (Nat.mod_lt i hper))
  have hlt : base + stride * (i % per) < 0x20000 := by
    simp only [plainPlace, Bool.and_eq_true, decide_eq_true_eq] at hplace
    exact hplace.1.1
  have hmod : tileOff per base stride i % 0x20000 = base + stride * (i % per) := by
    simp only [tileOff]
    omega
  exact Fld.plain_of_place (by simp only [tileOff]; omega) (by rw [hmod]; exact hplace)

/-- A register that a tile block holds once. -/
theorem Fld.plain_tileReg {base lo : Nat} (h : 0x100000 ≤ base ∧ plainPlace (base % 0x20000) lo = true) {i hi : Nat} {acc : Acc} {rst : Nat} :
    Fld.plain ⟨base + 0x20000 * i, hi, lo, acc, rst⟩ := by
  obtain ⟨hb, h⟩ := h
  have hmod : (base + 0x20000 * i) % 0x20000 = base % 0x20000 := by omega
  exact Fld.plain_of_place (by dsimp only; omega) (by rw [hmod]; exact h)

/-- A register below the tile blocks. -/
theorem Fld.plain_low {F : Fld} (h : F.key < 32 * 0x100000) (hA : F.key ≠ R.TB_STAT.AWAKE.key) (hT : F.key ≠ R.TWIN_STAT.STATE.key) : F.plain := by
  have hlow : ¬ 0x100000 ≤ F.key / 32 := by omega
  simp [Fld.plain, engineKey, hlow, hA, hT]

/-- The key of a register of the engines. -/
theorem engineKey_of_place {F : Fld} (h : 0x100000 ≤ F.off) (hlo : F.lo < 32) (hp : enginePlace (F.off % 0x20000) = true) : engineKey F.key = true := by
  have hoff : F.key / 32 = F.off := by
    simp only [Fld.key]
    omega
  simp [engineKey, hoff, h, hp]

theorem engineKey_tile {per base stride lo : Nat}
    (h : 0 < per ∧ (List.range per).all (fun j => base + stride * j < 0x20000 && enginePlace (base + stride * j)) = true ∧ lo < 32)
    {i hi : Nat} {acc : Acc} {rst : Nat} : engineKey (Fld.key ⟨tileOff per base stride i, hi, lo, acc, rst⟩) = true := by
  obtain ⟨hper, h, hlo⟩ := h
  have hplace := List.all_eq_true.mp h _ (List.mem_range.mpr (Nat.mod_lt i hper))
  simp only [Bool.and_eq_true, decide_eq_true_eq] at hplace
  have hmod : tileOff per base stride i % 0x20000 = base + stride * (i % per) := by
    simp only [tileOff]
    omega
  exact engineKey_of_place (by simp only [tileOff]; omega) hlo (by rw [hmod]; exact hplace.2)

/-- An update of no piece that the relation speaks of, and of no register. -/
def Upd.leaves (tiles : Bool) (u : Upd) : Bool := !u.setsRegs && !u.hits .time && !u.hits .engines && (!u.hits .tiles || !tiles)

namespace Leaves

theorem refl (tiles : Bool) (d : Device) : Leaves tiles d d := ⟨rfl, rfl, fun _ => rfl, fun _ _ => rfl⟩

theorem trans {tiles : Bool} {d e g : Device} (h : Leaves tiles d e) (h' : Leaves tiles e g) : Leaves tiles d g :=
  ⟨h'.time.trans h.time, h'.engines.trans h.engines, fun ht => (h'.tile ht).trans (h.tile ht), fun F hF => (h'.fld F hF).trans (h.fld F hF)⟩

theorem now {tiles : Bool} {d e : Device} (h : Leaves tiles d e) : e.now = d.now :=
  Device.now_congr (congrArg (· == 1) (h.fld R.TB_STAT.AWAKE (by decide))) h.time

theorem eng {tiles : Bool} {d e : Device} (h : Leaves tiles d e) : e.eng = d.eng := Device.eng_congr h.engines

/-! Primitive operations -/

section
variable {tiles : Bool} {d : Device} {t : Tx d0} (h : Leaves tiles d t.d)
include h

theorem upd {u : Upd} (hu : u.leaves tiles = true) : Leaves tiles d (t.upd u).d := by
  simp only [Upd.leaves, Bool.and_eq_true, Bool.or_eq_true, Bool.not_eq_true'] at hu
  obtain ⟨⟨⟨hregs, htime⟩, heng⟩, htile⟩ := hu
  refine h.trans ⟨applyUpd_same t.d u .time (by simp [htime]), applyUpd_same t.d u .engines (by simp [heng]), fun ht => ?_,
    fun F _ => applyUpd_f t.d u F (by simp [hregs])⟩
  exact applyUpd_same t.d u .tiles (by simp [htile.resolve_right (by simp [ht])])

theorem w {F : Fld} (hF : F.plain) (v : Nat) : Leaves tiles d (t.w F v).d := by
  refine h.trans ⟨rfl, rfl, fun _ => rfl, fun G hG => t.w_f_other F G v fun hk => ?_⟩
  rw [hk, hF] at hG
  contradiction

theorem wb {F : Fld} (hF : F.plain) (v : Bool) : Leaves tiles d (t.wb F v).d := h.w hF _

theorem w64 {L H : Fld} (hL : L.plain) (hH : H.plain) (v : Nat) : Leaves tiles d (t.w64 L H v).d := (h.w hL _).w hH _

theorem add {F : Fld} (hF : F.plain) (n : Nat) : Leaves tiles d (t.add F n).d := h.w hF _

theorem inc {F : Fld} (hF : F.plain) : Leaves tiles d (t.inc F).d := h.w hF _

theorem ev {F : Fld} (hF : F.plain) : Leaves tiles d (t.ev F).d := by
  refine h.trans ⟨t.ev_time F, t.ev_engines F, fun _ => t.ev_same F .tiles (by simp) (by simp), fun G hG => t.ev_f_other F G fun hk => ?_⟩
  rw [hk, hF] at hG
  contradiction

omit h in
theorem ite {c : Prop} [Decidable c] {x y : Tx d0} (hx : Leaves tiles d x.d) (hy : Leaves tiles d y.d) : Leaves tiles d (if c then x else y).d := by
  split
  · exact hx
  · exact hy

theorem each {α : Type} (l : List α) {g : α → Tx d0 → Tx d0} (hg : ∀ a ∈ l, ∀ u : Tx d0, Leaves tiles d u.d → Leaves tiles d (g a u).d) :
    Leaves tiles d (t.each l g).d := Tx.each_keeps (fun u => Leaves tiles d u.d) t l g h hg

end

end Leaves

end Sys2Proof.Machine
end

section
/-! SUPPORT. The memories, their error log and the Keep leave engines and tiles alone. -/
namespace Sys2Proof.Machine

/-- There are five classes of lines (R455). -/
theorem lineClass_lt {l cls unit line : Nat} (h : lineClass l = some (cls, unit, line)) : cls < 5 := by
  unfold lineClass at h
  split at h
  · simp_all; omega
  · split at h
    · simp_all; omega
    · split at h
      · simp_all; omega
      · split at h
        · simp_all; omega
        · split at h
          · simp_all; omega
          · contradiction

theorem plain_eccCnt {cls : Nat} (h : cls < 5) : (R.ECC_CNT.CE cls).plain ∧ (R.ECC_CNT.UE cls).plain := by
  refine ⟨Fld.plain_low ?_ ?_ ?_, Fld.plain_low ?_ ?_ ?_⟩ <;>
    simp only [Fld.key, R.ECC_CNT.CE, R.ECC_CNT.UE, R.TB_STAT.AWAKE, R.TWIN_STAT.STATE] <;> omega

namespace Leaves

variable {d0 : Device} {tiles : Bool} {d : Device} {t : Tx d0} (h : Leaves tiles d t.d)
include h

/-! The error log and reads of lines -/

theorem showLog : Leaves tiles d t.showLog.d := by
  refine Leaves.w64 (Leaves.w (Leaves.w (Leaves.w (Leaves.w (Leaves.w (Leaves.w (Leaves.w (Leaves.w (Leaves.wb (h.w ?_ _) ?_ _) ?_ _) ?_ _) ?_ _) ?_ _) ?_ _)
    ?_ _) ?_ _) ?_ _) ?_ ?_ _ <;> rfl

theorem logEcc (kind src l syn pos act : Nat) : Leaves tiles d (t.logEcc kind src l syn pos act).d := by
  unfold Tx.logEcc
  split
  · exact h
  · exact .ite (h.ev (by rfl)) (h.upd (by rfl)).showLog

theorem tagLine (l kind : Nat) : Leaves tiles d (t.tagLine l kind).d := .ite (h.upd (by rfl)) h

theorem corrected {cls : Nat} (hcls : cls < 5) (l : Nat) : Leaves tiles d (t.corrected cls l).d := by
  unfold Tx.corrected
  split
  · exact h
  · exact ((h.add (plain_eccCnt hcls).1 _).ev (by rfl)).upd (by rfl)

theorem uncorrectable {cls : Nat} (hcls : cls < 5) (l src act : Nat) (ue : Nat × Nat) : Leaves tiles d (t.uncorrectable cls l src act ue).d :=
  ((h.tagLine l 1).inc (plain_eccCnt hcls).2).logEcc _ _ _ _ _ _

theorem readLine (l src act : Nat) : Leaves tiles d (t.readLine l src act).d := by
  unfold Tx.readLine
  split
  · exact h
  · next cls _ _ hl =>
    have hcls := lineClass_lt hl
    have hcor := h.corrected hcls l
    dsimp only
    split
    · exact h.ev (by rfl)
    · split
      · exact .ite hcor ((hcor.logEcc _ _ _ _ _ _).ev (by rfl))
      · exact Leaves.ev (.ite (hcor.uncorrectable hcls _ _ _ _)
          (.ite (hcor.logEcc _ _ _ _ _ _) ((hcor.logEcc _ _ _ _ _ _).uncorrectable hcls _ _ _ _))) rfl

theorem poisonLines (ls : List Nat) : Leaves tiles d (t.poisonLines ls).d := .ite h ((h.each ls fun _ _ _ hu => hu.upd (by rfl)).ev (by rfl))

theorem openFill (l n : Nat) : Leaves tiles d (t.openFill l n).d := (h.upd (by rfl) (u := .fillLines l (l + n) (.free t.d.freeN))).upd (by rfl)

theorem opened : Leaves tiles d t.open.2.d := h.upd (by rfl)

/-! Writes of lines -/

theorem wrote (l : Nat) : Leaves tiles d (t.wrote l).d := .ite (h.upd (by rfl)) h

theorem overwritten (l : Nat) : Leaves tiles d (t.overwritten l).d := by
  unfold Tx.overwritten
  split
  · exact h
  · exact .ite (h.upd (by rfl)).showLog h

theorem writeIn (a : Nat) (bs : List Byte) : Leaves tiles d (t.writeIn a bs).d :=
  ((Leaves.ite ((h.wrote (a / 64)).upd (by rfl)) (h.wrote (a / 64))).each _ fun _ _ _ hu => hu.upd (by rfl)).upd (by rfl)

theorem writeLine (l : Nat) (bs : List Byte) : Leaves tiles d (t.writeLine l bs).d := ((h.overwritten l).wrote l).upd (by rfl)

theorem writePart (a : Nat) (bs : List Byte) : Leaves tiles d (t.writePart a bs).d := .ite h (.ite (h.writeLine _ _) (h.writeIn _ _))

theorem writeBytes (a : Nat) (bs : List Byte) : Leaves tiles d (t.writeBytes a bs).d := (h.writePart _ _).each _ fun _ _ _ hu => hu.writePart _ _

theorem reloadTable (l : Nat) : Leaves tiles d (t.reloadTable l).d := by
  unfold Tx.reloadTable
  split
  · exact h.openFill l 1
  · exact ((h.wrote l).upd (by rfl)).poisonLines _

/-! Blocks of waveforms -/

theorem tagBlock (ls : List Nat) (kind act : Nat) : Leaves tiles d (t.tagBlock ls kind act).d := by
  have htag := h.each ls (g := fun l t => t.tagLine l kind) fun l _ _ hu => hu.tagLine l kind
  unfold Tx.tagBlock
  dsimp only
  split
  · exact htag
  · refine ((htag.ev (by rfl)).inc (plain_eccCnt ?_).2).logEcc _ _ _ _ _ _
    split
    · next hl => exact lineClass_lt hl
    · decide

theorem countBad (e : Nat) (wave : Bool) (b : Nat) (bad : Bool) : Leaves tiles d (t.countBad e wave b bad).2.d := by
  unfold Tx.countBad
  dsimp only
  split
  · exact h.upd (by rfl)
  · split
    · exact h.upd (by rfl)
    · exact h.upd (by rfl)

theorem fetchBlock (wave : Bool) (block : Nat) : Leaves tiles d (t.fetchBlock wave block).d := by
  refine .ite h ?_
  have hask := h.upd (u := .cxlReads (if t.d.cxlReads.contains (wave, block) then t.d.cxlReads else t.d.cxlReads ++ [(wave, block)])) (by rfl)
  unfold Tx.askBlock
  split
  · exact .ite (hask.upd (by rfl)) hask
  · exact hask

theorem keepLines (e b : Nat) : Leaves tiles d (t.keepLines e b).d := .ite h (h.each _ fun _ _ _ hu => .ite (hu.upd (by rfl)) hu)

theorem refetchWave (e b : Nat) : Leaves tiles d (t.refetchWave e b).d := ((h.keepLines e b).each _ fun _ _ _ hu => hu.upd (by rfl)).fetchBlock true b

theorem readWave (e n : Nat) : Leaves tiles d (t.readWave e n).2.d := by
  unfold Tx.readWave
  split
  · exact h
  · next l _ =>
    dsimp only
    generalize (decide (n % 4 = 0) && !t.d.waveGood e (n / 4)) = bad
    have hcount : Leaves tiles d (if (decide (n % 4 = 0) && t.d.waveCompared e (n / 4)) = true then t.countBad e true (n / 4) bad else (false, t)).2.d := by
      split
      · exact h.countBad _ _ _ _
      · exact h
    generalize (if (decide (n % 4 = 0) && t.d.waveCompared e (n / 4)) = true then t.countBad e true (n / 4) bad else (false, t)) = x at hcount
    obtain ⟨fourth, u⟩ := x
    have htag : Leaves tiles d (if bad = true then u.tagBlock ((u.d.waveBlock e (n / 4)).getD []) (if fourth = true then 4 else 3) 7 else u).d :=
      .ite (hcount.tagBlock _ _ _) hcount
    have hread := Leaves.ite (c := bad = true) (htag.ev (F := R.ECC_EVT.UE_READ) rfl) (htag.readLine l 0 7)
    exact .ite (hread.refetchWave _ _) hread

theorem readDir (e n : Nat) : Leaves tiles d (t.readDir e n).2.d := by
  unfold Tx.readDir
  split
  · exact h
  · split
    · exact h
    · exact h.readWave _ _

/-! The Keep -/

theorem showQueue : Leaves tiles d t.showQueue.d := .ite (h.w (by rfl) _) h

theorem fault (code detail : Nat) : Leaves tiles d (t.fault code detail).d := by
  refine .ite (Leaves.showQueue (h.upd (by rfl))) ((Leaves.inc ?_ (by rfl)).ev (by rfl))
  split
  · exact h.upd (by rfl)
  · exact h

theorem checkLive (cls key : Nat) : Leaves tiles d (t.checkLive cls key).d := .ite ((h.ev (by rfl)).fault _ _) h

end Leaves

end Sys2Proof.Machine
end

section
/-! SUPPORT. Outputs, windows, captures and shots leave the engines alone, and so do events of their sequencers. -/
namespace Sys2Proof.Machine.Leaves

variable {d0 : Device} {d : Device} {t : Tx d0} (h : Leaves false d t.d)
include h

/-! Outputs -/

theorem setClamp (k w : Nat) : Leaves false d (t.setClamp k w).d := by
  have hword := h.upd (u := .clamp k w) (by rfl)
  exact .ite hword (.ite ((((Leaves.ite hword (hword.upd (by rfl))).wb (Fld.plain_tile (by decide)) _).w (Fld.plain_tile (by decide)) _).wb
    (Fld.plain_tile (by decide)) _) (hword.wb (Fld.plain_tileReg (by decide)) _))

theorem clampAdd (k mask : Nat) : Leaves false d (t.clampAdd k mask).d := h.setClamp k _

theorem loadCode (c code : Nat) : Leaves false d (t.loadCode c code).d := (Leaves.ite h (h.upd (by rfl))).w (Fld.plain_tile (by decide)) _

theorem dropHeld (c : Nat) : Leaves false d (t.dropHeld c).d := by
  have hempty : Leaves false d (t.emptyHeld c).d := (h.w (Fld.plain_tile (by decide)) 0).w (Fld.plain_tile (by decide)) 0
  exact .ite ((hempty.ev (Fld.plain_tile (by decide))).ev (Fld.plain_tileReg (by decide))) h

theorem dropTileHeld (tl : Nat) : Leaves false d (t.dropTileHeld tl).d := h.each _ fun _ _ _ hu => hu.dropHeld _

theorem idleFlux (tl : Nat) : Leaves false d (t.idleFlux tl).d := h.each _ fun _ _ _ hu => .ite hu (hu.loadCode _ _)

theorem markNow (tl : Nat) (v : Bool) : Leaves false d (t.markNow tl v).d := by
  have hlevel := h.wb (F := R.FLX_MARK.LEVEL tl) (Fld.plain_tileReg (by decide)) v
  have hstretch := h.ev (F := R.FLX_EVT.MARK_STRETCH tl) (Fld.plain_tileReg (by decide))
  unfold Tx.markNow Tx.when
  exact .ite (h.upd (by rfl)) (.ite ((Leaves.ite (hlevel.inc (Fld.plain_tileReg (by decide))) hlevel).upd (by rfl)) (hstretch.upd (by rfl)))

theorem idleTile (tl : Nat) : Leaves false d (t.idleTile tl).d := (h.idleFlux tl).markNow tl _

theorem freeMixer (m : Nat) : Leaves false d (t.freeMixer m).d :=
  .ite (((h.wb (F := R.NCO_MIX_STAT.BUSY m) (Fld.plain_tile (by decide)) false).upd (by rfl)).w (Fld.plain_tile (by decide)) _) h

theorem muteTile (tl : Nat) : Leaves false d (t.muteTile tl).d :=
  (h.each (List.range 5) (g := fun i t => t.clampAdd (5 * tl + i) 0x20) fun _ _ _ hu => hu.clampAdd _ _).each _ fun _ _ _ hu => hu.freeMixer _

theorem restoreLevels (tl : Nat) : Leaves false d (t.restoreLevels tl).d := by
  unfold Tx.restoreLevels
  split
  · exact h
  · exact (h.each _ fun _ _ _ hu => hu.loadCode _ _).markNow _ _

/-! Windows and captures -/

theorem modTile (n : Nat) (g : Tile → Tile) : Leaves false d (t.modTile n g).d := h.upd (by rfl)

theorem closeWin (n E : Nat) (cut : Bool) (flags : Nat) : Leaves false d (t.closeWin n E cut flags).d := by
  unfold Tx.closeWin
  split
  · exact h
  · exact (((h.upd (by rfl) (u := .win n none)).wb (Fld.plain_tile (by decide)) _).w (Fld.plain_tile (by decide)) _).modTile _ _

theorem showCap (tl : Nat) : Leaves false d (t.showCap tl).d := by
  unfold Tx.showCap
  split
  · exact h.w (Fld.plain_tileReg (by decide)) 0
  · exact (h.w (Fld.plain_tileReg (by decide)) _).w (Fld.plain_tileReg (by decide)) _

theorem capOver (tl : Nat) : Leaves false d (t.capOver tl).d := by
  refine Leaves.showCap (Leaves.modTile ?_ _ _) tl
  unfold Tx.noteBusy
  split
  · exact h
  · exact .ite (h.modTile _ _) h

theorem capShotEnd (tl : Nat) : Leaves false d (t.capShotEnd tl).d := by
  unfold Tx.capShotEnd
  split
  · exact h
  · refine Leaves.capOver (.ite ?_ (.ite (h.modTile _ _) h)) tl
    unfold Tx.segDone
    split
    · exact h
    · exact h.modTile _ _

/-! Shots -/

theorem closeShot (tl : Nat) : Leaves false d (t.closeShot tl).d := by
  unfold Tx.closeShot
  split
  · exact h
  · exact (h.modTile tl _).each _ fun _ _ _ hu => (hu.modTile _ _).upd (by rfl)

theorem showRec (tl : Nat) : Leaves false d (t.showRec tl).d := by
  have hfree := h.w (F := R.ACQ_RECMEM.FREE tl) (Fld.plain_tileReg (by decide)) (16384 - (t.d.tile tl).usedLines)
  exact .ite (hfree.w (Fld.plain_tileReg (by decide)) _) hfree

theorem putHeader (tl id att : Nat) : Leaves false d (t.putHeader tl id att).d := by
  unfold Tx.putHeader
  split
  · exact h
  · exact (h.writeBytes _ _).writeBytes _ _

theorem flagTile (tl mask : Nat) : Leaves false d (t.flagTile tl mask).d := .ite h (h.upd (by rfl))

theorem eachUnless {α : Type} {c : Prop} [Decidable c] (l : List α) {g : α → Tx d0 → Tx d0}
    (hg : ∀ a ∈ l, ∀ u : Tx d0, Leaves false d u.d → Leaves false d (g a u).d) : Leaves false d (if c then t else t.each l g).d := .ite h (h.each l hg)

theorem flagShot (tl id att mask : Nat) : Leaves false d (t.flagShot tl id att mask).d := by
  unfold Tx.flagShot
  split
  · exact h
  · refine (Leaves.putHeader (eachUnless ((h.modTile _ _).each _ ?_) _ ?_) tl id att).flagTile tl mask
    · exact fun _ _ _ hu => hu.writeBytes _ _
    · exact fun _ _ _ hu => (hu.writeBytes _ _).writeBytes _ _

theorem startShot (tl num att : Nat) : Leaves false d (t.startShot tl num att).d := (((h.modTile tl _).writeLine _ _).putHeader _ _ _).showRec tl

/-! Engines' sequencers, and the twin's quadrants -/

theorem raise (e code arg : Nat) : Leaves false d (t.raise e code arg).d := .ite (.ite (h.upd (by rfl)) h) (.ite h (h.upd (by rfl)))

theorem quadFault (q : Nat) : Leaves false d (t.quadFault q).d := .ite (h.w (by rfl) _) h

end Sys2Proof.Machine.Leaves
end

section
/-! SUPPORT. A safe point that an engine passes applies coefficients (R406, R408, R431), which leaves the engines alone. -/
namespace Sys2Proof.Machine.Leaves

variable {d0 : Device} {d : Device} {t : Tx d0} (h : Leaves false d t.d)
include h

theorem modCalib (g : Calib → Calib) : Leaves false d (t.modCalib g).d := h.upd (by rfl)

theorem modCalPath (n : Nat) (g : CalPath → CalPath) : Leaves false d (t.modCalPath n g).d := h.upd (by rfl)

theorem writeCoef (a n : Nat) : Leaves false d (t.writeCoef a n).d := (h.upd (by rfl) (u := .coef (coefLines a n) t.d.coefData)).upd (by rfl)

theorem calRenew (cls path : Nat) : Leaves false d (t.calRenew cls path).d := .ite (h.modCalPath _ _) ((h.modCalPath _ _).modCalPath _ _)

theorem calPendAll : Leaves false d t.calPendAll.d := by
  have hrenew := h.each [3, 4, 5] (g := fun cls t => t.each (List.range (calPathsOf cls)) (fun p t => t.calRenew cls p)) fun _ _ _ hu =>
    hu.each _ fun _ _ _ hv => hv.calRenew _ _
  exact (hrenew.w (F := R.CAL_STAT.PEND_TEMP) (by rfl) _).w (F := R.CAL_STAT.STALE) (by rfl) _

theorem loadSet (body : List Byte) : Leaves false d (t.loadSet body).d := by
  have hdrop : Leaves false d (t.modCalib (fun c => { c with body := body, due := allBlocks })).dropEstimates.d :=
    (h.modCalib _).each _ fun _ _ _ hu => .ite (hu.modCalPath _ _) hu
  have hlines := hdrop.upd (by rfl) (u := .fillLines (classBase 3 0 + 40960) (classBase 3 0 + 40960 + 8192)
    (.coef (t.modCalib (fun c => { c with body := body, due := allBlocks })).dropEstimates.d.coefData))
  refine hlines.each _ fun tl _ u hu => Leaves.each (Leaves.each ((hu.wb (Fld.plain_tileReg (by decide)) _).wb (Fld.plain_tileReg (by decide)) _) _ ?_) _ ?_
  · exact fun _ _ _ hv => ((hv.wb (Fld.plain_tile (by decide)) _).wb (Fld.plain_tile (by decide)) _).wb (Fld.plain_tile (by decide)) _
  · exact fun _ _ _ hv => hv.wb (Fld.plain_tile (by decide)) _

theorem reloadCal : Leaves false d t.reloadCal.d := by
  unfold Tx.reloadCal Tx.useFactory
  dsimp only
  refine Leaves.ev (Leaves.calPendAll ?_) (by rfl)
  split
  · exact (h.checkLive _ _).loadSet _
  · exact Leaves.loadSet (.ite (h.checkLive _ _) (((h.checkLive _ _).ev (by rfl)).fault _ _)) _

theorem forceBlock {k : Nat} : Leaves false d (t.forceBlock k).d := by
  have hcoef := (h.upd (by rfl) (u := .calForce k ((t.d.calib.body.drop (calBlock k).1).take (calBlock k).2))).writeCoef (14592 + (calBlock k).1) (calBlock k).2
  refine .ite hcoef ?_
  split
  · refine hcoef.w (Fld.plain_low ?_ ?_ ?_) _ <;> simp only [Fld.key, R.ACQ_TIN_SKEW.CAL, R.TB_STAT.AWAKE, R.TWIN_STAT.STATE] <;> omega
  · exact hcoef.w (Fld.plain_tileReg (by decide)) _

theorem applyCal (ks : List Nat) : Leaves false d (t.applyCal ks).d := by
  refine .ite h ?_
  split
  · exact (h.readLine _ _ _).reloadCal
  · exact (h.each _ fun _ _ _ hu => hu.forceBlock).modCalib _

theorem bgShown (cls path v : Nat) : Leaves false d (match cls with
    | 0 => t.wb (R.CAL_ADC_Q.CONV path) true
    | 1 => t.wb (R.CAL_DAC_Q.CONV path) true
    | _ => ((t.w (R.CAL_FLX_Q.OFFSET path) v).w (R.CAL_FLX_Q.GAIN path) (v / 65536)).wb (R.CAL_FLX_Q.CONV path) true).d := by
  split
  · exact h.wb (Fld.plain_tileReg (by decide)) true
  · exact h.wb (Fld.plain_tile (by decide)) true
  · exact ((h.w (Fld.plain_tile (by decide)) _).w (Fld.plain_tile (by decide)) _).wb (Fld.plain_tile (by decide)) true

theorem newBytes (k a n : Nat) : Leaves false d (t.newBytes k a n).d := (h.opened.modCalib _).writeCoef a n

theorem unlessNewBytes {c : Prop} [Decidable c] (k a n : Nat) : Leaves false d (if c then t else t.newBytes k a n).d := .ite h (h.newBytes k a n)

theorem bgMove (cls path : Nat) : Leaves false d (t.bgMove cls path).d := by
  unfold Tx.bgMove
  dsimp only
  split
  · exact h
  · split
    · exact ((h.modCalPath _ _).opened.bgShown cls path _).unlessNewBytes _ _ _
    · exact ((((h.opened : Leaves false d (t.standing _).2.d)).modCalPath _ _).opened.bgShown cls path _).unlessNewBytes _ _ _

theorem applySafe (e : Nat) : Leaves false d (t.applySafe e).d := (h.each _ fun _ _ _ hu => hu.bgMove _ _).applyCal _

end Sys2Proof.Machine.Leaves
end

section
/-! SUPPORT. What notes a void that is due, or STOP_RUN for the next safe point, changes of an engine: the note alone (R271, R468, R628). -/
namespace Sys2Proof.Machine

variable {d0 : Device}

/-- From `d` to `e` the tick and the engines' registers are kept, and of the engines those that `N` names may have been noted to void, or to stop at the
next safe point. -/
structure Notes (tiles : Bool) (N : Nat → Prop) (d e : Device) : Prop where
  time : e.time = d.time
  eng : ∀ k, e.eng k = d.eng k ∨ N k ∧ ∃ v s, e.eng k = { d.eng k with voidDue := v, stopAtSafe := s }
  tile : tiles = true → e.tiles = d.tiles
  fld : ∀ F : Fld, engineKey F.key = true → e.f F = d.f F

theorem Leaves.notes {tiles : Bool} {d e : Device} (h : Leaves tiles d e) (N : Nat → Prop) : Notes tiles N d e :=
  ⟨h.time, fun k => .inl (congrFun h.eng k), h.tile, h.fld⟩

namespace Notes

theorem trans {tiles : Bool} {N : Nat → Prop} {d e g : Device} (h : Notes tiles N d e) (h' : Notes tiles N e g) : Notes tiles N d g := by
  refine ⟨h'.time.trans h.time, fun k => ?_, fun ht => (h'.tile ht).trans (h.tile ht), fun F hF => (h'.fld F hF).trans (h.fld F hF)⟩
  rcases h.eng k, h'.eng k with ⟨h1 | ⟨hn, v, s, h1⟩, h2 | ⟨hn', v', s', h2⟩⟩
  · exact .inl (h2.trans h1)
  · exact .inr ⟨hn', v', s', by rw [h2, h1]⟩
  · exact .inr ⟨hn, v, s, by rw [h2, h1]⟩
  · exact .inr ⟨hn', v', s', by rw [h2, h1]⟩

section
variable {tiles : Bool} {N : Nat → Prop} {d e : Device} (h : Notes tiles N d e)
include h

theorem now : e.now = d.now := Device.now_congr (congrArg (· == 1) (h.fld R.TB_STAT.AWAKE (by decide))) h.time

/-- Beside the notes an engine is as it was. -/
theorem engine (k : Nat) : ∃ v s, e.eng k = { d.eng k with voidDue := v, stopAtSafe := s } := by
  rcases h.eng k with hk | ⟨-, v, s, hk⟩
  · exact ⟨_, _, hk⟩
  · exact ⟨v, s, hk⟩

theorem other {k : Nat} (hk : ¬ N k) : e.eng k = d.eng k := (h.eng k).resolve_right fun hn => hk hn.1

end

theorem ite {tiles : Bool} {N : Nat → Prop} {d : Device} {c : Prop} [Decidable c] {x y : Tx d0} (hx : Notes tiles N d x.d) (hy : Notes tiles N d y.d) :
    Notes tiles N d (if c then x else y).d := by
  split
  · exact hx
  · exact hy

/-- A note is put in an engine. -/
theorem modEng (tiles : Bool) {N : Nat → Prop} (t : Tx d0) {k : Nat} (hk : N k) {g : Engine → Engine}
    (hg : ∃ v s, g (t.d.eng k) = { t.d.eng k with voidDue := v, stopAtSafe := s }) : Notes tiles N t.d (t.modEng k g).d := by
  refine ⟨rfl, fun j => ?_, fun _ => rfl, fun _ _ => rfl⟩
  by_cases hjk : j = k
  · subst hjk
    obtain ⟨v, s, hg⟩ := hg
    exact .inr ⟨hk, v, s, (t.modEng_eng_same j g).trans hg⟩
  · exact .inl (t.modEng_onlyEngine k g j hjk)

end Notes

/-! The weights of windows (R261, R271) -/

theorem Tx.weight_leaves (t : Tx d0) (tiles : Bool) (tl : Nat) (w : Win) (n : Nat) : Leaves tiles t.d (t.weight tl w n).2.d := by
  have hdir : Leaves tiles t.d (if n = 0 then t.readDir (2 * tl + 1) (rn w.wrec 8 4) else (0, t)).2.d := by
    split
    · exact (Leaves.refl tiles t.d).readDir _ _
    · exact .refl _ _
  unfold Tx.weight
  generalize (if n = 0 then t.readDir (2 * tl + 1) (rn w.wrec 8 4) else (0, t)) = x at hdir
  split
  · exact .refl _ _
  · split
    · exact hdir
    · exact hdir
    · next u first len _ =>
      have hline : ∀ line, Leaves tiles t.d (if n % 16 = 0 then u.readWave (2 * tl + 1) line else (0, u)).2.d := by
        intro line
        split
        · exact hdir.readWave _ _
        · exact hdir
      dsimp only
      split
      · exact hdir
      · split
        · exact hdir
        · exact hline _

/-- The weight of a window is taken; one that is missing makes the void of its tile's engine B due. -/
theorem Tx.weigh_notes (t : Tx d0) (n : Nat) : Notes false (· = 2 * (n / 16) + 1) t.d (t.weigh n).d := by
  have hdue : ∀ u : Tx d0, Notes false (· = 2 * (n / 16) + 1) u.d (u.modEng (2 * (n / 16) + 1) (fun x => { x with voidDue := some u.now })).d :=
    fun u => Notes.modEng (N := (· = 2 * (n / 16) + 1)) false u rfl ⟨_, _, rfl⟩
  unfold Tx.weigh
  split
  · exact (Leaves.refl _ _).notes _
  · next w _ =>
    split
    · exact (Leaves.refl _ _).notes _
    · have hweight := t.weight_leaves false (n / 16) w (t.now.toNat - w.start)
      dsimp only
      generalize t.weight (n / 16) w (t.now.toNat - w.start) = x at hweight
      split
      · exact (hweight.notes _).trans ((hdue _).trans (((Leaves.refl false _).upd (by rfl)).notes _))
      · exact (hweight.upd (by rfl)).notes _
      · exact (hweight.notes _).trans ((hdue _).trans ((((Leaves.refl false _).ev (Fld.plain_tileReg (by decide))).upd (by rfl)).notes _))

/-- The weights of a tile's windows are taken on the tick of a void. -/
theorem Tx.weighAll_notes (t : Tx d0) (tl : Nat) :
    Notes false (· = 2 * tl + 1) t.d (t.each (List.range 16) (fun i t => t.weigh (16 * tl + i))).d := by
  refine Tx.each_keeps (fun u => Notes false (· = 2 * tl + 1) t.d u.d) t _ _ ((Leaves.refl _ _).notes _) fun i hi u hu => hu.trans ?_
  have htile : (16 * tl + i) / 16 = tl := by
    have := List.mem_range.mp hi
    omega
  have hweigh := u.weigh_notes (16 * tl + i)
  rwa [htile] at hweigh

/-! The image tables (R456, R468) -/

/-- A tile that meets a bad line of the image tables is to void its shot. -/
theorem Tx.readTables_notes (t : Tx d0) (tl : Nat) : Notes true (· = 2 * tl + 1) t.d (t.readTables tl).d := by
  unfold Tx.readTables Tx.badTable
  cases t.d.badLine (classBase 3 0 + 16384) (classBase 3 0 + 40960) with
  | none => exact (Leaves.refl _ _).notes _
  | some l => exact ((((Leaves.refl true t.d).readLine l 0 4).reloadTable l).notes _).trans (Notes.modEng (N := (· = 2 * tl + 1)) true _ rfl ⟨_, _, rfl⟩)

theorem Tx.readTables_good (t : Tx d0) (tl : Nat) (h : TablesGood t.d) : t.readTables tl = t := by
  have hnone : t.badTable = (false, t) := by
    unfold Tx.badTable
    rw [show t.d.badLine (classBase 3 0 + 16384) (classBase 3 0 + 40960) = none from h]
  rw [Tx.readTables, hnone]

/-! The digests of a member in MIRROR (R627, R628) -/

theorem Tx.mirrorSend_leaves (t : Tx d0) (entry : Nat) : Leaves false t.d (t.mirrorSend entry).d := by
  unfold Tx.mirrorSend
  dsimp only
  split
  · exact .refl _ _
  · split <;> exact (Leaves.refl _ _).upd (by rfl)

theorem Tx.diverge_notes (t : Tx d0) (tl shot : Nat) (missing : Bool) : Notes false (fun _ => True) t.d (t.diverge tl shot missing).d := by
  have hquad := (Leaves.refl false t.d).w (F := R.TWIN_STAT.DIVERGED) (by rfl) (t.f R.TWIN_STAT.DIVERGED ||| 2 ^ (tl / 8))
  unfold Tx.diverge
  dsimp only
  generalize t.w R.TWIN_STAT.DIVERGED (t.f R.TWIN_STAT.DIVERGED ||| 2 ^ (tl / 8)) = u at hquad
  have hqok := Leaves.ite (c := u.f R.TWIN_STAT.ROLE = 2) (hquad.w (F := R.TWIN_STAT.QOK) (by rfl) (u.f R.TWIN_STAT.QOK &&& (15 - 2 ^ (tl / 8)))) hquad
  generalize (if u.f R.TWIN_STAT.ROLE = 2 then u.w R.TWIN_STAT.QOK (u.f R.TWIN_STAT.QOK &&& (15 - 2 ^ (tl / 8))) else u) = v at hqok
  have hlast := ((((Leaves.ite (c := missing = true) ((hqok.ev (F := R.TWIN_EVT.DIGEST_MISSING) (by rfl)).inc (F := R.TWIN_CNT.MISSING) (by rfl))
    ((hqok.ev (F := R.TWIN_EVT.MISMATCH) (by rfl)).inc (F := R.TWIN_CNT.MISMATCHES) (by rfl))).wb (F := R.TWIN_LAST.VALID) (by rfl) true).wb
    (F := R.TWIN_LAST.MISSING) (by rfl) missing).w (F := R.TWIN_LAST.TILE) (by rfl) tl).w (F := R.TWIN_LAST.SHOT) (by rfl) shot
  exact .ite (Tx.each_keeps (fun x => Notes false (fun _ => True) t.d x.d) _ _ _ (hlast.notes _) fun e _ x hx =>
    .ite (hx.trans (Notes.modEng false x trivial ⟨_, _, rfl⟩)) hx) (hlast.notes _)

theorem Tx.matchDigest_notes (t : Tx d0) (tl shot : Nat) : Notes false (fun _ => True) t.d (t.matchDigest tl shot).d := by
  have htaken : ∀ g, Leaves false t.d (t.modTwin g).d := fun g => (Leaves.refl _ _).upd (by rfl)
  unfold Tx.matchDigest
  dsimp only
  split
  · split
    · exact (htaken _).notes _
    · exact ((htaken _).notes _).trans (Tx.diverge_notes _ tl shot false)
  · exact (Leaves.refl _ _).notes _

/-- The digest of a tile at a safe point: outside MIRROR it notes nothing in engines. -/
theorem Tx.digestPass_notes (t : Tx d0) (tl shot : Nat) : Notes false (fun _ => t.d.f R.TWIN_STAT.STATE = 2) t.d (t.digestPass tl shot).d := by
  have hset : ∀ (u : Tx d0) v, Leaves false u.d (u.setDig tl v).d := fun u v => (Leaves.refl _ _).upd (by rfl)
  unfold Tx.digestPass
  by_cases hmirror : t.d.f R.TWIN_STAT.STATE = 2
  · simp only [hmirror]
    split
    · exact (hset _ _).notes _
    · refine Notes.trans ?_ ((hset _ _).notes _)
      split
      · exact (Leaves.refl _ _).notes _
      · next c _ =>
        have hown : ∀ g, Leaves false t.d (t.modTwin g).d := fun g => (Leaves.refl _ _).upd (by rfl)
        exact ((((hown _).trans (Tx.mirrorSend_leaves _ _)).notes _).trans (Tx.matchDigest_notes _ tl (shot % 2 ^ 18)))
  · rw [if_pos (by simp [Tx.f, hmirror])]
    exact (hset _ _).notes _

end Sys2Proof.Machine
end

section
/-! SUPPORT. A void of an engine's shot (R194 to R196): what it makes of the engine, and that what closes with it leaves that be. -/
namespace Sys2Proof.Machine

variable {d0 : Device}

theorem Leaves.voidClose {d : Device} {t : Tx d0} (h : Leaves false d t.d) (e now : Nat) : Leaves false d (t.voidClose e now).d := by
  have hshot : Leaves false d ((t.voidShot (e / 2)).setDig (e / 2) none).d := by
    refine Leaves.upd ?_ (by rfl)
    unfold Tx.voidShot
    split
    · exact h
    · exact h.flagShot _ _ _ _
  unfold Tx.voidClose
  dsimp only
  generalize (t.voidShot (e / 2)).setDig (e / 2) none = u at hshot
  have hmute := Leaves.ite (c := e % 2 = 0) (hshot.muteTile (e / 2)) (hshot.modTile (e / 2) (fun y => { y with sends := [], resv := none }))
  generalize (if e % 2 = 0 then u.muteTile (e / 2) else u.modTile (e / 2) (fun y => { y with sends := [], resv := none })) = v at hmute
  have hwins := Leaves.ite (c := (e % 2 = 0 && (v.d.eng (e + 1)).live) = true) hmute
    ((hmute.each (List.range 16) (g := fun i t => t.closeWin (16 * (e / 2) + i) now true 0x40) fun _ _ _ hu => hu.closeWin _ _ _ _).capShotEnd (e / 2))
  exact ((Leaves.ite (((hwins.capShotEnd _).closeShot _).showRec _) hwins).dropTileHeld _).idleTile _

/-- What holds of both ways of a choice, each under its condition, holds of the choice. -/
theorem ite_cases {α : Type} (P : α → Prop) {c : Prop} [Decidable c] {x y : α} (hx : c → P x) (hy : ¬ c → P y) : P (if c then x else y) := by
  split
  · exact hx ‹_›
  · exact hy ‹_›

/-- The other engines of a hold domain are told of a void: registers and the engine that voids are as they were. -/
theorem Tx.voidNotice_other (t : Tx d0) (e : Nat) (s : Snapshot) : (t.voidNotice e s).d.eng e = t.d.eng e ∧ (t.voidNotice e s).d.f = t.d.f := by
  refine Tx.each_keeps (fun u => u.d.eng e = t.d.eng e ∧ u.d.f = t.d.f) t _ _ ⟨rfl, rfl⟩ fun y _ u hu => ?_
  obtain ⟨heng, hf⟩ := hu
  refine ite_cases (fun u : Tx d0 => u.d.eng e = t.d.eng e ∧ u.d.f = t.d.f) (fun hy => ?_) fun _ => ⟨heng, hf⟩
  have hne : e ≠ y := by
    simp only [Bool.and_eq_true, decide_eq_true_eq] at hy
    exact fun he => hy.1.1.1.1 he.symm
  exact ⟨(u.modEng_onlyEngine y _ e hne).trans heng, hf⟩

/-- A void that has been made stands whatever leaves engines alone. -/
theorem Voids.leaves {e : Nat} {d x y : Device} (h : Voids e d x) (heng : y.eng e = x.eng e)
    (hf : ∀ F : Fld, engineKey F.key = true → y.f F = x.f F) : Voids e d y := by
  obtain ⟨hstate, hvoided, hevt, hcnt, hqueue, hvoids, hsafe⟩ := h
  exact ⟨(hf _ (engineKey_tile (by decide))).trans hstate, (hf _ (engineKey_tile (by decide))).trans hvoided, (hf _ (engineKey_tile (by decide))).trans hevt,
    (hf _ (engineKey_tile (by decide))).trans hcnt, by rw [heng, hqueue], by rw [heng, hvoids], by rw [heng, hsafe]⟩

/-- A void counts from any earlier device in which the engine, the tick and the count of voids were the same, but for notes put in the engine since. -/
theorem Voids.before {e : Nat} {d u x : Device} (h : Voids e u x) (heng : ∃ v s, u.eng e = { d.eng e with voidDue := v, stopAtSafe := s })
    (hnow : u.now = d.now) (hbefore : u.f (R.SCH_CNT.VOIDS e) = d.f (R.SCH_CNT.VOIDS e)) : Voids e d x := by
  obtain ⟨_, _, heng⟩ := heng
  obtain ⟨hstate, hvoided, hevt, hcnt, hqueue, hvoids, hsafe⟩ := h
  rw [hbefore] at hcnt
  rw [heng] at hvoids
  rw [heng, hnow] at hsafe
  exact ⟨hstate, hvoided, hevt, hcnt, hqueue, hvoids, hsafe⟩

/-- The fields in which an engine's void shows stand apart from one another. -/
structure VoidKeys (e : Nat) : Prop where
  state : (R.SCH_STAT.STATE e).key ∉ [R.SCH_STAT.WAITING e, R.SCH_STAT.VOIDED e, R.SCH_CNT.VOIDS e, R.SCH_EVT.VOID e].map Fld.key
  voided : (R.SCH_STAT.VOIDED e).key ∉ [R.SCH_CNT.VOIDS e, R.SCH_EVT.VOID e].map Fld.key
  count : (R.SCH_CNT.VOIDS e).key ∉ [R.ENG_QUEUE.DEPTH e, R.SCH_STAT.STATE e, R.SCH_STAT.WAITING e, R.SCH_STAT.VOIDED e].map Fld.key
  event : (R.SCH_CNT.VOIDS e).key ≠ (R.SCH_EVT.VOID e).key

theorem voidKeys (e : Nat) : VoidKeys e := by
  constructor
  all_goals
    simp only [Fld.key, R.SCH_STAT.STATE, R.SCH_STAT.WAITING, R.SCH_STAT.VOIDED, R.SCH_CNT.VOIDS, R.SCH_EVT.VOID, R.ENG_QUEUE.DEPTH, tileOff, List.map_cons,
      List.map_nil, List.mem_cons, List.not_mem_nil, or_false]
    omega

theorem Tx.voidMark_voids (t : Tx d0) (e : Nat) (hcnt : t.d.f (R.SCH_CNT.VOIDS e) < 2 ^ (R.SCH_CNT.VOIDS e).width) : Voids e t.d (t.voidMark e).d := by
  have k := voidKeys e
  let s := (t.d.eng e).snap
  let g : Engine → Engine := fun x => { x with
    queue := [], fetch := {}, waiting := none, anise := none, notice := false, voids := x.voids + 1, voidDue := none, latch := none
    safe := some { cand := BitVec.ofNat 64 (repeatCand s.b0.toNat (leadOf s.dom) t.d.now.toNat), dom := s.dom, res := s.res, ptr := s.ptr, rep := true } }
  let m := (t.modEng e g).dropShakes e
  let a := m.w (R.ENG_QUEUE.DEPTH e) 0
  let b := a.w (R.SCH_STAT.STATE e) 2
  let c := b.w (R.SCH_STAT.WAITING e) 0
  let v := c.w (R.SCH_STAT.VOIDED e) 1
  let n := v.inc (R.SCH_CNT.VOIDS e)
  let x := n.ev (R.SCH_EVT.VOID e)
  have hmark : t.voidMark e = x.raise e 2 t.now.toNat := rfl
  have hraise := (Leaves.refl false x.d).raise e 2 t.now.toNat
  have heng : x.d.eng e = g (t.d.eng e) := by
    rw [Device.eng_congr (n.ev_engines (R.SCH_EVT.VOID e))]
    exact t.modEng_eng_same e g
  have hev : OnlyFields [R.SCH_EVT.VOID e] n.d x.d := n.ev_onlyFields _
  have hcount : OnlyFields [R.SCH_CNT.VOIDS e, R.SCH_EVT.VOID e] v.d x.d := (v.w_onlyFields _ _).trans hev
  have hshown : OnlyFields [R.SCH_STAT.WAITING e, R.SCH_STAT.VOIDED e, R.SCH_CNT.VOIDS e, R.SCH_EVT.VOID e] b.d x.d :=
    ((b.w_onlyFields _ 0).trans (c.w_onlyFields _ 1)).trans hcount
  have hbefore : v.d.f (R.SCH_CNT.VOIDS e) = t.d.f (R.SCH_CNT.VOIDS e) :=
    ((((m.w_onlyFields _ 0).trans (a.w_onlyFields _ 2)).trans (b.w_onlyFields _ 0)).trans (c.w_onlyFields _ 1)) _ k.count
  rw [hmark]
  refine Voids.leaves (x := x.d) ⟨?_, ?_, n.ev_f_same _ rfl, ?_, ?_, ?_, ?_⟩ (congrFun hraise.eng e) hraise.fld
  · exact (hshown _ k.state).trans (a.w_f_same _ 2)
  · exact (hcount _ k.voided).trans (c.w_f_same _ 1)
  · refine (n.ev_f_other _ _ k.event).trans ((v.add_f_same _ 1 (by rw [hbefore]; exact hcnt)).trans ?_)
    rw [hbefore]
    rfl
  · rw [heng]
  · rw [heng]
  · rw [heng]

/-- An engine that runs and waits for no repeat voids its shot. -/
theorem Tx.voidEngine_voids (t : Tx d0) (e : Nat) (hlive : (t.d.eng e).live = true) (hrep : (t.d.eng e).safe.any SafePoint.rep = false)
    (hcnt : t.d.f (R.SCH_CNT.VOIDS e) < 2 ^ (R.SCH_CNT.VOIDS e).width) : Voids e t.d (t.voidEngine e).d := by
  have hrepeats : (t.d.eng e).repeats = false := by
    unfold Engine.repeats
    cases hs : (t.d.eng e).safe with
    | none => rfl
    | some s => rwa [hs] at hrep
  have hclose := (Leaves.refl false _).voidClose (t := t.voidMark e) e t.now.toNat
  obtain ⟨heng, hf⟩ := ((t.voidMark e).voidClose e t.now.toNat).voidNotice_other e (t.d.eng e).snap
  rw [Tx.voidEngine_eq, if_neg (by simp [hlive, hrepeats])]
  refine ((t.voidMark_voids e hcnt).leaves (congrFun hclose.eng e) hclose.fld).leaves heng fun F _ => ?_
  rw [hf]

end Sys2Proof.Machine
end

section
/-! SUPPORT. An engine, and a hold domain, that halts with a code (R150, R189, R198). -/
namespace Sys2Proof.Machine

variable {d0 : Device}

/-- What the halt of engine `e`, once its STATE and FAULT show it, makes of the engines. -/
structure HaltedRest (e : Nat) (d x : Device) : Prop where
  live : (x.eng e).live = false
  queue : (x.eng e).queue = []
  onlyEngine : OnlyEngine e d x
  state : ∀ k, x.f (R.SCH_STAT.STATE k) = d.f (R.SCH_STAT.STATE k)
  fault : ∀ k, x.f (R.SCH_STAT.FAULT k) = d.f (R.SCH_STAT.FAULT k)

theorem haltFields_ne (e k : Nat) : ∀ F ∈ [R.SCH_STAT.STATE k, R.SCH_STAT.FAULT k],
    F.key ∉ [R.SCH_STAT.WAITING e, R.SCH_STAT.VOIDED e, R.ENG_QUEUE.DEPTH e].map Fld.key := by
  simp only [Fld.key, R.SCH_STAT.STATE, R.SCH_STAT.FAULT, R.SCH_STAT.WAITING, R.SCH_STAT.VOIDED, R.ENG_QUEUE.DEPTH, tileOff, List.map_cons, List.map_nil,
    List.mem_cons, List.not_mem_nil, or_false, forall_eq_or_imp, forall_eq]
  omega

/-- The engine's work is gone. -/
def Tx.haltClear (t : Tx d0) (e : Nat) : Tx d0 :=
  let t := (t.w (R.SCH_STAT.WAITING e) 0).w (R.SCH_STAT.VOIDED e) 0
  let t := if (t.d.eng e).live then t.modRun (fun r => { r with quiet := t.now }) else t
  let t := t.modEng e (fun x => { x with live := false, queue := [], fetch := {}, safe := none, waiting := none, latch := none, anise := none })
  (t.dropShakes e).w (R.ENG_QUEUE.DEPTH e) 0

/-- Its outputs are clamped, and the fault is told of. -/
def Tx.haltTell (t : Tx d0) (e code : Nat) : Tx d0 :=
  let t := t.each (engineOutputs e) (fun k t => t.clampAdd k 2)
  let t := (t.pend (64 + 4 * (e / 2) + e % 2)).fault 0x0101 e
  let t := if code = 15 then t else t.raise e 1 t.now.toNat
  t.quadFault (e / 16)

theorem Tx.haltRest_eq (t : Tx d0) (e code : Nat) : t.haltRest e code = (t.haltClear e).haltTell e code := rfl

theorem Leaves.haltTell {d : Device} {t : Tx d0} (h : Leaves false d t.d) (e code : Nat) : Leaves false d (t.haltTell e code).d := by
  have hclamp := h.each (engineOutputs e) (g := fun k t => t.clampAdd k 2) fun _ _ _ hu => hu.clampAdd _ _
  unfold Tx.haltTell
  dsimp only
  generalize t.each (engineOutputs e) (fun k t => t.clampAdd k 2) = u at hclamp
  have hfault : Leaves false d ((u.pend (64 + 4 * (e / 2) + e % 2)).fault 0x0101 e).d := (hclamp.upd (by rfl)).fault _ _
  exact (Leaves.ite hfault (hfault.raise _ _ _)).quadFault _

theorem Tx.haltClear_spec (t : Tx d0) (e : Nat) : HaltedRest e t.d (t.haltClear e).d := by
  let g : Engine → Engine := fun x => { x with live := false, queue := [], fetch := {}, safe := none, waiting := none, latch := none, anise := none }
  have hwait := t.w_onlyFields (R.SCH_STAT.WAITING e) 0
  have hvoided := (t.w (R.SCH_STAT.WAITING e) 0).w_onlyFields (R.SCH_STAT.VOIDED e) 0
  have hengines : ((t.w (R.SCH_STAT.WAITING e) 0).w (R.SCH_STAT.VOIDED e) 0).d.eng = t.d.eng := rfl
  unfold Tx.haltClear
  dsimp only
  generalize (t.w (R.SCH_STAT.WAITING e) 0).w (R.SCH_STAT.VOIDED e) 0 = b at hvoided hengines
  have hquiet : ∀ c : Tx d0, c = (if (b.d.eng e).live then b.modRun (fun r => { r with quiet := b.now }) else b) → c.d.eng = t.d.eng ∧ c.d.f = b.d.f := by
    rintro c rfl
    split <;> exact ⟨hengines, rfl⟩
  generalize (if (b.d.eng e).live then b.modRun (fun r => { r with quiet := b.now }) else b) = c at hquiet
  obtain ⟨hce, hcf⟩ := hquiet c rfl
  have heng : (((c.modEng e g).dropShakes e).w (R.ENG_QUEUE.DEPTH e) 0).d.eng e = g (t.d.eng e) := (c.modEng_eng_same e g).trans (congrArg g (congrFun hce e))
  have hdepth : OnlyFields [R.ENG_QUEUE.DEPTH e] b.d (((c.modEng e g).dropShakes e).w (R.ENG_QUEUE.DEPTH e) 0).d :=
    fun F hF => (((c.modEng e g).dropShakes e).w_onlyFields _ 0 F hF).trans (congrFun hcf F)
  have hfields := (hwait.trans hvoided).trans hdepth
  refine ⟨?_, ?_, fun k hk => ?_, fun k => hfields _ (haltFields_ne e k _ (by simp)), fun k => hfields _ (haltFields_ne e k _ (by simp))⟩
  · rw [heng]
  · rw [heng]
  · exact (c.modEng_onlyEngine e g k hk).trans (congrFun hce k)

/-- The work of an engine is gone whatever then leaves engines alone. -/
theorem HaltedRest.leaves {e : Nat} {tiles : Bool} {d x y : Device} (h : HaltedRest e d x) (hl : Leaves tiles x y) : HaltedRest e d y := by
  obtain ⟨hlive, hqueue, honly, hstate, hfault⟩ := h
  exact ⟨by rw [hl.eng, hlive], by rw [hl.eng, hqueue], fun k hk => (congrFun hl.eng k).trans (honly k hk),
    fun k => (hl.fld _ (engineKey_tile (by decide))).trans (hstate k), fun k => (hl.fld _ (engineKey_tile (by decide))).trans (hfault k)⟩

theorem Tx.haltRest_spec (t : Tx d0) (e code : Nat) : HaltedRest e t.d (t.haltRest e code).d := by
  rw [Tx.haltRest_eq]
  exact (t.haltClear_spec e).leaves ((Leaves.refl false _).haltTell e code)

/-- An engine that is not in STATE FAULT enters it with the code. -/
theorem Tx.haltEngine_halts (t : Tx d0) (e : Nat) {code : Nat} (hcode : code < 16) (h : t.d.f (R.SCH_STAT.STATE e) ≠ 3) :
    Halted e code (t.haltEngine e code).d := by
  have hrest := (t.haltMark e code).haltRest_spec e code
  have hmark : (t.haltMark e code).d.f (R.SCH_STAT.FAULT e) = code := (Tx.w_f_same ..).trans (Nat.mod_eq_of_lt hcode)
  rw [Tx.haltEngine_eq, if_neg (show ¬ t.f (R.SCH_STAT.STATE e) = 3 from h)]
  exact ⟨(hrest.state e).trans (t.haltMark_state e code), (hrest.fault e).trans hmark, hrest.live, hrest.queue⟩

/-- The halt of one engine leaves the others as they were. -/
theorem Tx.haltEngine_other (t : Tx d0) {e k : Nat} (code : Nat) (hk : k ≠ e) : (t.haltEngine e code).d.eng k = t.d.eng k ∧
    (t.haltEngine e code).d.f (R.SCH_STAT.STATE k) = t.d.f (R.SCH_STAT.STATE k) ∧
    (t.haltEngine e code).d.f (R.SCH_STAT.FAULT k) = t.d.f (R.SCH_STAT.FAULT k) := by
  have hrest := (t.haltMark e code).haltRest_spec e code
  rw [Tx.haltEngine_eq]
  split
  · exact ⟨rfl, rfl, rfl⟩
  · exact ⟨hrest.onlyEngine k hk, (hrest.state k).trans (t.haltMark_f_other e code (fun hkey => hk (schState_key_inj hkey)) (schState_ne_fault k e)),
      (hrest.fault k).trans (t.haltMark_f_other e code (schState_ne_fault e k).symm (fun hkey => hk (schFault_key_inj hkey)))⟩

/-- An engine that has halted stays so while others of its domain halt. -/
theorem Halted.haltLive {k code : Nat} {u : Tx d0} (h : Halted k code u.d) (b : Nat) :
    Halted k code (if (u.d.eng b).live then u.haltEngine b code else u).d := by
  obtain ⟨hstate, hfault, hlive, hqueue⟩ := h
  split
  · next hb =>
    have hkb : k ≠ b := by
      rintro rfl
      rw [hlive] at hb
      contradiction
    obtain ⟨heng, hs, hf⟩ := u.haltEngine_other code hkb
    exact ⟨hs.trans hstate, hf.trans hfault, by rw [heng, hlive], by rw [heng, hqueue]⟩
  · exact ⟨hstate, hfault, hlive, hqueue⟩

/-- Every running engine of the domain halts with the code. -/
theorem Tx.haltDomain_halts (t : Tx d0) (e dom : Nat) {code : Nat} (hcode : code < 16) {k : Nat} (hk : k ∈ t.d.fellows e dom)
    (hlive : (t.d.eng k).live = true) (hstate : t.d.f (R.SCH_STAT.STATE k) ≠ 3) : Halted k code (t.haltDomain e dom code).d := by
  unfold Tx.haltDomain
  generalize t.d.fellows e dom = l at hk
  induction l generalizing t with
  | nil => contradiction
  | cons b r ih =>
    by_cases hbk : k = b
    · subst hbk
      have hhalt : Halted k code (if (t.d.eng k).live then t.haltEngine k code else t).d := by
        rw [if_pos hlive]
        exact t.haltEngine_halts k hcode hstate
      exact Tx.each_keeps (fun u => Halted k code u.d) _ r _ hhalt fun x _ u hu => hu.haltLive x
    · have hr : k ∈ r := (List.mem_cons.mp hk).resolve_left hbk
      have hsame : (if (t.d.eng b).live then t.haltEngine b code else t).d.eng k = t.d.eng k ∧
          (if (t.d.eng b).live then t.haltEngine b code else t).d.f (R.SCH_STAT.STATE k) = t.d.f (R.SCH_STAT.STATE k) := by
        split
        · exact ⟨(t.haltEngine_other code hbk).1, (t.haltEngine_other code hbk).2.1⟩
        · exact ⟨rfl, rfl⟩
      exact ih _ (by rw [hsame.1]; exact hlive) (by rw [hsame.2]; exact hstate) hr

end Sys2Proof.Machine
end

section
/-! SUPPORT. The settling of the voids and limits of a shot (R189, R194 to R196, R198, R211, R271). -/
namespace Sys2Proof.Machine

variable {d0 : Device}

/-- The fields that a void writes, as far as they are the engine's. -/
def voidFields (e : Nat) : List Fld :=
  [R.ENG_QUEUE.DEPTH e, R.SCH_STAT.STATE e, R.SCH_STAT.WAITING e, R.SCH_STAT.VOIDED e, R.SCH_CNT.VOIDS e, R.SCH_EVT.VOID e]

theorem issueLate_notVoid (e : Nat) : (R.ENG_EVT.ISSUE_LATE e).key ∉ (voidFields e).map Fld.key := by
  simp only [voidFields, Fld.key, R.ENG_EVT.ISSUE_LATE, R.SCH_STAT.STATE, R.SCH_STAT.WAITING, R.SCH_STAT.VOIDED, R.SCH_CNT.VOIDS, R.SCH_EVT.VOID,
    R.ENG_QUEUE.DEPTH, tileOff, List.map_cons, List.map_nil, List.mem_cons, List.not_mem_nil, or_false]
  omega

/-- A register of an engine that a void does not write is as it was after the void. -/
theorem Tx.voidEngine_fld (t : Tx d0) (e : Nat) {F : Fld} (hkey : engineKey F.key = true) (hF : F.key ∉ (voidFields e).map Fld.key) :
    (t.voidEngine e).d.f F = t.d.f F := by
  have hmark : (t.voidMark e).d.f F = t.d.f F :=
    ((Leaves.refl false _).raise e 2 t.now.toNat).fld F hkey |>.trans
      ((((((Tx.w_onlyFields _ _ 0).trans (Tx.w_onlyFields _ _ 2)).trans (Tx.w_onlyFields _ _ 0)).trans (Tx.w_onlyFields _ _ 1)).trans
        (Tx.w_onlyFields _ _ _)).trans (Tx.ev_onlyFields _ _) F hF)
  rw [Tx.voidEngine_eq]
  split
  · rfl
  · rw [((t.voidMark e).voidClose e t.now.toNat).voidNotice_other e (t.d.eng e).snap |>.2]
    exact (((Leaves.refl false _).voidClose e t.now.toNat).fld F hkey).trans hmark

/-- A void that is due, or the absent weight line of an open window, voids the shot. -/
theorem effShotVoid_due (t : Tx d0) (e : Nat) (hrun : t.running = true) (hlive : (t.d.eng e).live = true) (hrep : (t.d.eng e).safe.any SafePoint.rep = false)
    (hcnt : t.d.f (R.SCH_CNT.VOIDS e) < 2 ^ (R.SCH_CNT.VOIDS e).width)
    (hdue : ((t.d.eng e).voidDue.any (fun v => decide (v.toNat ≤ t.d.now.toNat)) || (e % 2 == 1 && t.d.weightDue (e / 2))) = true) :
    Voids e t.d (effShotVoid e t).d := by
  unfold effShotVoid
  dsimp only
  rw [if_neg (by simp [hrun, hlive])]
  by_cases hvoid : (t.d.eng e).voidDue.any (fun v => decide (v.toNat ≤ t.now.toNat)) = true
  · rw [if_pos hvoid]
    exact t.voidEngine_voids e hlive hrep hcnt
  · have hweight : (e % 2 = 1 && t.d.weightDue (e / 2)) = true := by
      rcases Bool.or_eq_true_iff.mp hdue with hv | hw
      · exact absurd hv hvoid
      · simpa using hw
    rw [if_neg hvoid, if_pos hweight]
    have hnotes := t.weighAll_notes (e / 2)
    obtain ⟨v, s, heng⟩ := hnotes.engine e
    have hbefore := hnotes.fld (R.SCH_CNT.VOIDS e) (engineKey_tile (by decide))
    refine (Tx.voidEngine_voids _ e ?_ ?_ (by rwa [hbefore])).before ⟨v, s, heng⟩ hnotes.now hbefore
    · rw [heng, hlive]
    · rw [heng, hrep]

/-- An operation to be issued that is not queued voids the shot; that it came too late is reported where it was resident. -/
theorem effShotVoid_missing (t : Tx d0) (e : Nat) (hrun : t.running = true) (hlive : (t.d.eng e).live = true)
    (hrep : (t.d.eng e).safe.any SafePoint.rep = false) (hcnt : t.d.f (R.SCH_CNT.VOIDS e) < 2 ^ (R.SCH_CNT.VOIDS e).width)
    (hdue : ((t.d.eng e).voidDue.any (fun v => decide (v.toNat ≤ t.d.now.toNat)) || (e % 2 == 1 && t.d.weightDue (e / 2))) = false)
    {resident : Bool} (hmiss : t.d.opMissing e = some resident) :
    Voids e t.d (effShotVoid e t).d ∧ (resident = true → (effShotVoid e t).d.f (R.ENG_EVT.ISSUE_LATE e) = 1) := by
  obtain ⟨hvoid, hweight⟩ := Bool.or_eq_false_iff.mp hdue
  have hkeys : (R.SCH_CNT.VOIDS e).key ≠ (R.ENG_EVT.ISSUE_LATE e).key := by
    simp only [Fld.key, R.SCH_CNT.VOIDS, R.ENG_EVT.ISSUE_LATE, tileOff]
    omega
  have hnone : ¬ (t.d.eng e).voidDue.any (fun v => decide (v.toNat ≤ t.now.toNat)) = true := ne_true_of_eq_false hvoid
  have heff : effShotVoid e t = (if resident then t.ev (R.ENG_EVT.ISSUE_LATE e) else t).voidEngine e := by
    unfold effShotVoid
    dsimp only
    rw [if_neg (by simp [hrun, hlive]), if_neg hnone, if_neg (by simpa using hweight), hmiss]
  rw [heff]
  cases resident with
  | false =>
    rw [if_neg Bool.false_ne_true]
    exact ⟨t.voidEngine_voids e hlive hrep hcnt, fun h => Bool.noConfusion h⟩
  | true =>
    rw [if_pos rfl]
    have hawake : R.TB_STAT.AWAKE.key ≠ (R.ENG_EVT.ISSUE_LATE e).key := by
      simp only [Fld.key, R.TB_STAT.AWAKE, R.ENG_EVT.ISSUE_LATE, tileOff]
      omega
    have hbefore := t.ev_f_other (R.ENG_EVT.ISSUE_LATE e) (R.SCH_CNT.VOIDS e) hkeys
    have heng : (t.ev (R.ENG_EVT.ISSUE_LATE e)).d.eng e = t.d.eng e := congrFun (Device.eng_congr (t.ev_engines _)) e
    have hnow : (t.ev (R.ENG_EVT.ISSUE_LATE e)).d.now = t.d.now := Device.now_congr (congrArg (· == 1) (t.ev_f_other _ _ hawake)) (t.ev_time _)
    refine ⟨(Tx.voidEngine_voids _ e ?_ ?_ (by rwa [hbefore])).before ⟨_, _, heng⟩ hnow hbefore, fun _ => ?_⟩
    · rw [heng, hlive]
    · rw [heng, hrep]
    · exact (Tx.voidEngine_fld _ e (engineKey_tile (by decide)) (issueLate_notVoid e)).trans (t.ev_f_same _ rfl)

/-- An engine that has learnt of a void of its domain voids its shot. -/
theorem effVoidNotice_voids (t : Tx d0) (e : Nat) (hrun : t.running = true) (hlive : (t.d.eng e).live = true) (hrep : (t.d.eng e).safe.any SafePoint.rep = false)
    (hcnt : t.d.f (R.SCH_CNT.VOIDS e) < 2 ^ (R.SCH_CNT.VOIDS e).width) (hnotice : (t.d.eng e).notice = true) : Voids e t.d (effVoidNotice e t).d := by
  rw [effVoidNotice, if_pos (by simp [hrun, hlive, hnotice])]
  exact t.voidEngine_voids e hlive hrep hcnt

/-- A safe point that has failed 65,536 times halts the domain. -/
theorem effHoldTimeout_eq (t : Tx d0) (e : Nat) {x : SafePoint} (hrun : t.running = true) (hsafe : (t.d.eng e).safe = some x) (hfails : 65536 ≤ x.fails) :
    effHoldTimeout e t = t.haltDomain e x.dom 5 := by
  rw [effHoldTimeout, hsafe]
  exact if_pos (by simp [hrun, hfails])

/-- Eight voids of one shot halt the domain. -/
theorem effVoidLimit_eq (t : Tx d0) (e : Nat) (hrun : t.running = true) (hlive : (t.d.eng e).live = true) (hvoids : 8 ≤ (t.d.eng e).voids) :
    effVoidLimit e t = t.haltDomain e (t.d.eng e).snap.dom 6 := if_pos (by simp [hrun, hlive, hvoids])

/-- Settles O30: a void marks its engine, and nothing that closes with it touches that mark; a domain halts engine by engine. -/
theorem voidsAndLimits : Obligations.VoidsAndLimits := by
  unfold Obligations.VoidsAndLimits
  refine ⟨fun s e hrun hlive hrep hcnt => ⟨fun hvoid => ⟨_, rfl, ?_⟩,
      fun hnotice => ⟨_, rfl, effVoidNotice_voids (Tx.start s.dev) e hrun hlive hrep hcnt hnotice⟩⟩,
    fun s e x hrun hsafe hfails => ⟨_, rfl, fun k hk hlive hstate => ?_⟩, fun s e hrun hlive hvoids => ⟨_, rfl, fun k hk hklive hstate => ?_⟩⟩
  · by_cases hdue : ((s.dev.eng e).voidDue.any (fun v => decide (v.toNat ≤ s.dev.now.toNat)) || (e.val % 2 == 1 && s.dev.weightDue (e.val / 2))) = true
    · exact ⟨effShotVoid_due (Tx.start s.dev) e hrun hlive hrep hcnt hdue, fun h => absurd hdue (ne_true_of_eq_false h.1)⟩
    · obtain ⟨resident, hmiss⟩ := Option.isSome_iff_exists.mp (hvoid.resolve_left hdue)
      obtain ⟨hv, hlate⟩ := effShotVoid_missing (Tx.start s.dev) e hrun hlive hrep hcnt (eq_false_of_ne_true hdue) hmiss
      exact ⟨hv, fun h => hlate (Option.some.inj (hmiss.symm.trans h.2))⟩
  · show Halted k 5 (effHoldTimeout e (Tx.start s.dev)).d
    rw [effHoldTimeout_eq (Tx.start s.dev) e hrun hsafe hfails]
    exact (Tx.start s.dev).haltDomain_halts e x.dom (by decide) hk hlive hstate
  · show Halted k 6 (effVoidLimit e (Tx.start s.dev)).d
    rw [effVoidLimit_eq (Tx.start s.dev) e hrun hlive hvoids]
    exact (Tx.start s.dev).haltDomain_halts e _ (by decide) hk hklive hstate

end Sys2Proof.Machine
end

section
/-! SUPPORT. Outputs of an engine that go idle (R126, R177, R363 to R365, R381). -/
namespace Sys2Proof.Machine

variable {d0 : Device}

/-- A run keeps what every operation keeps, and under that establishes for each element what its own operation sets and every operation keeps. -/
theorem Tx.each_sets_in {α : Type} {P : Tx d0 → Prop} {Q : α → Tx d0 → Prop} {l : List α} {g : α → Tx d0 → Tx d0}
    (hP : ∀ a ∈ l, ∀ u, P u → P (g a u)) (hset : ∀ a ∈ l, ∀ u, P u → Q a (g a u)) (hkeep : ∀ a ∈ l, ∀ b ∈ l, ∀ u, P u → Q a u → Q a (g b u)) {t : Tx d0} (h : P t) :
    P (t.each l g) ∧ ∀ a ∈ l, Q a (t.each l g) := by
  induction l generalizing t with
  | nil => exact ⟨h, by simp⟩
  | cons b r ih =>
    obtain ⟨hp, hr⟩ := ih (fun a ha => hP a (by simp [ha])) (fun a ha => hset a (by simp [ha])) (fun a ha c hc => hkeep a (by simp [ha]) c (by simp [hc]))
      (hP b (by simp) t h)
    refine ⟨hp, fun a ha => ?_⟩
    rcases List.mem_cons.mp ha with rfl | har
    · exact (Tx.each_keeps (fun u => P u ∧ Q a u) (g a t) r g ⟨hP a (by simp) t h, hset a (by simp) t h⟩
        (fun c hc u hu => ⟨hP c (by simp [hc]) u hu.1, hkeep a (by simp) c (by simp [hc]) u hu.1 hu.2⟩)).2
    · exact hr a har

/-! Flux outputs -/

/-- The codes of a tile's flux outputs. -/
def fluxCodes (tl : Nat) : List Fld := (List.range 8).map (fun i => R.FLX_OUT_STAT.CODE (8 * tl + i))

/-- From `d` to `x` flux outputs of a tile may have taken codes; those that switch range have not. -/
structure CodesOnly (tl : Nat) (d x : Device) : Prop where
  onlyFields : OnlyFields (fluxCodes tl) d x
  ranged : ∀ c, bget (fun _ => false) d.ranged c = true → x.f (R.FLX_OUT_STAT.CODE c) = d.f (R.FLX_OUT_STAT.CODE c)
  frame : ∃ flds steady, x = { d with flds := flds, steady := steady }

theorem fluxCode_key_inj {c k : Nat} (h : (R.FLX_OUT_STAT.CODE c).key = (R.FLX_OUT_STAT.CODE k).key) : c = k := by
  simp only [Fld.key, R.FLX_OUT_STAT.CODE, tileOff] at h
  omega

theorem Tx.loadCode_spec (t : Tx d0) (c code : Nat) : (t.loadCode c code).d.f (R.FLX_OUT_STAT.CODE c) = code % 2 ^ 16 ∧
    OnlyFields [R.FLX_OUT_STAT.CODE c] t.d (t.loadCode c code).d ∧ ∃ flds steady, (t.loadCode c code).d = { t.d with flds := flds, steady := steady } := by
  unfold Tx.loadCode
  dsimp only
  split
  · obtain ⟨_, hf⟩ := t.w_regsOnly (R.FLX_OUT_STAT.CODE c) code
    exact ⟨t.w_f_same _ _, t.w_onlyFields _ _, _, _, hf⟩
  · obtain ⟨_, hf⟩ := (t.touch c).w_regsOnly (R.FLX_OUT_STAT.CODE c) code
    exact ⟨(t.touch c).w_f_same _ _, (t.touch c).w_onlyFields _ _, _, _, hf⟩

/-- A further change of fields that may have changed already. -/
theorem OnlyFields.within {Gs Hs : List Fld} {d e g : Device} (h : OnlyFields Gs d e) (h' : OnlyFields Hs e g) (hs : Hs ⊆ Gs) : OnlyFields Gs d g :=
  fun F hF => (h'.mono hs F hF).trans (h F hF)

theorem CodesOnly.loadCode {tl i : Nat} {d : Device} {u : Tx d0} (h : CodesOnly tl d u.d) (hi : i ∈ List.range 8)
    (hr : bget (fun _ => false) d.ranged (8 * tl + i) = false) (code : Nat) : CodesOnly tl d (u.loadCode (8 * tl + i) code).d := by
  obtain ⟨-, honly, _, _, hframe⟩ := u.loadCode_spec (8 * tl + i) code
  obtain ⟨hfields, hkept, _, _, hbefore⟩ := h
  refine ⟨hfields.within honly (List.cons_subset.mpr ⟨List.mem_map_of_mem hi, List.nil_subset _⟩), fun c hc => (honly _ fun hkey => ?_).trans (hkept c hc), _, _,
    hframe.trans (by rw [hbefore])⟩
  rw [fluxCode_key_inj (List.mem_singleton.mp hkey), hr] at hc
  contradiction

/-- The flux outputs of a tile stand at their idle codes, but one that switches range. -/
theorem Tx.idleFlux_spec (t : Tx d0) (tl : Nat) : CodesOnly tl t.d (t.idleFlux tl).d ∧ ∀ i ∈ List.range 8,
    bget (fun _ => false) t.d.ranged (8 * tl + i) = false → (t.idleFlux tl).d.f (R.FLX_OUT_STAT.CODE (8 * tl + i)) = t.d.idleCode (8 * tl + i) % 2 ^ 16 := by
  have hconst : ∀ u : Tx d0, CodesOnly tl t.d u.d → u.d.ranged = t.d.ranged ∧ u.d.idleCode = t.d.idleCode := by
    rintro u ⟨-, -, _, _, hu⟩
    rw [hu]
    exact ⟨rfl, rfl⟩
  refine Tx.each_sets_in (P := fun u => CodesOnly tl t.d u.d)
    (Q := fun i u => bget (fun _ => false) t.d.ranged (8 * tl + i) = false → u.d.f (R.FLX_OUT_STAT.CODE (8 * tl + i)) = t.d.idleCode (8 * tl + i) % 2 ^ 16)
    (fun i hi u hu => ?_) (fun i hi u hu hr => ?_) (fun i _ k _ u hu hq hr => ?_) ⟨fun _ _ => rfl, fun _ _ => rfl, _, _, rfl⟩
  all_goals obtain ⟨hranged, hidle⟩ := hconst u hu
  · dsimp only
    rw [hranged]
    split
    · exact hu
    · next hr => exact hu.loadCode hi (eq_false_of_ne_true hr) _
  · dsimp only
    rw [hranged, if_neg (ne_true_of_eq_false hr), hidle]
    exact (u.loadCode_spec _ _).1
  · dsimp only
    rw [hranged, hidle]
    split
    · exact hq hr
    · obtain ⟨hcode, honly, -⟩ := u.loadCode_spec (8 * tl + k) (t.d.idleCode (8 * tl + k))
      by_cases hik : i = k
      · rw [hik, hcode]
      · exact (honly _ fun hkey => hik (Nat.add_left_cancel (fluxCode_key_inj (List.mem_singleton.mp hkey)))).trans (hq hr)

/-! Mixers -/

/-- What the release of mixer `i` of a tile writes. -/
def mixerFields (d : Device) (tl i : Nat) : List Fld := [R.NCO_MIX_STAT.BUSY (20 * tl + i), R.NCO_STAT.OCC (32 * tl + (d.mixer (20 * tl + i)).frame)]

/-- From `d` to `x` mixers of a tile may have been released; one that is still busy has not. -/
structure MixersOnly (tl : Nat) (d x : Device) : Prop where
  onlyFields : OnlyFields ((List.range 20).flatMap (mixerFields d tl)) d x
  busy : ∀ m, x.b (R.NCO_MIX_STAT.BUSY m) = true → x.mixer m = d.mixer m
  frame : ∃ flds mixers, x = { d with flds := flds, mixers := mixers }

theorem mixBusy_key_inj {c k : Nat} (h : (R.NCO_MIX_STAT.BUSY c).key = (R.NCO_MIX_STAT.BUSY k).key) : c = k := by
  simp only [Fld.key, R.NCO_MIX_STAT.BUSY, tileOff] at h
  omega

theorem mixBusy_ne_occ (m f : Nat) : (R.NCO_MIX_STAT.BUSY m).key ≠ (R.NCO_STAT.OCC f).key := by
  simp only [Fld.key, R.NCO_MIX_STAT.BUSY, R.NCO_STAT.OCC, tileOff]
  omega

theorem Tx.freeMixer_busy (t : Tx d0) (m : Nat) : (t.freeMixer m).d.b (R.NCO_MIX_STAT.BUSY m) = false := by
  let b := (t.wb (R.NCO_MIX_STAT.BUSY m) false).upd (.mixer m {})
  let occ := R.NCO_STAT.OCC (32 * (m / 20) + (t.d.mixer m).frame)
  by_cases hbusy : t.d.b (R.NCO_MIX_STAT.BUSY m) = true
  · have hfree : t.freeMixer m = b.w occ (b.f occ &&& (0xFFFFF ^^^ 2 ^ (m % 20))) := if_pos hbusy
    have hb : b.d.b (R.NCO_MIX_STAT.BUSY m) = false := congrArg (· == 1) (t.w_f_same (R.NCO_MIX_STAT.BUSY m) 0)
    rw [hfree]
    exact ((b.w_onlyFields occ _).b fun hkey => mixBusy_ne_occ _ _ (List.mem_singleton.mp hkey)).trans hb
  · rw [show t.freeMixer m = t from if_neg hbusy]
    exact eq_false_of_ne_true hbusy

/-- The release of a mixer changes no other mixer. -/
theorem Tx.freeMixer_spec (t : Tx d0) {m : Nat} (hbusy : t.d.b (R.NCO_MIX_STAT.BUSY m) = true) :
    OnlyFields [R.NCO_MIX_STAT.BUSY m, R.NCO_STAT.OCC (32 * (m / 20) + (t.d.mixer m).frame)] t.d (t.freeMixer m).d ∧
      (∀ k, k ≠ m → (t.freeMixer m).d.mixer k = t.d.mixer k) ∧ ∃ flds mixers, (t.freeMixer m).d = { t.d with flds := flds, mixers := mixers } := by
  let b := (t.wb (R.NCO_MIX_STAT.BUSY m) false).upd (.mixer m {})
  let occ := R.NCO_STAT.OCC (32 * (m / 20) + (t.d.mixer m).frame)
  have hfree : t.freeMixer m = b.w occ (b.f occ &&& (0xFFFFF ^^^ 2 ^ (m % 20))) := if_pos hbusy
  obtain ⟨_, hf⟩ := b.w_regsOnly occ (b.f occ &&& (0xFFFFF ^^^ 2 ^ (m % 20)))
  rw [hfree]
  exact ⟨(t.w_onlyFields (R.NCO_MIX_STAT.BUSY m) 0).trans (b.w_onlyFields occ _),
    fun k hk => bget_bset_other (fun _ => ({} : Mixer)) t.d.mixers m k {} hk, _, _, hf⟩

theorem MixersOnly.freeMixer {tl i : Nat} {d : Device} {u : Tx d0} (h : MixersOnly tl d u.d) (hi : i ∈ List.range 20) :
    MixersOnly tl d (u.freeMixer (20 * tl + i)).d := by
  by_cases hbusy : u.d.b (R.NCO_MIX_STAT.BUSY (20 * tl + i)) = true
  · have hfree := u.freeMixer_busy (20 * tl + i)
    obtain ⟨honly, hother, _, _, hframe⟩ := u.freeMixer_spec hbusy
    obtain ⟨hfields, hmixer, _, _, hbefore⟩ := h
    have htile : (20 * tl + i) / 20 = tl := by
      have := List.mem_range.mp hi
      omega
    rw [hmixer _ hbusy, htile] at honly
    refine ⟨hfields.within honly fun F hF => List.mem_flatMap.mpr ⟨i, hi, hF⟩, fun m hm => ?_, _, _, hframe.trans (by rw [hbefore])⟩
    have hne : m ≠ 20 * tl + i := by
      rintro rfl
      rw [hfree] at hm
      contradiction
    have hkept : (u.freeMixer (20 * tl + i)).d.b (R.NCO_MIX_STAT.BUSY m) = u.d.b (R.NCO_MIX_STAT.BUSY m) := by
      refine honly.b fun hkey => ?_
      rcases List.mem_cons.mp hkey with hk | hk
      · exact hne (mixBusy_key_inj hk)
      · exact mixBusy_ne_occ _ _ (List.mem_singleton.mp hk)
    exact (hother m hne).trans (hmixer m (hkept ▸ hm))
  · rwa [show u.freeMixer (20 * tl + i) = u from if_neg hbusy]

/-- The mixers of a tile are free. -/
theorem Tx.freeMixers_spec (t : Tx d0) (tl : Nat) : MixersOnly tl t.d (t.each (List.range 20) (fun i t => t.freeMixer (20 * tl + i))).d ∧
    ∀ i ∈ List.range 20, (t.each (List.range 20) (fun i t => t.freeMixer (20 * tl + i))).d.b (R.NCO_MIX_STAT.BUSY (20 * tl + i)) = false := by
  refine Tx.each_sets_in (P := fun u => MixersOnly tl t.d u.d) (Q := fun i u => u.d.b (R.NCO_MIX_STAT.BUSY (20 * tl + i)) = false)
    (fun i hi u hu => hu.freeMixer hi) (fun i _ u _ => u.freeMixer_busy _) (fun i _ k _ u _ hq => ?_) ⟨fun _ _ => rfl, fun _ _ => rfl, _, _, rfl⟩
  by_cases hbusy : u.d.b (R.NCO_MIX_STAT.BUSY (20 * tl + k)) = true
  · by_cases hik : i = k
    · rw [hik]
      exact u.freeMixer_busy _
    · refine ((u.freeMixer_spec hbusy).1.b fun hkey => ?_).trans hq
      rcases List.mem_cons.mp hkey with hkey | hkey
      · exact hik (Nat.add_left_cancel (mixBusy_key_inj hkey))
      · exact mixBusy_ne_occ _ _ (List.mem_singleton.mp hkey)
  · rwa [show u.freeMixer (20 * tl + k) = u from if_neg hbusy]

/-! The marker -/

/-- What the marker's idle level writes. -/
def markerFields (tl : Nat) : List Fld := [R.FLX_MARK.LEVEL tl, R.FLX_MARK.CHANGES tl, R.FLX_EVT.MARK_STRETCH tl]

/-- A marker with no change to come takes a level at once, or 4 samples after its last change where that is later (R381). -/
structure Marked (tl : Nat) (v : Bool) (d x : Device) : Prop where
  now : d.b (R.FLX_MARK.LEVEL tl) = v ∨ (d.marker tl).last.all (fun l => decide (l + 4 ≤ 8 * d.age)) = true →
    x.b (R.FLX_MARK.LEVEL tl) = v ∧ (x.marker tl).queue = [] ∧ x.f (R.FLX_EVT.MARK_STRETCH tl) = d.f (R.FLX_EVT.MARK_STRETCH tl)
  later : ¬ (d.b (R.FLX_MARK.LEVEL tl) = v ∨ (d.marker tl).last.all (fun l => decide (l + 4 ≤ 8 * d.age)) = true) →
    x.b (R.FLX_MARK.LEVEL tl) = d.b (R.FLX_MARK.LEVEL tl) ∧ (x.marker tl).queue = [((d.marker tl).last.getD 0 + 4, v)] ∧
      x.f (R.FLX_EVT.MARK_STRETCH tl) = 1

/-- The sample at which a marker may change next. -/
def Marker.next (m : Marker) (now : Nat) : Nat := match m.last with
  | some l => max now (l + 4)
  | none => now

theorem Marker.next_eq_now {m : Marker} {now : Nat} : m.next now = now ↔ m.last.all (fun l => decide (l + 4 ≤ now)) = true := by
  unfold Marker.next
  cases m.last with
  | none => simp
  | some l => simp

theorem Marker.next_later {m : Marker} {now : Nat} (h : m.next now ≠ now) : m.next now = m.last.getD 0 + 4 := by
  unfold Marker.next at h ⊢
  cases hl : m.last with
  | none => simp [hl] at h
  | some l =>
    simp only [hl] at h ⊢
    simp only [Option.getD_some]
    omega

/-- The marker of a tile without what MARKs of this very tick would change. -/
def Device.markerNow (d : Device) (tl : Nat) : Marker :=
  let m := d.marker tl
  if m.tick = d.age && !m.reqs.isEmpty then { m with queue := m.queue0, last := m.last0, reqs := [], late := false } else m

/-- The level that a marker will have behind its changes to come. -/
def Marker.level (m : Marker) (shown : Bool) : Bool := match m.queue.getLast? with
  | some (_, v) => v
  | none => shown

/-- A marker that stood at `level` takes the level `v`. -/
def Tx.markSet (t : Tx d0) (tl : Nat) (v : Bool) (m : Marker) (level : Bool) : Tx d0 :=
  let now := 8 * t.d.age
  if level = v then t.upd (.marker tl m)
  else if m.next now = now then
    ((t.wb (R.FLX_MARK.LEVEL tl) v).when (t.running || t.d.run.afterEnd) (fun t => t.inc (R.FLX_MARK.CHANGES tl))).upd (.marker tl { m with last := some now })
  else (t.ev (R.FLX_EVT.MARK_STRETCH tl)).upd (.marker tl { m with last := some (m.next now), queue := m.queue ++ [(m.next now, v)] })

theorem Tx.markNow_eq (t : Tx d0) (tl : Nat) (v : Bool) :
    t.markNow tl v = t.markSet tl v (t.d.markerNow tl) ((t.d.markerNow tl).level (t.b (R.FLX_MARK.LEVEL tl))) := rfl

/-- The change of a marker's level at once. -/
theorem Tx.markAtOnce_level (t : Tx d0) (tl : Nat) (v c : Bool) :
    ((t.wb (R.FLX_MARK.LEVEL tl) v).when c (fun t => t.inc (R.FLX_MARK.CHANGES tl))).d.b (R.FLX_MARK.LEVEL tl) = v := by
  have hset : (t.wb (R.FLX_MARK.LEVEL tl) v).d.b (R.FLX_MARK.LEVEL tl) = v := by
    rw [Device.b, Tx.wb, t.w_f_same]
    cases v <;> rfl
  cases c with
  | false => exact hset
  | true => exact ((Tx.w_onlyFields _ (R.FLX_MARK.CHANGES tl) _).b (by simp [Fld.key, R.FLX_MARK.LEVEL, R.FLX_MARK.CHANGES])).trans hset

theorem Tx.markAtOnce_only (t : Tx d0) (tl : Nat) (v c : Bool) :
    OnlyFields [R.FLX_MARK.LEVEL tl, R.FLX_MARK.CHANGES tl] t.d ((t.wb (R.FLX_MARK.LEVEL tl) v).when c (fun t => t.inc (R.FLX_MARK.CHANGES tl))).d ∧
      RegsOnly t.d ((t.wb (R.FLX_MARK.LEVEL tl) v).when c (fun t => t.inc (R.FLX_MARK.CHANGES tl))).d := by
  have hlevel := t.w_onlyFields (R.FLX_MARK.LEVEL tl) v.toNat
  cases c with
  | false => exact ⟨hlevel.mono (by simp), t.w_regsOnly _ _⟩
  | true => exact ⟨hlevel.trans (Tx.w_onlyFields _ (R.FLX_MARK.CHANGES tl) _), (t.w_regsOnly _ _).trans (Tx.w_regsOnly _ _ _)⟩

/-- The idle level of a marker changes nothing else. -/
theorem Tx.markNow_only (t : Tx d0) (tl : Nat) (v : Bool) : OnlyFields (markerFields tl) t.d (t.markNow tl v).d ∧
    ∃ flds markers pba evNow, (t.markNow tl v).d = { t.d with flds := flds, markers := markers, pba := pba, evNow := evNow } := by
  rw [Tx.markNow_eq]
  unfold Tx.markSet
  dsimp only
  split
  · exact ⟨fun _ _ => rfl, _, _, _, _, rfl⟩
  · split
    · obtain ⟨honly, _, hframe⟩ := t.markAtOnce_only tl v (t.running || t.d.run.afterEnd)
      exact ⟨fun F hF => honly.mono (Hs := markerFields tl) (by simp [markerFields]) F hF, _, _, _, _, by rw [Tx.upd_d, hframe]; rfl⟩
    · have honly := t.ev_onlyFields (R.FLX_EVT.MARK_STRETCH tl)
      obtain ⟨_, _, _, hframe⟩ := t.ev_regFileOnly (R.FLX_EVT.MARK_STRETCH tl)
      exact ⟨fun F hF => honly.mono (Hs := markerFields tl) (by simp [markerFields]) F hF, _, _, _, _, by rw [Tx.upd_d, hframe]; rfl⟩

theorem Tx.markNow_marked (t : Tx d0) (tl : Nat) (v : Bool) (hqueue : (t.d.marker tl).queue = [])
    (hreqs : (t.d.marker tl).tick ≠ t.d.age ∨ (t.d.marker tl).reqs = []) : Marked tl v t.d (t.markNow tl v).d := by
  have hnow : t.d.markerNow tl = t.d.marker tl := by
    refine if_neg fun h => ?_
    rcases hreqs with h' | h' <;> simp [h'] at h
  have hlevel : (t.d.marker tl).level (t.b (R.FLX_MARK.LEVEL tl)) = t.d.b (R.FLX_MARK.LEVEL tl) := by
    rw [Marker.level, hqueue]
    rfl
  have hmarker : ∀ (u : Tx d0) (m : Marker), (u.upd (.marker tl m)).d.marker tl = m := fun u m => bget_bset_same (fun _ => ({} : Marker)) u.d.markers tl m
  rw [Tx.markNow_eq, hnow, hlevel]
  unfold Tx.markSet
  dsimp only
  split
  · next hsame => exact ⟨fun _ => ⟨hsame, by rw [hmarker, hqueue], rfl⟩, fun h => absurd (.inl hsame) h⟩
  · next hne =>
    split
    · next hnext =>
      refine ⟨fun _ => ⟨?_, by rw [hmarker, hqueue], ?_⟩, fun h => absurd (.inr (Marker.next_eq_now.mp hnext)) h⟩
      · exact t.markAtOnce_level tl v _
      · exact (t.markAtOnce_only tl v _).1 _ (by simp [Fld.key, R.FLX_MARK.LEVEL, R.FLX_MARK.CHANGES, R.FLX_EVT.MARK_STRETCH]; omega)
    · next hnext =>
      refine ⟨fun h => absurd h ?_, fun _ => ⟨?_, ?_, ?_⟩⟩
      · rintro (h | h)
        · exact hne h
        · exact hnext (Marker.next_eq_now.mpr h)
      · exact (t.ev_onlyFields (R.FLX_EVT.MARK_STRETCH tl)).b (F := R.FLX_MARK.LEVEL tl) (by simp [Fld.key, R.FLX_MARK.LEVEL, R.FLX_EVT.MARK_STRETCH]; omega)
      · rw [hmarker, hqueue, Marker.next_later hnext]
        rfl
      · exact t.ev_f_same _ rfl

end Sys2Proof.Machine
end

section
/-! SUPPORT. A WAIT, from its issue to its end (R176 to R178). -/
namespace Sys2Proof.Machine

variable {d0 : Device}

/-- The engine holds at a WAIT. -/
def Engine.waitsAt (w : Waiting) (x : Engine) : Engine := { x with waiting := some w }

def Tx.waitMark (t : Tx d0) (e : Nat) (q : QOp) : Tx d0 :=
  ((t.modEng e (Engine.waitsAt { b := t.now, operand := opOperand q.bits, idx := q.idx })).w (R.SCH_STAT.STATE e) 2).wb (R.SCH_STAT.WAITING e) true

/-- Past a TIMEOUT the operations after the WAIT are fetched. -/
def Tx.waitFetch (t : Tx d0) (e : Nat) (q : QOp) (b : Nat) : Tx d0 :=
  let tmo := opOperand q.bits % 2 ^ 32
  if tmo = 0 then t else t.fetchFrom e (q.idx + 1) (b + tmo) (max b (b + tmo - 19)) true

/-- Engine `e` holds at a WAIT with `rest` in its queue; no other engine has changed. -/
structure HoldsWait (e : Nat) (rest : List QOp) (w : Waiting) (fetch : Fetch) (d x : Device) : Prop where
  eng : x.eng e = { d.eng e with queue := rest, waiting := some w, fetch := fetch }
  state : x.f (R.SCH_STAT.STATE e) = 2
  waiting : x.f (R.SCH_STAT.WAITING e) = 1
  depth : x.f (R.ENG_QUEUE.DEPTH e) = rest.length % 2 ^ (R.ENG_QUEUE.DEPTH e).width
  onlyEngine : OnlyEngine e d x

theorem HoldsWait.leaves {e : Nat} {rest : List QOp} {w : Waiting} {fetch : Fetch} {tiles : Bool} {d x y : Device} (h : HoldsWait e rest w fetch d x)
    (hl : Leaves tiles x y) : HoldsWait e rest w fetch d y := by
  obtain ⟨heng, hstate, hwaiting, hdepth, honly⟩ := h
  exact ⟨(congrFun hl.eng e).trans heng, (hl.fld _ (engineKey_tile (by decide))).trans hstate, (hl.fld _ (engineKey_tile (by decide))).trans hwaiting,
    (hl.fld _ (engineKey_tile (by decide))).trans hdepth, fun k hk => (congrFun hl.eng k).trans (honly k hk)⟩

/-- The fields that show the hold of an engine at a WAIT. -/
def waitFields (e : Nat) : List Fld := [R.SCH_STAT.STATE e, R.SCH_STAT.WAITING e, R.ENG_QUEUE.DEPTH e, R.ENG_QUEUE.MAX e]

theorem Tx.waitMark_eng (t : Tx d0) (e : Nat) (q : QOp) :
    (t.waitMark e q).d.eng e = (t.d.eng e).waitsAt { b := t.now, operand := opOperand q.bits, idx := q.idx } := t.modEng_eng_same e _

theorem Tx.waitMark_spec (t : Tx d0) (e : Nat) (q : QOp) (rest : List QOp) :
    HoldsWait e rest { b := t.d.now, operand := opOperand q.bits, idx := q.idx } (t.d.eng e).fetch t.d ((t.setQueue e rest).waitMark e q).d ∧
      OnlyFields (waitFields e) t.d ((t.setQueue e rest).waitMark e q).d ∧ EngineRegsOnly t.d ((t.setQueue e rest).waitMark e q).d := by
  have hq := t.setQueue_spec e rest
  generalize t.setQueue e rest = x at hq
  let m := x.modEng e (Engine.waitsAt { b := x.now, operand := opOperand q.bits, idx := q.idx })
  let s := m.w (R.SCH_STAT.STATE e) 2
  have hnow : x.now = t.d.now := (hq.frame 0).2.2
  have hengine := x.waitMark_eng e q
  have hwait := s.w_onlyFields (R.SCH_STAT.WAITING e) true.toNat
  have hboth : OnlyFields [R.SCH_STAT.STATE e, R.SCH_STAT.WAITING e] m.d (s.wb (R.SCH_STAT.WAITING e) true).d := (m.w_onlyFields (R.SCH_STAT.STATE e) 2).trans hwait
  refine ⟨⟨?_, (hwait _ ?_).trans (m.w_f_same _ 2), s.w_f_same _ _, (hboth _ ?_).trans hq.depth, hq.onlyEngine.trans (x.modEng_onlyEngine e _)⟩,
    (hq.onlyFields.trans hboth).mono ?_, hq.engineRegsOnly.trans ((x.modEng_engineRegsOnly e _).trans ((m.w_regsOnly _ 2).trans (s.w_regsOnly _ _)).engineRegsOnly)⟩
  · refine hengine.trans ?_
    rw [hq.eng, hnow]
    rfl
  · simp [Fld.key, R.SCH_STAT.STATE, R.SCH_STAT.WAITING]
  · simp only [Fld.key, R.SCH_STAT.STATE, R.SCH_STAT.WAITING, R.ENG_QUEUE.DEPTH, tileOff, List.map_cons, List.map_nil, List.mem_cons, List.not_mem_nil, or_false]
    omega
  · simp [waitFields]

theorem Tx.idleOuts_run (t : Tx d0) (e : Nat) : (t.idleOuts e).d.run = t.d.run := by
  unfold Tx.idleOuts
  split
  · obtain ⟨⟨-, -, _, _, hf⟩, -⟩ := t.idleFlux_spec (e / 2)
    rw [hf]
  · obtain ⟨⟨-, -, _, _, hf⟩, -⟩ := t.freeMixers_spec (e / 2)
    obtain ⟨-, _, _, _, _, hm⟩ := (t.each (List.range 20) (fun i t => t.freeMixer (20 * (e / 2) + i))).markNow_only (e / 2) (t.d.midle (e / 2))
    rw [hm, hf]

theorem Tx.idleOuts_leaves (t : Tx d0) (e : Nat) : Leaves false t.d (t.idleOuts e).d := by
  have h := Leaves.refl false t.d
  unfold Tx.idleOuts
  split
  · exact h.idleFlux _
  · exact (h.each (List.range 20) (g := fun i t => t.freeMixer (20 * (e / 2) + i)) fun _ _ _ hu => hu.freeMixer _).markNow _ _

theorem Tx.waitFetch_frame (t : Tx d0) (e : Nat) (q : QOp) (b : Nat) : ∃ engines, (t.waitFetch e q b).d = { t.d with engines := engines } := by
  unfold Tx.waitFetch
  dsimp only
  split <;> exact ⟨_, rfl⟩

/-- The fetch state of the engine behind the WAIT. -/
def waitFetched (d : Device) (e : Nat) (q : QOp) (b : Nat) : Fetch :=
  let tmo := opOperand q.bits % 2 ^ 32
  if tmo = 0 then (d.eng e).fetch else
    { ptr := q.idx + 1, base := b + tmo, wait := 0, active := d.f (R.SCH_STAT.LOOP_ACTIVE e), left := (d.eng e).left, stop := false, start := max b (b + tmo - 19) }

theorem Tx.waitFetch_f (t : Tx d0) (e : Nat) (q : QOp) (b : Nat) : (t.waitFetch e q b).d.f = t.d.f := by
  obtain ⟨_, hf⟩ := t.waitFetch_frame e q b
  rw [hf]
  rfl

theorem Tx.waitFetch_eng (t : Tx d0) (e : Nat) (q : QOp) (b : Nat) :
    (t.waitFetch e q b).d.eng e = { t.d.eng e with fetch := waitFetched t.d e q b } ∧ OnlyEngine e t.d (t.waitFetch e q b).d := by
  unfold Tx.waitFetch waitFetched
  dsimp only
  split
  · exact ⟨rfl, fun _ _ => rfl⟩
  · exact ⟨t.modEng_eng_same e _, t.modEng_onlyEngine e _⟩

/-- A WAIT whose event has not come and whose jump is not pending goes on holding. -/
theorem Tx.waitOn_eq (t : Tx d0) (e : Nat) (q : QOp)
    (hevent : bitsOf (opOperand q.bits) 63 62 = 0 → t.d.run.evs.getD (bitsOf (opOperand q.bits) 61 59) 0 ≤ t.d.now.toNat)
    (hjump : bitsOf (opOperand q.bits) 63 62 ≠ 0 → (t.d.eng e).jump = none ∧ (t.d.eng e).retaken q.idx = none) :
    t.waitOn e q = ((t.waitMark e q).idleOuts e).waitFetch e q t.d.now.toNat := by
  have hshape : t.waitOn e q = (let u := ((t.waitMark e q).idleOuts e).waitFetch e q t.d.now.toNat
    let o := opOperand q.bits
    let b := t.d.now.toNat
    if bitsOf o 63 62 = 0 then
      if b < u.d.run.evs.getD (bitsOf o 61 59) 0 then u.waitEnds e (q.idx + 1) (u.d.run.evs.getD (bitsOf o 61 59) 0 - 1 + bitsOf o 42 32) else u
    else match (t.d.eng e).retaken q.idx, (u.d.eng e).jump with
      | some j, _ => u.waitJump e j b true
      | none, some (j, _) => u.waitJump e j b false
      | none, none => u) := rfl
  have hrun : (((t.waitMark e q).idleOuts e).waitFetch e q t.d.now.toNat).d.run = t.d.run := by
    obtain ⟨_, hf⟩ := ((t.waitMark e q).idleOuts e).waitFetch_frame e q t.d.now.toNat
    rw [hf]
    exact (t.waitMark e q).idleOuts_run e
  have hjumps : ((((t.waitMark e q).idleOuts e).waitFetch e q t.d.now.toNat).d.eng e).jump = (t.d.eng e).jump := by
    rw [(Tx.waitFetch_eng _ e q _).1]
    refine (congrArg Engine.jump (congrFun ((t.waitMark e q).idleOuts_leaves e).eng e)).trans ?_
    exact (congrArg Engine.jump (t.waitMark_eng e q)).trans rfl
  rw [hshape]
  generalize ((t.waitMark e q).idleOuts e).waitFetch e q t.d.now.toNat = u at hrun hjumps
  dsimp only
  rw [hrun, hjumps]
  split
  · next hkind => exact if_neg (Nat.not_lt.mpr (hevent hkind))
  · next hkind =>
    obtain ⟨hnone, hretaken⟩ := hjump hkind
    rw [hnone, hretaken]

/-- What the WAIT makes of its engine, whichever outputs it has. -/
theorem HoldsWait.fetches {e : Nat} {q : QOp} {rest : List QOp} {w : Waiting} {d : Device} {t : Tx d0} {b : Nat} (h : HoldsWait e rest w (d.eng e).fetch d t.d)
    (hactive : t.d.f (R.SCH_STAT.LOOP_ACTIVE e) = d.f (R.SCH_STAT.LOOP_ACTIVE e)) :
    HoldsWait e rest w (waitFetched d e q b) d (t.waitFetch e q b).d := by
  obtain ⟨heng, hstate, hwaiting, hdepth, honly⟩ := h
  obtain ⟨hfetch, hother⟩ := t.waitFetch_eng e q b
  have hf := t.waitFetch_f e q b
  refine ⟨?_, hf ▸ hstate, hf ▸ hwaiting, hf ▸ hdepth, honly.trans hother⟩
  rw [hfetch, waitFetched, hactive, heng]
  rfl

/-- The device of a WAIT whose event has not come: marked, its outputs idle, and fetched on. -/
theorem effWait_eq {d : Device} {e : Nat} {q : QOp} {rest : List QOp} (h : Heads d e 0x11 q rest)
    (hevent : bitsOf (opOperand q.bits) 63 62 = 0 → d.run.evs.getD (bitsOf (opOperand q.bits) 61 59) 0 ≤ d.now.toNat)
    (hjump : bitsOf (opOperand q.bits) 63 62 ≠ 0 → (d.eng e).jump = none ∧ (d.eng e).retaken q.idx = none) :
    effWait e (Tx.start d) = ((((Tx.start d).setQueue e rest).waitMark e q).idleOuts e).waitFetch e q d.now.toNat := by
  have hq := (Tx.start d).setQueue_spec e rest
  have hnow : ((Tx.start d).setQueue e rest).d.now = d.now := (hq.frame 0).2.2
  have hrun : ((Tx.start d).setQueue e rest).d.run = d.run := by
    obtain ⟨_, _, hx⟩ := hq.engineRegsOnly
    rw [hx]
    rfl
  have heng := hq.eng
  rw [effWait, Tx.issue_heads h, Tx.waitOn_eq _ e q, hnow]
  · rwa [hrun, hnow]
  · rwa [heng]

/-- What a WAIT shows of its engine. -/
theorem effWait_holds {d : Device} {e : Nat} {q : QOp} {rest : List QOp} (h : Heads d e 0x11 q rest)
    (hevent : bitsOf (opOperand q.bits) 63 62 = 0 → d.run.evs.getD (bitsOf (opOperand q.bits) 61 59) 0 ≤ d.now.toNat)
    (hjump : bitsOf (opOperand q.bits) 63 62 ≠ 0 → (d.eng e).jump = none ∧ (d.eng e).retaken q.idx = none) :
    HoldsWait e rest { b := d.now, operand := opOperand q.bits, idx := q.idx } (waitFetched d e q d.now.toNat) (Tx.start d).d (effWait e (Tx.start d)).d := by
  obtain ⟨hmark, honly, -⟩ := (Tx.start d).waitMark_spec e q rest
  have hidle := (((Tx.start d).setQueue e rest).waitMark e q).idleOuts_leaves e
  rw [effWait_eq h hevent hjump]
  refine (hmark.leaves hidle).fetches (q := q) (b := d.now.toNat) ((hidle.fld _ (engineKey_tile (by decide))).trans (honly _ ?_))
  simp only [waitFields, Fld.key, R.SCH_STAT.STATE, R.SCH_STAT.WAITING, R.ENG_QUEUE.DEPTH, R.ENG_QUEUE.MAX, tileOff, List.map_cons,
    List.map_nil, List.mem_cons, List.not_mem_nil, or_false]
  omega

theorem fluxCode_notWait (c e : Nat) : (R.FLX_OUT_STAT.CODE c).key ∉ (waitFields e).map Fld.key := by
  simp only [waitFields, Fld.key, R.FLX_OUT_STAT.CODE, R.SCH_STAT.STATE, R.SCH_STAT.WAITING, R.ENG_QUEUE.DEPTH, R.ENG_QUEUE.MAX, tileOff, List.map_cons,
    List.map_nil, List.mem_cons, List.not_mem_nil, or_false]
  omega

/-- What the WAIT of engine B changes: the codes of its flux outputs beside what shows the hold. -/
theorem effWait_odd {d : Device} {e : Nat} {q : QOp} {rest : List QOp} (h : Heads d e 0x11 q rest) (hodd : e % 2 = 1)
    (hevent : bitsOf (opOperand q.bits) 63 62 = 0 → d.run.evs.getD (bitsOf (opOperand q.bits) 61 59) 0 ≤ d.now.toNat)
    (hjump : bitsOf (opOperand q.bits) 63 62 ≠ 0 → (d.eng e).jump = none ∧ (d.eng e).retaken q.idx = none) :
    (∀ i ∈ List.range 8, (effWait e (Tx.start d)).d.f (R.FLX_OUT_STAT.CODE (8 * (e / 2) + i)) =
        if bget (fun _ => false) d.ranged (8 * (e / 2) + i) then d.f (R.FLX_OUT_STAT.CODE (8 * (e / 2) + i)) else d.idleCode (8 * (e / 2) + i) % 2 ^ 16) ∧
      OnlyFields (waitFields e ++ fluxCodes (e / 2)) (Tx.start d).d (effWait e (Tx.start d)).d ∧
      ∃ flds engines steady, (effWait e (Tx.start d)).d = { (Tx.start d).d with flds := flds, engines := engines, steady := steady } := by
  obtain ⟨-, hmark, flds, engines, hregs⟩ := (Tx.start d).waitMark_spec e q rest
  rw [effWait_eq h hevent hjump, show ∀ t : Tx d, t.idleOuts e = t.idleFlux (e / 2) from fun t => if_pos hodd, Tx.waitFetch_f]
  generalize ((Tx.start d).setQueue e rest).waitMark e q = x at hmark hregs
  obtain ⟨⟨hfields, hranged, flds', steady, hframe⟩, hidle⟩ := x.idleFlux_spec (e / 2)
  obtain ⟨engines', hfetch⟩ := (x.idleFlux (e / 2)).waitFetch_frame e q d.now.toNat
  have hsame : x.d.ranged = d.ranged ∧ x.d.idleCode = d.idleCode := by
    rw [hregs]
    exact ⟨rfl, rfl⟩
  refine ⟨fun i hi => ?_, ?_, flds', engines', steady, ?_⟩
  · split
    · next hr =>
      have hcode : x.d.f (R.FLX_OUT_STAT.CODE (8 * (e / 2) + i)) = d.f (R.FLX_OUT_STAT.CODE (8 * (e / 2) + i)) := hmark _ (fluxCode_notWait _ e)
      rw [← hsame.1] at hr
      rw [hranged _ hr, hcode]
    · next hr =>
      rw [← hsame.1] at hr
      rw [hidle i hi (eq_false_of_ne_true hr), hsame.2]
  · intro F hF
    exact (congrFun (Tx.waitFetch_f ..) F).trans (hmark.trans hfields F hF)
  · rw [hfetch, hframe, hregs]

/-- The marker's registers are apart from those that show the hold and from the mixers'. -/
theorem markerField_apart (d : Device) (e tl : Nat) {F : Fld} (hF : F ∈ markerFields tl) :
    F.key ∉ (waitFields e ++ (List.range 20).flatMap (mixerFields d tl)).map Fld.key := by
  rw [List.map_append, List.mem_append, not_or]
  simp only [markerFields, List.mem_cons, List.not_mem_nil, or_false] at hF
  constructor
  · simp only [waitFields, Fld.key, R.SCH_STAT.STATE, R.SCH_STAT.WAITING, R.ENG_QUEUE.DEPTH, R.ENG_QUEUE.MAX, tileOff, List.map_cons, List.map_nil,
      List.mem_cons, List.not_mem_nil, or_false]
    rcases hF with rfl | rfl | rfl <;> simp only [R.FLX_MARK.LEVEL, R.FLX_MARK.CHANGES, R.FLX_EVT.MARK_STRETCH] <;> omega
  · simp only [mixerFields, List.map_flatMap, List.mem_flatMap, Fld.key, R.NCO_MIX_STAT.BUSY, R.NCO_STAT.OCC, tileOff, List.map_cons, List.map_nil,
      List.mem_cons, List.not_mem_nil, or_false, not_exists, not_and]
    intro i _
    rcases hF with rfl | rfl | rfl <;> simp only [R.FLX_MARK.LEVEL, R.FLX_MARK.CHANGES, R.FLX_EVT.MARK_STRETCH] <;> omega

theorem mixBusy_notMarker (m tl : Nat) : (R.NCO_MIX_STAT.BUSY m).key ∉ (markerFields tl).map Fld.key := by
  simp only [markerFields, Fld.key, R.NCO_MIX_STAT.BUSY, R.FLX_MARK.LEVEL, R.FLX_MARK.CHANGES, R.FLX_EVT.MARK_STRETCH, tileOff, List.map_cons, List.map_nil,
    List.mem_cons, List.not_mem_nil, or_false]
  omega

/-- A level is taken as well from an earlier device that shows the same marker, and stands in a later one. -/
theorem Marked.congr {tl : Nat} {v : Bool} {d d' x x' : Device} (h : Marked tl v d x) (hd : ∀ F ∈ markerFields tl, d.f F = d'.f F)
    (hmarker : d.marker tl = d'.marker tl) (hage : d.age = d'.age) (hx : x'.f = x.f) (hmarker' : x'.marker tl = x.marker tl) : Marked tl v d' x' := by
  have hlevel : d.b (R.FLX_MARK.LEVEL tl) = d'.b (R.FLX_MARK.LEVEL tl) := congrArg (· == 1) (hd _ (by simp [markerFields]))
  have hlevel' : x'.b (R.FLX_MARK.LEVEL tl) = x.b (R.FLX_MARK.LEVEL tl) := congrArg (· == 1) (congrFun hx _)
  obtain ⟨hnow, hlater⟩ := h
  rw [hlevel, hmarker, hage] at hnow hlater
  rw [hd _ (by simp [markerFields])] at hnow
  exact ⟨by rwa [hlevel', hmarker', hx], by rwa [hlevel', hmarker', hx]⟩

/-- What the WAIT of engine A changes: its mixers and its marker beside what shows the hold. -/
theorem effWait_even {d : Device} {e : Nat} {q : QOp} {rest : List QOp} (h : Heads d e 0x11 q rest) (heven : e % 2 = 0)
    (hevent : bitsOf (opOperand q.bits) 63 62 = 0 → d.run.evs.getD (bitsOf (opOperand q.bits) 61 59) 0 ≤ d.now.toNat)
    (hjump : bitsOf (opOperand q.bits) 63 62 ≠ 0 → (d.eng e).jump = none ∧ (d.eng e).retaken q.idx = none) :
    (∀ i ∈ List.range 20, (effWait e (Tx.start d)).d.b (R.NCO_MIX_STAT.BUSY (20 * (e / 2) + i)) = false) ∧
      ((d.marker (e / 2)).queue = [] → (d.marker (e / 2)).tick ≠ d.age ∨ (d.marker (e / 2)).reqs = [] →
        Marked (e / 2) (d.midle (e / 2)) d (effWait e (Tx.start d)).d) ∧
      OnlyFields (waitFields e ++ (List.range 20).flatMap (mixerFields d (e / 2)) ++ markerFields (e / 2)) (Tx.start d).d (effWait e (Tx.start d)).d ∧
      ∃ flds engines mixers markers pba evNow, (effWait e (Tx.start d)).d =
        { (Tx.start d).d with flds := flds, engines := engines, mixers := mixers, markers := markers, pba := pba, evNow := evNow } := by
  obtain ⟨-, hmark, flds, engines, hregs⟩ := (Tx.start d).waitMark_spec e q rest
  rw [effWait_eq h hevent hjump, show ∀ t : Tx d, t.idleOuts e = (t.each (List.range 20) (fun i t => t.freeMixer (20 * (e / 2) + i))).markNow (e / 2)
    (t.d.midle (e / 2)) from fun t => if_neg (by omega)]
  generalize ((Tx.start d).setQueue e rest).waitMark e q = x at hmark hregs
  obtain ⟨⟨hfields, -, flds', mixers, hframe⟩, hfree⟩ := x.freeMixers_spec (e / 2)
  generalize x.each (List.range 20) (fun i t => t.freeMixer (20 * (e / 2) + i)) = y at hfields hframe hfree
  have hmidle : x.d.midle = d.midle ∧ x.d.mixer = d.mixer := by
    rw [hregs]
    exact ⟨rfl, rfl⟩
  have hsame : y.d.marker = d.marker ∧ y.d.age = d.age := by
    rw [hframe, hregs]
    exact ⟨rfl, rfl⟩
  have hmixers : mixerFields x.d (e / 2) = mixerFields d (e / 2) := by
    funext i
    rw [mixerFields, hmidle.2]
    rfl
  rw [hmixers] at hfields
  have hbefore := hmark.trans hfields
  have hset := y.markNow_marked (e / 2) (x.d.midle (e / 2))
  obtain ⟨honly, flds'', markers, pba, evNow, hnow⟩ := y.markNow_only (e / 2) (x.d.midle (e / 2))
  rw [hmidle.1] at hset honly hnow ⊢
  generalize y.markNow (e / 2) (d.midle (e / 2)) = z at hset honly hnow
  obtain ⟨engines', hfetch⟩ := z.waitFetch_frame e q d.now.toNat
  have hz : (z.waitFetch e q d.now.toNat).d.f = z.d.f := z.waitFetch_f ..
  refine ⟨fun i hi => ?_, fun hqueue hreqs => ?_, fun F hF => (congrFun hz F).trans (hbefore.trans honly F hF), flds'', engines', mixers, markers, pba, evNow, ?_⟩
  · refine (congrArg (· == 1) (congrFun hz _)).trans ((honly.b (mixBusy_notMarker _ _)).trans (hfree i hi))
  · rw [hsame.1, hsame.2] at hset
    exact (hset hqueue hreqs).congr (fun F hF => hbefore F (markerField_apart d e _ hF)) (congrFun hsame.1 _) hsame.2 hz (by rw [hfetch]; rfl)
  · rw [hfetch, hnow, hframe, hregs]

/-! The end of a WAIT -/

/-- An engine that waits no more. -/
def Engine.waitsNoMore (x : Engine) : Engine := { x with waiting := none }

/-- The segment that was found starts on the resume tick. -/
theorem effWaitResume_eq (t : Tx d0) (e ptr : Nat) (hrun : t.running = true) (hlive : (t.d.eng e).live = true)
    (hwait : ((t.d.eng e).waiting).bind Waiting.resume = some (t.d.now, ptr)) :
    effWaitResume e t = (t.modEng e Engine.waitsNoMore).enterSeg e ptr := by
  rw [effWaitResume, hwait]
  exact if_pos (by simp [hrun, hlive, Tx.now])

/-- An engine enters a segment from a WAIT. -/
theorem Tx.leaveWait_spec (t : Tx d0) (e ptr : Nat) :
    (((t.modEng e Engine.waitsNoMore).enterSeg e ptr).d.eng e).waiting = none ∧ Enters e ptr t.d ((t.modEng e Engine.waitsNoMore).enterSeg e ptr).d ∧
      OnlyEngine e t.d ((t.modEng e Engine.waitsNoMore).enterSeg e ptr).d ∧ EngineRegsOnly t.d ((t.modEng e Engine.waitsNoMore).enterSeg e ptr).d ∧
      OnlyFields [R.SCH_SEG.POINTER e, R.SCH_STAT.STATE e, R.SCH_STAT.WAITING e] t.d ((t.modEng e Engine.waitsNoMore).enterSeg e ptr).d := by
  obtain ⟨henters, heng, honly, hregs, hfields⟩ := (t.modEng e Engine.waitsNoMore).enterSeg_spec e ptr
  refine ⟨?_, henters, (t.modEng_onlyEngine e _).trans honly, (t.modEng_engineRegsOnly e _).trans hregs, hfields⟩
  rw [heng, t.modEng_eng_same e]
  rfl

/-- Without an event the engine goes on behind the WAIT, and tells of it. -/
theorem effWaitTimeout_eq (t : Tx d0) (e : Nat) {w : Waiting} (hrun : t.running = true) (hlive : (t.d.eng e).live = true) (hwait : (t.d.eng e).waiting = some w)
    (hresume : w.resume = none) (htmo : w.operand % 2 ^ 32 ≠ 0) (hnow : w.b.toNat + w.operand % 2 ^ 32 = t.d.now.toNat) :
    effWaitTimeout e t = ((t.modEng e Engine.waitsNoMore).ev (R.SCH_EVT.WAIT_TIMEOUT e)).enterSeg e (w.idx + 1) := by
  rw [effWaitTimeout, hwait]
  refine if_pos ?_
  show (decide (w.operand % 2 ^ 32 ≠ 0) && w.resume.isNone && decide (w.b.toNat + w.operand % 2 ^ 32 = t.d.now.toNat) && t.running && (t.d.eng e).live) = true
  rw [decide_eq_true htmo, hresume, decide_eq_true hnow, hrun, hlive]
  rfl

/-- The event of a timeout is kept in the segment that follows it. -/
theorem waitTimeout_notSegment (e : Nat) :
    (R.SCH_EVT.WAIT_TIMEOUT e).key ∉ [R.SCH_SEG.POINTER e, R.SCH_STAT.STATE e, R.SCH_STAT.WAITING e].map Fld.key ∧
      R.TB_STAT.AWAKE.key ≠ (R.SCH_EVT.WAIT_TIMEOUT e).key := by
  simp only [Fld.key, R.SCH_EVT.WAIT_TIMEOUT, R.SCH_SEG.POINTER, R.SCH_STAT.STATE, R.SCH_STAT.WAITING, R.TB_STAT.AWAKE, tileOff, List.map_cons, List.map_nil,
    List.mem_cons, List.not_mem_nil, or_false]
  omega

theorem Tx.timeoutWait_spec (t : Tx d0) (e ptr : Nat) :
    let x := ((t.modEng e Engine.waitsNoMore).ev (R.SCH_EVT.WAIT_TIMEOUT e)).enterSeg e ptr
    (x.d.eng e).waiting = none ∧ x.d.f (R.SCH_EVT.WAIT_TIMEOUT e) = 1 ∧ Enters e ptr t.d x.d ∧ OnlyEngine e t.d x.d ∧
      OnlyFields [R.SCH_SEG.POINTER e, R.SCH_STAT.STATE e, R.SCH_STAT.WAITING e, R.SCH_EVT.WAIT_TIMEOUT e] t.d x.d ∧
      ∃ flds engines pba evNow, x.d = { t.d with flds := flds, engines := engines, pba := pba, evNow := evNow } := by
  let m := t.modEng e Engine.waitsNoMore
  let v := m.ev (R.SCH_EVT.WAIT_TIMEOUT e)
  obtain ⟨hkept, hawake⟩ := waitTimeout_notSegment e
  have heng : v.d.eng = m.d.eng := Device.eng_congr (m.ev_engines _)
  have hnow : v.d.now = t.d.now := Device.now_congr (congrArg (· == 1) (m.ev_f_other _ _ hawake)) (m.ev_time _)
  obtain ⟨_, pba, evNow, hevent⟩ := m.ev_regFileOnly (R.SCH_EVT.WAIT_TIMEOUT e)
  obtain ⟨⟨hptr, hstate, hwaiting, hstart⟩, hengine, honly, ⟨flds, engines, hregs⟩, hfields⟩ := v.enterSeg_spec e ptr
  refine ⟨?_, (hfields _ hkept).trans (m.ev_f_same _ rfl), ⟨hptr, hstate, hwaiting, hstart.trans hnow⟩, fun k hk => ?_,
    ((m.ev_onlyFields _).trans hfields).mono (by simp), flds, engines, pba, evNow, ?_⟩
  · rw [hengine, heng, t.modEng_eng_same e]
    rfl
  · exact (honly k hk).trans ((congrFun heng k).trans (t.modEng_onlyEngine e _ k hk))
  · exact hregs.trans (by rw [hevent]; rfl)

end Sys2Proof.Machine
end

section
/-! THE STATEMENT. WAIT and its ends (R176 to R178, R381). -/
namespace Sys2Proof.Machine

/-- Settles O26: the hold is marked before the outputs go idle, which leaves the engines alone, and what is fetched past a TIMEOUT touches no register. -/
theorem waitEvents : Obligations.WaitEvents := by
  unfold Obligations.WaitEvents
  refine ⟨fun s e q rest h => ?_, fun s e ptr hrun hlive hwait => ?_, fun s e w hrun hlive hwait hresume htmo hnow => ?_⟩
  · dsimp only
    intro hevent hjump
    obtain ⟨heng, hstate, hwaiting, hdepth, honly⟩ := effWait_holds h hevent hjump
    refine ⟨_, rfl, ?_, hstate, hwaiting, ⟨?_, hdepth⟩, honly, ?_, fun hodd => ?_, fun heven => ?_⟩
    · exact congrArg Engine.waiting heng
    · exact congrArg Engine.queue heng
    · exact congrArg Engine.fetch heng
    · obtain ⟨hcodes, hfields, _, _, _, hframe⟩ := effWait_odd h hodd hevent hjump
      refine ⟨fun i => hcodes i (List.mem_range.mpr i.isLt), hfields, ?_⟩
      generalize (effWait e (Tx.start s.dev)).d = x at hframe
      subst hframe
      rfl
    · obtain ⟨hfree, hmarker, hfields, _, _, _, _, _, _, hframe⟩ := effWait_even h heven hevent hjump
      refine ⟨fun i => hfree i (List.mem_range.mpr i.isLt), fun hqueue hreqs => ?_, fun F hF => hfields.mono (fun G hG => ?_) F hF, ?_⟩
      · exact ⟨(hmarker hqueue hreqs).now, (hmarker hqueue hreqs).later⟩
      · show G ∈ waitFields e ++ markerFields (e / 2) ++ (List.range 20).flatMap (mixerFields s.dev (e / 2))
        simp only [List.mem_append] at hG ⊢
        tauto
      · generalize (effWait e (Tx.start s.dev)).d = x at hframe
        subst hframe
        rfl
  · obtain ⟨hwaiting, henters, honly, hregs, hfields⟩ := (Tx.start s.dev).leaveWait_spec e ptr
    rw [← effWaitResume_eq (Tx.start s.dev) e ptr hrun hlive hwait] at hwaiting henters honly hregs hfields
    obtain ⟨_, _, hframe⟩ := hregs
    refine ⟨_, rfl, hwaiting, henters, honly, hfields, ?_⟩
    generalize (effWaitResume e (Tx.start s.dev)).d = x at hframe
    subst hframe
    rfl
  · obtain ⟨hwaiting, hevt, henters, honly, hfields, _, _, _, _, hframe⟩ := (Tx.start s.dev).timeoutWait_spec e (w.idx + 1)
    rw [← effWaitTimeout_eq (Tx.start s.dev) e hrun hlive hwait hresume htmo hnow] at hwaiting hevt henters honly hfields hframe
    refine ⟨_, rfl, hwaiting, hevt, henters, honly, hfields, ?_⟩
    generalize (effWaitTimeout e (Tx.start s.dev)).d = x at hframe
    subst hframe
    rfl

end Sys2Proof.Machine
end

section
/-! SUPPORT. SAFE, the lines that engine B reserves, and the vote on a safe point (R185, R209, R295). -/
namespace Sys2Proof.Machine

variable {d0 : Device}

/-! SAFE at its boundary -/

/-- The engine stands at the safe point of a SAFE it had not issued at the vote tick. -/
def Engine.safeLate (q : QOp) (x : Engine) : Engine := { x with safe := some { safeOf q with vote := some false } }

theorem Tx.lateSafe_heads (t : Tx d0) {e : Nat} {q : QOp} {rest : List QOp} (hhead : t.d.headOp e = some (q, rest)) (hvalid : q.invalid = false)
    (hcode : opCode q.bits = 0x13) (hsafe : (t.d.eng e).safe = none) :
    t.lateSafe e = t.modEng e (Engine.safeLate q) := by
  rw [Tx.lateSafe, hhead]
  exact if_pos (by simp [hvalid, hcode, hsafe])

theorem effSafe_heads {d : Device} {e : Nat} {q : QOp} {rest : List QOp} (h : Heads d e 0x13 q rest) (hsafe : (d.eng e).safe = none) :
    effSafe e (Tx.start d) = (Tx.start d).modEng e (Engine.safeLate q) := by
  obtain ⟨hhead, hvalid, -, hcode⟩ := h
  have hstart : (Tx.start d).d.headOp e = some (q, rest) := hhead
  rw [effSafe, hstart]
  refine (if_neg (by simp [hvalid])).trans (Tx.lateSafe_heads _ hstart hvalid hcode hsafe)

/-! The record memory -/

theorem Tx.showRec_spec (t : Tx d0) (tl : Nat) :
    OnlyFields [R.ACQ_RECMEM.FREE tl, R.ACQ_RECMEM.MAX_USED tl] t.d (t.showRec tl).d ∧ RegsOnly t.d (t.showRec tl).d := by
  have hfree := t.w_onlyFields (R.ACQ_RECMEM.FREE tl) (16384 - (t.d.tile tl).usedLines)
  have hregs := t.w_regsOnly (R.ACQ_RECMEM.FREE tl) (16384 - (t.d.tile tl).usedLines)
  unfold Tx.showRec
  dsimp only
  generalize t.w (R.ACQ_RECMEM.FREE tl) (16384 - (t.d.tile tl).usedLines) = u at hfree hregs
  split
  · exact ⟨hfree.trans (u.w_onlyFields _ _), hregs.trans (u.w_regsOnly _ _)⟩
  · exact ⟨hfree.mono (by simp), hregs⟩

/-- Whether a tile's record memory holds, or has room for, the lines of a shot. -/
def Device.recRoom (d : Device) (tl : Nat) (need : Option Nat) : Bool :=
  (d.tile tl).resv.isSome || decide ((d.tile tl).usedLines + need.getD 0 ≤ 16384)

/-- What a tile's TILECFG record asks of the record memory. -/
def Device.recNeed (d : Device) (tl : Nat) : Option Nat := (d.tileCfg tl).map (fun r => rn r 4 4)

/-- The fields that a reservation may change. -/
def reserveFields (tl : Nat) : List Fld := [R.ACQ_EVT.REC_FULL tl, R.ACQ_RECMEM.FREE tl, R.ACQ_RECMEM.MAX_USED tl]

/-- The outcome of a reservation. -/
structure Reserved (tl : Nat) (d : Device) (r : Bool × Device) : Prop where
  answer : r.1 = ((d.recNeed tl).isNone || d.recRoom tl (d.recNeed tl))
  full : (d.recNeed tl).isSome = true → d.recRoom tl (d.recNeed tl) = false → r.2.f (R.ACQ_EVT.REC_FULL tl) = 1
  taken : (d.recNeed tl).isSome = true → (d.tile tl).resv = none → d.recRoom tl (d.recNeed tl) = true → (r.2.tile tl).resv = d.recNeed tl
  safe : ∀ k, (r.2.eng k).safe = (d.eng k).safe
  good : TablesGood d ∨ d.recNeed tl = none → OnlyFields (reserveFields tl) d r.2 ∧
    ∃ flds tiles pba evNow, r.2 = { d with flds := flds, tiles := tiles, pba := pba, evNow := evNow }

/-- A tile that has asked for `n` lines, its tables read. -/
def Tx.reserveIn (t : Tx d0) (tl n : Nat) : Bool × Tx d0 :=
  if (t.d.tile tl).resv.isSome then (true, t)
  else if 16384 < (t.d.tile tl).usedLines + n then (false, t.ev (R.ACQ_EVT.REC_FULL tl))
  else (true, (t.modTile tl (fun x => { x with resv := some n })).showRec tl)

theorem Tx.reserve_eq (t : Tx d0) (tl : Nat) : t.reserve tl = match t.d.tileCfg tl with
    | none => (true, t)
    | some r => (t.readTables tl).reserveIn tl (rn r 4 4) := rfl

theorem Tx.reserveIn_spec (t : Tx d0) (tl n : Nat) :
    (t.reserveIn tl n).1 = t.d.recRoom tl (some n) ∧ (t.d.recRoom tl (some n) = false → (t.reserveIn tl n).2.d.f (R.ACQ_EVT.REC_FULL tl) = 1) ∧
      ((t.d.tile tl).resv = none → t.d.recRoom tl (some n) = true → ((t.reserveIn tl n).2.d.tile tl).resv = some n) ∧
      OnlyFields (reserveFields tl) t.d (t.reserveIn tl n).2.d ∧
      ∃ flds tiles pba evNow, (t.reserveIn tl n).2.d = { t.d with flds := flds, tiles := tiles, pba := pba, evNow := evNow } := by
  unfold Tx.reserveIn Device.recRoom
  by_cases hheld : (t.d.tile tl).resv.isSome = true
  · rw [if_pos hheld, hheld]
    exact ⟨rfl, fun h => Bool.noConfusion h, fun h => absurd hheld (by simp [h]), fun _ _ => rfl, _, _, _, _, rfl⟩
  · rw [if_neg hheld, eq_false_of_ne_true hheld, Bool.false_or, Option.getD_some]
    by_cases hfull : 16384 < (t.d.tile tl).usedLines + n
    · obtain ⟨_, _, _, hf⟩ := t.ev_regFileOnly (R.ACQ_EVT.REC_FULL tl)
      rw [if_pos hfull]
      exact ⟨by simp; omega, fun _ => t.ev_f_same _ rfl, fun _ h => absurd (of_decide_eq_true h) (by omega), (t.ev_onlyFields _).mono (by simp [reserveFields]),
        _, _, _, _, hf⟩
    · obtain ⟨honly, _, hf⟩ := (t.modTile tl (fun x => { x with resv := some n })).showRec_spec tl
      rw [if_neg hfull]
      refine ⟨by simp; omega, fun h => absurd (of_decide_eq_false h) (by omega), fun _ _ => ?_, honly.mono (by simp [reserveFields]), _, _, _, _, hf⟩
      rw [hf]
      show ((t.modTile tl (fun x => { x with resv := some n })).d.tile tl).resv = some n
      rw [Tx.modTile_tile, if_pos rfl]

theorem Tx.reserve_spec (t : Tx d0) (tl : Nat) : Reserved tl t.d ((t.reserve tl).1, (t.reserve tl).2.d) := by
  rw [Tx.reserve_eq]
  cases hcfg : t.d.tileCfg tl with
  | none =>
    have hneed : t.d.recNeed tl = none := by rw [Device.recNeed, hcfg]; rfl
    exact ⟨by simp [hneed], fun h => by simp [hneed] at h, fun h => by simp [hneed] at h, fun _ => rfl, fun _ => ⟨fun _ _ => rfl, _, _, _, _, rfl⟩⟩
  | some r =>
    have hneed : t.d.recNeed tl = some (rn r 4 4) := by rw [Device.recNeed, hcfg]; rfl
    have hnotes := t.readTables_notes tl
    have hgood := t.readTables_good tl
    have hroom : (t.readTables tl).d.recRoom tl (some (rn r 4 4)) = t.d.recRoom tl (some (rn r 4 4)) := by
      rw [Device.recRoom, Device.recRoom, Device.tile, hnotes.tile rfl]
      rfl
    have htile : (t.readTables tl).d.tile tl = t.d.tile tl := by rw [Device.tile, hnotes.tile rfl]; rfl
    dsimp only
    generalize t.readTables tl = u at hnotes hgood hroom htile
    obtain ⟨hanswer, hfull, htaken, honly, flds, tiles, pba, evNow, hframe⟩ := u.reserveIn_spec tl (rn r 4 4)
    rw [hroom] at hanswer hfull htaken
    rw [htile] at htaken
    refine ⟨by rw [hneed]; exact hanswer, fun _ => by rw [hneed]; exact hfull, fun _ => by rw [hneed]; exact htaken, fun k => ?_, fun h => ?_⟩
    · obtain ⟨_, _, heng⟩ := hnotes.engine k
      have hsame : (u.reserveIn tl (rn r 4 4)).2.d.eng k = u.d.eng k := by
        rw [hframe]
        rfl
      show ((u.reserveIn tl (rn r 4 4)).2.d.eng k).safe = (t.d.eng k).safe
      rw [hsame, heng]
    · have hread : u = t := hgood (h.resolve_right (by simp [hneed]))
      rw [hread] at honly hframe
      rw [hread]
      exact ⟨honly, flds, tiles, pba, evNow, hframe⟩

/-! The vote -/

/-- From `d` to `x` nothing but engines, and of them no safe point, has changed. -/
structure SafesKept (d x : Device) : Prop where
  safe : ∀ k, (x.eng k).safe = (d.eng k).safe
  frame : ∃ engines, x = { d with engines := engines }

theorem SafesKept.modEng {d : Device} {t : Tx d0} (h : SafesKept d t.d) (e : Nat) {g : Engine → Engine} (hg : ∀ x, (g x).safe = x.safe) :
    SafesKept d (t.modEng e g).d := by
  obtain ⟨hsafe, _, hframe⟩ := h
  refine ⟨fun k => ?_, _, show _ = _ by rw [Tx.modEng, Tx.upd_d, hframe]; rfl⟩
  by_cases hk : k = e
  · rw [hk, t.modEng_eng_same, hg, hsafe]
  · rw [t.modEng_onlyEngine e g k hk, hsafe]

/-- Where fetching begins for a start or a repeat, the engines' safe points stand. -/
theorem Tx.fetchReady_spec (t : Tx d0) (e dom : Nat) (c : Epoch) : SafesKept t.d (t.fetchReady e dom c).d := by
  have hrefl : SafesKept t.d t.d := ⟨fun _ => rfl, _, rfl⟩
  unfold Tx.fetchReady
  refine ite_cases (fun u : Tx d0 => SafesKept t.d u.d) (fun _ => ?_) fun _ => hrefl
  refine Tx.each_keeps (fun u => SafesKept t.d u.d) t _ _ hrefl fun y _ u hu => ?_
  cases (u.d.eng y).safe with
  | none => exact hu
  | some s => exact ite_cases (fun v : Tx d0 => SafesKept t.d v.d) (fun _ => hu.modEng y fun _ => rfl) fun _ => hu

/-- Whether the engine has, or gets, the lines of the shot. -/
def Tx.voteRoom (t : Tx d0) (e : Nat) : Bool × Tx d0 := if e % 2 = 1 then t.reserve (e / 2) else (true, t)

theorem Tx.voteRoom_answer (t : Tx d0) (e : Nat) :
    (t.voteRoom e).1 = (decide (e % 2 = 0) || (t.d.recNeed (e / 2)).isNone || t.d.recRoom (e / 2) (t.d.recNeed (e / 2))) := by
  rw [Tx.voteRoom]
  rcases Nat.mod_two_eq_zero_or_one e with heven | hodd
  · rw [if_neg (by omega), heven]
    rfl
  · rw [if_pos hodd, hodd, (t.reserve_spec (e / 2)).answer]
    rfl

/-- The engine votes, and where all are ready fetching begins. -/
def Tx.castVote (t : Tx d0) (e : Nat) (x : SafePoint) (ready : Bool) : Tx d0 :=
  (t.modEng e (fun y => { y with safe := some { x with vote := some ready } })).fetchReady e x.dom x.cand

theorem effSafeVote_eq (t : Tx d0) (e : Nat) {x : SafePoint} (hrun : t.running = true) (hlive : (t.d.eng e).live = true) (hsafe : (t.d.eng e).safe = some x)
    (hcand : x.cand = t.d.now + BitVec.ofNat 64 (leadOf x.dom)) :
    effSafeVote e t = (t.voteRoom e).2.castVote e x (t.d.recordIn e x.res && !(t.d.seq e).voidOpen && (t.voteRoom e).1) := by
  have hnow : ¬ x.cand ≠ t.now + BitVec.ofNat 64 (leadOf x.dom) := fun h => h hcand
  unfold effSafeVote
  dsimp only
  rw [if_neg (by simp [hrun, hlive]), hsafe]
  dsimp only
  rw [if_neg hnow]
  rfl

/-- The vote of one engine changes no other's safe point, and after the reservation nothing but engines. -/
theorem Tx.castVote_spec (t : Tx d0) (e : Nat) (x : SafePoint) (ready : Bool) :
    ((t.castVote e x ready).d.eng e).safe = some { x with vote := some ready } ∧
      (∀ k, k ≠ e → ((t.castVote e x ready).d.eng k).safe = (t.d.eng k).safe) ∧ ∃ engines, (t.castVote e x ready).d = { t.d with engines := engines } := by
  obtain ⟨hsafe, engines, hframe⟩ := (t.modEng e (fun y => { y with safe := some { x with vote := some ready } })).fetchReady_spec e x.dom x.cand
  refine ⟨(hsafe e).trans ?_, fun k hk => (hsafe k).trans ?_, engines, hframe⟩
  · rw [t.modEng_eng_same]
  · rw [t.modEng_onlyEngine e _ k hk]

end Sys2Proof.Machine
end

section
/-! THE STATEMENT. SAFE and the vote (R185, R295). -/
namespace Sys2Proof.Machine

/-- Settles O28: engine A asks for no lines; engine B's reservation touches no safe point, and the vote then touches nothing but engines. -/
theorem safeAndVote : Obligations.SafeAndVote := by
  unfold Obligations.SafeAndVote
  refine ⟨fun s e q rest h hsafe => ?_, fun s e x hrun hlive hsafe hcand => ?_⟩
  · have heng := (Tx.start s.dev).modEng_eng_same e (Engine.safeLate q)
    have honly := (Tx.start s.dev).modEng_onlyEngine e (Engine.safeLate q)
    rw [← effSafe_heads h hsafe] at heng honly
    refine ⟨_, rfl, heng, honly, ?_⟩
    generalize hx : (effSafe e (Tx.start s.dev)).d = x
    rw [effSafe_heads h hsafe] at hx
    subst hx
    rfl
  · have heff := effSafeVote_eq (Tx.start s.dev) e hrun hlive hsafe hcand
    obtain ⟨hvote, hother, engines, hframe⟩ := ((Tx.start s.dev).voteRoom e).2.castVote_spec e x
      ((Tx.start s.dev).d.recordIn e x.res && !((Tx.start s.dev).d.seq e).voidOpen && ((Tx.start s.dev).voteRoom e).1)
    rw [← heff] at hvote hother hframe
    dsimp only
    refine ⟨_, rfl, hvote.trans ?_, ?_⟩
    · rw [Tx.voteRoom_answer]
      rfl
    · generalize (effSafeVote e (Tx.start s.dev)).d = y at hother hframe
      rcases Nat.mod_two_eq_zero_or_one e.val with heven | hodd
      · have hroom : (Tx.start s.dev).voteRoom e = (true, Tx.start s.dev) := if_neg (by omega)
        rw [hroom] at hother hframe
        subst hframe
        refine ⟨fun k hk => hother k (fun h => hk (Fin.ext h)), fun h => ?_, fun h => ?_, fun _ => ⟨fun F _ => rfl, rfl⟩⟩
        · omega
        · omega
      · have hroom : (Tx.start s.dev).voteRoom e = (Tx.start s.dev).reserve (e / 2) := if_pos hodd
        obtain ⟨-, hfull, htaken, hsafes, hgood⟩ := (Tx.start s.dev).reserve_spec (e / 2)
        rw [hroom] at hother hframe
        generalize ((Tx.start s.dev).reserve (e / 2)).2 = r at hother hframe hfull htaken hsafes hgood
        subst hframe
        refine ⟨fun k hk => (hother k (fun h => hk (Fin.ext h))).trans (hsafes k), fun ⟨_, hneed, hnone⟩ => hfull hneed hnone,
          fun ⟨_, hneed, hfree, hr⟩ => htaken hneed hfree hr, fun h => ?_⟩
        obtain ⟨honly, _, _, _, _, hframe⟩ := hgood (h.imp id fun h => h.resolve_left (by omega))
        refine ⟨honly, ?_⟩
        generalize r.d = z at hframe
        subst hframe
        rfl

end Sys2Proof.Machine
end

section
/-! SUPPORT. A tile and its engine pass a safe point, or the engine holds (R186, R188). -/
namespace Sys2Proof.Machine

variable {d0 : Device}

/-! The domain of one engine -/

/-- The tile passes, and then its engine. -/
def Tx.passAlone (t : Tx d0) (e : Nat) (rep : Bool) : Tx d0 :=
  let u := t.tilePass (e / 2) rep (if rep then max (t.d.eng (2 * (e / 2))).voids (t.d.eng (2 * (e / 2) + 1)).voids else 0)
  match (u.d.eng e).safe with
  | some q => u.engPass e q
  | none => u

theorem Tx.lateSafe_safe (t : Tx d0) {e : Nat} {x : SafePoint} (hsafe : (t.d.eng e).safe = some x) : t.lateSafe e = t := by
  unfold Tx.lateSafe
  split
  · rfl
  · exact if_neg (by simp [hsafe])

theorem effSafePointPass_alone (t : Tx d0) (e : Nat) {x : SafePoint} (hrun : t.running = true) (hlive : (t.d.eng e).live = true)
    (hsafe : (t.d.eng e).safe = some x) (hcand : x.cand = t.d.now) (hdom : x.dom = 0) (halone : t.d.members e 0 = [e])
    (hstop : (t.d.eng e).stopAtSafe = false) (hnotice : (t.d.eng e).notice = false) :
    effSafePointPass e t = if t.d.combined e 0 x.cand then t.passAlone e x.rep else t.engHold e := by
  have hnow : ¬ x.cand ≠ t.now := fun h => h hcand
  have hstands : t.d.standsAt e 0 x.cand = true := by simp [Device.standsAt, hsafe, hdom]
  have hports : t.d.votePorts 0 = [] := rfl
  unfold effSafePointPass
  rw [hsafe]
  dsimp only
  rw [if_neg (by simp [hrun, hlive, hcand, Tx.now]), hdom, halone, Tx.each_cons, Tx.each_nil, t.lateSafe_safe hsafe]
  simp only [List.filter_cons, List.filter_nil, List.any_cons, List.any_nil, List.append_nil, List.isEmpty_nil, List.map_cons, List.map_nil,
    hstands, hstop, hsafe, hnotice, hdom, hports, hlive, if_true, if_false, ite_self, bne_self_eq_false, Bool.and_false, Bool.false_and, Bool.true_and, Bool.or_false,
    Bool.false_or, Bool.false_eq_true, Tx.each_nil, beq_self_eq_true, OfNat.zero_ne_ofNat]
  rw [show [e / 2].eraseDups = [e / 2] from rfl, Tx.each_cons, Tx.each_nil, Tx.each_cons, Tx.each_nil, Tx.each_cons, Tx.each_nil, hsafe, beq_self_eq_true]
  simp only [Bool.true_and]
  unfold Tx.passAlone
  generalize t.tilePass (e / 2) x.rep _ = u
  rfl

/-! The tile -/

/-- The tile's outputs and windows close, and its shot is over. -/
def Tx.tileClose (t : Tx d0) (tl : Nat) (rep : Bool) : Tx d0 :=
  let now := t.now.toNat
  let t := t.dropTileHeld tl
  let t := if rep then t.restoreLevels tl else t.upd (.recorded tl (t.d.tileLevels tl))
  let t := t.each (List.range 16) (fun i t =>
    if (t.d.win (16 * tl + i)).isSome then (t.ev (R.RD_EVT.TRUNC tl)).closeWin (16 * tl + i) now true 4 else t)
  (t.capShotEnd tl).closeShot tl

/-- The number of the tile's shot is shown in both of its engines. -/
def Tx.showShot (t : Tx d0) (tl n : Nat) : Tx d0 :=
  (t.w64 (R.SCH_SHOT_LO.SHOT (2 * tl)) (R.SCH_SHOT_HI.SHOT (2 * tl)) n).w64 (R.SCH_SHOT_LO.SHOT (2 * tl + 1)) (R.SCH_SHOT_HI.SHOT (2 * tl + 1)) n

/-- The number of the shot of engine `e`'s tile. -/
def Device.shotNo (d : Device) (e : Nat) : Nat := d.f64 (R.SCH_SHOT_LO.SHOT e) (R.SCH_SHOT_HI.SHOT e)

theorem Leaves.shotNo {tiles : Bool} {d x : Device} (h : Leaves tiles d x) (e : Nat) : x.shotNo e = d.shotNo e := by
  have hlo := h.fld (R.SCH_SHOT_LO.SHOT e) (engineKey_tile (by decide))
  have hhi := h.fld (R.SCH_SHOT_HI.SHOT e) (engineKey_tile (by decide))
  rw [Device.shotNo, Device.shotNo, Device.f64, Device.f64, hlo, hhi]

/-- The digest of the old shot is made, and the new shot begins. -/
def Tx.tileNext (t : Tx d0) (tl : Nat) (rep : Bool) (attempt : Nat) : Tx d0 :=
  let old := t.d.f64 (R.SCH_SHOT_LO.SHOT (2 * tl)) (R.SCH_SHOT_HI.SHOT (2 * tl))
  let n := old + (if rep then 0 else 1)
  ((t.digestPass tl old).showShot tl n).startShot tl n attempt

theorem Tx.tilePass_eq (t : Tx d0) (tl : Nat) (rep : Bool) (attempt : Nat) : t.tilePass tl rep attempt = (t.tileClose tl rep).tileNext tl rep attempt := rfl

theorem Leaves.tileClose {d : Device} {t : Tx d0} (h : Leaves false d t.d) (tl : Nat) (rep : Bool) : Leaves false d (t.tileClose tl rep).d := by
  have hdrop := h.dropTileHeld tl
  unfold Tx.tileClose
  dsimp only
  generalize t.dropTileHeld tl = u at hdrop
  have hlevels : Leaves false d (if rep then u.restoreLevels tl else u.upd (.recorded tl (u.d.tileLevels tl))).d :=
    .ite (hdrop.restoreLevels tl) (hdrop.upd (by rfl))
  exact ((hlevels.each _ fun _ _ _ hu => .ite ((hu.ev (Fld.plain_tileReg (by decide))).closeWin _ _ _ _) hu).capShotEnd tl).closeShot tl

/-- The fields of the shot numbers of a tile. -/
def shotFields (tl : Nat) : List Fld :=
  [R.SCH_SHOT_LO.SHOT (2 * tl), R.SCH_SHOT_HI.SHOT (2 * tl), R.SCH_SHOT_LO.SHOT (2 * tl + 1), R.SCH_SHOT_HI.SHOT (2 * tl + 1)]

theorem Tx.showShot_spec (t : Tx d0) (tl n : Nat) : OnlyFields (shotFields tl) t.d (t.showShot tl n).d ∧ RegsOnly t.d (t.showShot tl n).d ∧
    ∀ e, e / 2 = tl → (t.showShot tl n).d.shotNo e = n % 2 ^ 64 := by
  let u := t.w64 (R.SCH_SHOT_LO.SHOT (2 * tl)) (R.SCH_SHOT_HI.SHOT (2 * tl)) n
  have hlast := u.w64_onlyFields (R.SCH_SHOT_LO.SHOT (2 * tl + 1)) (R.SCH_SHOT_HI.SHOT (2 * tl + 1)) n
  have hapart : ∀ k j, (R.SCH_SHOT_LO.SHOT k).key ≠ (R.SCH_SHOT_HI.SHOT j).key := by
    intro k j
    simp only [Fld.key, R.SCH_SHOT_LO.SHOT, R.SCH_SHOT_HI.SHOT, tileOff]
    omega
  have hnext : (R.SCH_SHOT_LO.SHOT (2 * tl)).key ≠ (R.SCH_SHOT_LO.SHOT (2 * tl + 1)).key ∧
      (R.SCH_SHOT_HI.SHOT (2 * tl)).key ≠ (R.SCH_SHOT_HI.SHOT (2 * tl + 1)).key := by
    simp only [Fld.key, R.SCH_SHOT_LO.SHOT, R.SCH_SHOT_HI.SHOT, tileOff]
    omega
  refine ⟨(t.w64_onlyFields _ _ n).trans hlast, (t.w64_regsOnly _ _ n).trans (u.w64_regsOnly _ _ n), fun e he => ?_⟩
  rcases Nat.mod_two_eq_zero_or_one e with heven | hodd
  · obtain rfl : e = 2 * tl := by omega
    exact (hlast.f64 (by simp [hnext.1, hapart]) (by simp [hnext.2, (hapart _ _).symm])).trans (t.w64_f64 n rfl rfl (hapart _ _))
  · obtain rfl : e = 2 * tl + 1 := by omega
    exact u.w64_f64 n rfl rfl (hapart _ _)

theorem awake_notShot (tl : Nat) : R.TB_STAT.AWAKE.key ∉ (shotFields tl).map Fld.key := by
  simp only [shotFields, Fld.key, R.SCH_SHOT_LO.SHOT, R.SCH_SHOT_HI.SHOT, R.TB_STAT.AWAKE, tileOff, List.map_cons, List.map_nil, List.mem_cons,
    List.not_mem_nil, or_false]
  omega

theorem loopActive_notShot (e tl : Nat) : (R.SCH_STAT.LOOP_ACTIVE e).key ∉ (shotFields tl).map Fld.key := by
  simp only [shotFields, Fld.key, R.SCH_SHOT_LO.SHOT, R.SCH_SHOT_HI.SHOT, R.SCH_STAT.LOOP_ACTIVE, tileOff, List.map_cons, List.map_nil, List.mem_cons,
    List.not_mem_nil, or_false]
  omega

/-- From `d` to `x` the tile has passed a safe point: the number of its shot is `n`, and of the engines no more than notes have changed, in MIRROR. -/
structure TilePassed (tl n : Nat) (d x : Device) : Prop where
  now : x.now = d.now
  eng : ∀ k, ∃ v s, x.eng k = { d.eng k with voidDue := v, stopAtSafe := s }
  other : d.f R.TWIN_STAT.STATE ≠ 2 → x.eng = d.eng
  fld : ∀ F : Fld, engineKey F.key = true → F.key ∉ (shotFields tl).map Fld.key → x.f F = d.f F
  shot : ∀ e, e / 2 = tl → x.shotNo e = n % 2 ^ 64

theorem Tx.tilePass_spec (t : Tx d0) (tl : Nat) (rep : Bool) (attempt : Nat) :
    TilePassed tl (t.d.shotNo (2 * tl) + if rep then 0 else 1) t.d (t.tilePass tl rep attempt).d := by
  have hclose := (Leaves.refl false t.d).tileClose tl rep
  rw [Tx.tilePass_eq]
  generalize t.tileClose tl rep = u at hclose
  have hold : u.d.f64 (R.SCH_SHOT_LO.SHOT (2 * tl)) (R.SCH_SHOT_HI.SHOT (2 * tl)) = t.d.shotNo (2 * tl) := hclose.shotNo (2 * tl)
  unfold Tx.tileNext
  dsimp only
  rw [hold]
  have hdig := u.digestPass_notes tl (t.d.shotNo (2 * tl))
  generalize u.digestPass tl (t.d.shotNo (2 * tl)) = v at hdig
  obtain ⟨hfields, hregs, hshot⟩ := v.showShot_spec tl (t.d.shotNo (2 * tl) + if rep then 0 else 1)
  generalize v.showShot tl (t.d.shotNo (2 * tl) + if rep then 0 else 1) = w at hfields hregs hshot
  have hstart := (Leaves.refl false w.d).startShot tl (t.d.shotNo (2 * tl) + if rep then 0 else 1) attempt
  generalize w.startShot tl (t.d.shotNo (2 * tl) + if rep then 0 else 1) attempt = x at hstart
  have heng : x.d.eng = v.d.eng := by
    obtain ⟨_, hframe⟩ := hregs
    rw [hstart.eng, hframe]
    rfl
  refine ⟨?_, fun k => ?_, fun hmirror => funext fun k => ?_, fun F hkey hF => ?_, fun e he => ?_⟩
  · rw [hstart.now, hregs.engineRegsOnly.now (hfields _ (awake_notShot tl)), hdig.now, hclose.now]
  · rw [heng, ← hclose.eng]
    exact hdig.engine k
  · rw [heng, ← hclose.eng]
    exact hdig.other (fun h => hmirror ((hclose.fld _ (by decide)).symm.trans h))
  · rw [hstart.fld F hkey, hfields F hF, hdig.fld F hkey, hclose.fld F hkey]
  · rw [hstart.shotNo, hshot e he]

/-- The fields that hold a frame's words. -/
def frameFields (f : Nat) : List Fld := [R.NCO_FREQ_LO.F_LO f, R.NCO_FREQ_HI.F_HI f, R.NCO_PHASE.THETA f, R.NCO_REF_LO.REF f, R.NCO_REF_HI.REF f]

theorem frameField_apart (f tl : Nat) : ∀ F ∈ frameFields f, engineKey F.key = true ∧ F.key ∉ (shotFields tl).map Fld.key := by
  have hkey : ∀ F ∈ frameFields f, engineKey F.key = true := by
    simp only [frameFields, List.forall_mem_cons]
    exact ⟨engineKey_tile (by decide), engineKey_tile (by decide), engineKey_tile (by decide), engineKey_tile (by decide), engineKey_tile (by decide), by simp⟩
  refine fun F hF => ⟨hkey F hF, ?_⟩
  simp only [frameFields, List.mem_cons, List.not_mem_nil, or_false] at hF
  simp only [shotFields, Fld.key, R.SCH_SHOT_LO.SHOT, R.SCH_SHOT_HI.SHOT, tileOff, List.map_cons, List.map_nil, List.mem_cons, List.not_mem_nil, or_false]
  rcases hF with rfl | rfl | rfl | rfl | rfl <;>
    simp only [R.NCO_FREQ_LO.F_LO, R.NCO_FREQ_HI.F_HI, R.NCO_PHASE.THETA, R.NCO_REF_LO.REF, R.NCO_REF_HI.REF, tileOff] <;> omega

/-- A tile that passes leaves the frames' words and the loop registers that it reads of. -/
theorem TilePassed.frameWords {tl n : Nat} {d x : Device} (h : TilePassed tl n d x) (e : Nat) : x.frameWords e = d.frameWords e := by
  refine List.map_congr_left fun i _ => ?_
  generalize 32 * (e / 2) + 16 * (e % 2) + i = f
  have hword := fun F hF => h.fld F (frameField_apart f tl F hF).1 (frameField_apart f tl F hF).2
  simp only [List.forall_mem_cons, frameFields] at hword
  obtain ⟨hflo, hfhi, hth, hrlo, hrhi, -⟩ := hword
  rw [Device.frame, Device.frame, Device.f64, Device.f64, hflo, hfhi, hth, hrlo, hrhi]

/-! The engine -/

/-- The queue of an engine that passes on tick `c`: a SAFE at its head is behind it, and the ticks of the rest are known from `c` on. -/
def Engine.passQueue (x : Engine) (c : Nat) : List QOp :=
  let q := match x.queue with
    | [] => []
    | h :: r => if opCode h.bits = 0x13 && h.fixed then r else h :: r
  q.map (fun o => { o with due := if o.wait = 1 then c + o.due else o.due, wait := o.wait - 1 })

/-- What a safe point's snapshot holds. -/
def Device.passSnap (d : Device) (e : Nat) (s : SafePoint) : Snapshot :=
  { b0 := d.now, dom := s.dom, res := s.res, ptr := s.ptr, active := d.f (R.SCH_STAT.LOOP_ACTIVE e), left := (d.eng e).left
    frames := d.frameWords e, jumps := if s.rep then (d.eng e).snap.jumps else [] }

/-- Engine `e`, as a device at the safe point has it, behind it. -/
def Device.passEngine (d : Device) (e : Nat) (s : SafePoint) (x : Engine) : Engine :=
  let f := (d.eng e).fetch
  { x with
    safe := none, queue := (d.eng e).passQueue d.now.toNat, fetch := { f with base := if f.wait = 1 then d.now.toNat + f.base else f.base, wait := f.wait - 1 }
    snap := d.passSnap e s, curRec := s.res, voids := if s.rep then x.voids else 0, voidDue := none, notice := false, segs := 0 }

/-- The engine starts the segment behind the safe point. -/
def Tx.passOn (t : Tx d0) (e : Nat) (s : SafePoint) : Tx d0 :=
  (((t.modEng e (t.d.passEngine e s)).w (R.ENG_QUEUE.DEPTH e) ((t.d.eng e).passQueue t.d.now.toNat).length).wb (R.SCH_STAT.VOIDED e) false).enterSeg e s.ptr

theorem Tx.engPass_eq (t : Tx d0) (e : Nat) (s : SafePoint) : t.engPass e s = ((t.passOn e s).raise e 4 t.now.toNat).applySafe e := rfl

/-- From `d` to `x` engine `e` has passed the safe point `s`. -/
structure Passes (e : Nat) (s : SafePoint) (d x : Device) : Prop where
  enters : Enters e s.ptr d x
  safe : (x.eng e).safe = none
  curRec : (x.eng e).curRec = s.res
  snap : (x.eng e).snap = d.passSnap e s
  voided : x.f (R.SCH_STAT.VOIDED e) = 0
  onlyEngine : OnlyEngine e d x
  shot : ∀ k, x.shotNo k = d.shotNo k

theorem Passes.leaves {e : Nat} {s : SafePoint} {tiles : Bool} {d x y : Device} (h : Passes e s d x) (hl : Leaves tiles x y) : Passes e s d y := by
  obtain ⟨⟨hptr, hstate, hwaiting, hstart⟩, hsafe, hrec, hsnap, hvoided, honly, hshot⟩ := h
  refine ⟨⟨(hl.fld _ (engineKey_tile (by decide))).trans hptr, (hl.fld _ (engineKey_tile (by decide))).trans hstate,
    (hl.fld _ (engineKey_tile (by decide))).trans hwaiting, ?_⟩, ?_, ?_, ?_, (hl.fld _ (engineKey_tile (by decide))).trans hvoided,
    fun k hk => (congrFun hl.eng k).trans (honly k hk), fun k => (hl.shotNo k).trans (hshot k)⟩
  all_goals rw [hl.eng]
  exacts [hstart, hsafe, hrec, hsnap]

/-- The fields that an engine writes as it passes. -/
def passFields (e : Nat) : List Fld := [R.ENG_QUEUE.DEPTH e, R.SCH_STAT.VOIDED e, R.SCH_SEG.POINTER e, R.SCH_STAT.STATE e, R.SCH_STAT.WAITING e]

theorem passFields_apart (e k : Nat) : (R.SCH_SHOT_LO.SHOT k).key ∉ (passFields e).map Fld.key ∧ (R.SCH_SHOT_HI.SHOT k).key ∉ (passFields e).map Fld.key ∧
    R.TB_STAT.AWAKE.key ∉ (passFields e).map Fld.key ∧
    (R.SCH_STAT.VOIDED e).key ∉ [R.SCH_SEG.POINTER e, R.SCH_STAT.STATE e, R.SCH_STAT.WAITING e].map Fld.key := by
  simp only [passFields, Fld.key, R.SCH_SHOT_LO.SHOT, R.SCH_SHOT_HI.SHOT, R.TB_STAT.AWAKE, R.ENG_QUEUE.DEPTH, R.SCH_STAT.VOIDED, R.SCH_SEG.POINTER,
    R.SCH_STAT.STATE, R.SCH_STAT.WAITING, tileOff, List.map_cons, List.map_nil, List.mem_cons, List.not_mem_nil, or_false]
  omega

theorem Tx.passOn_spec (t : Tx d0) (e : Nat) (s : SafePoint) : Passes e s t.d (t.passOn e s).d := by
  let m := t.modEng e (t.d.passEngine e s)
  let q := m.w (R.ENG_QUEUE.DEPTH e) ((t.d.eng e).passQueue t.d.now.toNat).length
  let v := q.wb (R.SCH_STAT.VOIDED e) false
  have hbefore : OnlyFields [R.ENG_QUEUE.DEPTH e, R.SCH_STAT.VOIDED e] t.d v.d := (m.w_onlyFields _ _).trans (q.w_onlyFields _ _)
  have hregs : EngineRegsOnly t.d v.d := (t.modEng_engineRegsOnly e _).trans ((m.w_regsOnly _ _).trans (q.w_regsOnly _ _)).engineRegsOnly
  have heng : v.d.eng e = t.d.passEngine e s (t.d.eng e) := t.modEng_eng_same e (t.d.passEngine e s)
  have honly : OnlyEngine e t.d v.d := t.modEng_onlyEngine e (t.d.passEngine e s)
  obtain ⟨-, -, hawake, hvoided⟩ := passFields_apart e 0
  have hnow : v.d.now = t.d.now := hregs.now (hbefore.mono (Hs := passFields e) (by simp [passFields]) _ hawake)
  obtain ⟨⟨hptr, hstate, hwaiting, hstart⟩, hengine, honly', -, hfields⟩ := v.enterSeg_spec e s.ptr
  refine ⟨⟨hptr, hstate, hwaiting, hstart.trans hnow⟩, ?_, ?_, ?_, (hfields _ hvoided).trans (q.w_f_same _ 0), honly.trans honly', fun k => ?_⟩
  · exact (congrArg Engine.safe hengine).trans (congrArg Engine.safe heng)
  · exact (congrArg Engine.curRec hengine).trans (congrArg Engine.curRec heng)
  · exact (congrArg Engine.snap hengine).trans (congrArg Engine.snap heng)
  · obtain ⟨hlo, hhi, -, -⟩ := passFields_apart e k
    exact (hbefore.trans hfields).f64 hlo hhi

theorem Tx.engPass_spec (t : Tx d0) (e : Nat) (s : SafePoint) : Passes e s t.d (t.engPass e s).d := by
  rw [Tx.engPass_eq]
  exact (t.passOn_spec e s).leaves (((Leaves.refl false _).raise e 4 t.now.toNat).applySafe e)

/-- The tile and its only running engine pass. -/
theorem Tx.passAlone_spec (t : Tx d0) (e : Nat) {x : SafePoint} (hsafe : (t.d.eng e).safe = some x) :
    ∃ u : Tx d0, TilePassed (e / 2) (t.d.shotNo (2 * (e / 2)) + if x.rep then 0 else 1) t.d u.d ∧ t.passAlone e x.rep = u.engPass e x := by
  have htile := t.tilePass_spec (e / 2) x.rep (if x.rep then max (t.d.eng (2 * (e / 2))).voids (t.d.eng (2 * (e / 2) + 1)).voids else 0)
  refine ⟨_, htile, ?_⟩
  obtain ⟨_, _, heng⟩ := htile.eng e
  have hkept := (congrArg Engine.safe heng).trans hsafe
  rw [Tx.passAlone, hkept]

/-! The hold -/

theorem holdFields_apart (e : Nat) : (R.SCH_HOLD.QUANTA e).key ∉ [R.SCH_EVT.HOLD e, R.SCH_STAT.STATE e].map Fld.key ∧
    (R.SCH_EVT.HOLD e).key ∉ [R.SCH_STAT.STATE e].map Fld.key := by
  simp only [Fld.key, R.SCH_HOLD.QUANTA, R.SCH_EVT.HOLD, R.SCH_STAT.STATE, tileOff, List.map_cons, List.map_nil, List.mem_cons, List.not_mem_nil, or_false]
  omega

theorem Tx.engHold_spec (t : Tx d0) (e : Nat) {x : SafePoint} (hsafe : (t.d.eng e).safe = some x)
    (hquanta : t.d.f (R.SCH_HOLD.QUANTA e) < 2 ^ (R.SCH_HOLD.QUANTA e).width) :
    ((t.engHold e).d.eng e).safe = some { x with cand := x.cand + 2048, vote := none, fails := x.fails + 1 } ∧
      (t.engHold e).d.f (R.SCH_HOLD.QUANTA e) = satInc (R.SCH_HOLD.QUANTA e).width (t.d.f (R.SCH_HOLD.QUANTA e)) ∧
      (t.engHold e).d.f (R.SCH_EVT.HOLD e) = 1 ∧ (t.engHold e).d.f (R.SCH_STAT.STATE e) = 2 ∧ OnlyEngine e t.d (t.engHold e).d ∧
      OnlyFields [R.SCH_HOLD.QUANTA e, R.SCH_EVT.HOLD e, R.SCH_STAT.STATE e] t.d (t.engHold e).d ∧
      ∃ flds engines pba evNow, (t.engHold e).d = { t.d with flds := flds, engines := engines, pba := pba, evNow := evNow } := by
  let g : Engine → Engine := fun y => { y with safe := some { x with cand := x.cand + 2048, vote := none, fails := x.fails + 1 } }
  let m := t.modEng e g
  let n := m.inc (R.SCH_HOLD.QUANTA e)
  let v := n.ev (R.SCH_EVT.HOLD e)
  have hhold : t.engHold e = v.w (R.SCH_STAT.STATE e) 2 := by
    rw [Tx.engHold, hsafe]
  obtain ⟨hquantaKey, hholdKey⟩ := holdFields_apart e
  have hstate := v.w_onlyFields (R.SCH_STAT.STATE e) 2
  have hevent := n.ev_onlyFields (R.SCH_EVT.HOLD e)
  have heng : v.d.eng = m.d.eng := Device.eng_congr (n.ev_engines _)
  obtain ⟨_, hcount⟩ := m.w_regsOnly (R.SCH_HOLD.QUANTA e) (satAdd (R.SCH_HOLD.QUANTA e).width (m.f (R.SCH_HOLD.QUANTA e)) 1)
  obtain ⟨flds, pba, evNow, hev⟩ := n.ev_regFileOnly (R.SCH_EVT.HOLD e)
  obtain ⟨flds', hw⟩ := v.w_regsOnly (R.SCH_STAT.STATE e) 2
  rw [hhold]
  refine ⟨?_, ?_, (hstate _ hholdKey).trans (n.ev_f_same _ rfl), v.w_f_same _ 2, fun k hk => ?_, ((m.w_onlyFields _ _).trans hevent).trans hstate, flds',
    m.d.engines, pba, evNow, ?_⟩
  · exact congrArg Engine.safe ((congrFun heng e).trans (t.modEng_eng_same e g))
  · exact ((hevent.trans hstate) _ hquantaKey).trans (m.add_f_same _ 1 hquanta)
  · exact (congrFun heng k).trans (t.modEng_onlyEngine e g k hk)
  · rw [hw, hev]
    rfl

end Sys2Proof.Machine
end

section
/-! THE STATEMENT. The safe point of an engine that is alone in its domain (R186, R188). -/
namespace Sys2Proof.Machine

/-- Settles O29: with one member the combined vote is the engine's own. A tile that passes leaves the engine, but for notes, to its own pass. -/
theorem safePointPass : Obligations.SafePointPass := by
  unfold Obligations.SafePointPass
  intro s e x hrun hlive hsafe hcand hdom halone hstop hnotice hquanta
  have heff := effSafePointPass_alone (Tx.start s.dev) e hrun hlive hsafe hcand hdom halone hstop hnotice
  dsimp only
  cases hpass : s.dev.combined e 0 x.cand with
  | true =>
    obtain ⟨u, htile, halone⟩ := (Tx.start s.dev).passAlone_spec e hsafe
    have hengine := u.engPass_spec e x
    have hpasses := heff.trans ((if_pos hpass).trans halone)
    rw [← hpasses] at hengine
    obtain ⟨⟨hptr, hstate, hwaiting, hstart⟩, hnone, hrec, hsnap, hvoided, honly, hshot⟩ := hengine
    refine ⟨_, rfl, fun h k hk => ?_, fun _ => ⟨⟨hptr, hstate, hwaiting, hstart.trans htile.now⟩, hnone, hrec, hvoided, ?_, ?_, ?_, ?_, ?_⟩,
      fun h => Bool.noConfusion h⟩
    · have hother := htile.other (h.resolve_right (fun h => Bool.noConfusion h))
      exact (honly k hk).trans (congrFun hother k)
    · exact (congrArg Snapshot.b0 hsnap).trans htile.now
    · exact (congrArg Snapshot.frames hsnap).trans (htile.frameWords e)
    · obtain ⟨_, _, heng⟩ := htile.eng e
      exact (congrArg Snapshot.left hsnap).trans ((congrArg Engine.left heng).trans rfl)
    · exact (congrArg Snapshot.active hsnap).trans (htile.fld _ (engineKey_tile (by decide)) (loopActive_notShot e _))
    · refine (hshot e).trans ((htile.shot e rfl).trans ?_)
      cases x.rep <;> rfl
  | false =>
    have hholds := heff.trans (if_neg (ne_true_of_eq_false hpass))
    obtain ⟨hnext, hcount, hevt, hstate, honly, hfields, _, _, _, _, hframe⟩ := (Tx.start s.dev).engHold_spec e hsafe hquanta
    rw [← hholds] at hnext hcount hevt hstate honly hfields hframe
    refine ⟨_, rfl, fun _ => honly, fun h => Bool.noConfusion h, fun _ => ⟨hnext, hcount, hevt, hstate, hfields, ?_⟩⟩
    generalize (effSafePointPass e (Tx.start s.dev)).d = y at hframe
    subst hframe
    rfl

end Sys2Proof.Machine
end

section
/-! SUPPORT. What the delivery of a code leaves alone of the read-out (R265, R276, R321, R346): its registers, the windows that await a result and the record
write queues. -/
namespace Sys2Proof.Machine

variable {d0 : Device}

/-! The relation -/

/-- What a tile holds of results: windows that await theirs, and the record write queue. -/
def Tile.readout (x : Tile) : List (Nat × Win) × List (Nat × Nat × List Byte) × Nat × Nat := (x.closing, x.wq, x.wqAt, x.wqN)

/-- From `d` to `e` every tile holds the same of results. -/
def WindowsKept (d e : Device) : Prop := ∀ k, (e.tile k).readout = (d.tile k).readout

/-- The key of a field of the read-out registers of a tile block (RD_). -/
def readoutKey (k : Nat) : Bool := decide (0x4000 ≤ k / 32 % 0x20000) && decide (k / 32 % 0x20000 < 0x4200)

/-- From `d` to `e` the read-out registers, and what the tiles hold of results, are kept. -/
structure ReadoutKept (d e : Device) : Prop where
  tile : WindowsKept d e
  fld : ∀ F : Fld, readoutKey F.key = true → e.f F = d.f F

/-- The field is of no read-out register. -/
def Fld.offReadout (F : Fld) : Prop := readoutKey F.key = false

theorem Fld.offReadout_of_place {off lo : Nat} (hlo : lo < 32) (h : off % 0x20000 < 0x4000 ∨ 0x4200 ≤ off % 0x20000) {hi : Nat} {acc : Acc} {rst : Nat} :
    Fld.offReadout ⟨off, hi, lo, acc, rst⟩ := by
  have hoff : Fld.key ⟨off, hi, lo, acc, rst⟩ / 32 = off := by
    simp only [Fld.key]
    omega
  rcases h with h | h <;> simp [Fld.offReadout, readoutKey, hoff, h]

theorem WindowsKept.trans {d e g : Device} (h : WindowsKept d e) (h' : WindowsKept e g) : WindowsKept d g := fun k => (h' k).trans (h k)

theorem WindowsKept.of_tiles {d e : Device} (h : e.tiles = d.tiles) : WindowsKept d e := fun k => by rw [Device.tile, Device.tile, h]

theorem Tx.modTile_windowsKept (t : Tx d0) (n : Nat) {g : Tile → Tile} (hg : ∀ x, (g x).readout = x.readout) : WindowsKept t.d (t.modTile n g).d := by
  intro k
  rw [t.modTile_tile n k g]
  split
  · next hk => rw [hg, hk]
  · rfl

namespace ReadoutKept

theorem refl (d : Device) : ReadoutKept d d := ⟨fun _ => rfl, fun _ _ => rfl⟩

theorem trans {d e g : Device} (h : ReadoutKept d e) (h' : ReadoutKept e g) : ReadoutKept d g :=
  ⟨h.tile.trans h'.tile, fun F hF => (h'.fld F hF).trans (h.fld F hF)⟩

section
variable {d : Device} {t : Tx d0} (h : ReadoutKept d t.d)
include h

/-! Primitive operations -/

theorem upd {u : Upd} (hu : (!u.setsRegs && !u.hits .tiles) = true) : ReadoutKept d (t.upd u).d := by
  simp only [Bool.and_eq_true, Bool.not_eq_true'] at hu
  obtain ⟨hregs, htiles⟩ := hu
  exact h.trans ⟨.of_tiles (applyUpd_same t.d u .tiles (by simp [htiles])), fun F _ => applyUpd_f t.d u F (by simp [hregs])⟩

theorem w {F : Fld} (hF : F.offReadout) (v : Nat) : ReadoutKept d (t.w F v).d := by
  refine h.trans ⟨fun _ => rfl, fun G hG => t.w_f_other F G v fun hk => ?_⟩
  rw [hk, hF] at hG
  contradiction

theorem add {F : Fld} (hF : F.offReadout) (n : Nat) : ReadoutKept d (t.add F n).d := h.w hF _

theorem inc {F : Fld} (hF : F.offReadout) : ReadoutKept d (t.inc F).d := h.w hF _

theorem ev {F : Fld} (hF : F.offReadout) : ReadoutKept d (t.ev F).d := by
  refine h.trans ⟨.of_tiles (t.ev_same F .tiles (by simp) (by simp)), fun G hG => t.ev_f_other F G fun hk => ?_⟩
  rw [hk, hF] at hG
  contradiction

theorem modTile (n : Nat) {g : Tile → Tile} (hg : ∀ x, (g x).readout = x.readout) : ReadoutKept d (t.modTile n g).d :=
  h.trans ⟨t.modTile_windowsKept n hg, fun _ _ => rfl⟩

omit h in
theorem ite {c : Prop} [Decidable c] {x y : Tx d0} (hx : ReadoutKept d x.d) (hy : ReadoutKept d y.d) : ReadoutKept d (if c then x else y).d := by
  split
  · exact hx
  · exact hy

theorem each {α : Type} (l : List α) {g : α → Tx d0 → Tx d0} (hg : ∀ a ∈ l, ∀ u : Tx d0, ReadoutKept d u.d → ReadoutKept d (g a u).d) :
    ReadoutKept d (t.each l g).d := Tx.each_keeps (fun u => ReadoutKept d u.d) t l g h hg

/-! Reads of the image tables (R456, R468) -/

theorem showLog : ReadoutKept d t.showLog.d := by
  refine ReadoutKept.w (ReadoutKept.w (ReadoutKept.w (ReadoutKept.w (ReadoutKept.w (ReadoutKept.w (ReadoutKept.w (ReadoutKept.w (ReadoutKept.w (ReadoutKept.w
    (ReadoutKept.w (h.w ?_ _) ?_ _) ?_ _) ?_ _) ?_ _) ?_ _) ?_ _) ?_ _) ?_ _) ?_ _) ?_ _) ?_ _ <;> rfl

theorem logEcc (kind src l syn pos act : Nat) : ReadoutKept d (t.logEcc kind src l syn pos act).d := by
  unfold Tx.logEcc
  split
  · exact h
  · exact .ite (h.ev (by rfl)) (h.upd (by rfl)).showLog

omit h in
theorem offReadout_eccCnt {cls : Nat} (hcls : cls < 5) : (R.ECC_CNT.CE cls).offReadout ∧ (R.ECC_CNT.UE cls).offReadout := by
  have hplace : (0x20020 + 0x4 * cls) % 0x20000 < 0x4000 := by omega
  exact ⟨Fld.offReadout_of_place (by decide) (.inl hplace), Fld.offReadout_of_place (by decide) (.inl hplace)⟩

theorem corrected {cls : Nat} (hcls : cls < 5) (l : Nat) : ReadoutKept d (t.corrected cls l).d := by
  unfold Tx.corrected
  split
  · exact h
  · exact ((h.add (offReadout_eccCnt hcls).1 _).ev (by rfl)).upd (by rfl)

theorem uncorrectable {cls : Nat} (hcls : cls < 5) (l src act : Nat) (ue : Nat × Nat) : ReadoutKept d (t.uncorrectable cls l src act ue).d :=
  ((ReadoutKept.ite (h.upd (by rfl)) h).inc (offReadout_eccCnt hcls).2).logEcc _ _ _ _ _ _

theorem readLine (l src act : Nat) : ReadoutKept d (t.readLine l src act).d := by
  unfold Tx.readLine
  split
  · exact h
  · next cls _ _ hl =>
    have hcls := lineClass_lt hl
    have hcor := h.corrected hcls l
    dsimp only
    split
    · exact h.ev (by rfl)
    · split
      · exact .ite hcor ((hcor.logEcc _ _ _ _ _ _).ev (by rfl))
      · exact ReadoutKept.ev (.ite (hcor.uncorrectable hcls _ _ _ _)
          (.ite (hcor.logEcc _ _ _ _ _ _) ((hcor.logEcc _ _ _ _ _ _).uncorrectable hcls _ _ _ _))) rfl

theorem poisonLines (ls : List Nat) : ReadoutKept d (t.poisonLines ls).d :=
  .ite h ((h.each ls fun _ _ _ hu => hu.upd (by rfl)).ev (by rfl))

theorem reloadTable (l : Nat) : ReadoutKept d (t.reloadTable l).d := by
  unfold Tx.reloadTable
  split
  · exact (h.upd (by rfl) (u := .fillLines l (l + 1) (.free t.d.freeN))).upd (by rfl)
  · exact (ReadoutKept.upd (.ite (h.upd (by rfl)) h) (by rfl)).poisonLines _

theorem readTables (tl : Nat) : ReadoutKept d (t.readTables tl).d := by
  unfold Tx.readTables Tx.badTable
  cases t.d.badLine (classBase 3 0 + 16384) (classBase 3 0 + 40960) with
  | none => exact h
  | some l => exact ((h.readLine l 0 4).reloadTable l).upd (by rfl)

/-! Deliveries (R265, R321, R346) -/

theorem noteCode (n code : Nat) : ReadoutKept d (t.noteCode n code).d := .ite (h.upd (by rfl)) h

theorem deliverBit (tl port : Nat) (v sent : Bool) (E : Nat) : ReadoutKept d (t.deliverBit tl port v sent E).d := .ite (h.upd (by rfl)) h

theorem pendCode (tl port : Nat) (v : Bool) (E : Nat) : ReadoutKept d (t.pendCode tl port v E).d :=
  .ite h (h.each _ fun _ _ _ hu => (ReadoutKept.ite ((hu.ev (by rfl)).inc (by rfl)) hu).upd (by rfl))

theorem answerAsked (n : Nat) (v : Bool) (E : Nat) : ReadoutKept d (t.answerAsked n v E).d :=
  ReadoutKept.each ((h.upd (u := .code n (some (v, E))) (by rfl)).upd (by rfl)) _ fun _ _ _ hu => hu.upd (by rfl)

/-! Triggers (R177, R276, R288, R290) -/

theorem modEng (e : Nat) (g : Engine → Engine) : ReadoutKept d (t.modEng e g).d := h.upd (by rfl)

theorem setQueue (e : Nat) (q : List QOp) : ReadoutKept d (t.setQueue e q).d := by
  have hplace : tileOff 2 0x3018 0x100 e % 0x20000 < 0x4000 := by
    simp only [tileOff]
    omega
  have hdepth := (h.modEng e (fun x => { x with queue := q })).w (F := R.ENG_QUEUE.DEPTH e) (Fld.offReadout_of_place (by decide) (.inl hplace)) q.length
  exact .ite (hdepth.w (Fld.offReadout_of_place (by decide) (.inl hplace)) _) hdepth

theorem waitEnds (e ptr b : Nat) : ReadoutKept d (t.waitEnds e ptr b).d := ((h.modEng _ _).setQueue e []).modEng _ _

theorem trigWaits (c tick : Nat) : ReadoutKept d (t.trigWaits c tick).d := by
  refine h.each _ fun e _ u hu => ?_
  split
  · exact hu
  · exact .ite (hu.waitEnds _ _ _) hu

omit h in
/-- The registers of a tile's capture unit are none of its read-out. -/
theorem offReadout_acq (x tl : Nat) (hx : x < 0x10) {hi lo : Nat} (hlo : lo < 32) {acc : Acc} {rst : Nat} :
    Fld.offReadout ⟨0x105000 + x + 0x20000 * tl, hi, lo, acc, rst⟩ := Fld.offReadout_of_place hlo (.inr (by omega))

theorem showCap (tl : Nat) : ReadoutKept d (t.showCap tl).d := by
  unfold Tx.showCap
  split
  · exact h.w (offReadout_acq 0 tl (by decide) (by decide)) _
  · exact (h.w (offReadout_acq 0 tl (by decide) (by decide)) _).w (offReadout_acq 0 tl (by decide) (by decide)) _

theorem capTake (tl : Nat) (c : Capture) (u : Int) (at? : Option Int) : ReadoutKept d (t.capTake tl c u at?).d := by
  unfold Tx.capTake Tx.modShot
  refine ReadoutKept.showCap (ReadoutKept.modTile (ReadoutKept.modTile (.ite (h.ev ?_) h) _ ?_) _ ?_) tl
  · exact offReadout_acq 4 tl (by decide) (by decide)
  · exact fun _ => rfl
  · exact fun _ => rfl

theorem capEvent (c tick : Nat) (u : Int) (at? : Option Int) : ReadoutKept d (t.capEvent c tick u at?).d := by
  refine h.each _ fun tl _ v hv => ?_
  split
  · exact hv.capTake _ _ _ _
  · exact .ite ((hv.inc (offReadout_acq 12 tl (by decide) (by decide))).ev (offReadout_acq 4 tl (by decide) (by decide))) hv

theorem trigEvent {c : Nat} (hc : c < 8) (u : Int) (at? : Option Int) : ReadoutKept d (t.trigEvent c u at?).d := by
  have hcnt : (R.ACQ_TRIG_CNT.EVENTS c).offReadout := Fld.offReadout_of_place (by decide) (.inl (by omega))
  unfold Tx.trigEvent
  split
  · exact h
  · exact .ite h (((ReadoutKept.inc (h.upd (by rfl)) hcnt).trigWaits _ _).capEvent _ _ _ _)

theorem codeTriggers (tl dm code E : Nat) : ReadoutKept d (t.codeTriggers tl dm code E).d := by
  refine h.each _ fun c hc u hu => ?_
  split
  · exact hu
  · exact .ite (hu.trigEvent (List.mem_range.mp hc) _ _) hu

end

end ReadoutKept

/-- The code of an uncut window goes out: to the twin, over the routes, to the requests that wait for it and to the triggers. -/
def Tx.sendCode (t : Tx d0) (n code : Nat) (sent : Bool) (E : Nat) : Tx d0 :=
  let tl := n / 16
  let dm := n % 16
  let t := (t.noteCode n code).readTables tl
  let t := t.each [0, 1] (fun b t =>
    let v := code.testBit b
    let t := t.deliverBit tl (2 * dm + b) v sent E
    let t := if sent then t.pendCode tl (2 * dm + b) v E else t
    t.answerAsked (32 * tl + 2 * dm + b) v E)
  t.codeTriggers tl dm code E

theorem ReadoutKept.sendCode {d : Device} {t : Tx d0} (h : ReadoutKept d t.d) (n code : Nat) (sent : Bool) (E : Nat) :
    ReadoutKept d (t.sendCode n code sent E).d := by
  refine ReadoutKept.codeTriggers (((h.noteCode n code).readTables _).each _ fun b _ u hu => ?_) _ _ _ _
  have hbit := hu.deliverBit (n / 16) (2 * (n % 16) + b) (code.testBit b) sent E
  exact (ReadoutKept.ite (hbit.pendCode _ _ _ _) hbit).answerAsked _ _ _

end Sys2Proof.Machine
end

section
/-! SUPPORT. The parts of a window's result (R263 to R269): its registers, its counts and its record, and what each of them may change. -/
namespace Sys2Proof.Machine

variable {d0 : Device}

/-! The parts -/

/-- The outcome of a window: I, Q, code, clipped, saturated. -/
abbrev WinOutcome := Int × Int × Nat × Bool × Bool

/-- The SEND that releases a demodulator's code is used up (R148). -/
def Tx.useSend (t : Tx d0) (n now : Nat) (sent : Bool) : Tx d0 :=
  if sent then t.modTile (n / 16) (fun x => { x with sends := x.sends.filter (fun c => c.1 != n % 16 || decide (now ≤ c.2)) }) else t

/-- What the last-result registers of a demodulator are written with. -/
def lastResult (n : Nat) (r : WinOutcome) : List (Fld × Nat) :=
  [(R.RD_DSTAT.VALID n, 1), (R.RD_DSTAT.CODE n, r.2.2.1), (R.RD_DSTAT.CLIP n, r.2.2.2.1.toNat), (R.RD_DSTAT.OSAT n, r.2.2.2.2.toNat),
    (R.RD_LAST_I.I n, patternOf 32 r.1), (R.RD_LAST_Q.Q n, patternOf 32 r.2.1)]

def Tx.showResult (t : Tx d0) (n : Nat) (r : WinOutcome) : Tx d0 := t.each (lastResult n r) (fun x t => t.w x.1 x.2)

/-- The events and counts of a result. -/
def Tx.countResult (t : Tx d0) (n : Nat) (r : WinOutcome) : Tx d0 :=
  let t := if r.2.2.2.1 then t.ev (R.RD_EVT.CLIP (n / 16)) else t
  let t := if r.2.2.2.2 then t.ev (R.RD_EVT.OSAT (n / 16)) else t
  if r.2.2.1 = 2 then t.inc (R.RD_CNT.LEAK n) else if r.2.2.1 = 3 then t.inc (R.RD_CNT.INVALID n) else t

/-- FLAGS of a result. -/
def Win.resultFlags (w : Win) (r : WinOutcome) : Nat := w.flags ||| (if r.2.2.1 = 2 then 2 else 0)

/-- A result as it enters the record write queue. -/
def Win.record (w : Win) (n : Nat) (r : WinOutcome) (sent : Bool) : Nat × Nat × List Byte :=
  (w.shot, w.attempt, resultBytes (n % 16) r.1 r.2.1 r.2.2.1 sent r.2.2.2.1 r.2.2.2.2 (w.resultFlags r) w.shot)

/-- The weight set of a window says that no record of its result is written. -/
def Win.norec (w : Win) : Bool := (rb w.wrec 6).testBit 2

def Tx.recordResult (t : Tx d0) (n : Nat) (w : Win) (r : WinOutcome) (sent : Bool) : Tx d0 :=
  if w.norec then t.flagTile (n / 16) (w.resultFlags r)
  else t.queueResult (n / 16) w.shot w.attempt (w.record n r sent).2.2

/-- An earlier SEND releases the code of a window. -/
def Device.releases (d : Device) (n : Nat) (w : Win) : Bool :=
  !w.cut && (d.tile (n / 16)).sends.any (fun c => c.1 == n % 16 && decide (c.2 < d.now.toNat))

/-- What every window's result does. -/
def Tx.takeResult (t : Tx d0) (n : Nat) (w : Win) (r : WinOutcome) (sent : Bool) : Tx d0 :=
  (((t.useSend n t.now.toNat sent).showResult n r).countResult n r).recordResult n w r sent

/-- A result on samples of which none is a comb's. -/
theorem Tx.resultOut_eq (t : Tx d0) (n : Nat) (w : Win) (adc : List Int) (h : t.d.combed (n / 16) = false) :
    let r := t.d.winResult (n / 16) w adc
    let u := t.takeResult n w r (t.d.releases n w)
    t.resultOut n w adc = if w.cut then u else u.sendCode n r.2.2.1 (t.d.releases n w) (w.start + w.len) := by
  simp only [Tx.resultOut, Tx.seen, h]
  rfl

/-! What they may change -/

/-- From `d` to `e` nothing may have changed but the register file, the pending vectors, the note of the clock's events, the drain's queue, the tiles and
their status flags. -/
def ResultFrame (d e : Device) : Prop :=
  ∃ flds tiles flags drainQ pba evNow, e = { d with flds := flds, tiles := tiles, flags := flags, drainQ := drainQ, pba := pba, evNow := evNow }

theorem ResultFrame.trans {d e g : Device} (h : ResultFrame d e) (h' : ResultFrame e g) : ResultFrame d g := by
  obtain ⟨_, _, _, _, _, _, rfl⟩ := h
  obtain ⟨_, _, _, _, _, _, rfl⟩ := h'
  exact ⟨_, _, _, _, _, _, rfl⟩

theorem ResultFrame.time {d e : Device} (h : ResultFrame d e) : e.time = d.time := by
  obtain ⟨_, _, _, _, _, _, rfl⟩ := h
  rfl

/-- Of that nothing may have changed but the fields listed, and what the tiles hold of results is kept where `held`. -/
structure ResultOnly (held : Bool) (Gs : List Fld) (d e : Device) : Prop where
  onlyFields : OnlyFields Gs d e
  frame : ResultFrame d e
  windows : held = true → WindowsKept d e

namespace ResultOnly

theorem refl (held : Bool) (Gs : List Fld) (d : Device) : ResultOnly held Gs d d := ⟨.refl _ _, ⟨_, _, _, _, _, _, rfl⟩, fun _ _ => rfl⟩

theorem within {held held' : Bool} {Gs Hs : List Fld} {d e g : Device} (h : ResultOnly held Gs d e) (h' : ResultOnly held' Hs e g) (hs : Hs ⊆ Gs)
    (hheld : held = true → held' = true) : ResultOnly held Gs d g :=
  ⟨h.onlyFields.within h'.onlyFields hs, h.frame.trans h'.frame, fun ht => (h.windows ht).trans (h'.windows (hheld ht))⟩

theorem relax {Gs : List Fld} {d e : Device} (h : ResultOnly true Gs d e) : ResultOnly false Gs d e := ⟨h.onlyFields, h.frame, by simp⟩

theorem now {held : Bool} {Gs : List Fld} {d e : Device} (h : ResultOnly held Gs d e) (hawake : R.TB_STAT.AWAKE.key ∉ Gs.map Fld.key) : e.now = d.now :=
  Device.now_congr (h.onlyFields.b hawake) h.frame.time

theorem readout {Gs : List Fld} {d e : Device} (h : ResultOnly true Gs d e) (k : Nat) :
    (e.tile k).closing = (d.tile k).closing ∧ (e.tile k).wq = (d.tile k).wq ∧ (e.tile k).wqAt = (d.tile k).wqAt ∧ (e.tile k).wqN = (d.tile k).wqN := by
  simpa only [Tile.readout, Prod.mk.injEq] using h.windows rfl k

section
variable {held : Bool} {Gs : List Fld} {d : Device} {t : Tx d0} (h : ResultOnly held Gs d t.d)
include h

theorem w {F : Fld} (hF : F ∈ Gs) (v : Nat) : ResultOnly held Gs d (t.w F v).d :=
  h.within (Hs := [F]) (held' := true) ⟨t.w_onlyFields F v, ⟨_, _, _, _, _, _, rfl⟩, fun _ _ => rfl⟩ (by simpa using hF) fun _ => rfl

theorem inc {F : Fld} (hF : F ∈ Gs) : ResultOnly held Gs d (t.inc F).d := h.w hF _

theorem ev {F : Fld} (hF : F ∈ Gs) : ResultOnly held Gs d (t.ev F).d :=
  h.within (Hs := [F]) (held' := true)
    ⟨t.ev_onlyFields F, ⟨_, _, _, _, _, _, t.ev_frame F⟩, fun _ => .of_tiles (t.ev_same F .tiles (by simp) (by simp))⟩ (by simpa using hF) fun _ => rfl

theorem modTile (n : Nat) {g : Tile → Tile} (hg : held = true → ∀ x, (g x).readout = x.readout) : ResultOnly held Gs d (t.modTile n g).d :=
  h.within (Hs := []) (held' := held) ⟨fun _ _ => rfl, ⟨_, _, _, _, _, _, rfl⟩, fun ht => t.modTile_windowsKept n (hg ht)⟩ (by simp) id

theorem flagTile (tl mask : Nat) : ResultOnly held Gs d (t.flagTile tl mask).d := by
  unfold Tx.flagTile
  split
  · exact h
  · exact h.within (Hs := []) (held' := true) ⟨fun _ _ => rfl, ⟨_, _, _, _, _, _, rfl⟩, fun _ _ => rfl⟩ (by simp) fun _ => rfl

omit h in
theorem ite {c : Prop} [Decidable c] {x y : Tx d0} (hx : ResultOnly held Gs d x.d) (hy : ResultOnly held Gs d y.d) :
    ResultOnly held Gs d (if c then x else y).d := by
  split
  · exact hx
  · exact hy

theorem modShot (tl id att : Nat) (g : Shot → Shot) : ResultOnly held Gs d (t.modShot tl id att g).d := h.modTile tl fun _ _ => rfl

theorem tryReady (tl : Nat) : ResultOnly held Gs d (t.tryReady tl).d :=
  Tx.each_keeps (fun u => ResultOnly held Gs d u.d) t _ _ h fun _ _ _ hu => (hu.modShot _ _ _ _).within (Hs := []) (held' := true)
    ⟨fun _ _ => rfl, ⟨_, _, _, _, _, _, rfl⟩, fun _ _ => rfl⟩ (by simp) fun _ => rfl

theorem showWq {tl : Nat} (hdepth : R.RD_RECQ.DEPTH tl ∈ Gs) (hmax : R.RD_RECQ.MAX tl ∈ Gs) : ResultOnly held Gs d (t.showWq tl).d :=
  .ite ((h.w hdepth _).w hmax _) (h.w hdepth _)

theorem useSend (n now : Nat) (sent : Bool) : ResultOnly held Gs d (t.useSend n now sent).d := .ite (h.modTile _ fun _ _ => rfl) h

end

end ResultOnly

/-! The last-result registers (R263, R264) -/

/-- The fields that tell a demodulator's last result. -/
def lastFlds (n : Nat) : List Fld :=
  [R.RD_DSTAT.VALID n, R.RD_DSTAT.CODE n, R.RD_DSTAT.CLIP n, R.RD_DSTAT.OSAT n, R.RD_LAST_I.I n, R.RD_LAST_Q.Q n]

/-- The fields in which its events, its counts and its record are reported. -/
def reportFlds (n : Nat) : List Fld :=
  [R.RD_EVT.CLIP (n / 16), R.RD_EVT.OSAT (n / 16), R.RD_EVT.REC_OVF (n / 16), R.RD_CNT.LEAK n, R.RD_CNT.INVALID n, R.RD_RECQ.DEPTH (n / 16),
    R.RD_RECQ.MAX (n / 16)]

theorem lastResult_flds (n : Nat) (r : WinOutcome) : (lastResult n r).map Prod.fst = lastFlds n := rfl

theorem lastFlds_keys (n : Nat) : (lastFlds n).map Fld.key =
    [tileOff 16 0x4000 0x10 n * 32 + 30, tileOff 16 0x4000 0x10 n * 32 + 28, tileOff 16 0x4000 0x10 n * 32 + 27, tileOff 16 0x4000 0x10 n * 32 + 26,
      tileOff 16 0x4004 0x10 n * 32, tileOff 16 0x4008 0x10 n * 32] := rfl

theorem reportFlds_keys (n : Nat) : (reportFlds n).map Fld.key =
    [(0x104100 + 0x20000 * (n / 16)) * 32 + 29, (0x104100 + 0x20000 * (n / 16)) * 32 + 26, (0x104100 + 0x20000 * (n / 16)) * 32 + 28,
      tileOff 16 0x400c 0x10 n * 32 + 16, tileOff 16 0x400c 0x10 n * 32, (0x104104 + 0x20000 * (n / 16)) * 32, (0x104104 + 0x20000 * (n / 16)) * 32 + 8] := rfl

theorem lastFlds_nodup (n : Nat) : ((lastFlds n).map Fld.key).Nodup := by
  simp only [lastFlds_keys, tileOff, List.nodup_cons, List.mem_cons, List.not_mem_nil, List.nodup_nil, or_false, not_false_eq_true, and_true]
  omega

/-- Last results are told in fields of their own. -/
theorem lastFlds_notReport (n k : Nat) : ∀ F ∈ lastFlds k, F.key ∉ (reportFlds n).map Fld.key := by
  intro F hF
  have hkey := List.mem_map_of_mem (f := Fld.key) hF
  simp only [lastFlds_keys, reportFlds_keys, tileOff, List.mem_cons, List.not_mem_nil, or_false] at hkey ⊢
  omega

/-- Another demodulator's last result is told in other fields. -/
theorem lastFlds_apart {n k : Nat} (hk : k ≠ n) : ∀ F ∈ lastFlds k, F.key ∉ (lastFlds n).map Fld.key := by
  intro F hF
  have hkey := List.mem_map_of_mem (f := Fld.key) hF
  simp only [lastFlds_keys, tileOff, List.mem_cons, List.not_mem_nil, or_false] at hkey ⊢
  omega

theorem awake_notResult (n : Nat) : R.TB_STAT.AWAKE.key ∉ (lastFlds n ++ reportFlds n).map Fld.key := by
  simp only [List.map_append, lastFlds_keys, reportFlds_keys, R.TB_STAT.AWAKE, Fld.key, tileOff, List.mem_append, List.mem_cons, List.not_mem_nil, or_false]
  omega

theorem readoutKey_result (k : Nat) : ∀ F ∈ lastFlds k ++ reportFlds k, readoutKey F.key = true := by
  intro F hF
  have hkey := List.mem_map_of_mem (f := Fld.key) hF
  simp only [List.map_append, lastFlds_keys, reportFlds_keys, tileOff, List.mem_append, List.mem_cons, List.not_mem_nil, or_false] at hkey
  simp only [readoutKey, Bool.and_eq_true, decide_eq_true_eq]
  omega

/-- Fields at places of their own that are written one after the other hold what was written. -/
theorem Tx.each_w_f (t : Tx d0) (l : List (Fld × Nat)) (hl : ((l.map Prod.fst).map Fld.key).Nodup) :
    ∀ x ∈ l, (t.each l (fun x t => t.w x.1 x.2)).d.f x.1 = x.2 % 2 ^ x.1.width := by
  induction l generalizing t with
  | nil => simp
  | cons y r ih =>
    simp only [List.map_cons, List.nodup_cons] at hl
    obtain ⟨hy, hr⟩ := hl
    rintro x (_ | ⟨_, hx⟩)
    · refine Tx.each_keeps (fun u => u.d.f y.1 = y.2 % 2 ^ y.1.width) (t.w y.1 y.2) r _ (t.w_f_same _ _) fun a ha u hu => ?_
      refine (u.w_f_other _ _ _ fun hkey => hy ?_).trans hu
      rw [hkey]
      exact List.mem_map_of_mem (List.mem_map_of_mem ha)
    · exact ih (t.w y.1 y.2) hr x hx

theorem ResultOnly.showResult {held : Bool} {d : Device} {t : Tx d0} {n : Nat} (h : ResultOnly held (lastFlds n ++ reportFlds n) d t.d) (r : WinOutcome) :
    ResultOnly held (lastFlds n ++ reportFlds n) d (t.showResult n r).d := by
  refine Tx.each_keeps (fun u => ResultOnly held _ d u.d) t _ _ h fun x hx u hu => hu.w (List.mem_append_left _ ?_) _
  rw [← lastResult_flds n r]
  exact List.mem_map_of_mem hx

/-! Events, counts and the record (R267 to R269) -/

theorem ResultOnly.countResult {held : Bool} {d : Device} {t : Tx d0} {n : Nat} (h : ResultOnly held (reportFlds n) d t.d) (r : WinOutcome) :
    ResultOnly held (reportFlds n) d (t.countResult n r).d := by
  have hclip : ResultOnly held (reportFlds n) d (if r.2.2.2.1 then t.ev (R.RD_EVT.CLIP (n / 16)) else t).d := .ite (h.ev (by simp [reportFlds])) h
  unfold Tx.countResult
  generalize (if r.2.2.2.1 then t.ev (R.RD_EVT.CLIP (n / 16)) else t) = u at hclip
  have hosat : ResultOnly held (reportFlds n) d (if r.2.2.2.2 then u.ev (R.RD_EVT.OSAT (n / 16)) else u).d := .ite (hclip.ev (by simp [reportFlds])) hclip
  exact .ite (hosat.inc (by simp [reportFlds])) (.ite (hosat.inc (by simp [reportFlds])) hosat)

/-- The record write queue of a tile with a further result of this tick (R268). -/
def Device.wqWith (d : Device) (tl : Nat) (c : Nat × Nat × List Byte) : List (Nat × Nat × List Byte) :=
  let x := d.tile tl
  let new := if x.wqAt = d.now.toNat then x.wqN else 0
  x.wq.take (x.wq.length - new) ++ insertResult c (x.wq.drop (x.wq.length - new))

theorem insertResult_length (c : Nat × Nat × List Byte) (l : List (Nat × Nat × List Byte)) : (insertResult c l).length = l.length + 1 := by
  have hsplit := congrArg List.length (List.takeWhile_append_dropWhile (p := fun x => decide (rb x.2.2 8 % 16 ≤ rb c.2.2 8 % 16)) (l := l))
  simp only [List.length_append] at hsplit
  simp only [insertResult, List.length_append, List.length_singleton]
  omega

theorem Device.wqWith_length (d : Device) (tl : Nat) (c : Nat × Nat × List Byte) : (d.wqWith tl c).length = (d.tile tl).wq.length + 1 := by
  simp only [Device.wqWith, List.length_append, insertResult_length, List.length_take, List.length_drop]
  omega

/-- What the entry of a result in its tile's record write queue makes of the device. -/
structure Queued (n : Nat) (c : Nat × Nat × List Byte) (d e : Device) : Prop where
  only : ResultOnly false (reportFlds n) d e
  closing : (e.tile (n / 16)).closing = (d.tile (n / 16)).closing
  wq : (e.tile (n / 16)).wq = (d.wqWith (n / 16) c).take 64
  ovf : 64 ≤ (d.tile (n / 16)).wq.length → e.f (R.RD_EVT.REC_OVF (n / 16)) = 1

/-- The queue is set, and what follows leaves it as it is. -/
theorem Queued.of_set {t : Tx d0} {n : Nat} {c : Nat × Nat × List Byte} {e : Device} {g : Tile → Tile} (hg : ∀ x, (g x).closing = x.closing)
    (hset : ∀ x, (g x).wq = (t.d.wqWith (n / 16) c).take 64) (hrest : ResultOnly true (reportFlds n) (t.modTile (n / 16) g).d e)
    (hovf : 64 ≤ (t.d.tile (n / 16)).wq.length → e.f (R.RD_EVT.REC_OVF (n / 16)) = 1) : Queued n c t.d e := by
  obtain ⟨hclosing, hwq, -, -⟩ := hrest.readout (n / 16)
  have htile : (t.modTile (n / 16) g).d.tile (n / 16) = g (t.d.tile (n / 16)) := (t.modTile_tile _ _ _).trans (if_pos rfl)
  rw [htile] at hclosing hwq
  exact ⟨((ResultOnly.refl false _ _).modTile _ (by simp)).within hrest (List.Subset.refl _) (by simp), hclosing.trans (hg _), hwq.trans (hset _), hovf⟩

theorem Tx.queueResult_full (t : Tx d0) (tl id att : Nat) (r : List Byte) (h : 64 ≤ (t.d.tile tl).wq.length) :
    ∃ lost : Nat × Nat × List Byte, t.queueResult tl id att r =
      (((t.modTile tl (fun x => { x with wq := (t.d.wqWith tl (id, att, r)).take 64 })).ev (R.RD_EVT.REC_OVF tl)).modShot tl lost.1 lost.2.1
        (fun s => { s with owed := s.owed - 1 })).tryReady tl := ⟨_, if_pos h⟩

theorem Tx.queueResult_room (t : Tx d0) (tl id att : Nat) (r : List Byte) (h : ¬ 64 ≤ (t.d.tile tl).wq.length) :
    ∃ new : Nat, t.queueResult tl id att r =
      (t.modTile tl (fun x => { x with wq := t.d.wqWith tl (id, att, r), wqAt := t.now.toNat, wqN := new })).showWq tl := ⟨_, if_neg h⟩

theorem Tx.queueResult_spec (t : Tx d0) (n id att : Nat) (r : List Byte) : Queued n (id, att, r) t.d (t.queueResult (n / 16) id att r).d := by
  by_cases hfull : 64 ≤ (t.d.tile (n / 16)).wq.length
  · obtain ⟨lost, heq⟩ := t.queueResult_full (n / 16) id att r hfull
    let g := fun x : Tile => { x with wq := (t.d.wqWith (n / 16) (id, att, r)).take 64 }
    let u := t.modTile (n / 16) g
    let v := u.ev (R.RD_EVT.REC_OVF (n / 16))
    have hev : ResultOnly true (reportFlds n) u.d v.d := (ResultOnly.refl _ _ _).ev (by simp [reportFlds])
    have hafter : ResultOnly true [] v.d (t.queueResult (n / 16) id att r).d := by
      rw [heq]
      exact ((ResultOnly.refl true [] v.d).modShot _ _ _ _).tryReady _
    exact .of_set (g := g) (fun _ => rfl) (fun _ => rfl) (hev.within hafter (by simp) fun h => h) fun _ =>
      (hafter.onlyFields _ (by simp)).trans (u.ev_f_same _ rfl)
  · obtain ⟨new, heq⟩ := t.queueResult_room (n / 16) id att r hfull
    have hroom : (t.d.wqWith (n / 16) (id, att, r)).take 64 = t.d.wqWith (n / 16) (id, att, r) :=
      List.take_of_length_le (by rw [t.d.wqWith_length]; omega)
    let g := fun x : Tile => { x with wq := t.d.wqWith (n / 16) (id, att, r), wqAt := t.now.toNat, wqN := new }
    have hrest : ResultOnly true (reportFlds n) (t.modTile (n / 16) g).d (t.queueResult (n / 16) id att r).d := by
      rw [heq]
      exact (ResultOnly.refl _ _ _).showWq (by simp [reportFlds]) (by simp [reportFlds])
    exact .of_set (g := g) (fun _ => rfl) (fun _ => hroom.symm) hrest fun h => absurd h hfull

end Sys2Proof.Machine
end

section
/-! SUPPORT. A window's result as a whole (R263 to R269), and INTEGRATION_END. -/
namespace Sys2Proof.Machine

variable {d0 : Device}

/-! What every window's result does -/

/-- What a window's result makes of the device before any code of it goes out. -/
structure ResultTaken (n : Nat) (w : Win) (r : WinOutcome) (sent : Bool) (d e : Device) : Prop where
  only : ResultOnly false (lastFlds n ++ reportFlds n) d e
  closing : (e.tile (n / 16)).closing = (d.tile (n / 16)).closing
  wq : w.norec = false → (e.tile (n / 16)).wq = (d.wqWith (n / 16) (w.record n r sent)).take 64
  ovf : w.norec = false → 64 ≤ (d.tile (n / 16)).wq.length → e.f (R.RD_EVT.REC_OVF (n / 16)) = 1
  norec : w.norec = true → (e.tile (n / 16)).wq = (d.tile (n / 16)).wq
  last : ∀ x ∈ lastResult n r, e.f x.1 = x.2 % 2 ^ x.1.width

theorem Device.wqWith_congr {d e : Device} {Gs : List Fld} (h : ResultOnly true Gs d e) (hawake : R.TB_STAT.AWAKE.key ∉ Gs.map Fld.key) (tl : Nat) :
    e.wqWith tl = d.wqWith tl := by
  obtain ⟨-, hwq, hat, hn⟩ := h.readout tl
  funext c
  simp only [Device.wqWith, hwq, hat, hn, h.now hawake]

/-- What the record of a result makes of the device. -/
theorem Tx.recordResult_spec (t : Tx d0) (n : Nat) (w : Win) (r : WinOutcome) (sent : Bool) :
    (w.norec = true → ResultOnly true (reportFlds n) t.d (t.recordResult n w r sent).d) ∧
    (w.norec = false → Queued n (w.record n r sent) t.d (t.recordResult n w r sent).d) := by
  refine ⟨fun h => ?_, fun h => ?_⟩
  · rw [Tx.recordResult, if_pos h]
    exact (ResultOnly.refl _ _ _).flagTile _ _
  · rw [Tx.recordResult, if_neg (by simp [h])]
    exact t.queueResult_spec n _ _ _

theorem Tx.takeResult_spec (t : Tx d0) (n : Nat) (w : Win) (r : WinOutcome) (sent : Bool) : ResultTaken n w r sent t.d (t.takeResult n w r sent).d := by
  let a := t.useSend n t.now.toNat sent
  let b := a.showResult n r
  let c := b.countResult n r
  have hb : ResultOnly true (lastFlds n ++ reportFlds n) t.d b.d := ((ResultOnly.refl _ _ _).useSend n _ sent).showResult r
  have hcount : ResultOnly true (reportFlds n) b.d c.d := (ResultOnly.refl _ _ _).countResult r
  have hc := hb.within hcount (List.subset_append_right _ _) fun h => h
  obtain ⟨hclosing, hwq, -, -⟩ := hc.readout (n / 16)
  have hwith := Device.wqWith_congr hc (awake_notResult n) (n / 16)
  have hshown : ∀ x ∈ lastResult n r, b.d.f x.1 = x.2 % 2 ^ x.1.width := a.each_w_f _ (lastFlds_nodup n)
  have hlast : ∀ e : Device, OnlyFields (reportFlds n) c.d e → ∀ x ∈ lastResult n r, e.f x.1 = x.2 % 2 ^ x.1.width := by
    intro e he x hx
    have hF := lastFlds_notReport n n x.1 (List.mem_map_of_mem (f := Prod.fst) hx)
    exact (he _ hF).trans ((hcount.onlyFields _ hF).trans (hshown x hx))
  obtain ⟨hnone, hqueued⟩ := c.recordResult_spec n w r sent
  change ResultTaken n w r sent t.d (c.recordResult n w r sent).d
  generalize c.recordResult n w r sent = u at hnone hqueued
  cases hnorec : w.norec with
  | true =>
    have hrec := hnone hnorec
    obtain ⟨hclosing', hwq', -, -⟩ := hrec.readout (n / 16)
    exact ⟨hc.relax.within hrec (List.subset_append_right _ _) (by simp), hclosing'.trans hclosing, by simp [hnorec], by simp [hnorec],
      fun _ => hwq'.trans hwq, hlast _ hrec.onlyFields⟩
  | false =>
    have hrec := hqueued hnorec
    exact ⟨hc.relax.within hrec.only (List.subset_append_right _ _) (by simp), hrec.closing.trans hclosing, fun _ => hrec.wq.trans (by rw [hwith]),
      fun _ hfull => hrec.ovf (by rwa [hwq]), by simp [hnorec], hlast _ hrec.only.onlyFields⟩

/-- What follows keeps what a window's result has made of the read-out; after a window that was cut nothing follows. -/
theorem Tx.resultOut_spec (t : Tx d0) (n : Nat) (w : Win) (adc : List Int) (h : t.d.combed (n / 16) = false) :
    ∃ u : Tx d0, ResultTaken n w (t.d.winResult (n / 16) w adc) (t.d.releases n w) t.d u.d ∧ ReadoutKept u.d (t.resultOut n w adc).d ∧
      (w.cut = true → t.resultOut n w adc = u) := by
  refine ⟨_, t.takeResult_spec n w _ _, ?_, fun hcut => ?_⟩
  · rw [t.resultOut_eq n w adc h]
    exact .ite (.refl _) ((ReadoutKept.refl _).sendCode _ _ _ _)
  · rw [t.resultOut_eq n w adc h, if_pos hcut]

/-! The outcome depends on the frames' words alone (R257, R262) -/

section
variable {d e : Device} (hf : e.f = d.f) (hhist : ∀ k, (e.tile k).hist = (d.tile k).hist)
include hf hhist

theorem Device.adcPhase_congr : e.adcPhase = d.adcPhase := by
  funext f tick j
  simp only [Device.adcPhase, Device.wordsAt, Device.frame, Device.f64, hf, hhist]

theorem Device.integrate_congr (f : Nat) (ws : List Nat) (tick : Nat) (adc : List Int) (acc : Int × Int) :
    e.integrate f tick ws adc acc = d.integrate f tick ws adc acc := by
  induction ws generalizing tick adc acc with
  | nil => rfl
  | cons v r ih => simp only [Device.integrate, Device.adcPhase_congr hf hhist, ih]

theorem Device.winResult_congr (tl : Nat) (w : Win) (adc : List Int) : e.winResult tl w adc = d.winResult tl w adc := by
  simp only [Device.winResult, Device.integrate_congr hf hhist]

end

/-! INTEGRATION_END -/

/-- A window awaits its result no longer. -/
def Tile.unclose (c : Nat × Win) (x : Tile) : Tile := { x with closing := x.closing.erase c }

/-- The window that closed 84 ticks ago gives its result. -/
theorem effIntegrationEnd_eq (t : Tx d0) (n : Nat) (adc : List Int) {c : Nat × Win}
    (h : (t.d.tile (n / 16)).closing.find? (fun c => c.1 == n % 16 && c.2.start + c.2.len + 84 == t.d.now.toNat) = some c) :
    effIntegrationEnd n adc t = (t.modTile (n / 16) (Tile.unclose c)).resultOut n c.2 adc := by
  unfold effIntegrationEnd
  dsimp only [Tx.now]
  rw [h]
  rfl

section
variable (t : Tx d0) (n : Nat) (c : Nat × Win)

theorem Tx.unclose_tile (k : Nat) : (t.modTile (n / 16) (Tile.unclose c)).d.tile k =
    { t.d.tile k with closing := if k = n / 16 then (t.d.tile k).closing.erase c else (t.d.tile k).closing } := by
  rw [t.modTile_tile]
  split
  · next hk => rw [hk]; rfl
  · rfl

theorem Tx.unclose_winResult (tl : Nat) (w : Win) (adc : List Int) :
    (t.modTile (n / 16) (Tile.unclose c)).d.winResult tl w adc = t.d.winResult tl w adc :=
  Device.winResult_congr (d := t.d) (e := (t.modTile (n / 16) (Tile.unclose c)).d) rfl (fun k => by rw [t.unclose_tile]) tl w adc

theorem Tx.unclose_combed (tl : Nat) : (t.modTile (n / 16) (Tile.unclose c)).d.combed tl = t.d.combed tl := by
  unfold Device.combed
  rw [t.unclose_tile]
  rfl

theorem Tx.unclose_releases (w : Win) : (t.modTile (n / 16) (Tile.unclose c)).d.releases n w = t.d.releases n w := by
  unfold Device.releases
  rw [t.unclose_tile]
  rfl

theorem Tx.unclose_wqWith (tl : Nat) (x : Nat × Nat × List Byte) : (t.modTile (n / 16) (Tile.unclose c)).d.wqWith tl x = t.d.wqWith tl x := by
  unfold Device.wqWith
  rw [t.unclose_tile]
  rfl

end

/-- What INTEGRATION_END makes of the device, where a window of the demodulator gives its result. -/
structure Integrated (n : Nat) (w : Win) (r : WinOutcome) (sent : Bool) (d e : Device) : Prop where
  closing : (e.tile (n / 16)).closing = (d.tile (n / 16)).closing.erase (n % 16, w)
  wq : w.norec = false → (e.tile (n / 16)).wq = (d.wqWith (n / 16) (w.record n r sent)).take 64
  ovf : w.norec = false → 64 ≤ (d.tile (n / 16)).wq.length → e.f (R.RD_EVT.REC_OVF (n / 16)) = 1
  norec : w.norec = true → (e.tile (n / 16)).wq = (d.tile (n / 16)).wq
  last : ∀ x ∈ lastResult n r, e.f x.1 = x.2 % 2 ^ x.1.width
  other : ∀ k, k ≠ n → ∀ F ∈ lastFlds k, e.f F = d.f F
  cut : w.cut = true → OnlyFields (lastFlds n ++ reportFlds n) d e ∧ ResultFrame d e

theorem effIntegrationEnd_spec (t : Tx d0) (n : Nat) (adc : List Int) {w : Win}
    (h : (t.d.tile (n / 16)).closing.find? (fun c => c.1 == n % 16 && c.2.start + c.2.len + 84 == t.d.now.toNat) = some (n % 16, w))
    (hcomb : t.d.combed (n / 16) = false) :
    Integrated n w (t.d.winResult (n / 16) w adc) (t.d.releases n w) t.d (effIntegrationEnd n adc t).d := by
  let v := t.modTile (n / 16) (Tile.unclose (n % 16, w))
  have hopen : ResultOnly false (lastFlds n ++ reportFlds n) t.d v.d := (ResultOnly.refl _ _ _).modTile _ (by simp)
  obtain ⟨u, htaken, hkept, hcut⟩ := v.resultOut_spec n w adc ((t.unclose_combed n _ _).trans hcomb)
  rw [t.unclose_winResult, t.unclose_releases] at htaken
  rw [effIntegrationEnd_eq t n adc h]
  change Integrated n w _ _ t.d (v.resultOut n w adc).d
  generalize v.resultOut n w adc = x at hkept hcut
  have htile : v.d.tile (n / 16) = _ := t.unclose_tile n (n % 16, w) (n / 16)
  have hclosing := congrArg Prod.fst (hkept.tile (n / 16))
  have hwq := congrArg (fun y => y.2.1) (hkept.tile (n / 16))
  have hall := hopen.within htaken.only (List.Subset.refl _) (by simp)
  have hfld : ∀ k, ∀ F ∈ lastFlds k ++ reportFlds k, x.d.f F = u.d.f F := fun k F hF => hkept.fld F (readoutKey_result k F hF)
  refine ⟨hclosing.trans (htaken.closing.trans (by rw [htile, if_pos rfl])), fun hr => hwq.trans ((htaken.wq hr).trans (by rw [t.unclose_wqWith])),
    fun hr hfull => (hfld n _ (by simp [reportFlds])).trans (htaken.ovf hr (by rwa [htile])), fun hr => hwq.trans ((htaken.norec hr).trans (by rw [htile])),
    fun y hy => (hfld n _ (List.mem_append_left _ (List.mem_map_of_mem (f := Prod.fst) hy))).trans (htaken.last y hy), fun k hk F hF => ?_, fun hc => ?_⟩
  · refine (hfld k F (List.mem_append_left _ hF)).trans (hall.onlyFields F ?_)
    rw [List.map_append, List.mem_append]
    exact not_or.mpr ⟨lastFlds_apart hk F hF, lastFlds_notReport n k F hF⟩
  · rw [hcut hc]
    exact ⟨hall.onlyFields, hall.frame⟩

end Sys2Proof.Machine
end

section
/-! THE STATEMENT. A demodulator's result appears (R263, R264, R267, R268). -/
namespace Sys2Proof.Machine

theorem Device.b_of_toNat {d : Device} {F : Fld} {v : Bool} (hw : F.width = 1) (h : d.f F = v.toNat % 2 ^ F.width) : d.b F = v := by
  rw [Device.b, h, hw]
  cases v <;> rfl

/-- Settles O34: the result is told and recorded on the window's own samples, and the delivery of its code touches no part of the read-out. -/
theorem resultAppears : Obligations.ResultAppears := by
  unfold Obligations.ResultAppears
  intro s n adc w
  dsimp only
  intro hfind hcomb
  obtain ⟨hclosing, hwq, hovf, hnorec, hlast, hother, hcut⟩ := effIntegrationEnd_spec (Tx.start s.dev) n.val adc hfind hcomb
  rw [show (Tx.start s.dev).d.winResult (n.val / 16) w adc = s.dev.winResult (n.val / 16) w adc from
    Device.winResult_congr (d := s.dev) (e := (Tx.start s.dev).d) rfl (fun _ => rfl) _ _ _] at hwq hlast
  simp only [lastResult, List.forall_mem_cons] at hlast
  obtain ⟨hvalid, hcode, hclip, hosat, hi, hq, -⟩ := hlast
  refine ⟨_, rfl, hvalid, hcode, Device.b_of_toNat rfl hclip, Device.b_of_toNat rfl hosat, hi, hq, hclosing, hwq, fun h => hovf h.1 h.2, hnorec,
    fun k hk => ?_, fun hc => ?_⟩
  · have hk' : k.val ≠ n.val := fun h => hk (Fin.ext h)
    exact ⟨hother k hk' _ (by simp [lastFlds]), hother k hk' _ (by simp [lastFlds]), hother k hk' _ (by simp [lastFlds])⟩
  · obtain ⟨hfields, _, _, _, _, _, _, hframe⟩ := hcut hc
    refine ⟨hfields, ?_⟩
    generalize (effIntegrationEnd n adc (Tx.start s.dev)).d = y at hframe
    subst hframe
    rfl

end Sys2Proof.Machine
end

section
/-! REFUTATION. A transition that counts late finds the capture unit free, and the unit has missed it all the same (R279, R290). -/
namespace Sys2Proof.Machine

/-- A run at tick 1000. Tile 0's last capture, of condition 0, ended on tick 999 with its shot; its segment had begun with an event on tick 990. Condition 0
watches trigger input 0 for rising edges. -/
def lateEdge : State := { State.reset with dev := [.fld R.GLB_RUN_STAT.RUNNING 1, .fld R.TB_STAT.AWAKE 1, .time { coarse := 1000, fine := 1000 },
  .img { act := some { acq := [[3, 0, 0, 0, 1]] } }, .tile 0 { busy := some (0, 990, 999) }].foldl applyUpd State.reset.dev }

theorem lateEdge_noneListens : NoneListens lateEdge.dev := ⟨by decide, by decide⟩

/-- The edge fell on tick 998 and counts now that its level has held for 2 ticks: the unit was busy then, and has missed it (R279, R290). -/
theorem lateEdge_missed : ∃ t, exec (.triggerEdge 0 true 191) lateEdge = .next t ∧ t.dev.f (R.ACQ_CNT.MISSED 0) = 1 ∧ lateEdge.dev.f (R.ACQ_CNT.MISSED 0) = 0 :=
  ⟨_, rfl, by decide +kernel, by decide⟩

/-- Refutes O35: with no engine waiting and no capture unit at work the frame still fails in `lateEdge`. The unit's capture is over, but the edge fell within it
and counts only now, so ACQ_CNT.MISSED goes up, which the statement's frame leaves out. -/
theorem not_triggerEvents : ¬ Obligations.TriggerEvents := by
  unfold Obligations.TriggerEvents
  rintro ⟨hedge, -⟩
  obtain ⟨t, hexec, -, -, -, -, -, hframe⟩ := hedge lateEdge 0 true 191 (by decide) (by decide) (by decide) (by decide) (by decide)
  obtain ⟨u, hexec', hmissed, hbefore⟩ := lateEdge_missed
  obtain rfl : t = u := by simpa [hexec'] using hexec.symm
  have hkept := (hframe lateEdge_noneListens).1 (R.ACQ_CNT.MISSED 0) (by decide)
  omega

end Sys2Proof.Machine
end

section
/-! SUPPORT. What an operation may change of the device: pieces and register fields, each named. -/
namespace Sys2Proof.Machine

variable {d0 : Device}

/-! The relation -/

/-- From `d` to `e` nothing may have changed but the pieces `ps` and the register fields `Gs`, and nothing was sent out. -/
structure Confined (ps : List Piece) (Gs : List Fld) (d e : Device) : Prop where
  same : ∀ p ∉ ps, Same d e p
  fields : OnlyFields Gs d e
  out : e.out = d.out

theorem Same.refl (d : Device) (p : Piece) : Same d d p := by cases p <;> rfl

/-- Devices that agree in every piece are the same. -/
theorem Device.eq_of_same {d e : Device} (h : ∀ p, Same d e p) (hf : e.flds = d.flds) (ho : e.out = d.out) : e = d := by
  obtain ⟨⟩ := d
  obtain ⟨⟩ := e
  simp only [Device.mk.injEq]
  exact ⟨hf, h .latch, h .held, ho, h .freeN, h .time, h .power, h .host, h .queues, h .pba, h .img, h .run, h .engines, h .seqs, h .bus, h .patch,
    h .patchErr, h .patchWait, h .ports, h .mixers, h .markers, h .clamps, h .steady, h .ranged, h .rangeT0, h .outCfgs, h .mons, h .monErr, h
    .recorded, h .wins, h .tiles, h .flight, h .txq, h .rx, h .votes, h .voted, h .stats, h .sums, h .anise, h .credit, h .codes, h .lat, h
    .drainQ, h .rings, h .streams, h .flags, h .sram, h .tags, h .errs, h .cxl, h .eccLog, h .scrubs, h .wback, h .keep, h .fw, h .svc, h
    .limit, h .calib, h .calPaths, h .calForce, h .thermal, h .st, h .lanes, h .portUps, h .twin, h .digs, h .badFetch, h .resS, h .resW, h
    .cxlReads, h .chks, h .tagBad, h .cxlBad, h .tins, h .dtags, h .flip, h .again, h .evNow⟩

/-- The device `d` with the register file and the pieces `ps` of `e`. -/
def Device.taking (d : Device) (ps : List Piece) (e : Device) : Device where
  flds := e.flds
  latch := if ps.contains .latch then e.latch else d.latch
  held := if ps.contains .held then e.held else d.held
  out := d.out
  freeN := if ps.contains .freeN then e.freeN else d.freeN
  time := if ps.contains .time then e.time else d.time
  power := if ps.contains .power then e.power else d.power
  host := if ps.contains .host then e.host else d.host
  queues := if ps.contains .queues then e.queues else d.queues
  pba := if ps.contains .pba then e.pba else d.pba
  img := if ps.contains .img then e.img else d.img
  run := if ps.contains .run then e.run else d.run
  engines := if ps.contains .engines then e.engines else d.engines
  seqs := if ps.contains .seqs then e.seqs else d.seqs
  bus := if ps.contains .bus then e.bus else d.bus
  patch := if ps.contains .patch then e.patch else d.patch
  patchErr := if ps.contains .patchErr then e.patchErr else d.patchErr
  patchWait := if ps.contains .patchWait then e.patchWait else d.patchWait
  ports := if ps.contains .ports then e.ports else d.ports
  mixers := if ps.contains .mixers then e.mixers else d.mixers
  markers := if ps.contains .markers then e.markers else d.markers
  clamps := if ps.contains .clamps then e.clamps else d.clamps
  steady := if ps.contains .steady then e.steady else d.steady
  ranged := if ps.contains .ranged then e.ranged else d.ranged
  rangeT0 := if ps.contains .rangeT0 then e.rangeT0 else d.rangeT0
  outCfgs := if ps.contains .outCfgs then e.outCfgs else d.outCfgs
  mons := if ps.contains .mons then e.mons else d.mons
  monErr := if ps.contains .monErr then e.monErr else d.monErr
  recorded := if ps.contains .recorded then e.recorded else d.recorded
  wins := if ps.contains .wins then e.wins else d.wins
  tiles := if ps.contains .tiles then e.tiles else d.tiles
  flight := if ps.contains .flight then e.flight else d.flight
  txq := if ps.contains .txq then e.txq else d.txq
  rx := if ps.contains .rx then e.rx else d.rx
  votes := if ps.contains .votes then e.votes else d.votes
  voted := if ps.contains .voted then e.voted else d.voted
  stats := if ps.contains .stats then e.stats else d.stats
  sums := if ps.contains .sums then e.sums else d.sums
  anise := if ps.contains .anise then e.anise else d.anise
  credit := if ps.contains .credit then e.credit else d.credit
  codes := if ps.contains .codes then e.codes else d.codes
  lat := if ps.contains .lat then e.lat else d.lat
  drainQ := if ps.contains .drainQ then e.drainQ else d.drainQ
  rings := if ps.contains .rings then e.rings else d.rings
  streams := if ps.contains .streams then e.streams else d.streams
  flags := if ps.contains .flags then e.flags else d.flags
  sram := if ps.contains .sram then e.sram else d.sram
  tags := if ps.contains .tags then e.tags else d.tags
  errs := if ps.contains .errs then e.errs else d.errs
  cxl := if ps.contains .cxl then e.cxl else d.cxl
  eccLog := if ps.contains .eccLog then e.eccLog else d.eccLog
  scrubs := if ps.contains .scrubs then e.scrubs else d.scrubs
  wback := if ps.contains .wback then e.wback else d.wback
  keep := if ps.contains .keep then e.keep else d.keep
  fw := if ps.contains .fw then e.fw else d.fw
  svc := if ps.contains .svc then e.svc else d.svc
  limit := if ps.contains .limit then e.limit else d.limit
  calib := if ps.contains .calib then e.calib else d.calib
  calPaths := if ps.contains .calPaths then e.calPaths else d.calPaths
  calForce := if ps.contains .calForce then e.calForce else d.calForce
  thermal := if ps.contains .thermal then e.thermal else d.thermal
  st := if ps.contains .st then e.st else d.st
  lanes := if ps.contains .lanes then e.lanes else d.lanes
  portUps := if ps.contains .portUps then e.portUps else d.portUps
  twin := if ps.contains .twin then e.twin else d.twin
  digs := if ps.contains .digs then e.digs else d.digs
  badFetch := if ps.contains .badFetch then e.badFetch else d.badFetch
  resS := if ps.contains .resS then e.resS else d.resS
  resW := if ps.contains .resW then e.resW else d.resW
  cxlReads := if ps.contains .cxlReads then e.cxlReads else d.cxlReads
  chks := if ps.contains .chks then e.chks else d.chks
  tagBad := if ps.contains .tagBad then e.tagBad else d.tagBad
  cxlBad := if ps.contains .cxlBad then e.cxlBad else d.cxlBad
  tins := if ps.contains .tins then e.tins else d.tins
  dtags := if ps.contains .dtags then e.dtags else d.dtags
  flip := if ps.contains .flip then e.flip else d.flip
  again := if ps.contains .again then e.again else d.again
  evNow := if ps.contains .evNow then e.evNow else d.evNow

namespace Confined

theorem refl (d : Device) : Confined [] [] d d := ⟨fun p _ => .refl d p, .refl _ _, rfl⟩

theorem within {ps qs : List Piece} {Gs Hs : List Fld} {d e g : Device} (h : Confined ps Gs d e) (h' : Confined qs Hs e g) (hq : qs ⊆ ps) (hH : Hs ⊆ Gs) :
    Confined ps Gs d g :=
  ⟨fun p hp => (h.same p hp).trans (h'.same p fun hm => hp (hq hm)), h.fields.within h'.fields hH, h'.out.trans h.out⟩

theorem mono {ps qs : List Piece} {Gs Hs : List Fld} {d e : Device} (h : Confined qs Hs d e) (hq : qs ⊆ ps) (hH : Hs ⊆ Gs) : Confined ps Gs d e :=
  ⟨fun p hp => h.same p fun hm => hp (hq hm), h.fields.mono hH, h.out⟩

theorem trans {ps : List Piece} {Gs : List Fld} {d e g : Device} (h : Confined ps Gs d e) (h' : Confined ps Gs e g) : Confined ps Gs d g :=
  h.within h' (List.Subset.refl _) (List.Subset.refl _)

theorem ite {ps : List Piece} {Gs : List Fld} {d : Device} {c : Prop} [Decidable c] {x y : Tx d0} (hx : Confined ps Gs d x.d) (hy : Confined ps Gs d y.d) :
    Confined ps Gs d (if c then x else y).d := by
  split
  · exact hx
  · exact hy

theorem each {ps : List Piece} {Gs : List Fld} {α : Type} (t : Tx d0) (l : List α) {g : α → Tx d0 → Tx d0} (hg : ∀ a ∈ l, ∀ u : Tx d0, Confined ps Gs u.d (g a u).d) :
    Confined ps Gs t.d (t.each l g).d :=
  Tx.each_keeps (fun u => Confined ps Gs t.d u.d) t l g ((refl _).mono (by simp) (by simp)) fun a ha u hu => hu.trans (hg a ha u)

theorem f {ps : List Piece} {Gs : List Fld} {d e : Device} (h : Confined ps Gs d e) {F : Fld} (hF : F.key ∉ Gs.map Fld.key) : e.f F = d.f F := h.fields F hF

theorem now {ps : List Piece} {Gs : List Fld} {d e : Device} (h : Confined ps Gs d e) (hp : Piece.time ∉ ps) (hF : R.TB_STAT.AWAKE.key ∉ Gs.map Fld.key) : e.now = d.now :=
  Device.now_congr (h.fields.b hF) (h.same .time hp)

/-- What is named makes up all that may have changed. -/
theorem eq_taking {ps : List Piece} {Gs : List Fld} {d e : Device} (h : Confined ps Gs d e) : e = d.taking ps e := by
  have hpiece : ∀ {α : Type} {x y : α} (p : Piece), (p ∉ ps → x = y) → x = if ps.contains p then x else y := by
    intro α x y p hxy
    split
    · rfl
    · next hp => exact hxy (by simpa using hp)
  refine Device.eq_of_same (fun p => ?_) rfl h.out
  cases p <;> exact hpiece _ (h.same _)

end Confined

/-! Primitive operations -/

/-- The update sends something out, or clears what was sent. -/
def Upd.speaks : Upd → Bool
  | .out _ | .clearOut => true
  | _ => false

/-- The update writes no register and sends nothing out. -/
def Upd.quiet (u : Upd) : Bool := !u.setsRegs && !u.speaks

theorem applyUpd_out (d : Device) (u : Upd) (h : u.speaks = false) : (applyUpd d u).out = d.out := by
  cases u with
  | out _ => cases h
  | clearOut => cases h
  | _ => rfl

theorem Tx.upd_confined (t : Tx d0) (u : Upd) {ps : List Piece} (h : u.quiet = true := by rfl) (hps : ∀ p, u.hits p = true → p ∈ ps := by simp [Upd.hits, or_assoc]) :
    Confined ps [] t.d (t.upd u).d := by
  obtain ⟨hregs, hspeaks⟩ : u.setsRegs = false ∧ u.speaks = false := by simpa [Upd.quiet] using h
  exact ⟨fun p hp => applyUpd_same t.d u p fun hh => hp (hps p hh), fun F _ => applyUpd_f t.d u F (by simp [hregs]), applyUpd_out t.d u hspeaks⟩

theorem Tx.w_confined (t : Tx d0) (F : Fld) (v : Nat) : Confined [] [F] t.d (t.w F v).d := ⟨fun p _ => by cases p <;> rfl, t.w_onlyFields F v, rfl⟩

theorem Tx.ev_confined (t : Tx d0) (F : Fld) : Confined [.pba, .evNow] [F] t.d (t.ev F).d :=
  ⟨fun p hp => t.ev_same F p (fun h => hp (by simp [h])) (fun h => hp (by simp [h])), t.ev_onlyFields F, t.ev_out F⟩

namespace Confined

section
variable {ps : List Piece} {Gs : List Fld} {d : Device} {t : Tx d0} (h : Confined ps Gs d t.d)
include h

theorem w {F : Fld} (hF : F ∈ Gs) (v : Nat) : Confined ps Gs d (t.w F v).d := h.within (t.w_confined F v) (by simp) (by simpa using hF)

theorem wb {F : Fld} (hF : F ∈ Gs) (v : Bool) : Confined ps Gs d (t.wb F v).d := h.w hF _

theorem add {F : Fld} (hF : F ∈ Gs) (n : Nat) : Confined ps Gs d (t.add F n).d := h.w hF _

theorem inc {F : Fld} (hF : F ∈ Gs) : Confined ps Gs d (t.inc F).d := h.w hF _

theorem ev {F : Fld} (hF : F ∈ Gs) (hp : [.pba, .evNow] ⊆ ps) : Confined ps Gs d (t.ev F).d := h.within (t.ev_confined F) hp (by simpa using hF)

theorem upd {u : Upd} (hq : u.quiet = true) (hps : ∀ p, u.hits p = true → p ∈ ps) : Confined ps Gs d (t.upd u).d :=
  h.within (t.upd_confined u hq hps) (List.Subset.refl _) (by simp)

end

end Confined

end Sys2Proof.Machine
end

section
/-! SUPPORT. What the error log, reads and writes of lines, and reads of the image tables change (R456 to R468, R489). -/
namespace Sys2Proof.Machine

variable {d0 : Device}

/-! Registers -/

/-- The fields that show the head of the error log. -/
def logFlds : List Fld :=
  [R.ECC_LOG_STAT.COUNT, R.ECC_LOG_W0.VALID, R.ECC_LOG_W0.KIND, R.ECC_LOG_W0.SOURCE, R.ECC_LOG_W0.CLASS, R.ECC_LOG_W0.UNIT, R.ECC_LOG_W0.LINE,
    R.ECC_LOG_W1.SYNDROME, R.ECC_LOG_W1.POS, R.ECC_LOG_W1.ACTION, R.ECC_LOG_EPOCH_LO.EPOCH, R.ECC_LOG_EPOCH_HI.EPOCH]

/-- The fields in which errors of lines are counted and reported. -/
def eccFlds : List Fld :=
  logFlds ++ [R.ECC_EVT.LOG_OVF, R.ECC_EVT.CE, R.ECC_EVT.UE_READ, R.ECC_EVT.CXL_POISON, R.ECC_EVT.E2E_FAIL] ++ (List.range 5).map R.ECC_CNT.CE ++
    (List.range 5).map R.ECC_CNT.UE

/-- They stand together, in the ECC page of the register map. -/
theorem eccFlds_page : ∀ k ∈ eccFlds.map Fld.key, 32 * 0x20000 ≤ k ∧ k < 32 * 0x20040 := by decide

theorem logFlds_subset : logFlds ⊆ eccFlds := fun _ h => by simp only [eccFlds, List.mem_append]; exact .inl (.inl (.inl h))

theorem notMem_eccFlds {k : Nat} (h : k < 32 * 0x20000 ∨ 32 * 0x20040 ≤ k) : k ∉ eccFlds.map Fld.key := fun hk => by
  obtain ⟨hlo, hhi⟩ := eccFlds_page k hk
  omega

theorem eccCnt_mem {cls : Nat} (h : cls < 5) : R.ECC_CNT.CE cls ∈ eccFlds ∧ R.ECC_CNT.UE cls ∈ eccFlds := by
  simp only [eccFlds, List.mem_append]
  exact ⟨.inl (.inr (List.mem_map_of_mem (List.mem_range.mpr h))), .inr (List.mem_map_of_mem (List.mem_range.mpr h))⟩

/-! Reads -/

theorem Tx.showLog_confined (t : Tx d0) : Confined [] logFlds t.d t.showLog.d := by
  have h : Confined [] logFlds t.d t.d := (Confined.refl _).mono (by simp) (by simp)
  unfold Tx.showLog Tx.w64
  refine Confined.w (Confined.w (Confined.w (Confined.w (Confined.w (Confined.w (Confined.w (Confined.w (Confined.w (Confined.w (Confined.wb (h.w ?_ _) ?_ _) ?_ _)
    ?_ _) ?_ _) ?_ _) ?_ _) ?_ _) ?_ _) ?_ _) ?_ _) ?_ _ <;> simp [logFlds]

theorem Tx.logEcc_confined (t : Tx d0) (kind src l syn pos act : Nat) : Confined [.eccLog, .pba, .evNow] eccFlds t.d (t.logEcc kind src l syn pos act).d := by
  unfold Tx.logEcc
  split
  · exact (Confined.refl _).mono (by simp) (by simp)
  · refine .ite ((t.ev_confined _).mono (by simp) (by simp [eccFlds])) ?_
    exact ((t.upd_confined (.eccLog _) (ps := [.eccLog])).mono (by simp) (by simp)).within (Tx.showLog_confined _) (by simp) logFlds_subset

theorem Tx.corrected_confined (t : Tx d0) {cls : Nat} (hcls : cls < 5) (l : Nat) : Confined [.wback, .pba, .evNow] eccFlds t.d (t.corrected cls l).d := by
  have h : Confined [.wback, .pba, .evNow] eccFlds t.d t.d := (Confined.refl _).mono (by simp) (by simp)
  unfold Tx.corrected
  split
  · exact h
  · exact ((h.add (eccCnt_mem hcls).1 _).ev (by simp [eccFlds]) (by simp)).upd rfl (by simp [Upd.hits])

/-- What a read of a line may change. -/
def readPieces : List Piece := [.wback, .eccLog, .tags, .tagBad, .pba, .evNow]

theorem Tx.uncorrectable_confined (t : Tx d0) {cls : Nat} (hcls : cls < 5) (l src act : Nat) (ue : Nat × Nat) :
    Confined readPieces eccFlds t.d (t.uncorrectable cls l src act ue).d := by
  have h : Confined readPieces eccFlds t.d t.d := (Confined.refl _).mono (by simp) (by simp)
  have htag : Confined readPieces eccFlds t.d (t.tagLine l 1).d := .ite (h.upd rfl (by simp [Upd.hits, readPieces])) h
  exact (htag.inc (eccCnt_mem hcls).2).within (Tx.logEcc_confined _ _ _ _ _ _ _) (by simp [readPieces]) (List.Subset.refl _)

theorem Tx.readLine_confined (t : Tx d0) (l src act : Nat) : Confined readPieces eccFlds t.d (t.readLine l src act).d := by
  have h : Confined readPieces eccFlds t.d t.d := (Confined.refl _).mono (by simp) (by simp)
  have hlog : ∀ {u : Tx d0} (kind syn pos : Nat), Confined readPieces eccFlds t.d u.d → Confined readPieces eccFlds t.d (u.logEcc kind src l syn pos act).d :=
    fun kind syn pos hu => hu.within (Tx.logEcc_confined _ _ _ _ _ _ _) (by simp [readPieces]) (List.Subset.refl _)
  have hread : ∀ {u : Tx d0}, Confined readPieces eccFlds t.d u.d → Confined readPieces eccFlds t.d (u.ev R.ECC_EVT.UE_READ).d :=
    fun hu => hu.ev (by simp [eccFlds]) (by simp [readPieces])
  unfold Tx.readLine
  split
  · exact h
  · next cls _ _ hl =>
    have hcls := lineClass_lt hl
    have hcor := h.within (t.corrected_confined hcls l) (by simp [readPieces]) (List.Subset.refl _)
    dsimp only
    split
    · exact hread h
    · split
      · exact .ite hcor (hread (hlog _ _ _ hcor))
      · exact hread (.ite (hcor.trans (Tx.uncorrectable_confined _ hcls _ _ _ _))
          (.ite (hlog _ _ _ hcor) ((hlog _ _ _ hcor).trans (Tx.uncorrectable_confined _ hcls _ _ _ _))))

/-! The image tables (R456, R468) -/

/-- What the reload of a line of the image tables may change. -/
def tablePieces : List Piece := [.sram, .errs, .freeN] ++ readPieces

theorem Tx.poisonLines_confined (t : Tx d0) (ls : List Nat) : Confined tablePieces eccFlds t.d (t.poisonLines ls).d := by
  have h : Confined tablePieces eccFlds t.d t.d := (Confined.refl _).mono (by simp) (by simp)
  have htags : Confined tablePieces eccFlds t.d (t.each ls (fun l t => t.upd (.tag l 4))).d :=
    .each t ls fun l _ u => ((Confined.refl _).mono (by simp) (by simp)).upd rfl (by simp [Upd.hits, tablePieces, readPieces])
  exact .ite h (htags.ev (by simp [eccFlds]) (by simp [tablePieces, readPieces]))

theorem Tx.reloadTable_confined (t : Tx d0) (l : Nat) : Confined tablePieces eccFlds t.d (t.reloadTable l).d := by
  have h : Confined tablePieces eccFlds t.d t.d := (Confined.refl _).mono (by simp) (by simp)
  unfold Tx.reloadTable
  split
  · exact (h.upd (u := .fillLines l (l + 1) (.free t.d.freeN)) rfl (by simp [Upd.hits, tablePieces, readPieces]; tauto)).upd rfl (by simp [Upd.hits, tablePieces])
  · have hwrote : Confined tablePieces eccFlds t.d (t.wrote l).d := .ite (h.upd rfl (by simp [Upd.hits, tablePieces, readPieces])) h
    exact (hwrote.upd rfl (by simp [Upd.hits, tablePieces, readPieces]; tauto)).trans (Tx.poisonLines_confined _ _)

/-- A tile's read of the image tables: a bad line is reloaded, and its engine B is to void its shot. -/
theorem Tx.readTables_confined (t : Tx d0) (tl : Nat) : Confined (.engines :: tablePieces) eccFlds t.d (t.readTables tl).d := by
  have h : Confined (.engines :: tablePieces) eccFlds t.d t.d := (Confined.refl _).mono (by simp) (by simp)
  unfold Tx.readTables Tx.badTable
  cases t.d.badLine (classBase 3 0 + 16384) (classBase 3 0 + 40960) with
  | none => exact h
  | some l =>
    have hread := h.within (t.readLine_confined l 0 4) (by decide) (List.Subset.refl _)
    exact (hread.within (Tx.reloadTable_confined _ l) (by simp) (List.Subset.refl _)).upd rfl (by simp [Upd.hits])

/-! Writes -/

/-- What a write of lines may change beside the error log. -/
def linePieces : List Piece := [.sram, .tags, .errs, .tagBad, .wback]

/-- No entry of the error log is of this tick. -/
def Device.logStale (d : Device) : Bool := d.eccLog.all (fun x => x.epoch != d.now.toNat)

/-- Changes of the error log by the write of a line (R488) are among those named, or there are none since no entry is of this tick. -/
def LogCovered (ps : List Piece) (Gs : List Fld) (d : Device) : Prop :=
  (d.logStale = true ∧ Piece.time ∉ ps ∧ Piece.eccLog ∉ ps ∧ R.TB_STAT.AWAKE.key ∉ Gs.map Fld.key) ∨ (.eccLog ∈ ps ∧ logFlds ⊆ Gs)

theorem Tx.overwritten_stale (t : Tx d0) (l : Nat) (h : t.d.logStale = true) : t.overwritten l = t := by
  unfold Tx.overwritten
  split
  · rfl
  · refine if_neg ?_
    simp only [Device.logStale, List.all_eq_true, bne_iff_ne] at h
    simp only [Bool.not_eq_true, List.any_eq_false, Bool.and_eq_true, beq_iff_eq, not_and]
    exact fun x hx _ => h x hx

theorem Tx.overwritten_confined (t : Tx d0) (l : Nat) : Confined [.eccLog] logFlds t.d (t.overwritten l).d := by
  have h : Confined [.eccLog] logFlds t.d t.d := (Confined.refl _).mono (by simp) (by simp)
  unfold Tx.overwritten
  split
  · exact h
  · exact .ite ((h.upd rfl (by simp [Upd.hits])).within (Tx.showLog_confined _) (by simp) (List.Subset.refl _)) h

namespace Confined

section
variable {ps : List Piece} {Gs : List Fld} {d : Device} {t : Tx d0} (h : Confined ps Gs d t.d)
include h

theorem logStale (hstale : d.logStale = true) (htime : Piece.time ∉ ps) (hlog : Piece.eccLog ∉ ps) (hawake : R.TB_STAT.AWAKE.key ∉ Gs.map Fld.key) :
    t.d.logStale = true := by
  have hsame : t.d.eccLog = d.eccLog := h.same .eccLog hlog
  rwa [Device.logStale, hsame, h.now htime hawake]

theorem overwritten (hlog : LogCovered ps Gs d) (l : Nat) : Confined ps Gs d (t.overwritten l).d := by
  rcases hlog with ⟨hstale, htime, hlog, hawake⟩ | ⟨hlog, hflds⟩
  · rwa [t.overwritten_stale l (h.logStale hstale htime hlog hawake)]
  · exact h.within (t.overwritten_confined l) (by simpa using hlog) hflds

variable (hlines : linePieces ⊆ ps)
include hlines

theorem wrote (l : Nat) : Confined ps Gs d (t.wrote l).d :=
  .ite (h.upd rfl fun p hp => hlines (by simp_all [Upd.hits, linePieces])) h

theorem lines (l : Nat) (bs : List Byte) : Confined ps Gs d (t.upd (.lines l bs)).d :=
  h.upd rfl fun p hp => hlines (by simp_all [Upd.hits, linePieces, or_assoc]; tauto)

theorem writeIn (a : Nat) (bs : List Byte) : Confined ps Gs d (t.writeIn a bs).d := by
  have hwrote := h.wrote hlines (a / 64)
  have hline : Confined ps Gs d (if (t.wrote (a / 64)).d.tagOf (a / 64) = 2 then (t.wrote (a / 64)).upd (.lines (a / 64) (List.replicate 64 0)) else t.wrote (a / 64)).d :=
    .ite (hwrote.lines hlines _ _) hwrote
  refine Confined.upd (Tx.each_keeps (fun u => Confined ps Gs d u.d) _ _ _ hline fun i _ u hu => ?_) rfl fun p hp => hlines (by simp_all [Upd.hits, linePieces])
  exact hu.upd rfl fun p hp => hlines (by simp_all [Upd.hits, linePieces])

variable (hlog : LogCovered ps Gs d)
include hlog

theorem writeLine (l : Nat) (bs : List Byte) : Confined ps Gs d (t.writeLine l bs).d := ((h.overwritten hlog l).wrote hlines l).lines hlines _ _

theorem writePart (a : Nat) (bs : List Byte) : Confined ps Gs d (t.writePart a bs).d :=
  .ite h (.ite (h.writeLine hlines hlog _ _) (h.writeIn hlines _ _))

theorem writeBytes (a : Nat) (bs : List Byte) : Confined ps Gs d (t.writeBytes a bs).d :=
  Tx.each_keeps (fun u => Confined ps Gs d u.d) _ _ _ (h.writePart hlines hlog _ _) fun _ _ _ hu => hu.writePart hlines hlog _ _

end

end Confined

end Sys2Proof.Machine
end

section
/-! SUPPORT. What the operations of tiles, shots and capture units change, and what they keep (R287 to R296). -/
namespace Sys2Proof.Machine

variable {d0 : Device}

/-! Tiles -/

/-- From `d` to `e` a part of the tiles' own state is kept. -/
def TileKept {β : Type} (q : Tile → β) (d e : Device) : Prop := ∀ k, q (e.tile k) = q (d.tile k)

/-- From `d` to `e` only tile `tl` of the tiles may have changed. -/
def OnlyTile (tl : Nat) (d e : Device) : Prop := ∀ k, k ≠ tl → e.tile k = d.tile k

theorem Device.tile_congr {d e : Device} (h : Same d e .tiles) : e.tile = d.tile := by
  funext k
  rw [Device.tile, Device.tile, show e.tiles = d.tiles from h]

theorem Confined.tile {ps : List Piece} {Gs : List Fld} {d e : Device} (h : Confined ps Gs d e) (hp : Piece.tiles ∉ ps) : e.tile = d.tile :=
  Device.tile_congr (h.same _ hp)

theorem TileKept.trans {β : Type} {q : Tile → β} {d e g : Device} (h : TileKept q d e) (h' : TileKept q e g) : TileKept q d g := fun k => (h' k).trans (h k)

theorem TileKept.of_tile {β : Type} (q : Tile → β) {d e : Device} (h : e.tile = d.tile) : TileKept q d e := fun k => by rw [h]

theorem Tx.modTile_kept {β : Type} {q : Tile → β} (t : Tx d0) (n : Nat) {g : Tile → Tile} (hg : ∀ x, q (g x) = q x) : TileKept q t.d (t.modTile n g).d := by
  intro k
  rw [t.modTile_tile n k g]
  split
  · next hk => rw [hg, hk]
  · rfl

theorem OnlyTile.trans {tl : Nat} {d e g : Device} (h : OnlyTile tl d e) (h' : OnlyTile tl e g) : OnlyTile tl d g := fun k hk => (h' k hk).trans (h k hk)

theorem OnlyTile.of_tile {tl : Nat} {d e : Device} (h : e.tile = d.tile) : OnlyTile tl d e := fun k _ => by rw [h]

theorem Tx.modTile_onlyTile (t : Tx d0) (tl : Nat) (g : Tile → Tile) : OnlyTile tl t.d (t.modTile tl g).d := fun k hk => by rw [t.modTile_tile, if_neg hk]

@[simp] theorem Tx.modTile_tile_same (t : Tx d0) (tl : Nat) (g : Tile → Tile) : (t.modTile tl g).d.tile tl = g (t.d.tile tl) := by
  rw [t.modTile_tile, if_pos rfl]

theorem Tx.modTile_confined (t : Tx d0) (n : Nat) (g : Tile → Tile) : Confined [.tiles] [] t.d (t.modTile n g).d := t.upd_confined _

theorem Tx.modShot_confined (t : Tx d0) (tl id att : Nat) (g : Shot → Shot) : Confined [.tiles] [] t.d (t.modShot tl id att g).d := t.upd_confined _

/-! The capture unit -/

theorem Tx.showCap_some (t : Tx d0) {tl : Nat} {c : Capture} (h : (t.d.tile tl).cap = some c) :
    t.showCap tl = (t.w (R.ACQ_STAT.STATE tl) c.stage).w (R.ACQ_STAT.INDEX tl) (rn c.crec 2 2) := by
  rw [Tx.showCap, h]

theorem Tx.showCap_none (t : Tx d0) {tl : Nat} (h : (t.d.tile tl).cap = none) : t.showCap tl = t.w (R.ACQ_STAT.STATE tl) 0 := by
  rw [Tx.showCap, h]

theorem Tx.showCap_confined (t : Tx d0) (tl : Nat) : Confined [] [R.ACQ_STAT.STATE tl, R.ACQ_STAT.INDEX tl] t.d (t.showCap tl).d := by
  have h : Confined [] [R.ACQ_STAT.STATE tl, R.ACQ_STAT.INDEX tl] t.d t.d := (Confined.refl _).mono (by simp) (by simp)
  unfold Tx.showCap
  split
  · exact h.w (by simp) _
  · exact (h.w (by simp) _).w (by simp) _

theorem capState_key_ne (tl : Nat) : (R.ACQ_STAT.STATE tl).key ≠ (R.ACQ_STAT.INDEX tl).key := by
  simp only [Fld.key, R.ACQ_STAT.STATE, R.ACQ_STAT.INDEX]
  omega

theorem Tx.showCap_state (t : Tx d0) {tl : Nat} {c : Capture} (h : (t.d.tile tl).cap = some c) : (t.showCap tl).d.f (R.ACQ_STAT.STATE tl) = c.stage % 4 := by
  rw [t.showCap_some h, Tx.w_f_other _ _ _ _ (capState_key_ne tl)]
  exact t.w_f_same _ _

/-- What a capture unit that takes a trigger at corrected instant `u` makes of the device (R288). -/
structure CapTaken (tl : Nat) (c : Capture) (u : Int) (d e : Device) : Prop where
  cap : ∃ x, (e.tile tl).cap = some x ∧ x.crec = c.crec ∧ x.arm = c.arm ∧ x.segs = c.segs ∧ x.stage = 2 ∧ x.tick = (u / 64).toNat
  state : e.f (R.ACQ_STAT.STATE tl) = 2
  confined : Confined [.tiles, .pba, .evNow] [R.ACQ_EVT.PRE_SHORT tl, R.ACQ_STAT.STATE tl, R.ACQ_STAT.INDEX tl] d e
  onlyTile : OnlyTile tl d e

/-- The unit holds a capture with a segment in progress, and shows it. -/
theorem CapTaken.of_set {t v : Tx d0} {tl : Nat} {c x : Capture} {u : Int} (hv : Confined [.pba, .evNow] [R.ACQ_EVT.PRE_SHORT tl] t.d v.d)
    (g : Shot → Shot) (hx : x.crec = c.crec ∧ x.arm = c.arm ∧ x.segs = c.segs ∧ x.stage = 2 ∧ x.tick = (u / 64).toNat) :
    CapTaken tl c u t.d ((((v.modShot tl c.shot c.attempt g).modTile tl (fun y => { y with cap := some x })).showCap tl).d) := by
  let a := v.modShot tl c.shot c.attempt g
  let b := a.modTile tl (fun y => { y with cap := some x })
  have hcap : (b.d.tile tl).cap = some x := by rw [a.modTile_tile_same]
  have hshow := b.showCap_confined tl
  have hb : Confined [.tiles, .pba, .evNow] [R.ACQ_EVT.PRE_SHORT tl, R.ACQ_STAT.STATE tl, R.ACQ_STAT.INDEX tl] t.d b.d :=
    ((hv.mono (by decide) (by simp)).within (v.modShot_confined _ _ _ g) (by decide) (by simp)).within (a.modTile_confined _ _) (by decide) (by simp)
  refine ⟨⟨x, ?_, hx⟩, ?_, hb.within hshow (by decide) (by simp), ?_⟩
  · rw [hshow.tile (by decide), hcap]
  · rw [b.showCap_state hcap, hx.2.2.2.1]
  · exact ((OnlyTile.of_tile (hv.tile (by decide))).trans (v.modTile_onlyTile tl _)).trans ((a.modTile_onlyTile tl _).trans (.of_tile (hshow.tile (by decide))))

theorem Tx.capTake_spec (t : Tx d0) (tl : Nat) (c : Capture) (u : Int) (at? : Option Int) : CapTaken tl c u t.d (t.capTake tl c u at?).d := by
  refine CapTaken.of_set ?_ (fun s => { s with owed := s.owed + 1 }) ⟨rfl, rfl, rfl, rfl, rfl⟩
  exact .ite ((t.ev_confined _).mono (by simp) (by simp)) ((Confined.refl _).mono (by simp) (by simp))

theorem Tx.capImmediate_of_ne (t : Tx d0) {tl : Nat} {c : Capture} (h : (t.d.tile tl).cap = some c) (hsrc : rb c.crec 4 ≠ 8) : t.capImmediate tl = t := by
  simp [Tx.capImmediate, h, hsrc]

/-- The events known by now of a condition that a unit armed from a tick may take (R288, R309). -/
def Device.knownFrom (d : Device) (c tick : Nat) : List (Nat × Nat × Int × Option Int) := d.run.known.filter (fun k => k.1 == c && decide (tick ≤ k.2.1))

theorem exists_first {l : List (Nat × Nat × Int × Option Int)} (h : l ≠ []) :
    ∃ k, l.find? (fun k => l.all (fun j => decide (k.2.1 ≤ j.2.1))) = some k ∧ k ∈ l ∧ ∀ j ∈ l, k.2.1 ≤ j.2.1 := by
  have hsome : (l.find? (fun k => l.all (fun j => decide (k.2.1 ≤ j.2.1)))).isSome := by
    obtain ⟨k, hk, hmin⟩ := Finset.exists_min_image l.toFinset (fun k => k.2.1) (by simpa using h)
    simp only [List.mem_toFinset] at hk hmin
    exact List.find?_isSome.mpr ⟨k, hk, by simpa using hmin⟩
  obtain ⟨k, hk⟩ := Option.isSome_iff_exists.mp hsome
  exact ⟨k, hk, List.mem_of_find?_eq_some hk, by simpa using List.find?_some hk⟩

theorem Tx.capKnown_nil (t : Tx d0) {tl : Nat} {c : Capture} (h : (t.d.tile tl).cap = some c) (hevs : t.d.knownFrom (rb c.crec 4) c.arm = []) :
    t.capKnown tl = t := by
  unfold Device.knownFrom at hevs
  simp only [Tx.capKnown, h, hevs, List.find?_nil]

/-- An armed unit takes one of the known events that no other precedes. -/
theorem Tx.capKnown_first (t : Tx d0) {tl : Nat} {c : Capture} (h : (t.d.tile tl).cap = some c) (hstage : c.stage = 1)
    (hevs : t.d.knownFrom (rb c.crec 4) c.arm ≠ []) :
    ∃ k ∈ t.d.knownFrom (rb c.crec 4) c.arm, (∀ j ∈ t.d.knownFrom (rb c.crec 4) c.arm, k.2.1 ≤ j.2.1) ∧ t.capKnown tl = t.capTake tl c k.2.2.1 k.2.2.2 := by
  obtain ⟨k, hfind, hk, hmin⟩ := exists_first hevs
  refine ⟨k, hk, hmin, ?_⟩
  unfold Device.knownFrom at hfind
  simp only [Tx.capKnown, h, hfind, hstage, if_true]

/-! Shots -/

/-- What the write of a part of a shot's record may change beside the error log. -/
def recPieces : List Piece := [.tiles, .flags] ++ linePieces

namespace Confined

section
variable {ps : List Piece} {Gs : List Fld} {d : Device} {t : Tx d0} (h : Confined ps Gs d t.d) (hrec : recPieces ⊆ ps)
include h hrec

theorem modTile (n : Nat) (g : Tile → Tile) : Confined ps Gs d (t.modTile n g).d :=
  h.within (t.modTile_confined n g) (fun p hp => hrec (by simp_all [recPieces])) (by simp)

theorem modShot (tl id att : Nat) (g : Shot → Shot) : Confined ps Gs d (t.modShot tl id att g).d := h.modTile hrec _ _

theorem flagTile (tl mask : Nat) : Confined ps Gs d (t.flagTile tl mask).d :=
  .ite h (h.upd rfl fun p hp => hrec (by simp_all [Upd.hits, recPieces]))

variable (hlog : LogCovered ps Gs d)
include hlog

theorem putHeader (tl id att : Nat) : Confined ps Gs d (t.putHeader tl id att).d := by
  have hlines : linePieces ⊆ ps := fun p hp => hrec (List.mem_append_right _ hp)
  unfold Tx.putHeader
  split
  · exact h
  · exact (h.writeBytes hlines hlog _ _).writeBytes hlines hlog _ _

theorem hflag (tl mask : Nat) : Confined ps Gs d (t.hflag tl mask).d := by
  unfold Tx.hflag
  split
  · exact h
  · exact (h.modShot hrec _ _ _ _).putHeader hrec hlog _ _ _

end

end Confined

theorem Tx.hflag_confined (t : Tx d0) (tl mask : Nat) : Confined (.eccLog :: recPieces) logFlds t.d (t.hflag tl mask).d :=
  ((Confined.refl _).mono (by simp) (by simp)).hflag (by decide) (.inr ⟨by decide, List.Subset.refl _⟩) _ _

end Sys2Proof.Machine
end

section
/-! SUPPORT. An operation that reaches the ADC path of its tile: released, it cuts the calibration steps of the path and reads the image tables (R414, R456). -/
namespace Sys2Proof.Machine

variable {d0 : Device}

/-! The release -/

/-- The fields that show an engine's queue. -/
def queueFlds (e : Nat) : List Fld := [R.ENG_QUEUE.DEPTH e, R.ENG_QUEUE.MAX e]

theorem Tx.setQueue_confined (t : Tx d0) (e : Nat) (q : List QOp) : Confined [.engines] (queueFlds e) t.d (t.setQueue e q).d := by
  have hdepth : Confined [.engines] (queueFlds e) t.d ((t.modEng e (fun x => { x with queue := q })).w (R.ENG_QUEUE.DEPTH e) q.length).d :=
    ((t.upd_confined _ (ps := [.engines])).mono (by simp) (by simp)).w (by simp [queueFlds]) _
  exact .ite (hdepth.w (by simp [queueFlds]) _) hdepth

/-! The calibration steps of the path (R414) -/

/-- A tile beside the samples that a comb has replaced. -/
def Tile.sansCombs (x : Tile) : Tile := { x with combs := [] }

/-- What a cut of calibration steps may change. -/
def cutPieces : List Piece := [.calib, .tiles, .calPaths, .pba, .evNow]

/-- What a cut of calibration steps makes of the device. -/
structure StepsCut (d e : Device) : Prop where
  confined : Confined cutPieces [R.CAL_EVT.STEP_CUT] d e
  tile : TileKept Tile.sansCombs d e

theorem StepsCut.refl (d : Device) : StepsCut d d := ⟨(Confined.refl _).mono (by simp) (by simp), fun _ => rfl⟩

theorem StepsCut.trans {d e g : Device} (h : StepsCut d e) (h' : StepsCut e g) : StepsCut d g := ⟨h.confined.trans h'.confined, h.tile.trans h'.tile⟩

theorem StepsCut.of_tile {d e : Device} (h : Confined cutPieces [R.CAL_EVT.STEP_CUT] d e) (htile : e.tile = d.tile) : StepsCut d e := ⟨h, .of_tile _ htile⟩

theorem Tx.modCalPath_stepsCut (t : Tx d0) (n : Nat) (g : CalPath → CalPath) : StepsCut t.d (t.modCalPath n g).d :=
  .of_tile ((t.upd_confined _ (ps := [.calPaths])).mono (by decide) (by simp)) rfl

theorem Tx.dropSteps_stepsCut (t : Tx d0) (p : Nat × Nat × Nat → Bool) : StepsCut t.d (t.dropSteps p).d := by
  refine Tx.each_keeps (fun u => StepsCut t.d u.d) _ _ _ (.of_tile ((t.upd_confined (.calib _) (ps := [.calib])).mono (by decide) (by simp)) rfl) fun s _ u hu => hu.trans ?_
  have hcomb : ∀ g : Tile → Tile, (∀ x, (g x).sansCombs = x.sansCombs) → StepsCut u.d (if s.1 = 3 then u.modTile s.2.1 g else u).d := by
    intro g hg
    split
    · exact ⟨(u.modTile_confined _ _).mono (by decide) (by simp), u.modTile_kept _ hg⟩
    · exact .refl _
  have hpath : ∀ v : Tx d0, StepsCut v.d (if (v.d.calPath (calKey s.1 s.2.1)).again then
      (v.modCalPath (calKey s.1 s.2.1) (fun x => { x with again := false, step := 0, rej := 0 })).calPend s.1 s.2.1 else v).d := by
    intro v
    split
    · exact (v.modCalPath_stepsCut _ _).trans (Tx.modCalPath_stepsCut _ _ _)
    · exact .refl _
  let comb : Tile → Tile := fun x => { x with
    combs := x.combs.filter (fun c => 4 * t.now.toNat < c.2 + 2 ^ 27) ++ [((u.d.stepSamples s).1, min (u.d.stepSamples s).2 (4 * t.now.toNat))] }
  exact (hcomb comb fun _ => rfl).trans (hpath _)

theorem Tx.cutAdc_stepsCut (t : Tx d0) (tl : Nat) : StepsCut t.d (t.cutAdc tl).d := by
  unfold Tx.cutAdc Tx.cutSteps
  dsimp only
  split
  · exact (t.dropSteps_stepsCut _).trans (.of_tile ((Tx.ev_confined _ _).mono (by decide) (by simp)) (Device.tile_congr ((Tx.ev_confined _ _).same _ (by decide))))
  · exact .refl _

/-! The image tables -/

theorem Device.badLine_congr {d e : Device} (htags : Same d e .tags) (hbad : Same d e .tagBad) (herrs : Same d e .errs) (hsram : Same d e .sram) :
    e.badLine = d.badLine := by
  funext lo hi
  simp only [Device.badLine, Device.tagOf, show e.tags = d.tags from htags, show e.tagBad = d.tagBad from hbad, show e.errs = d.errs from herrs,
    show e.sram = d.sram from hsram]

/-- The tables stay good where no line is changed. -/
theorem TablesGood.of_confined {ps : List Piece} {Gs : List Fld} {d e : Device} (h : TablesGood d) (hc : Confined ps Gs d e)
    (hps : Piece.tags ∉ ps ∧ Piece.tagBad ∉ ps ∧ Piece.errs ∉ ps ∧ Piece.sram ∉ ps) : TablesGood e := by
  obtain ⟨htags, hbad, herrs, hsram⟩ := hps
  rwa [TablesGood, Device.badLine_congr (hc.same _ htags) (hc.same _ hbad) (hc.same _ herrs) (hc.same _ hsram)]

/-! The operation -/

def adcPieces : List Piece := .engines :: cutPieces ++ tablePieces

def adcFlds (e : Nat) : List Fld := queueFlds e ++ [R.CAL_EVT.STEP_CUT] ++ eccFlds

/-- What an operation of engine `e` that reaches the ADC path finds: the operation is released, the steps are cut, and the tables are read. -/
structure AdcReached (e : Nat) (rest : List QOp) (d v : Device) : Prop where
  confined : Confined adcPieces (adcFlds e) d v
  released : Released e rest v
  onlyEngine : OnlyEngine e d v
  tile : TileKept Tile.sansCombs d v
  good : TablesGood d → Confined (.engines :: cutPieces) (queueFlds e ++ [R.CAL_EVT.STEP_CUT]) d v

def Tx.reachAdc (t : Tx d0) (e : Nat) (rest : List QOp) : Tx d0 := ((t.setQueue e rest).cutAdc (e / 2)).readTables (e / 2)

theorem queueDepth_key_notMem (e : Nat) : (R.ENG_QUEUE.DEPTH e).key ∉ (R.CAL_EVT.STEP_CUT :: eccFlds).map Fld.key := by
  rw [List.map_cons, List.mem_cons, not_or]
  refine ⟨?_, notMem_eccFlds (.inr ?_)⟩ <;> simp only [Fld.key, R.ENG_QUEUE.DEPTH, R.CAL_EVT.STEP_CUT, tileOff] <;> omega

theorem Tx.reachAdc_spec (t : Tx d0) {e : Nat} (hodd : e % 2 = 1) (rest : List QOp) : AdcReached e rest t.d (t.reachAdc e rest).d := by
  have hqueue := t.setQueue_spec e rest
  have hqc := t.setQueue_confined e rest
  have heng : 2 * (e / 2) + 1 = e := by omega
  rw [Tx.reachAdc]
  generalize t.setQueue e rest = a at hqueue hqc
  have hcut := a.cutAdc_stepsCut (e / 2)
  generalize a.cutAdc (e / 2) = b at hcut
  have hread := b.readTables_confined (e / 2)
  have hnotes := b.readTables_notes (e / 2)
  have hgood := b.readTables_good (e / 2)
  rw [heng] at hnotes
  generalize b.readTables (e / 2) = v at hread hnotes hgood
  have hb : Confined (.engines :: cutPieces) (queueFlds e ++ [R.CAL_EVT.STEP_CUT]) t.d b.d :=
    (hqc.mono (by decide) (by simp)).within hcut.confined (by decide) (by simp)
  have hbeng : b.d.eng = a.d.eng := Device.eng_congr (hcut.confined.same _ (by decide))
  refine ⟨?_, ⟨?_, ?_⟩, ?_, ?_, fun h => ?_⟩
  · exact (hb.mono (by decide) (by simp [adcFlds])).within hread (by decide) (by simp [adcFlds])
  · obtain ⟨_, _, hk⟩ := hnotes.engine e
    rw [hk, hbeng, hqueue.eng]
  · have hkey := queueDepth_key_notMem e
    rw [List.map_cons, List.mem_cons, not_or] at hkey
    rw [hread.f hkey.2, hcut.confined.f (by simpa using hkey.1), hqueue.depth]
  · intro k hk
    rw [hnotes.other hk, hbeng, hqueue.onlyEngine k hk]
  · exact (TileKept.of_tile _ (hqc.tile (by decide))).trans (hcut.tile.trans (.of_tile _ (Device.tile_congr (hread.same _ (by decide)))))
  · rwa [hgood (h.of_confined hb (by decide))]

end Sys2Proof.Machine
end

section
/-! SUPPORT. ACQ: a capture unit is armed or a stream started (R287, R288, R293, R306, R309). -/
namespace Sys2Proof.Machine

variable {d0 : Device}

/-! Arming -/

/-- The capture that an arm of a CAPTURE record sets up. -/
def Device.freshCap (d : Device) (tl : Nat) (r : List Byte) : Capture :=
  { crec := r, arm := d.now.toNat, shot := ((d.curShot tl).map Shot.id).getD 0, attempt := ((d.curShot tl).map Shot.attempt).getD 0 }

/-- The unit is armed with a capture, and shows it. -/
def Tx.armWith (t : Tx d0) (tl : Nat) (c : Capture) : Tx d0 :=
  ((t.modTile tl (fun x => { x with cap := some c })).showCap tl).w (R.ACQ_STAT.SEGDONE tl) 0

theorem Tx.arm_eq (t : Tx d0) {tl : Nat} (r : List Byte) (hlen : t.d.lengthRefused tl = false) (hcap : (t.d.tile tl).cap = none) :
    t.arm tl r = ((t.armWith tl (t.d.freshCap tl r)).capImmediate tl).capKnown tl := by
  simp only [Tx.arm, hlen, hcap, Option.isSome_none, Bool.false_eq_true, if_false]
  rfl

def armWithFlds (tl : Nat) : List Fld := [R.ACQ_STAT.STATE tl, R.ACQ_STAT.SEGDONE tl, R.ACQ_STAT.INDEX tl]

theorem Tx.armWith_confined (t : Tx d0) (tl : Nat) (c : Capture) : Confined [.tiles] (armWithFlds tl) t.d (t.armWith tl c).d :=
  (((t.modTile_confined tl _).mono (by decide) (by simp)).within (Tx.showCap_confined _ tl) (by simp) (by simp [armWithFlds])).w (by simp [armWithFlds]) _

/-- What an armed unit shows. -/
structure ArmedWith (tl : Nat) (c : Capture) (e : Device) : Prop where
  cap : (e.tile tl).cap = some c
  state : e.f (R.ACQ_STAT.STATE tl) = c.stage % 4
  segdone : e.f (R.ACQ_STAT.SEGDONE tl) = 0
  index : e.f (R.ACQ_STAT.INDEX tl) = rn c.crec 2 2 % 2 ^ (R.ACQ_STAT.INDEX tl).width

theorem capSegdone_key_ne (tl : Nat) :
    (R.ACQ_STAT.STATE tl).key ≠ (R.ACQ_STAT.SEGDONE tl).key ∧ (R.ACQ_STAT.INDEX tl).key ≠ (R.ACQ_STAT.SEGDONE tl).key := by
  simp only [Fld.key, R.ACQ_STAT.STATE, R.ACQ_STAT.INDEX, R.ACQ_STAT.SEGDONE]
  omega

theorem Tx.armWith_spec (t : Tx d0) (tl : Nat) (c : Capture) : ArmedWith tl c (t.armWith tl c).d := by
  let a := t.modTile tl (fun x => { x with cap := some c })
  obtain ⟨hstate, hindex⟩ := capSegdone_key_ne tl
  have hcap : (a.d.tile tl).cap = some c := by rw [t.modTile_tile_same]
  have htile : (a.showCap tl).d.tile = a.d.tile := (a.showCap_confined tl).tile (by decide)
  refine ⟨?_, ?_, Tx.w_f_same _ _ _, ?_⟩
  · exact (congrArg (fun g => (g tl).cap) htile).trans hcap
  · exact (Tx.w_f_other _ _ _ _ hstate).trans (a.showCap_state hcap)
  · refine (Tx.w_f_other _ _ _ _ hindex).trans ?_
    rw [a.showCap_some hcap]
    exact Tx.w_f_same _ _ _

/-! What an ACQ may change beside the release -/

def acqPieces : List Piece := [.pba, .evNow, .streams, .eccLog] ++ recPieces

/-- The fields that an ACQ for a stream slot may write. -/
def acqFlds (tl s : Nat) : List Fld :=
  [R.ACQ_ARM_ERR.CODE tl, R.ACQ_ARM_ERR.INDEX tl, R.ACQ_EVT.ARM_REFUSED tl, R.ACQ_EVT.PRE_SHORT tl, R.ACQ_STAT.STATE tl, R.ACQ_STAT.SEGDONE tl, R.ACQ_STAT.INDEX tl,
    R.ACQ_STRM_STAT.ACTIVE s, R.ACQ_STRM_STAT.TILE s, R.ACQ_STAT.STREAM tl, R.ACQ_STAT.SLOT tl] ++ logFlds

theorem acqLog_covered (tl s : Nat) (d : Device) : LogCovered acqPieces (acqFlds tl s) d := .inr ⟨by decide, List.subset_append_right _ _⟩

namespace Confined

section
variable {tl s : Nat} {d : Device} {t : Tx d0} (h : Confined acqPieces (acqFlds tl s) d t.d)
include h

theorem armRefuse (code idx : Nat) : Confined acqPieces (acqFlds tl s) d (t.armRefuse tl code idx).d :=
  (((h.w (by simp [acqFlds]) _).w (by simp [acqFlds]) _).ev (by simp [acqFlds]) (by decide)).hflag (by decide) (acqLog_covered _ _ _) _ _

theorem capTake (c : Capture) (u : Int) (at? : Option Int) : Confined acqPieces (acqFlds tl s) d (t.capTake tl c u at?).d :=
  h.within (t.capTake_spec tl c u at?).confined (by decide) (by simp [acqFlds])

theorem capImmediate : Confined acqPieces (acqFlds tl s) d (t.capImmediate tl).d := by
  unfold Tx.capImmediate
  split
  · exact h
  · exact .ite (h.capTake _ _ _) h

theorem capKnown : Confined acqPieces (acqFlds tl s) d (t.capKnown tl).d := by
  unfold Tx.capKnown
  split
  · exact h
  · dsimp only
    split
    · exact .ite (h.capTake _ _ _) h
    · exact h

theorem arm (r : List Byte) : Confined acqPieces (acqFlds tl s) d (t.arm tl r).d :=
  .ite (h.armRefuse _ _) (.ite (h.armRefuse _ _) ((h.within (t.armWith_confined tl (t.d.freshCap tl r)) (by decide)
    (by simp [armWithFlds, acqFlds])).capImmediate.capKnown))

theorem startStream (r : List Byte) (hs : rb r 4 % 4 = s) : Confined acqPieces (acqFlds tl s) d (t.startStream tl r).d := by
  subst hs
  refine .ite (h.armRefuse _ _) (.ite (h.armRefuse _ _) (Confined.hflag ?_ (by decide) (acqLog_covered _ _ _) _ _))
  exact ((((h.upd (u := .stream _ _) rfl (by simp [Upd.hits, acqPieces])).wb (by simp [acqFlds]) _).w (by simp [acqFlds]) _).wb (by simp [acqFlds]) _).w
    (by simp [acqFlds]) _

end

end Confined

end Sys2Proof.Machine
end

section
/-! SUPPORT. The command ACQ as a whole. -/
namespace Sys2Proof.Machine

variable {d0 : Device}

theorem notMem_logFlds {k : Nat} (h : k < 32 * 0x20000 ∨ 32 * 0x20040 ≤ k) : k ∉ logFlds.map Fld.key := fun hk =>
  notMem_eccFlds h (List.map_subset _ logFlds_subset hk)

/-- ACQ, DISC and SEND are engine B's alone (R147). -/
theorem Heads.odd {d : Device} {e code : Nat} {q : QOp} {rest : List QOp} (h : Heads d e code q rest) (hcode : code = 0x06 ∨ code = 0x07 ∨ code = 0x08) :
    e % 2 = 1 := by
  obtain ⟨-, -, hbad, hop⟩ := h
  unfold Device.opBad opBad at hbad
  rcases hcode with rfl | rfl | rfl <;> simp [hop] at hbad <;> omega

/-! A stream starts (R306) -/

/-- The stream that a STREAM record starts on its slot, behind the blocks that an earlier one left. -/
def Device.newStream (d : Device) (tl : Nat) (r : List Byte) : Stream :=
  let old := d.stream (rb r 4 % 4)
  { active := true, tile := tl, start := d.now.toNat, len := rn r 8 8, buffer := old.buffer, gap := old.gap }

/-- What the registers of a stream that starts on a slot are written with. -/
def streamShown (tl s : Nat) : List (Fld × Nat) :=
  [(R.ACQ_STRM_STAT.ACTIVE s, 1), (R.ACQ_STRM_STAT.TILE s, tl), (R.ACQ_STAT.STREAM tl, 1), (R.ACQ_STAT.SLOT tl, s)]

def Tx.streamOn (t : Tx d0) (tl s : Nat) (x : Stream) : Tx d0 := (t.upd (.stream s x)).each (streamShown tl s) (fun x t => t.w x.1 x.2)

theorem Tx.startStream_eq (t : Tx d0) (tl : Nat) (r : List Byte) (hidle : (t.d.stream (rb r 4 % 4)).active = false)
    (hon : t.d.b (R.ACQ_STRM_CTL.EN (rb r 4 % 4)) = true) :
    t.startStream tl r = (t.streamOn tl (rb r 4 % 4) (t.d.newStream tl r)).hflag tl 8 := by
  simp only [Tx.startStream, Tx.b, hidle, hon, Bool.not_true, Bool.false_eq_true, if_false]
  rfl

/-- What a stream that has started on a slot shows. -/
structure StreamStarted (tl s : Nat) (x : Stream) (e : Device) : Prop where
  stream : e.stream s = x
  shown : ∀ y ∈ streamShown tl s, e.f y.1 = y.2 % 2 ^ y.1.width

theorem streamShown_keys (tl s : Nat) : ((streamShown tl s).map Prod.fst).map Fld.key =
    [(0x5d8 + 0x20 * s) * 32 + 31, (0x5d8 + 0x20 * s) * 32 + 24, (0x105000 + 0x20000 * tl) * 32 + 29, (0x105000 + 0x20000 * tl) * 32 + 27] := rfl

theorem Tx.streamOn_spec (t : Tx d0) {tl s : Nat} (x : Stream) (hs : s < 4) : StreamStarted tl s x ((t.streamOn tl s x).hflag tl 8).d := by
  have hflag := (t.streamOn tl s x).hflag_confined tl 8
  have hset : Confined [] ((streamShown tl s).map Prod.fst) (t.upd (.stream s x)).d (t.streamOn tl s x).d :=
    .each _ _ fun y hy u => (u.w_confined y.1 y.2).mono (by simp) (by simpa using ⟨_, hy⟩)
  have hkeys : (((streamShown tl s).map Prod.fst).map Fld.key).Nodup := by
    simp only [streamShown_keys, List.nodup_cons, List.mem_cons, List.not_mem_nil, List.nodup_nil, or_false, not_false_eq_true, and_true]
    omega
  refine ⟨?_, fun y hy => ?_⟩
  · rw [Device.stream, hflag.same .streams (by decide), hset.same .streams (by simp)]
    exact bget_bset_same (fun _ => ({} : Stream)) t.d.streams s x
  · have hkey := List.mem_map_of_mem (f := Fld.key) (List.mem_map_of_mem (f := Prod.fst) hy)
    simp only [streamShown_keys, List.mem_cons, List.not_mem_nil, or_false] at hkey
    rw [hflag.f (notMem_logFlds (by omega))]
    exact (t.upd (.stream s x)).each_w_f _ hkeys y hy

/-! The command -/

/-- The record that an ACQ names arms the capture unit or starts a stream. -/
def Tx.acqFor (t : Tx d0) (tl : Nat) (r : List Byte) : Tx d0 := if rb r 0 = 1 then t.arm tl r else t.startStream tl r

theorem adcFlds_notMem (e : Nat) {k : Nat} (h : k < 32 * 0x80c) : k ∉ (adcFlds e).map Fld.key := by
  have hecc : k ∉ eccFlds.map Fld.key := notMem_eccFlds (by omega)
  simp only [adcFlds, queueFlds, List.map_append, List.mem_append, not_or, List.map_cons, List.map_nil, List.mem_cons, List.not_mem_nil, or_false, Fld.key,
    R.ENG_QUEUE.DEPTH, R.ENG_QUEUE.MAX, R.CAL_EVT.STEP_CUT, tileOff]
  exact ⟨by omega, hecc⟩

theorem Device.acqRec_congr {d e : Device} (h : Same d e .img) : e.acqRec = d.acqRec := by
  funext p
  rw [Device.acqRec, Device.acqRec, show e.img = d.img from h]

section
variable {e : Nat} {rest : List QOp} {d v : Device} (h : AdcReached e rest d v)
include h

theorem AdcReached.now : v.now = d.now := h.confined.now (by decide) (adcFlds_notMem e (by decide))

theorem AdcReached.acqNamed (tl idx : Nat) : v.acqNamed tl idx = d.acqNamed tl idx := by
  rw [Device.acqNamed, Device.acqNamed, Device.acqRec_congr (h.confined.same .img (by decide))]

theorem AdcReached.weightRec (tl wset dm : Nat) : v.weightRec tl wset dm = d.weightRec tl wset dm := by
  rw [Device.weightRec, Device.weightRec, Device.acqRec_congr (h.confined.same .img (by decide))]

theorem AdcReached.run : v.run = d.run := h.confined.same .run (by decide)

theorem AdcReached.lengthRefused (tl : Nat) : v.lengthRefused tl = d.lengthRefused tl := by
  rw [Device.lengthRefused, Device.lengthRefused, h.run, Device.acqRec_congr (h.confined.same .img (by decide))]

theorem AdcReached.cap (tl : Nat) : (v.tile tl).cap = (d.tile tl).cap := (congrArg Tile.cap (h.tile tl) :)

theorem AdcReached.knownFrom (c tick : Nat) : v.knownFrom c tick = d.knownFrom c tick := by rw [Device.knownFrom, Device.knownFrom, h.run]

theorem AdcReached.stream (s : Nat) : v.stream s = d.stream s := by rw [Device.stream, Device.stream, h.confined.same .streams (by decide)]

theorem AdcReached.ringOn {s : Nat} (hs : s < 4) : v.b (R.ACQ_STRM_CTL.EN s) = d.b (R.ACQ_STRM_CTL.EN s) :=
  h.confined.fields.b (adcFlds_notMem e (by simp only [Fld.key, R.ACQ_STRM_CTL.EN]; omega))

end

theorem exec_acq (s : State) (e : Fin 64) {q : QOp} {rest : List QOp} {r : List Byte} (h : Heads s.dev e 0x06 q rest)
    (hr : s.dev.acqNamed (e.val / 2) (opOperand q.bits % 2 ^ 16) = some r) :
    exec (.acq e) s = .next { s with dev := (((Tx.start s.dev).reachAdc e.val rest).acqFor (e.val / 2) r).d } := by
  have hv := (Tx.start s.dev).reachAdc_spec (h.odd (.inl rfl)) rest
  have hnamed : ((Tx.start s.dev).reachAdc e.val rest).d.acqNamed (e.val / 2) (opOperand q.bits % 2 ^ 16) = some r := (hv.acqNamed _ _).trans hr
  change Host.Outcome.next { s with dev := ((Tx.start s.dev).issue e.val 0x06 fun q t => t.acqOn e q).d } = _
  rw [Tx.issue_heads h, Tx.acqOn]
  change Host.Outcome.next { s with dev := (match ((Tx.start s.dev).reachAdc e.val rest).d.acqNamed (e.val / 2) (opOperand q.bits % 2 ^ 16) with
    | none => _
    | some r => _ : Tx s.dev).d } = _
  rw [hnamed]
  rfl

/-- What an ACQ for a record makes of the device that its operation has reached. -/
structure AcqDone (tl : Nat) (r : List Byte) (v e : Device) : Prop where
  confined : Confined acqPieces (acqFlds tl (rb r 4 % 4)) v e
  taken : rb r 0 = 1 → v.lengthRefused tl = false → (v.tile tl).cap = none → rb r 4 ≠ 8 → v.knownFrom (rb r 4) v.now.toNat ≠ [] →
    ∃ k ∈ v.knownFrom (rb r 4) v.now.toNat, (∀ j ∈ v.knownFrom (rb r 4) v.now.toNat, k.2.1 ≤ j.2.1) ∧ ∃ a, CapTaken tl (v.freshCap tl r) k.2.2.1 a e
  armed : rb r 0 = 1 → v.lengthRefused tl = false → (v.tile tl).cap = none → rb r 4 ≠ 8 → v.knownFrom (rb r 4) v.now.toNat = [] →
    ArmedWith tl (v.freshCap tl r) e ∧ Confined [.tiles] (armWithFlds tl) v e
  started : rb r 0 ≠ 1 → (v.stream (rb r 4 % 4)).active = false → v.b (R.ACQ_STRM_CTL.EN (rb r 4 % 4)) = true →
    StreamStarted tl (rb r 4 % 4) (v.newStream tl r) e

theorem Tx.acqFor_spec (t : Tx d0) (tl : Nat) (r : List Byte) : AcqDone tl r t.d (t.acqFor tl r).d := by
  have hrefl : Confined acqPieces (acqFlds tl (rb r 4 % 4)) t.d t.d := (Confined.refl _).mono (by simp) (by simp)
  have harm : ∀ (hr : rb r 0 = 1) (hlen : t.d.lengthRefused tl = false) (hcap : (t.d.tile tl).cap = none) (hsrc : rb r 4 ≠ 8),
      t.acqFor tl r = (t.armWith tl (t.d.freshCap tl r)).capKnown tl := by
    intro hr hlen hcap hsrc
    rw [Tx.acqFor, if_pos hr, t.arm_eq r hlen hcap, Tx.capImmediate_of_ne _ (t.armWith_spec tl _).cap hsrc]
  have hknown : (t.armWith tl (t.d.freshCap tl r)).d.knownFrom = t.d.knownFrom := by
    funext c tick
    rw [Device.knownFrom, (t.armWith_confined tl _).same .run (by decide), Device.knownFrom]
  refine ⟨.ite (hrefl.arm r) (hrefl.startStream r rfl), fun hr hlen hcap hsrc hevs => ?_, fun hr hlen hcap hsrc hevs => ?_, fun hr hidle hon => ?_⟩
  · obtain ⟨k, hk, hmin, htake⟩ := (t.armWith tl (t.d.freshCap tl r)).capKnown_first (t.armWith_spec tl _).cap rfl (by rw [hknown]; exact hevs)
    rw [hknown] at hk hmin
    refine ⟨k, hk, hmin, (t.armWith tl (t.d.freshCap tl r)).d, ?_⟩
    rw [harm hr hlen hcap hsrc, htake]
    exact Tx.capTake_spec _ _ _ _ _
  · rw [harm hr hlen hcap hsrc, Tx.capKnown_nil _ (t.armWith_spec tl _).cap (by rw [hknown]; exact hevs)]
    exact ⟨t.armWith_spec tl _, t.armWith_confined tl _⟩
  · rw [Tx.acqFor, if_neg hr, t.startStream_eq tl r hidle hon]
    exact t.streamOn_spec _ (Nat.mod_lt _ (by decide))

end Sys2Proof.Machine
end

section
/-! SUPPORT. DISC opens windows, and SEND releases codes (R148, R253). -/
namespace Sys2Proof.Machine

variable {d0 : Device}

/-! DISC -/

/-- What each element's operation makes of its own part, the others leave, where the elements differ. -/
theorem Tx.each_distinct {α : Type} {P Q : α → Device → Prop} {g : α → Tx d0 → Tx d0} (t : Tx d0) {l : List α} (hl : l.Nodup)
    (hset : ∀ a ∈ l, ∀ u : Tx d0, P a u.d → Q a (g a u).d) (hP : ∀ a ∈ l, ∀ b ∈ l, a ≠ b → ∀ u : Tx d0, P a u.d → P a (g b u).d)
    (hQ : ∀ a ∈ l, ∀ b ∈ l, a ≠ b → ∀ u : Tx d0, Q a u.d → Q a (g b u).d) : ∀ a ∈ l, P a t.d → Q a (t.each l g).d := by
  induction l generalizing t with
  | nil => simp
  | cons b r ih =>
    obtain ⟨hb, hr⟩ := List.nodup_cons.mp hl
    have hne : ∀ a ∈ r, a ≠ b := fun a ha hab => hb (hab ▸ ha)
    intro a ha hPa
    rw [Tx.each_cons]
    rcases List.mem_cons.mp ha with rfl | ha
    · exact Tx.each_keeps (fun u => Q a u.d) _ r g (hset a (by simp) t hPa) fun c hc u hu => hQ a (by simp) c (by simp [hc]) (hne c hc).symm u hu
    · exact ih (g b t) hr (fun a ha => hset a (by simp [ha])) (fun a ha c hc => hP a (by simp [ha]) c (by simp [hc]))
        (fun a ha c hc => hQ a (by simp [ha]) c (by simp [hc])) a ha (hP a (by simp [ha]) b (by simp) (hne a ha) t hPa)

/-- What the opening of a window may change, and the fields it writes: the occupancy of two frames among them. -/
def discPieces : List Piece := [.tiles, .wins, .pba, .evNow]

def openFlds (n f g : Nat) : List Fld :=
  [R.RD_EVT.OVERLAP (n / 16), R.NCO_STAT.OCC f, R.NCO_STAT.OCC g, R.RD_DSTAT.OPEN n, R.RD_DSTAT.FRAME n, R.RD_DSTAT.WSET n]

/-- The opening of a window on demodulator `n` concerns no other. -/
structure OpenOnly (n : Nat) (d e : Device) : Prop where
  confined : ∃ f g, Confined discPieces (openFlds n f g) d e
  other : ∀ k, k ≠ n → e.win k = d.win k

theorem Tx.upd_win (t : Tx d0) (n k : Nat) (x : Option Win) : (t.upd (.win n x)).d.win k = if k = n then x else t.d.win k :=
  bget_bset (fun _ => (none : Option Win)) t.d.wins n k x

theorem Device.win_congr {d e : Device} (h : Same d e .wins) : e.win = d.win := by
  funext k
  rw [Device.win, Device.win, show e.wins = d.wins from h]

/-- The window that a DISC opens. -/
def Device.newWin (d : Device) (n wset len : Nat) (r : List Byte) : Win :=
  { start := d.now.toNat, len := len, wrec := r, wset := wset, frame := rb r 5, shot := ((d.curShot (n / 16)).map Shot.id).getD 0
    attempt := ((d.curShot (n / 16)).map Shot.attempt).getD 0 }

/-- The window is open: its frame is occupied, and its shot owes a result unless its record is not kept. -/
def Tx.putWin (t : Tx d0) (n : Nat) (w : Win) : Tx d0 :=
  let f := 32 * (n / 16) + w.frame
  let t := if (rb w.wrec 6).testBit 2 then t else t.modShot (n / 16) w.shot w.attempt (fun s => { s with owed := s.owed + 1 })
  let t := (t.upd (.win n (some w))).w (R.NCO_STAT.OCC f) (t.f (R.NCO_STAT.OCC f) ||| 2 ^ (n % 16))
  ((t.wb (R.RD_DSTAT.OPEN n) true).w (R.RD_DSTAT.FRAME n) (w.frame - 16)).w (R.RD_DSTAT.WSET n) w.wset

/-- An open window makes room for the next (R253). -/
def Tx.endWin (t : Tx d0) (n : Nat) (w : Win) (now : Nat) : Tx d0 :=
  let t := t.ev (R.RD_EVT.OVERLAP (n / 16))
  if w.start = now then
    let f := 32 * (n / 16) + w.frame
    let t := (t.upd (.win n none)).w (R.NCO_STAT.OCC f) (t.f (R.NCO_STAT.OCC f) &&& (0xFFFFF - 2 ^ (n % 16)))
    if (rb w.wrec 6).testBit 2 then t else t.modShot (n / 16) w.shot w.attempt (fun s => { s with owed := s.owed - 1 })
  else t.closeWin n now true 4

theorem Tx.openWin_eq (t : Tx d0) (n wset len : Nat) :
    t.openWin n wset len = match t.d.weightRec (n / 16) wset (n % 16) with
      | none => t
      | some r => (match t.d.win n with
        | none => t
        | some w => t.endWin n w t.d.now.toNat).putWin n (t.d.newWin n wset len r) := rfl

/-- The opening of window `w` on demodulator `n`, read off the registers and the windows. -/
structure WinOpened (n : Nat) (w : Win) (e : Device) : Prop where
  win : e.win n = some w
  opened : e.f (R.RD_DSTAT.OPEN n) = 1
  frame : e.f (R.RD_DSTAT.FRAME n) = (w.frame - 16) % 2 ^ (R.RD_DSTAT.FRAME n).width

theorem winShown_key_ne (n : Nat) : (R.RD_DSTAT.OPEN n).key ≠ (R.RD_DSTAT.FRAME n).key ∧ (R.RD_DSTAT.OPEN n).key ≠ (R.RD_DSTAT.WSET n).key ∧
    (R.RD_DSTAT.FRAME n).key ≠ (R.RD_DSTAT.WSET n).key := by
  simp only [Fld.key, R.RD_DSTAT.OPEN, R.RD_DSTAT.FRAME, R.RD_DSTAT.WSET]
  omega

section
variable (t : Tx d0) (n : Nat) (w : Win)

theorem Tx.putWin_opened : WinOpened n w (t.putWin n w).d := by
  obtain ⟨hframe, hwset, hframe'⟩ := winShown_key_ne n
  refine ⟨(Tx.upd_win _ n n (some w)).trans (if_pos rfl), ?_, ?_⟩
  · exact (Tx.w_f_other _ _ _ _ hwset).trans ((Tx.w_f_other _ _ _ _ hframe).trans (Tx.w_f_same _ _ _))
  · exact (Tx.w_f_other _ _ _ _ hframe').trans (Tx.w_f_same _ _ _)

theorem Tx.putWin_confined : Confined discPieces (openFlds n (32 * (n / 16) + w.frame) (32 * (n / 16) + w.frame)) t.d (t.putWin n w).d := by
  have h : Confined discPieces (openFlds n (32 * (n / 16) + w.frame) (32 * (n / 16) + w.frame)) t.d t.d := (Confined.refl _).mono (by simp) (by simp)
  refine Confined.w (Confined.w (Confined.wb (Confined.w (Confined.upd (.ite h (h.within (t.modShot_confined _ _ _ _) (by decide) (by simp))) rfl ?_) ?_ _)
    ?_ _) ?_ _) ?_ _ <;> simp [openFlds, Upd.hits, discPieces]

theorem Tx.putWin_win {k : Nat} (hk : k ≠ n) : (t.putWin n w).d.win k = t.d.win k := by
  have howed : Confined [.tiles] [] t.d (if (rb w.wrec 6).testBit 2 then t else t.modShot (n / 16) w.shot w.attempt (fun s => { s with owed := s.owed + 1 })).d :=
    .ite ((Confined.refl _).mono (by simp) (by simp)) (t.modShot_confined _ _ _ _)
  exact ((Tx.upd_win _ n k (some w)).trans (if_neg hk)).trans (congrFun (Device.win_congr (howed.same _ (by decide))) k)

end

/-- A window leaves demodulator `n`. -/
structure WinGone (n : Nat) (d e : Device) : Prop where
  confined : ∃ f, Confined discPieces (openFlds n f f) d e
  other : ∀ k, k ≠ n → e.win k = d.win k

theorem Tx.dropWin_gone (t : Tx d0) (n f v : Nat) : Confined discPieces (openFlds n f f) t.d ((t.upd (.win n none)).w (R.NCO_STAT.OCC f) v).d ∧
    ∀ k, k ≠ n → ((t.upd (.win n none)).w (R.NCO_STAT.OCC f) v).d.win k = t.d.win k := by
  refine ⟨Confined.w ((t.upd_confined _ (ps := [.wins])).mono (by decide) (by simp)) (by simp [openFlds]) _, fun k hk => ?_⟩
  exact (t.upd_win n k none).trans (if_neg hk)

theorem Tx.closeWin_gone (t : Tx d0) (n E : Nat) (cut : Bool) (flags : Nat) : WinGone n t.d (t.closeWin n E cut flags).d := by
  unfold Tx.closeWin
  split
  · exact ⟨⟨0, (Confined.refl _).mono (by simp) (by simp)⟩, fun _ _ => rfl⟩
  · next w _ =>
    refine ⟨⟨32 * (n / 16) + w.frame, ?_⟩, fun k hk => (t.upd_win n k none).trans (if_neg hk)⟩
    have hopen : Confined discPieces (openFlds n (32 * (n / 16) + w.frame) (32 * (n / 16) + w.frame)) t.d ((t.upd (.win n none)).wb (R.RD_DSTAT.OPEN n) false).d :=
      Confined.wb ((t.upd_confined _ (ps := [.wins])).mono (by decide) (by simp)) (by simp [openFlds]) _
    exact (hopen.w (by simp [openFlds]) _).within (Tx.modTile_confined _ _ _) (by decide) (by simp)

theorem Tx.endWin_gone (t : Tx d0) (n : Nat) (w : Win) (now : Nat) : WinGone n t.d (t.endWin n w now).d := by
  have hev : ∀ f, Confined discPieces (openFlds n f f) t.d (t.ev (R.RD_EVT.OVERLAP (n / 16))).d := fun f => (t.ev_confined _).mono (by decide) (by simp [openFlds])
  have hwin := Device.win_congr ((t.ev_confined (R.RD_EVT.OVERLAP (n / 16))).same .wins (by decide))
  unfold Tx.endWin
  generalize t.ev (R.RD_EVT.OVERLAP (n / 16)) = u at hev hwin
  dsimp only
  split
  · obtain ⟨hdrop, hother⟩ := u.dropWin_gone n (32 * (n / 16) + w.frame) (u.f (R.NCO_STAT.OCC (32 * (n / 16) + w.frame)) &&& (0xFFFFF - 2 ^ (n % 16)))
    have hdropped := (hev _).trans hdrop
    generalize (u.upd (.win n none)).w (R.NCO_STAT.OCC (32 * (n / 16) + w.frame)) _ = x at hdropped hother
    have howed := x.modShot_confined (n / 16) w.shot w.attempt (fun s => { s with owed := s.owed - 1 })
    refine ⟨⟨_, .ite hdropped (hdropped.within howed (by decide) (by simp))⟩, fun k hk => ?_⟩
    have hx : x.d.win k = t.d.win k := (hother k hk).trans (congrFun hwin k)
    split
    · exact hx
    · exact (congrFun (Device.win_congr (howed.same _ (by decide))) k).trans hx
  · obtain ⟨⟨f, hf⟩, hother⟩ := u.closeWin_gone n now true 4
    exact ⟨⟨f, (hev f).trans hf⟩, fun k hk => (hother k hk).trans (congrFun hwin k)⟩

theorem Tx.openWin_only (t : Tx d0) (n wset len : Nat) : OpenOnly n t.d (t.openWin n wset len).d := by
  rw [t.openWin_eq]
  split
  · exact ⟨⟨0, 0, (Confined.refl _).mono (by simp) (by simp)⟩, fun _ _ => rfl⟩
  · next r _ =>
    have hgone : WinGone n t.d (match t.d.win n with
        | none => t
        | some w => t.endWin n w t.d.now.toNat).d := by
      split
      · exact ⟨⟨0, (Confined.refl _).mono (by simp) (by simp)⟩, fun _ _ => rfl⟩
      · exact t.endWin_gone _ _ _
    obtain ⟨⟨f, hf⟩, hother⟩ := hgone
    refine ⟨⟨f, 32 * (n / 16) + rb r 5, (hf.mono (Gs := openFlds n f (32 * (n / 16) + rb r 5)) (List.Subset.refl _) ?_).within
      (Tx.putWin_confined _ n (t.d.newWin n wset len r)) (List.Subset.refl _) ?_⟩, fun k hk => ?_⟩
    · simp [openFlds]
    · simp [openFlds, Device.newWin]
    · exact (Tx.putWin_win _ n _ hk).trans (hother k hk)

theorem Tx.openWin_opened (t : Tx d0) {n wset : Nat} (len : Nat) {r : List Byte} (hr : t.d.weightRec (n / 16) wset (n % 16) = some r) (hw : t.d.win n = none) :
    WinOpened n (t.d.newWin n wset len r) (t.openWin n wset len).d := by
  rw [t.openWin_eq, hr, hw]
  exact t.putWin_opened _ _

/-! The windows of one DISC -/

/-- What a DISC leaves of the device for a window that it opens later. -/
structure WinFree (v : Device) (n : Nat) (d : Device) : Prop where
  win : d.win n = none
  now : d.now = v.now
  img : d.img = v.img

theorem openFlds_notMem {n k f g : Nat} (hk : k ≠ n) : (R.RD_DSTAT.OPEN k).key ∉ (openFlds n f g).map Fld.key ∧ (R.RD_DSTAT.FRAME k).key ∉ (openFlds n f g).map Fld.key := by
  simp only [openFlds, List.map_cons, List.map_nil, List.mem_cons, List.not_mem_nil, or_false, Fld.key, R.RD_EVT.OVERLAP, R.NCO_STAT.OCC, R.RD_DSTAT.OPEN,
    R.RD_DSTAT.FRAME, R.RD_DSTAT.WSET, tileOff]
  omega

theorem awake_notOpenFlds (n f g : Nat) : R.TB_STAT.AWAKE.key ∉ (openFlds n f g).map Fld.key := by
  simp only [openFlds, List.map_cons, List.map_nil, List.mem_cons, List.not_mem_nil, or_false, Fld.key, R.RD_EVT.OVERLAP, R.NCO_STAT.OCC, R.RD_DSTAT.OPEN,
    R.RD_DSTAT.FRAME, R.RD_DSTAT.WSET, R.TB_STAT.AWAKE, tileOff]
  omega

theorem WinFree.open_other {v : Device} {n k : Nat} {d e : Device} (h : WinFree v k d) (ho : OpenOnly n d e) (hk : k ≠ n) : WinFree v k e := by
  obtain ⟨⟨f, g, hc⟩, hother⟩ := ho
  exact ⟨(hother k hk).trans h.win, (hc.now (by decide) (awake_notOpenFlds n f g)).trans h.now, (show e.img = d.img from hc.same .img (by decide)).trans h.img⟩

/-- The part of a DISC for one demodulator of the tile. -/
def Tx.discOne (tl o i : Nat) (t : Tx d0) : Tx d0 := if o.testBit i then t.openWin (16 * tl + i) (bitsOf o 55 40) (bitsOf o 39 16) else t

theorem OpenOnly.refl (n : Nat) (d : Device) : OpenOnly n d d := ⟨⟨0, 0, (Confined.refl _).mono (by simp) (by simp)⟩, fun _ _ => rfl⟩

theorem Tx.discOne_only (t : Tx d0) (tl o i : Nat) : OpenOnly (16 * tl + i) t.d (t.discOne tl o i).d := by
  unfold Tx.discOne
  split
  · exact t.openWin_only _ _ _
  · exact .refl _ _

end Sys2Proof.Machine
end

section
/-! SUPPORT. The commands DISC and SEND as a whole, and the statement about ACQ, DISC and SEND. -/
namespace Sys2Proof.Machine

variable {d0 : Device}

/-! DISC -/

/-- Demodulator `n` has a window open from `now` as a DISC with a weight set's record asks for. -/
structure DiscOpened (n now len : Nat) (r : List Byte) (e : Device) : Prop where
  opened : e.f (R.RD_DSTAT.OPEN n) = 1
  frame : e.f (R.RD_DSTAT.FRAME n) = (rb r 5 - 16) % 2 ^ (R.RD_DSTAT.FRAME n).width
  win : (e.win n).map (fun w => (w.start, w.len, w.wrec, w.frame, w.cut)) = some (now, len, r, rb r 5, false)

theorem WinOpened.disc {n wset len : Nat} {r : List Byte} {d e : Device} (h : WinOpened n (d.newWin n wset len r) e) : DiscOpened n d.now.toNat len r e := by
  obtain ⟨hwin, hopened, hframe⟩ := h
  exact ⟨hopened, hframe, by rw [hwin]; rfl⟩

theorem DiscOpened.open_other {n k now len : Nat} {r : List Byte} {d e : Device} (h : DiscOpened k now len r d) (ho : OpenOnly n d e) (hk : k ≠ n) :
    DiscOpened k now len r e := by
  obtain ⟨⟨f, g, hc⟩, hother⟩ := ho
  obtain ⟨hopen, hframe⟩ := openFlds_notMem (f := f) (g := g) hk
  exact ⟨(hc.f hopen).trans h.opened, (hc.f hframe).trans h.frame, by rw [hother k hk, h.win]⟩

/-- A DISC opens a window on each demodulator that it names, that has a weight set, and that has none open. -/
theorem Tx.discEach_opened (t : Tx d0) (tl o : Nat) {i : Nat} (hi : i < 16) {r : List Byte} (ho : o.testBit i = true)
    (hr : t.d.weightRec tl (bitsOf o 55 40) i = some r) (hw : t.d.win (16 * tl + i) = none) :
    DiscOpened (16 * tl + i) t.d.now.toNat (bitsOf o 39 16) r (t.each (List.range 16) (Tx.discOne tl o)).d := by
  have hne : ∀ {a b : Nat}, a ≠ b → 16 * tl + a ≠ 16 * tl + b := by omega
  refine Tx.each_distinct (P := fun a d => WinFree t.d (16 * tl + a) d) (Q := fun a d => a = i → DiscOpened (16 * tl + a) t.d.now.toNat (bitsOf o 39 16) r d)
    t List.nodup_range ?_ (fun a _ b _ hab u hu => hu.open_other (u.discOne_only tl o b) (hne hab))
    (fun a _ b _ hab u hu ha => (hu ha).open_other (u.discOne_only tl o b) (hne hab)) i (List.mem_range.mpr hi) ⟨hw, rfl, rfl⟩ rfl
  intro a ha u hu hai
  subst hai
  obtain ⟨hwin, hnow, himg⟩ := hu
  have hdiv : (16 * tl + a) / 16 = tl ∧ (16 * tl + a) % 16 = a := by omega
  have hrec : u.d.weightRec ((16 * tl + a) / 16) (bitsOf o 55 40) ((16 * tl + a) % 16) = some r := by
    rw [hdiv.1, hdiv.2, Device.weightRec, Device.acqRec_congr himg]
    exact hr
  rw [Tx.discOne, if_pos ho, ← hnow]
  exact (u.openWin_opened _ hrec hwin).disc

theorem exec_disc (s : State) (e : Fin 64) {q : QOp} {rest : List QOp} (h : Heads s.dev e 0x07 q rest) :
    exec (.disc e) s = .next { s with dev := (((Tx.start s.dev).reachAdc e.val rest).each (List.range 16) (Tx.discOne (e.val / 2) (opOperand q.bits))).d } := by
  change Host.Outcome.next { s with dev := ((Tx.start s.dev).issue e.val 0x07 fun q t => t.discOn e q).d } = _
  rw [Tx.issue_heads h]
  rfl

theorem Tx.discEach_eng (t : Tx d0) (tl o : Nat) : (t.each (List.range 16) (Tx.discOne tl o)).d.eng = t.d.eng := by
  refine Tx.each_keeps (fun u => u.d.eng = t.d.eng) _ _ _ rfl fun i _ u hu => ?_
  obtain ⟨⟨f, g, hc⟩, -⟩ := u.discOne_only tl o i
  exact (Device.eng_congr (hc.same .engines (by decide))).trans hu

theorem AdcReached.win {e : Nat} {rest : List QOp} {d v : Device} (h : AdcReached e rest d v) (n : Nat) : v.win n = d.win n :=
  congrFun (Device.win_congr (h.confined.same .wins (by decide))) n

/-! SEND -/

/-- The releases of a tile's codes once a SEND with a mask has come. -/
def sendsAfter (mask now : Nat) (l : List (Nat × Nat)) : List (Nat × Nat) :=
  l.filter (fun c => !mask.testBit c.1) ++ ((List.range 16).filter (fun i => mask.testBit i)).flatMap (fun i =>
    (l.filter (fun c => c.1 == i && c.2 != now)).take 1 ++ [(i, now)])

theorem mem_sendsAfter {mask i : Nat} (now : Nat) (l : List (Nat × Nat)) (hi : i < 16) (hm : mask.testBit i = true) : (i, now) ∈ sendsAfter mask now l := by
  refine List.mem_append_right _ (List.mem_flatMap.mpr ⟨i, ?_, by simp⟩)
  simp [hi, hm]

/-- The releases of the demodulators that the mask leaves out stay. -/
theorem filter_sendsAfter (mask now : Nat) (l : List (Nat × Nat)) :
    (sendsAfter mask now l).filter (fun c => !mask.testBit c.1) = l.filter (fun c => !mask.testBit c.1) := by
  have hnew : (((List.range 16).filter (fun i => mask.testBit i)).flatMap (fun i =>
      (l.filter (fun c => c.1 == i && c.2 != now)).take 1 ++ [(i, now)])).filter (fun c => !mask.testBit c.1) = [] := by
    rw [List.filter_eq_nil_iff]
    intro c hc
    obtain ⟨i, hi, hc⟩ := List.mem_flatMap.mp hc
    obtain ⟨-, hm⟩ := List.mem_filter.mp hi
    have hci : c.1 = i := by
      rcases List.mem_append.mp hc with hc | hc
      · have := List.of_mem_filter (List.mem_of_mem_take hc)
        simp_all
      · simp_all
    simp [hci, hm]
  rw [sendsAfter, List.filter_append, hnew, List.append_nil, List.filter_filter]
  simp

theorem exec_send (s : State) (e : Fin 64) {q : QOp} {rest : List QOp} (h : Heads s.dev e 0x08 q rest) :
    exec (.send e) s = .next { s with dev := (((Tx.start s.dev).setQueue e.val rest).sendOn e.val q).d } := by
  change Host.Outcome.next { s with dev := ((Tx.start s.dev).issue e.val 0x08 fun q t => t.sendOn e q).d } = _
  rw [Tx.issue_heads h]

/-! The statement -/

theorem exec_acq_spec (s : State) (e : Fin 64) (q : QOp) (rest : List QOp) (r : List Byte) (h : Heads s.dev e 0x06 q rest)
    (hr : s.dev.acqNamed (e.val / 2) (opOperand q.bits % 2 ^ 16) = some r) :
    ∃ v t, AdcReached e.val rest (Tx.start s.dev).d v ∧ AcqDone (e.val / 2) r v t.dev ∧ exec (.acq e) s = .next t :=
  ⟨_, _, (Tx.start s.dev).reachAdc_spec (h.odd (.inl rfl)) rest, Tx.acqFor_spec _ _ _, exec_acq s e h hr⟩

section
variable {tl e : Nat} {rest : List QOp} {r : List Byte} {d v x : Device} (hv : AdcReached e rest d v) (hx : AcqDone tl r v x)
include hv hx

theorem AcqDone.queue_kept : Released e rest x ∧ OnlyEngine e d x := by
  have heng : x.eng = v.eng := Device.eng_congr (hx.confined.same .engines (by decide))
  have hdepth : (R.ENG_QUEUE.DEPTH e).key ∉ (acqFlds tl (rb r 4 % 4)).map Fld.key := by
    have hlog : (R.ENG_QUEUE.DEPTH e).key ∉ logFlds.map Fld.key := notMem_logFlds (by simp only [Fld.key, R.ENG_QUEUE.DEPTH, tileOff]; omega)
    rw [acqFlds, List.map_append, List.mem_append, not_or]
    refine ⟨?_, hlog⟩
    simp only [List.map_cons, List.map_nil, List.mem_cons, List.not_mem_nil, or_false, Fld.key, R.ENG_QUEUE.DEPTH, tileOff, R.ACQ_ARM_ERR.CODE, R.ACQ_ARM_ERR.INDEX,
      R.ACQ_EVT.ARM_REFUSED, R.ACQ_EVT.PRE_SHORT, R.ACQ_STAT.STATE, R.ACQ_STAT.SEGDONE, R.ACQ_STAT.INDEX, R.ACQ_STRM_STAT.ACTIVE, R.ACQ_STRM_STAT.TILE,
      R.ACQ_STAT.STREAM, R.ACQ_STAT.SLOT]
    omega
  obtain ⟨hqueue, hd⟩ := hv.released
  exact ⟨⟨by rw [heng, hqueue], (hx.confined.f hdepth).trans hd⟩, fun k hk => by rw [heng, hv.onlyEngine k hk]⟩

end

theorem StreamStarted.fields {tl n : Nat} {x : Stream} {d : Device} (h : StreamStarted tl n x d) (htl : tl < 32) (hn : n < 4) :
    d.stream n = x ∧ d.f (R.ACQ_STRM_STAT.ACTIVE n) = 1 ∧ d.f (R.ACQ_STRM_STAT.TILE n) = tl ∧ d.f (R.ACQ_STAT.STREAM tl) = 1 ∧ d.f (R.ACQ_STAT.SLOT tl) = n := by
  obtain ⟨hstream, hshown⟩ := h
  simp only [streamShown, List.mem_cons, List.not_mem_nil, or_false, forall_eq_or_imp, forall_eq] at hshown
  obtain ⟨hactive, htile, hbusy, hslot⟩ := hshown
  exact ⟨hstream, hactive, htile.trans (Nat.mod_eq_of_lt htl), hbusy, hslot.trans (Nat.mod_eq_of_lt hn)⟩

/-- Settles O25: each clause is read off what the operation finds where it is released (`AdcReached`) and what it does from there. -/
theorem acqDiscSend : Obligations.AcqDiscSend := by
  unfold Obligations.AcqDiscSend
  refine ⟨fun s e q rest r h => ?_, fun s e q rest h => ?_, fun s e q rest h => ?_⟩
  · intro d tl hr evs arms
    obtain ⟨v, t, hv, hx, hexec⟩ := exec_acq_spec s e q rest r h hr
    obtain ⟨hreleased, honly⟩ := hx.queue_kept hv
    have harms : arms → rb r 0 = 1 ∧ v.lengthRefused tl = false ∧ (v.tile tl).cap = none ∧ rb r 4 ≠ 8 := by
      rintro ⟨hr, hlen, hcap, hsrc⟩
      exact ⟨hr, (hv.lengthRefused tl).trans hlen, (hv.cap tl).trans hcap, hsrc⟩
    have hnow : v.now.toNat = d.now.toNat := congrArg BitVec.toNat hv.now
    have hevs : v.knownFrom (rb r 4) v.now.toNat = evs := by rw [hnow]; exact hv.knownFrom _ _
    refine ⟨t, hexec, hreleased, honly, fun ⟨ha, hne⟩ => ?_, fun ⟨ha, hnil⟩ => ?_, fun ⟨hr, hidle, hon⟩ => ?_⟩
    · obtain ⟨hcapture, hlen, hcap, hsrc⟩ := harms ha
      obtain ⟨k, hk, hmin, a, ⟨c, hc, hcrec, harm, -, hstage, htick⟩, hstate, -, -⟩ := hx.taken hcapture hlen hcap hsrc (by rwa [hevs])
      rw [hevs] at hk hmin
      refine ⟨?_, hstate, k, hk, hmin, by rw [hc, Option.map_some, htick]⟩
      rw [hc, Option.map_some, hcrec, harm, hstage, ← hnow]
      rfl
    · obtain ⟨hcapture, hlen, hcap, hsrc⟩ := harms ha
      obtain ⟨⟨hc, hstate, hsegdone, hindex⟩, hconf⟩ := hx.armed hcapture hlen hcap hsrc (by rwa [hevs])
      refine ⟨by rw [hc, ← hnow]; rfl, hstate, hsegdone, hindex, fun hgood => ?_⟩
      exact ((hv.good hgood).fields.mono (by simp [queueFlds, cutFields])).within hconf.fields (by simp [armWithFlds, tl])
    · have hslot : (v.stream (rb r 4 % 4)).active = false ∧ v.b (R.ACQ_STRM_CTL.EN (rb r 4 % 4)) = true :=
        ⟨(congrArg Stream.active (hv.stream _)).trans hidle, (hv.ringOn (Nat.mod_lt _ (by decide))).trans hon⟩
      obtain ⟨hstream, hactive, htile, hbusy, hnum⟩ := (hx.started (by omega) hslot.1 hslot.2).fields (by omega) (Nat.mod_lt _ (by decide))
      refine ⟨hstream.trans ?_, hactive, htile, hbusy, hnum⟩
      rw [Device.newStream, hnow, hv.stream]
      rfl
  · intro d tl o
    have hv := (Tx.start s.dev).reachAdc_spec (h.odd (.inr (.inl rfl))) rest
    let v := (Tx.start s.dev).reachAdc e.val rest
    have heng := v.discEach_eng tl o
    have hnow : v.d.now.toNat = d.now.toNat := congrArg BitVec.toNat hv.now
    refine ⟨_, exec_disc s e h, (congrArg (fun g => (g e.val).queue) heng).trans hv.released.1, fun k hk => (congrFun heng k).trans (hv.onlyEngine k hk), ?_⟩
    intro i n r ho hset hwin
    have hr : v.d.weightRec tl (bitsOf o 55 40) i = some r := by
      obtain ⟨r', hr'⟩ := Option.isSome_iff_exists.mp hset
      have hr : r = r' := congrArg (Option.getD · []) hr'
      rw [hv.weightRec, hr]
      exact hr'
    obtain ⟨hopened, hframe, hw⟩ := v.discEach_opened tl o i.isLt ho hr ((hv.win _).trans hwin)
    exact ⟨hopened, hframe, by rw [← hnow]; exact hw⟩
  · intro d tl mask
    have hqueue := (Tx.start s.dev).setQueue_spec e.val rest
    have hconf := (Tx.start s.dev).setQueue_confined e.val rest
    let u := (Tx.start s.dev).setQueue e.val rest
    have hsent := u.modTile_confined tl (fun x => { x with sends := sendsAfter mask u.now.toNat x.sends })
    have hnow : u.now = d.now := hconf.now (by decide) (by simp [queueFlds, Fld.key, R.TB_STAT.AWAKE, R.ENG_QUEUE.DEPTH, R.ENG_QUEUE.MAX, tileOff]; omega)
    have heng : (u.sendOn e.val q).d.eng = u.d.eng := Device.eng_congr (hsent.same .engines (by decide))
    have hsends : ((u.sendOn e.val q).d.tile tl).sends = sendsAfter mask d.now.toNat (d.tile tl).sends := by
      have htile : u.d.tile tl = d.tile tl := congrFun (hconf.tile (by decide)) tl
      rw [← hnow, ← htile]
      exact congrArg Tile.sends (u.modTile_tile_same tl _)
    have hall : Confined [.engines, .tiles] (queueFlds e) (Tx.start s.dev).d (u.sendOn e.val q).d := (hconf.mono (by simp) (by simp)).within hsent (by simp) (by simp)
    refine ⟨_, exec_send s e h, ⟨?_, ?_⟩, ?_, ?_, ?_, hall.fields, ?_⟩
    · exact (congrArg (fun g => (g e.val).queue) heng).trans (by rw [hqueue.eng])
    · exact (hsent.f (by simp)).trans hqueue.depth
    · exact fun k hk => (congrFun heng k).trans (hqueue.onlyEngine k hk)
    · intro i hi
      rw [hsends]
      exact mem_sendsAfter _ _ i.isLt hi
    · rw [hsends, filter_sendsAfter]
    · exact congrArg (fun x => { s with dev := x }) (hall.eq_taking.trans rfl)

end Sys2Proof.Machine
end

section
/-! SUPPORT. The rings: what a write of a ring's EN does (R301, R304, R482, R483). -/
namespace Sys2Proof.Machine

variable {d0 : Device}

/-! The registers of a ring: 0 the drain ring, 1 + s stream slot s -/

def ringEn (n : Nat) : Fld := if n = 0 then R.ACQ_DRAIN_CTL.EN else R.ACQ_STRM_CTL.EN (n - 1)

def ringWptr (n : Nat) : Fld := if n = 0 then R.ACQ_DRAIN_WPTR.OFF else R.ACQ_STRM_WPTR.OFF (n - 1)

def ringDenied (n : Nat) : Fld := if n = 0 then R.ACQ_DRAIN_STAT.EN_DENIED else R.ACQ_STRM_STAT.EN_DENIED (n - 1)

/-- What a ring shows beside: the fill level of the drain ring, the gaps of a stream's. -/
def ringShown (n : Nat) : Fld := if n = 0 then R.ACQ_DRAIN_STAT.ABOVE else R.ACQ_STRM_STAT.GAPS (n - 1)

/-- The fields that a write of a ring's EN may write. -/
def ringFlds (n : Nat) : List Fld := [ringEn n, ringWptr n, ringDenied n, ringShown n, R.ECC_EVT.MAP_ERR, R.ECC_CXL_STAT.MAP_WHY]

theorem Device.ringOn_eq (d : Device) (n : Nat) : d.ringOn n = d.b (ringEn n) := by
  rw [Device.ringOn, ringEn]
  split <;> rfl

theorem Tx.ringEnable_eq (t : Tx d0) (n : Nat) (en : Bool) : t.ringEnable n en =
    if en then
      if t.d.b (ringEn n) then t
      else if t.d.cxlTesting then t.stHold (n + 1)
      else if t.d.mapWhy n ≠ 0 then (t.ev R.ECC_EVT.MAP_ERR).w R.ECC_CXL_STAT.MAP_WHY (t.d.mapWhy n)
      else
        let t := ((t.upd (.ring n (t.d.ringRegs n))).wb (ringEn n) true).w (ringWptr n) 0
        if n = 0 then t.showAbove else t.w (ringShown n) 0
    else if !t.d.b (ringEn n) then t
    else if t.running then t.ev (ringDenied n)
    else (((t.endRings n).upd (.ring n {})).wb (ringEn n) false).when (n == 0) Tx.showAbove := by
  rw [Tx.ringEnable, t.d.ringOn_eq]
  cases n with
  | zero => simp only [ringEn, ringWptr, ringDenied, if_true]
  | succ k => simp only [ringEn, ringWptr, ringDenied, ringShown, Nat.add_one_ne_zero, if_false, Nat.add_sub_cancel]

theorem Tx.pend_confined (t : Tx d0) (v : Nat) : Confined [.pba] [] t.d (t.pend v).d := t.upd_confined _

theorem Tx.showAbove_confined (t : Tx d0) : Confined [.pba] [R.ACQ_DRAIN_STAT.ABOVE] t.d t.showAbove.d := by
  have h : Confined [.pba] [R.ACQ_DRAIN_STAT.ABOVE] t.d t.d := (Confined.refl _).mono (by simp) (by simp)
  exact Confined.wb (.ite (h.within (t.pend_confined 194) (by simp) (by simp)) h) (by simp) _

theorem Device.ring_congr {d e : Device} (h : Same d e .rings) : e.ring = d.ring := by
  funext k
  rw [Device.ring, Device.ring, show e.rings = d.rings from h]

/-- The reasons against a mapping rest on the registers of the rings, the images' regions, and the queues. -/
theorem Device.mapWhy_congr {d e : Device} (h : OnlyFields [R.ACQ_DRAIN_CTL.THRESH] d e) (himg : Same d e .img) (hrings : Same d e .rings)
    (hqueues : Same d e .queues) (n : Nat) : e.mapWhy n = d.mapWhy n ∧ e.ringRegs n = d.ringRegs n := by
  have hf : ∀ F : Fld, F.key ≠ R.ACQ_DRAIN_CTL.THRESH.key → e.f F = d.f F := fun F hF => h F (by simpa using hF)
  have hstrm : ∀ s, e.f (R.ACQ_STRM_BASE_LO.ADDR s) = d.f (R.ACQ_STRM_BASE_LO.ADDR s) ∧ e.f (R.ACQ_STRM_BASE_HI.ADDR s) = d.f (R.ACQ_STRM_BASE_HI.ADDR s) ∧
      e.f (R.ACQ_STRM_SIZE.SIZE s) = d.f (R.ACQ_STRM_SIZE.SIZE s) ∧ e.f (R.ACQ_STRM_CTL.EN s) = d.f (R.ACQ_STRM_CTL.EN s) := by
    intro s
    refine ⟨hf _ ?_, hf _ ?_, hf _ ?_, hf _ ?_⟩ <;>
      simp only [Fld.key, R.ACQ_STRM_BASE_LO.ADDR, R.ACQ_STRM_BASE_HI.ADDR, R.ACQ_STRM_SIZE.SIZE, R.ACQ_STRM_CTL.EN, R.ACQ_DRAIN_CTL.THRESH] <;> omega
  have hregs : e.ringRegs = d.ringRegs := by
    funext k
    simp only [Device.ringRegs, hf _ (show R.ACQ_DRAIN_BASE_LO.ADDR.key ≠ _ by decide), hf _ (show R.ACQ_DRAIN_BASE_HI.ADDR.key ≠ _ by decide),
      hf _ (show R.ACQ_DRAIN_SIZE.SIZE.key ≠ _ by decide), hstrm]
  have hon : e.ringOn = d.ringOn := by
    funext k
    simp only [Device.ringOn, Device.b, hf _ (show R.ACQ_DRAIN_CTL.EN.key ≠ _ by decide), hstrm]
  have hcap : e.capacity = d.capacity := by
    rw [Device.capacity, Device.capacity, show e.cxlUp = d.cxlUp from h.b (by decide), hf _ (show R.ECC_CXL_STAT.CAP.key ≠ _ by decide)]
  have himages : e.imageRegions = d.imageRegions := by
    simp only [Device.imageRegions, show e.img = d.img from himg, hf _ (show R.GLB_IMG_STAT.LOAD_STATE.key ≠ _ by decide)]
  have hring : e.ring = d.ring := Device.ring_congr hrings
  have hregions : e.ringRegions n = d.ringRegions n ∧ e.h2cRegions = d.h2cRegions :=
    ⟨by rw [Device.ringRegions, Device.ringRegions, hon, hring], by rw [Device.h2cRegions, Device.h2cRegions, show e.queues = d.queues from hqueues]⟩
  exact ⟨by rw [Device.mapWhy, Device.mapWhy, hregs, hcap, himages, hregions.1, hregions.2], congrFun hregs n⟩

/-! What sends something out -/

/-- From `d` to `e` nothing may have changed but the pieces `ps`, the fields `Gs`, and what was sent out. -/
structure Loud (ps : List Piece) (Gs : List Fld) (d e : Device) : Prop where
  same : ∀ p ∉ ps, Same d e p
  fields : OnlyFields Gs d e

theorem Confined.loud {ps : List Piece} {Gs : List Fld} {d e : Device} (h : Confined ps Gs d e) : Loud ps Gs d e := ⟨h.same, h.fields⟩

namespace Loud

variable {ps qs : List Piece} {Gs Hs : List Fld} {d e g : Device}

theorem within (h : Loud ps Gs d e) (h' : Loud qs Hs e g) (hq : qs ⊆ ps) (hH : Hs ⊆ Gs) : Loud ps Gs d g :=
  ⟨fun p hp => (h.same p hp).trans (h'.same p fun hm => hp (hq hm)), h.fields.within h'.fields hH⟩

theorem mono (h : Loud qs Hs d e) (hq : qs ⊆ ps) (hH : Hs ⊆ Gs) : Loud ps Gs d e := ⟨fun p hp => h.same p fun hm => hp (hq hm), h.fields.mono hH⟩

theorem eq_taking (h : Loud ps Gs d e) : e = { d.taking ps e with out := e.out } := by
  have hout : Confined ps Gs { d with out := e.out } e := ⟨fun p hp => (by cases p <;> exact h.same _ hp), fun F hF => h.fields F hF, rfl⟩
  exact hout.eq_taking

end Loud

/-! Completions -/

/-- The fields that a completion on queue `q` writes. -/
def cqFlds (q : Nat) : List Fld := [R.LNK_Q_STAT.CQ_TAIL q, R.LNK_Q_STAT.BUSY q, R.LNK_Q_STAT.CQ_FULL q]

/-- What the completion of an entry of queue `q` makes of the device (R565, R571). -/
structure Completed (q : Nat) (o : Out) (d e : Device) : Prop where
  cur : (e.queue q).cur = none
  busy : e.f (R.LNK_Q_STAT.BUSY q) = 0
  out : e.out = d.out ++ [o]
  loud : Loud [.queues, .pba] (cqFlds q) d e
  other : ∀ k, k ≠ q → e.queue k = d.queue k

theorem cq_keys (q : Nat) : (R.LNK_Q_STAT.BUSY q).key ≠ (R.LNK_Q_STAT.CQ_FULL q).key := by
  simp only [Fld.key, R.LNK_Q_STAT.BUSY, R.LNK_Q_STAT.CQ_FULL]
  omega

theorem Tx.modQueue_queue (t : Tx d0) (q k : Nat) (g : Queue → Queue) : (t.modQueue q g).d.queue k = if k = q then g (t.d.queue q) else t.d.queue k :=
  bget_bset (fun _ => ({} : Queue)) t.d.queues q k (g (t.d.queue q))

theorem Device.queue_congr {d e : Device} (h : Same d e .queues) : e.queue = d.queue := by
  funext k
  rw [Device.queue, Device.queue, show e.queues = d.queues from h]

theorem Tx.complete_spec (t : Tx d0) (q : Nat) (entry : List Byte) (status done : Nat) :
    Completed q (.hostWrite ((t.d.queue q).cqBase + 16 * t.d.f (R.LNK_Q_STAT.CQ_TAIL q)) (t.d.cqEntry q entry status done) false) t.d
      (t.complete q entry status done).d := by
  let tail := t.f (R.LNK_Q_STAT.CQ_TAIL q)
  let o := Out.hostWrite ((t.d.queue q).cqBase + 16 * tail) (t.d.cqEntry q entry status done) false
  let u := t.send o
  let next := (tail + 1) % u.d.cqSize q
  let v := u.modQueue q (fun y => { y with cur := none, phase := if next = 0 then !y.phase else y.phase })
  let x := ((v.w (R.LNK_Q_STAT.CQ_TAIL q) next).wb (R.LNK_Q_STAT.BUSY q) false).showCq q
  have hu : Loud [.queues, .pba] (cqFlds q) t.d u.d := ⟨fun p _ => by cases p <;> rfl, .refl _ _⟩
  have hv : Confined [.queues, .pba] (cqFlds q) u.d v.d := (u.upd_confined _ (ps := [.queues])).mono (by simp) (by simp)
  have hx : Confined [.queues, .pba] (cqFlds q) u.d x.d := ((hv.w (by simp [cqFlds]) _).wb (by simp [cqFlds]) _).wb (by simp [cqFlds]) _
  have hqueue : x.d.queue = v.d.queue := rfl
  have hbusy : x.d.f (R.LNK_Q_STAT.BUSY q) = 0 := (Tx.w_f_other _ _ _ _ (cq_keys q)).trans (Tx.w_f_same _ _ _)
  have hcur : ∀ k, v.d.queue k = if k = q then { t.d.queue q with cur := none, phase := if next = 0 then !(t.d.queue q).phase else (t.d.queue q).phase } else t.d.queue k :=
    fun k => u.modQueue_queue q k _
  have hpend : Confined [.queues, .pba] (cqFlds q) x.d (t.complete q entry status done).d ∧ (t.complete q entry status done).d.queue = x.d.queue ∧
      (t.complete q entry status done).d.f (R.LNK_Q_STAT.BUSY q) = x.d.f (R.LNK_Q_STAT.BUSY q) := by
    have hirq : t.complete q entry status done = if (rb entry 1).testBit 0 && x.b (R.LNK_Q_CTL.IEN q) then x.pend q else x := rfl
    rw [hirq]
    split
    · exact ⟨(x.pend_confined q).mono (by simp) (by simp), rfl, rfl⟩
    · exact ⟨(Confined.refl _).mono (by simp) (by simp), rfl, rfl⟩
  obtain ⟨hp, hpq, hpb⟩ := hpend
  refine ⟨?_, hpb.trans hbusy, ?_, (hu.within hx.loud (by simp) (by simp)).within hp.loud (by simp) (by simp), fun k hk => ?_⟩
  · rw [hpq, hqueue, hcur, if_pos rfl]
  · exact hp.out.trans hx.out
  · rw [hpq, hqueue, hcur, if_neg hk]

/-! The RING entries of a ring that is disabled (R568, R585) -/

/-- The entry reads ring `n`. -/
def Entry.Takes (n : Nat) (x : Entry) : Prop := rb x.bytes 0 = 3 ∧ rb x.bytes 28 = n

/-- Queue `q` has no entry in progress that reads ring `n`. -/
def Device.QueueIdle (d : Device) (n q : Nat) : Prop := ∀ x, (d.queue q).cur = some x → ¬ x.Takes n

/-- The entry of queue `q` that reads the ring ends. -/
def Tx.endTaken (t : Tx d0) (n q : Nat) (x : Entry) : Tx d0 :=
  (t.w (Machine.ringRptr n) ((256 * t.f (Machine.ringRptr n) + x.done) % max 1 (t.d.ring n).size / 256)).complete q x.bytes (if x.poison then 9 else 0) x.done

/-- The part of a ring's disabling for one queue. -/
def Tx.endRing (n q : Nat) (t : Tx d0) : Tx d0 :=
  match (t.d.queue q).cur with
  | none => t
  | some x => if rb x.bytes 0 = 3 && rb x.bytes 28 = n then t.endTaken n q x else t

theorem Tx.endRings_eq (t : Tx d0) (n : Nat) : t.endRings n = t.each (List.range 64) (Tx.endRing n) := rfl

theorem Tx.endRing_idle (t : Tx d0) {n q : Nat} (h : t.d.QueueIdle n q) : t.endRing n q = t := by
  unfold Tx.endRing
  split
  · rfl
  · next x hx => exact if_neg (by simpa [Entry.Takes] using h x hx)

theorem Tx.endRing_taken (t : Tx d0) {n q : Nat} {x : Entry} (hx : (t.d.queue q).cur = some x) (h : x.Takes n) : t.endRing n q = t.endTaken n q x := by
  rw [Tx.endRing, hx]
  exact if_pos (by simpa [Entry.Takes] using h)

theorem Tx.each_endRing_idle (t : Tx d0) {n : Nat} {l : List Nat} (h : ∀ p ∈ l, t.d.QueueIdle n p) : t.each l (Tx.endRing n) = t :=
  Tx.each_keeps (fun u => u = t) t l _ rfl fun p hp u hu => by rw [hu]; exact t.endRing_idle (h p hp)

/-- What a table holds beside its default stands in it. -/
theorem bget_eq_or_mem {α : Type} (f : Nat → α) (m : Bank α) (k : Nat) : bget f m k = f k ∨ (k, bget f m k) ∈ m := by
  induction m with
  | nil => exact .inl rfl
  | cons c r ih =>
    rw [bget]
    split
    · next h => exact .inr (by simp [← h])
    · exact ih.imp id (List.mem_cons_of_mem _)

theorem Device.queueIdle_of_not_taken {d : Device} {n : Nat} (h : d.ringTakenBy 99 n = false) {q : Nat} (hq : q < 64) : d.QueueIdle n q := by
  rintro x hx ⟨hop, hring⟩
  rcases bget_eq_or_mem (fun _ => ({} : Queue)) d.queues q with hdef | hmem
  · rw [Device.queue, hdef] at hx
    cases hx
  · have hany : d.ringTakenBy 99 n = true := by
      refine List.any_eq_true.mpr ⟨_, hmem, ?_⟩
      rw [← Device.queue, hx]
      simp [hop, hring]
      omega
    simp [h] at hany

theorem Tx.endRings_idle (t : Tx d0) {n : Nat} (h : t.d.ringTakenBy 99 n = false) : t.endRings n = t := by
  rw [t.endRings_eq]
  exact t.each_endRing_idle fun p hp => Device.queueIdle_of_not_taken h (List.mem_range.mp hp)

/-- What the end of an entry that reads ring `n` makes of the device. -/
structure RingEnded (n q : Nat) (x : Entry) (ps : List Piece) (Gs : List Fld) (d e : Device) : Prop where
  cur : (e.queue q).cur = none
  busy : e.f (R.LNK_Q_STAT.BUSY q) = 0
  rptr : e.f (ringRptr n) = (256 * d.f (ringRptr n) + x.done) % max 1 (d.ring n).size / 256 % 2 ^ (ringRptr n).width
  out : e.out = d.out ++
    [.hostWrite ((d.queue q).cqBase + 16 * d.f (R.LNK_Q_STAT.CQ_TAIL q)) (d.cqEntry q x.bytes (if x.poison then 9 else 0) x.done) false]
  loud : Loud ps Gs d e
  other : ∀ k, k ≠ q → e.queue k = d.queue k

theorem ringRptr_key {n : Nat} (hn : n < 5) : (ringRptr n).key < 0x1000000 * 32 := by
  revert n
  decide

theorem Tx.endTaken_spec (t : Tx d0) {n q : Nat} (hn : n < 5) (x : Entry) :
    RingEnded n q x [.queues, .pba] (Machine.ringRptr n :: cqFlds q) t.d (t.endTaken n q x).d := by
  have hkey := ringRptr_key hn
  rw [Tx.endTaken]
  generalize hv : (256 * t.f (Machine.ringRptr n) + x.done) % max 1 (t.d.ring n).size / 256 = v
  have hw := t.w_confined (Machine.ringRptr n) v
  have hrptr := t.w_f_same (Machine.ringRptr n) v
  generalize t.w (Machine.ringRptr n) v = u at hw hrptr
  obtain ⟨hcur, hbusy, hout, hloud, hother⟩ := u.complete_spec q x.bytes (if x.poison then 9 else 0) x.done
  have hf : ∀ F : Fld, 0x1000000 * 32 ≤ F.key → u.d.f F = t.d.f F := fun F hF => hw.f (by simp; omega)
  have hqueue : u.d.queue = t.d.queue := Device.queue_congr (hw.same _ (by simp))
  have htail : u.d.f (R.LNK_Q_STAT.CQ_TAIL q) = t.d.f (R.LNK_Q_STAT.CQ_TAIL q) := hf _ (by simp only [Fld.key, R.LNK_Q_STAT.CQ_TAIL]; omega)
  have hhead : u.d.f (R.LNK_Q_STAT.SQ_HEAD q) = t.d.f (R.LNK_Q_STAT.SQ_HEAD q) := hf _ (by simp only [Fld.key, R.LNK_Q_STAT.SQ_HEAD]; omega)
  refine ⟨hcur, hbusy, ?_, ?_, ?_, fun k hk => (hother k hk).trans (congrFun hqueue k)⟩
  · have hne : (Machine.ringRptr n).key ∉ (cqFlds q).map Fld.key := by
      simp only [cqFlds, List.map_cons, List.map_nil, List.mem_cons, List.not_mem_nil, or_false, Fld.key, R.LNK_Q_STAT.CQ_TAIL, R.LNK_Q_STAT.BUSY,
        R.LNK_Q_STAT.CQ_FULL] at hkey ⊢
      omega
    rw [hloud.fields _ hne, hrptr, ← hv]
    rfl
  · rw [hout, hw.out, Device.cqEntry, Device.cqEntry, hqueue, htail, hhead]
  · exact (hw.loud.mono (by simp) (by simp)).within hloud (by simp) (by simp)

theorem ringFlds_read {n : Nat} (hn : n < 5) : (ringRptr n).key ∉ (ringFlds n).map Fld.key ∧ ∀ k ∈ (ringFlds n).map Fld.key, k < 0x1000000 * 32 := by
  revert n
  decide

theorem RingEnded.andThen {n q : Nat} {x : Entry} {ps ps' qs : List Piece} {Gs Gs' : List Fld} {d v e : Device} (h : RingEnded n q x ps Gs d v) (hn : n < 5)
    (hc : Confined qs (ringFlds n) v e) (hqueues : Piece.queues ∉ qs) (hps : ps ++ qs ⊆ ps') (hGs : Gs ⊆ Gs') (hring : ringFlds n ⊆ Gs') :
    RingEnded n q x ps' Gs' d e := by
  obtain ⟨hread, hlow⟩ := ringFlds_read hn
  have hqueue := Device.queue_congr (hc.same _ hqueues)
  have hbusy : (R.LNK_Q_STAT.BUSY q).key ∉ (ringFlds n).map Fld.key := fun hm => by
    have := hlow _ hm
    simp only [Fld.key, R.LNK_Q_STAT.BUSY] at this
    omega
  refine ⟨by rw [hqueue, h.cur], (hc.f hbusy).trans h.busy, (hc.f hread).trans h.rptr, hc.out.trans h.out, ?_, fun k hk => by rw [hqueue, h.other k hk]⟩
  exact (h.loud.mono (fun p hp => hps (List.mem_append_left _ hp)) hGs).within hc.loud (fun p hp => hps (List.mem_append_right _ hp)) hring

theorem Tx.endRings_one (t : Tx d0) {n q : Nat} (hn : n < 5) (hq : q < 64) {x : Entry} (hx : (t.d.queue q).cur = some x) (htakes : x.Takes n)
    (hidle : ∀ p < 64, p ≠ q → t.d.QueueIdle n p) : t.endRings n = t.endTaken n q x := by
  have hspec := t.endTaken_spec (q := q) hn x
  have hlist : ∀ l : List Nat, l.Nodup → (∀ p ∈ l, p < 64) → q ∈ l → t.each l (Tx.endRing n) = t.endTaken n q x := by
    intro l
    induction l with
    | nil => simp
    | cons p r ih =>
      intro hnodup hlt hmem
      obtain ⟨hp, hr⟩ := List.nodup_cons.mp hnodup
      rw [Tx.each_cons]
      by_cases hpq : p = q
      · subst hpq
        rw [t.endRing_taken hx htakes]
        refine (t.endTaken n p x).each_endRing_idle fun k hk => ?_
        have hkp : k ≠ p := fun h => hp (h ▸ hk)
        rw [Device.QueueIdle, hspec.other k hkp]
        exact hidle k (hlt k (by simp [hk])) hkp
      · rw [t.endRing_idle (hidle p (hlt p (by simp)) hpq)]
        exact ih hr (fun k hk => hlt k (by simp [hk])) (by simpa [Ne.symm hpq] using hmem)
  exact hlist _ List.nodup_range (fun p hp => List.mem_range.mp hp) (List.mem_range.mpr hq)

theorem Tx.endRing_loud (t : Tx d0) {n : Nat} (hn : n < 5) (q : Nat) : Loud [.queues, .pba] (Machine.ringRptr n :: cqFlds q) t.d (t.endRing n q).d := by
  have hrefl : Loud [.queues, .pba] (Machine.ringRptr n :: cqFlds q) t.d t.d := (Confined.refl _).loud.mono (by simp) (by simp)
  unfold Tx.endRing
  split
  · exact hrefl
  · split
    · exact (t.endTaken_spec hn _).loud
    · exact hrefl

theorem Tx.endRings_ring (t : Tx d0) {n : Nat} (hn : n < 5) : (t.endRings n).d.ring = t.d.ring := by
  exact Tx.each_keeps (fun u => u.d.ring = t.d.ring) _ _ _ rfl fun q _ u hu => (Device.ring_congr ((u.endRing_loud hn q).same _ (by simp))).trans hu

theorem Tx.endRings_f (t : Tx d0) {n : Nat} (hn : n < 5) {F : Fld} (hread : F.key ≠ (Machine.ringRptr n).key) (hlow : F.key < 0x1000000 * 32) :
    (t.endRings n).d.f F = t.d.f F := by
  refine Tx.each_keeps (fun u => u.d.f F = t.d.f F) _ _ _ rfl fun q _ u hu => ((u.endRing_loud hn q).fields F ?_).trans hu
  simp only [cqFlds, List.map_cons, List.map_nil, List.mem_cons, List.not_mem_nil, or_false, R.LNK_Q_STAT.CQ_TAIL, R.LNK_Q_STAT.BUSY, R.LNK_Q_STAT.CQ_FULL]
  simp only [Fld.key] at *
  omega

/-! EN of a ring is written -/

/-- What a write of a ring's EN may change. -/
def ringPieces : List Piece := [.rings, .pba, .evNow]

/-- What a write of ring `n`'s EN makes of the device, outside the CXL test. -/
structure RingWritten (n : Nat) (en : Bool) (Gs : List Fld) (d e : Device) : Prop where
  opened : d.b (ringEn n) = false → en = true → d.mapWhy n = 0 →
    e.f (ringEn n) = 1 ∧ e.ring n = d.ringRegs n ∧ e.f (ringWptr n) = 0 ∧ (n ≠ 0 → e.f (ringShown n) = 0)
  refused : d.b (ringEn n) = false → en = true → d.mapWhy n ≠ 0 →
    e.b (ringEn n) = false ∧ e.f R.ECC_EVT.MAP_ERR = 1 ∧ e.f R.ECC_CXL_STAT.MAP_WHY = d.mapWhy n
  closed : d.b (ringEn n) = true → en = false → d.running = false → e.b (ringEn n) = false ∧ e.ring n = {}
  denied : d.b (ringEn n) = true → en = false → d.running = true → e.b (ringEn n) = true ∧ e.f (ringDenied n) = 1
  others : ∀ k, k ≠ n → e.ring k = d.ring k
  kept : ∀ F : Fld, F.key ∉ (ringRptr n :: Gs).map Fld.key → F.key < 0x1000000 * 32 → e.f F = d.f F
  confined : d.ringTakenBy 99 n = false → Confined ringPieces Gs d e
  ended : d.b (ringEn n) = true → en = false → d.running = false → ∀ q < 64, ∀ x, (d.queue q).cur = some x → x.Takes n →
    (∀ p < 64, p ≠ q → d.QueueIdle n p) → RingEnded n q x (.queues :: ringPieces) (Gs ++ ringRptr n :: cqFlds q) d e

theorem Device.mapWhy_lt (d : Device) (n : Nat) : d.mapWhy n < 4 := by
  unfold Device.mapWhy
  dsimp only
  split_ifs <;> decide

theorem ringFlds_ne {n : Nat} (hn : n < 5) : (ringEn n).key ∉ (ringFlds n).tail.map Fld.key ∧ (ringWptr n).key ≠ (ringShown n).key ∧ (ringDenied n).width = 1 ∧
    (ringEn n).width = 1 := by
  revert n
  decide

/-- EN of a ring goes up or down with the ring, and what is shown follows. -/
theorem Tx.putRing_spec (t : Tx d0) {n : Nat} (hn : n < 5) (x : Ring) (v : Bool) {g : Tx d0 → Tx d0}
    (hg : ∀ u : Tx d0, Confined ringPieces (ringFlds n).tail u.d (g u).d ∧ (g u).d.ring = u.d.ring) :
    let e := (g ((t.upd (.ring n x)).wb (ringEn n) v)).d
    e.f (ringEn n) = v.toNat ∧ e.ring n = x ∧ (∀ k, k ≠ n → e.ring k = t.d.ring k) ∧ Confined ringPieces (ringFlds n) t.d e := by
  obtain ⟨hen, -, -, hwidth⟩ := ringFlds_ne hn
  obtain ⟨hconf, hring⟩ := hg ((t.upd (.ring n x)).wb (ringEn n) v)
  have hput : ∀ k, ((t.upd (.ring n x)).wb (ringEn n) v).d.ring k = if k = n then x else t.d.ring k := fun k => bget_bset (fun _ => ({} : Ring)) t.d.rings n k x
  refine ⟨?_, ?_, fun k hk => ?_, ?_⟩
  · rw [hconf.f hen]
    refine (Tx.w_f_same _ _ _).trans ?_
    rw [hwidth]
    cases v <;> rfl
  · rw [hring, hput, if_pos rfl]
  · rw [hring, hput, if_neg hk]
  · have hset : Confined ringPieces (ringFlds n) t.d ((t.upd (.ring n x)).wb (ringEn n) v).d :=
      Confined.wb ((t.upd_confined (.ring n x) (ps := [.rings])).mono (by decide) (by simp)) (by simp [ringFlds]) _
    exact hset.within hconf (by simp) (by simp [ringFlds])

/-- What a ring shows once it is enabled. -/
def Tx.ringUp (n : Nat) (t : Tx d0) : Tx d0 := if n = 0 then (t.w (ringWptr n) 0).showAbove else (t.w (ringWptr n) 0).w (ringShown n) 0

theorem Tx.ringEnable_cases (t : Tx d0) {n : Nat} (en : Bool) (htest : t.d.cxlTesting = false) :
    (t.d.b (ringEn n) = en ∧ t.ringEnable n en = t) ∨
    (t.d.b (ringEn n) = false ∧ en = true ∧ t.d.mapWhy n ≠ 0 ∧ t.ringEnable n en = (t.ev R.ECC_EVT.MAP_ERR).w R.ECC_CXL_STAT.MAP_WHY (t.d.mapWhy n)) ∨
    (t.d.b (ringEn n) = false ∧ en = true ∧ t.d.mapWhy n = 0 ∧ t.ringEnable n en = ((t.upd (.ring n (t.d.ringRegs n))).wb (ringEn n) true).ringUp n) ∨
    (t.d.b (ringEn n) = true ∧ en = false ∧ t.d.running = true ∧ t.ringEnable n en = t.ev (ringDenied n)) ∨
    (t.d.b (ringEn n) = true ∧ en = false ∧ t.d.running = false ∧
      t.ringEnable n en = (((t.endRings n).upd (.ring n {})).wb (ringEn n) false).when (n == 0) Tx.showAbove) := by
  rw [t.ringEnable_eq, htest]
  cases hb : t.d.b (ringEn n) <;> cases en
  · exact .inl ⟨rfl, rfl⟩
  · by_cases hwhy : t.d.mapWhy n = 0
    · refine .inr (.inr (.inl ⟨rfl, rfl, hwhy, ?_⟩))
      simp only [hwhy, Tx.ringUp]
      rfl
    · refine .inr (.inl ⟨rfl, rfl, hwhy, ?_⟩)
      simp [hwhy]
  · cases hrun : t.d.running with
    | false => exact .inr (.inr (.inr (.inr ⟨rfl, rfl, rfl, by simp [Tx.running, hrun]⟩)))
    | true => exact .inr (.inr (.inr (.inl ⟨rfl, rfl, rfl, by simp [Tx.running, hrun]⟩)))
  · exact .inl ⟨rfl, rfl⟩

theorem Tx.showAbove_ring (t : Tx d0) : Confined ringPieces (ringFlds 0).tail t.d t.showAbove.d ∧ t.showAbove.d.ring = t.d.ring := by
  have h := t.showAbove_confined
  exact ⟨h.mono (by decide) (by simp [ringFlds, ringShown]), Device.ring_congr (h.same _ (by decide))⟩

theorem Tx.ringUp_spec (t : Tx d0) {n : Nat} (hn : n < 5) : (Confined ringPieces (ringFlds n).tail t.d (t.ringUp n).d ∧ (t.ringUp n).d.ring = t.d.ring) ∧
    (t.ringUp n).d.f (ringWptr n) = 0 ∧ (n ≠ 0 → (t.ringUp n).d.f (ringShown n) = 0) := by
  obtain ⟨-, hne, -, -⟩ := ringFlds_ne hn
  have hw : Confined ringPieces (ringFlds n).tail t.d (t.w (ringWptr n) 0).d := (t.w_confined _ _).mono (by simp) (by simp [ringFlds])
  have hzero : (t.w (ringWptr n) 0).d.f (ringWptr n) = 0 := (t.w_f_same _ _).trans (Nat.zero_mod _)
  unfold Tx.ringUp
  split
  · next h =>
    subst h
    obtain ⟨hshow, hring⟩ := (t.w (ringWptr 0) 0).showAbove_ring
    exact ⟨⟨hw.trans hshow, hring⟩, ((t.w (ringWptr 0) 0).showAbove_confined.f (by decide)).trans hzero, by simp⟩
  · exact ⟨⟨hw.w (by simp [ringFlds]) _, rfl⟩, (Tx.w_f_other _ _ _ _ hne).trans hzero, fun _ => (Tx.w_f_same _ _ _).trans (Nat.zero_mod _)⟩

theorem Tx.whenShow_ring (t : Tx d0) (n : Nat) : Confined ringPieces (ringFlds n).tail t.d (t.when (n == 0) Tx.showAbove).d ∧
    (t.when (n == 0) Tx.showAbove).d.ring = t.d.ring := by
  cases n with
  | zero => exact t.showAbove_ring
  | succ k => exact ⟨(Confined.refl _).mono (by simp) (by simp), rfl⟩

theorem Tx.ringEnable_spec (t : Tx d0) {n : Nat} (hn : n < 5) (en : Bool) (htest : t.d.cxlTesting = false) :
    RingWritten n en (ringFlds n) t.d (t.ringEnable n en).d := by
  have hrefl : Confined ringPieces (ringFlds n) t.d t.d := (Confined.refl _).mono (by simp) (by simp)
  obtain ⟨henNe, -, hdenied, -⟩ := ringFlds_ne hn
  rcases t.ringEnable_cases en htest with ⟨hb, heq⟩ | ⟨hb, rfl, hwhy, heq⟩ | ⟨hb, rfl, hwhy, heq⟩ | ⟨hb, rfl, hrun, heq⟩ | ⟨hb, rfl, hrun, heq⟩
  · rw [heq]
    exact ⟨by simp_all, by simp_all, by simp_all, by simp_all, fun _ _ => rfl, fun _ _ _ => rfl, fun _ => hrefl, by simp_all⟩
  · rw [heq]
    have hconf : Confined [.pba, .evNow] (ringFlds n).tail t.d ((t.ev R.ECC_EVT.MAP_ERR).w R.ECC_CXL_STAT.MAP_WHY (t.d.mapWhy n)).d :=
      ((t.ev_confined _).mono (by decide) (by simp [ringFlds])).w (by simp [ringFlds]) _
    have hlt : t.d.mapWhy n < 2 ^ R.ECC_CXL_STAT.MAP_WHY.width := (t.d.mapWhy_lt n).trans (by decide)
    refine ⟨by simp_all, fun _ _ _ => ⟨(hconf.fields.b henNe).trans hb, ?_, ?_⟩, by simp, by simp, fun k _ => ?_, fun F hF _ => hconf.f (by simp_all [ringFlds]), fun _ => ?_, by simp⟩
    · exact (Tx.w_f_other _ _ _ _ (by decide)).trans (t.ev_f_same _ (by decide))
    · exact (Tx.w_f_same _ _ _).trans (Nat.mod_eq_of_lt hlt)
    · exact congrFun (Device.ring_congr (hconf.same _ (by decide))) k
    · exact hconf.mono (by decide) (by simp [ringFlds])
  · rw [heq]
    obtain ⟨hup, hwptr, hshown⟩ := (((t.upd (.ring n (t.d.ringRegs n))).wb (ringEn n) true)).ringUp_spec hn
    obtain ⟨hen, hring, hothers, hconf⟩ := t.putRing_spec hn (t.d.ringRegs n) true (fun u => (u.ringUp_spec hn).1)
    exact ⟨fun _ _ _ => ⟨hen, hring, hwptr, hshown⟩, by simp_all, by simp, by simp, hothers, fun F hF _ => hconf.f (by simp_all), fun _ => hconf, by simp⟩
  · rw [heq]
    have hconf : Confined [.pba, .evNow] (ringFlds n).tail t.d (t.ev (ringDenied n)).d := (t.ev_confined _).mono (by decide) (by simp [ringFlds])
    refine ⟨by simp, by simp, by simp_all, fun _ _ _ => ⟨(hconf.fields.b henNe).trans hb, t.ev_f_same _ hdenied⟩, fun k _ => ?_,
      fun F hF _ => hconf.f (by simp_all [ringFlds]), fun _ => ?_, by simp_all⟩
    · exact congrFun (Device.ring_congr (hconf.same _ (by decide))) k
    · exact hconf.mono (by decide) (by simp [ringFlds])
  · rw [heq]
    obtain ⟨hen, hring, hothers, hconf⟩ := (t.endRings n).putRing_spec hn {} false (fun u => u.whenShow_ring n)
    refine ⟨by simp, by simp, fun _ _ _ => ⟨by rw [Device.b, hen]; rfl, hring⟩, by simp_all, fun k hk => ?_,
      fun F hF hlow => ?_, fun hno => ?_, fun _ _ _ q hq x hx htakes hidle => ?_⟩
    · rw [hothers k hk, t.endRings_ring hn]
    · rw [List.map_cons, List.mem_cons, not_or] at hF
      exact (hconf.f hF.2).trans (t.endRings_f hn hF.1 hlow)
    · rwa [t.endRings_idle hno] at hconf ⊢
    · rw [t.endRings_one hn hq hx htakes hidle] at hconf ⊢
      exact (t.endTaken_spec hn x).andThen hn hconf (by decide) (by decide) (by simp) (by simp)

end Sys2Proof.Machine
end

section
/-! SUPPORT. The writes that enable a ring, the drain ring's and a stream's (R301, R304). -/
namespace Sys2Proof.Machine

variable {d0 : Device}

theorem exec_streamRingEnable (s : State) (n : Fin 4) (data : Word) (hon : s.dev.domOn (domainOf (R.ACQ_STRM_CTL.EN n).off) = true) :
    exec (.streamRingEnable n data) s = .next (s.afterAccess ((Tx.accessed s.dev).ringEnable (n + 1) (data.toNat.testBit 0)).d) :=
  commit_hostReg _ (fun t => t.strmCtl n data.toNat) s hon

theorem exec_drainEnable (s : State) (data : Word) (hon : s.dev.domOn (domainOf R.ACQ_DRAIN_CTL.EN.off) = true) :
    exec (.drainEnable data) s = .next (s.afterAccess ((Tx.accessed s.dev).drainCtl data.toNat).d) :=
  commit_hostReg _ (fun t => t.drainCtl data.toNat) s hon

/-- The write of ACQ_DRAIN_CTL takes THRESH, and shows the fill level by it. -/
def drainCtlFlds : List Fld := R.ACQ_DRAIN_CTL.THRESH :: ringFlds 0

theorem drainCtl_keys : (∀ F ∈ [ringEn 0, ringWptr 0, ringDenied 0, R.ECC_EVT.MAP_ERR, R.ECC_CXL_STAT.MAP_WHY, R.ACQ_DRAIN_CTL.THRESH],
    F.key ∉ [R.ACQ_DRAIN_STAT.ABOVE].map Fld.key) ∧ R.ACQ_DRAIN_CTL.THRESH.key ∉ (ringRptr 0 :: ringFlds 0).map Fld.key ∧
    R.ACQ_DRAIN_CTL.THRESH.key < 0x1000000 * 32 ∧ (ringEn 0).key ∉ [R.ACQ_DRAIN_CTL.THRESH].map Fld.key ∧
    (ringRptr 0).key ∉ [R.ACQ_DRAIN_CTL.THRESH].map Fld.key := by decide

/-- What an entry's end is does not rest on THRESH. -/
theorem RingEnded.afterThresh {q : Nat} {x : Entry} {ps : List Piece} {Gs : List Fld} {d v e : Device} (hv : Confined [] [R.ACQ_DRAIN_CTL.THRESH] d v)
    (h : RingEnded 0 q x ps Gs v e) (hGs : R.ACQ_DRAIN_CTL.THRESH ∈ Gs) : RingEnded 0 q x ps Gs d e := by
  obtain ⟨-, -, -, -, hread⟩ := drainCtl_keys
  have hqueue : v.queue = d.queue := Device.queue_congr (hv.same _ (by simp))
  have hring : v.ring = d.ring := Device.ring_congr (hv.same _ (by simp))
  have htail : v.f (R.LNK_Q_STAT.CQ_TAIL q) = d.f (R.LNK_Q_STAT.CQ_TAIL q) := hv.f (by simp [Fld.key, R.LNK_Q_STAT.CQ_TAIL, R.ACQ_DRAIN_CTL.THRESH]; omega)
  have hhead : v.f (R.LNK_Q_STAT.SQ_HEAD q) = d.f (R.LNK_Q_STAT.SQ_HEAD q) := hv.f (by simp [Fld.key, R.LNK_Q_STAT.SQ_HEAD, R.ACQ_DRAIN_CTL.THRESH]; omega)
  refine ⟨h.cur, h.busy, ?_, ?_, (hv.loud.mono (by simp) (by simpa using hGs)).within h.loud (by simp) (by simp), fun k hk => by rw [h.other k hk, hqueue]⟩
  · rw [h.rptr, hring, hv.f hread]
  · rw [h.out, hv.out, Device.cqEntry, Device.cqEntry, hqueue, htail, hhead]

theorem Tx.drainCtl_spec (t : Tx d0) (data : Nat) (htest : t.d.cxlTesting = false) :
    RingWritten 0 (data.testBit 0) drainCtlFlds t.d (t.drainCtl data).d ∧
      (t.drainCtl data).d.f R.ACQ_DRAIN_CTL.THRESH = data / 4096 % 2 ^ R.ACQ_DRAIN_CTL.THRESH.width := by
  obtain ⟨hshown, hkept, hlow, hen, -⟩ := drainCtl_keys
  have hpre := t.w_confined R.ACQ_DRAIN_CTL.THRESH (data / 4096)
  have hthresh := t.w_f_same R.ACQ_DRAIN_CTL.THRESH (data / 4096)
  rw [Tx.drainCtl]
  generalize t.w R.ACQ_DRAIN_CTL.THRESH (data / 4096) = u at hpre hthresh
  have hmid := u.ringEnable_spec (n := 0) (by decide) (data.testBit 0) (by rwa [Device.cxlTesting, hpre.same .st (by simp)])
  have hpost := (u.ringEnable 0 (data.testBit 0)).showAbove_confined
  have hshow := (u.ringEnable 0 (data.testBit 0)).showAbove_ring
  generalize u.ringEnable 0 (data.testBit 0) = x at hmid hpost hshow
  obtain ⟨hwhy, hregs⟩ := Device.mapWhy_congr hpre.fields (hpre.same _ (by simp)) (hpre.same _ (by simp)) (hpre.same _ (by simp)) 0
  have hb : u.d.b (ringEn 0) = t.d.b (ringEn 0) := hpre.fields.b hen
  have hring : ∀ k, x.showAbove.d.ring k = x.d.ring k := congrFun hshow.2
  have hrun : u.d.running = t.d.running := hpre.fields.b (by decide)
  have hf : ∀ F ∈ [ringEn 0, ringWptr 0, ringDenied 0, R.ECC_EVT.MAP_ERR, R.ECC_CXL_STAT.MAP_WHY, R.ACQ_DRAIN_CTL.THRESH], x.showAbove.d.f F = x.d.f F :=
    fun F hF => hpost.f (hshown F hF)
  have hxb : x.showAbove.d.b (ringEn 0) = x.d.b (ringEn 0) := hpost.fields.b (hshown _ (by simp))
  have hqueues : u.d.queue = t.d.queue := Device.queue_congr (hpre.same _ (by simp))
  refine ⟨⟨fun hoff hon hok => ?_, fun hoff hon hno => ?_, fun hon hoff hidle => ?_, fun hon hoff hbusy => ?_, fun k hk => ?_, fun F hF hlow => ?_, fun hno => ?_, ?_⟩, ?_⟩
  · obtain ⟨h1, h2, h3, -⟩ := hmid.opened (hb.trans hoff) hon (hwhy.trans hok)
    exact ⟨(hf _ (by simp)).trans h1, (hring 0).trans (h2.trans hregs), (hf _ (by simp)).trans h3, fun h => absurd rfl h⟩
  · obtain ⟨h1, h2, h3⟩ := hmid.refused (hb.trans hoff) hon (by rwa [hwhy])
    exact ⟨hxb.trans h1, (hf _ (by simp)).trans h2, (hf _ (by simp)).trans (h3.trans hwhy)⟩
  · obtain ⟨h1, h2⟩ := hmid.closed (hb.trans hon) hoff (hrun.trans hidle)
    exact ⟨hxb.trans h1, (hring 0).trans h2⟩
  · obtain ⟨h1, h2⟩ := hmid.denied (hb.trans hon) hoff (hrun.trans hbusy)
    exact ⟨hxb.trans h1, (hf _ (by simp)).trans h2⟩
  · rw [hring, hmid.others k hk, Device.ring_congr (hpre.same _ (by simp))]
  · simp only [drainCtlFlds, List.map_cons, List.mem_cons, not_or] at hF
    have hkeep : F.key ∉ (Machine.ringRptr 0 :: ringFlds 0).map Fld.key := by
      rw [List.map_cons, List.mem_cons, not_or]
      exact ⟨hF.1, hF.2.2⟩
    have hshown : F.key ∉ [R.ACQ_DRAIN_STAT.ABOVE].map Fld.key := fun hm => hF.2.2 (List.map_subset _ (by simp [ringFlds, ringShown]) hm)
    rw [hpost.f hshown, hmid.kept F hkeep hlow, hpre.f (by simpa using hF.2.1)]
  · have hno' : u.d.ringTakenBy 99 0 = false := by rwa [Device.ringTakenBy, hpre.same .queues (by simp)]
    have hall := (hpre.mono (ps := ringPieces) (Gs := drainCtlFlds) (by simp) (by simp [drainCtlFlds])).within (hmid.confined hno') (by simp) (by simp [drainCtlFlds])
    exact hall.within hpost (by decide) (by simp [drainCtlFlds, ringFlds, ringShown])
  · intro hon hoff hidle q hq y hy htakes hothers
    have hidles : ∀ p < 64, p ≠ q → u.d.QueueIdle 0 p := fun p hp hne => by
      intro z hz
      rw [hqueues] at hz
      exact hothers p hp hne z hz
    have hended := hmid.ended (hb.trans hon) hoff (hrun.trans hidle) q hq y (by rwa [hqueues]) htakes hidles
    exact (hended.andThen (Gs' := drainCtlFlds ++ Machine.ringRptr 0 :: cqFlds q) (by decide) (hshow.1.mono (List.Subset.refl _) (List.tail_subset _)) (by decide)
      (by decide) (by simp [drainCtlFlds, ringFlds]) (by simp [drainCtlFlds, ringFlds])).afterThresh hpre (by simp [drainCtlFlds])
  · exact (hf _ (by simp)).trans ((hmid.kept _ hkept hlow).trans hthresh)

/-! The writes, as states -/

section
variable {s : State} {n q : Nat} {en : Bool} {x : Entry} {Gs : List Fld} {e : Device}

/-- A write of EN that ends no entry touches the registers, the rings and the pending vectors alone. -/
theorem afterAccess_ringWritten (h : Confined ringPieces Gs (Tx.accessed s.dev).d e) : s.afterAccess e =
    { s with dev := { s.dev with flds := e.flds, rings := e.rings, pba := e.pba, again := [], evNow := [], out := [] } } :=
  (congrArg s.afterAccess h.eq_taking).trans rfl

theorem afterAccess_ringEnded (h : RingEnded n q x (.queues :: ringPieces) Gs (Tx.accessed s.dev).d e) : s.afterAccess e =
    { s with dev := { s.dev with flds := e.flds, rings := e.rings, queues := e.queues, pba := e.pba, again := [], evNow := [], out := e.out } } :=
  (congrArg s.afterAccess h.loud.eq_taking).trans rfl

end

theorem drainEnable_settles (s : State) (data : Word) (hon : s.dev.domOn (domainOf R.ACQ_DRAIN_CTL.EN.off) = true) (htest : s.dev.cxlTesting = false) :
    ∃ e, exec (.drainEnable data) s = .next (s.afterAccess e) ∧ e.f R.ACQ_DRAIN_CTL.THRESH = data.toNat / 4096 % 2 ^ R.ACQ_DRAIN_CTL.THRESH.width ∧
      RingWritten 0 (data.toNat.testBit 0) drainCtlFlds (Tx.accessed s.dev).d e := by
  obtain ⟨hspec, hthresh⟩ := (Tx.accessed s.dev).drainCtl_spec data.toNat htest
  exact ⟨_, exec_drainEnable s data hon, hthresh, hspec⟩

end Sys2Proof.Machine
end

section
/-! SUPPORT. The drain (R302, R303, R470, R471). -/
namespace Sys2Proof.Machine

variable {d0 : Device}

/-- The drain ring cannot take `pad` bytes of a PAD and a record of `len` bytes. -/
def Device.drainFull (d : Device) (pad len : Nat) : Bool :=
  let size := (d.ring 0).size
  !d.b R.ACQ_DRAIN_CTL.EN || !d.cxlUp || size == 0 || decide ((256 * d.f R.ACQ_DRAIN_RPTR.OFF % size + 2 * size - 256 * d.f R.ACQ_DRAIN_WPTR.OFF - 256) % size < pad + len)

/-- The PAD before a record of `len` bytes that would cross the ring's end. -/
def Device.drainPad (d : Device) (len : Nat) : Nat :=
  if (d.ring 0).size < 256 * d.f R.ACQ_DRAIN_WPTR.OFF + len then (d.ring 0).size - 256 * d.f R.ACQ_DRAIN_WPTR.OFF else 0

/-- A record's bytes go to the ring behind its PAD, and the write pointer behind them. -/
def Tx.drainPut (t : Tx d0) (pad w size : Nat) (bs : List Byte) (len : Nat) : Tx d0 :=
  (((if pad = 0 then t else t.ringWrite 0 w (padRecord pad)).ringWrite 0 (if pad = 0 then w else 0) bs).w R.ACQ_DRAIN_WPTR.OFF
    (((if pad = 0 then w else 0) + len) % size / 256))

theorem Tx.drainOne_eq (t : Tx d0) {tl id att : Nat} {rest : List (Nat × Nat × Nat)} {x : Shot} (hq : t.d.drainQ = (tl, id, att) :: rest)
    (hx : t.d.shotOf tl id att = some x) (hgood : t.d.hsBad x tl = none) :
    t.drainOne = if t.d.drainFull (t.d.drainPad x.length) x.length then t.wb R.ACQ_DRAIN_STAT.WAITING true
      else ((((((t.drainBytes tl x).2.drainPut (t.d.drainPad x.length) (256 * t.d.f R.ACQ_DRAIN_WPTR.OFF) (t.d.ring 0).size (t.drainBytes tl x).1 x.length).upd
        (.drainQ rest)).freeShot tl id att).showAbove).wb R.ACQ_DRAIN_STAT.WAITING false) := by
  rw [Tx.drainOne, hq]
  dsimp only
  rw [hx]
  dsimp only
  rw [hgood]
  rfl

/-! What the drain of a record may change -/

def drainPieces : List Piece := [.drainQ, .tiles, .cxl, .flags, .sram, .errs] ++ readPieces

def drainFlds (tl : Nat) : List Fld :=
  eccFlds ++ [R.ACQ_DRAIN_WPTR.OFF, R.ACQ_RECMEM.FREE tl, R.ACQ_RECMEM.MAX_USED tl, R.ACQ_DRAIN_STAT.ABOVE, R.ACQ_DRAIN_STAT.WAITING]

section
variable {tl : Nat} {d : Device} {t : Tx d0} (h : Confined drainPieces (drainFlds tl) d t.d)
include h

theorem Confined.drainBytes (x : Shot) : Confined drainPieces (drainFlds tl) d (t.drainBytes tl x).2.d := by
  refine Confined.ite ?_ (Confined.upd ?_ rfl (by simp [Upd.hits, drainPieces]))
  all_goals
    refine Tx.each_keeps (fun u => Confined drainPieces (drainFlds tl) d u.d) _ _ _ (Tx.each_keeps (fun u => Confined drainPieces (drainFlds tl) d u.d) _ _ _ h ?_) ?_
    · exact fun l _ u hu => hu.within (u.readLine_confined l 3 2) (by decide) (by simp [drainFlds])
    · intro k _ u hu
      split
      · exact hu
      · have hue : R.ECC_CNT.UE 2 ∈ drainFlds tl := List.mem_append_left _ (eccCnt_mem (by decide)).2
        exact ((hu.ev (by simp [drainFlds, eccFlds]) (by decide)).inc hue).within (Tx.logEcc_confined _ _ _ _ _ _ _) (by decide) (by simp [drainFlds])

theorem Confined.ringWrite (n off : Nat) (bs : List Byte) : Confined drainPieces (drainFlds tl) d (t.ringWrite n off bs).d :=
  Tx.each_keeps (fun u => Confined drainPieces (drainFlds tl) d u.d) _ _ _ (h.upd rfl (by simp [Upd.hits, drainPieces])) fun _ _ _ hu =>
    hu.upd rfl (by simp [Upd.hits, drainPieces])

theorem Confined.drainPut (pad w size : Nat) (bs : List Byte) (len : Nat) : Confined drainPieces (drainFlds tl) d (t.drainPut pad w size bs len).d :=
  (Confined.ringWrite (.ite h (h.ringWrite _ _ _)) _ _ _).w (by simp [drainFlds]) _

end

theorem Tx.freeShot_confined (t : Tx d0) (tl id att : Nat) : Confined [.tiles] [R.ACQ_RECMEM.FREE tl, R.ACQ_RECMEM.MAX_USED tl] t.d (t.freeShot tl id att).d := by
  have hfreed := (t.modShot_confined tl id att (fun s => { s with freed := true })).within
    (Tx.modTile_confined _ tl (fun x => { x with shots := x.shots.dropWhile (fun s => s.freed) })) (by simp) (by simp)
  have hwide := hfreed.mono (ps := [.tiles]) (Gs := [R.ACQ_RECMEM.FREE tl, R.ACQ_RECMEM.MAX_USED tl]) (by simp) (by simp)
  exact .ite ((hwide.w (by simp) _).w (by simp) _) (hwide.w (by simp) _)

/-- What the drain of the first record that is ready makes of the device, where its ring has room. -/
structure Drained (tl : Nat) (rest : List (Nat × Nat × Nat)) (w : Nat) (d e : Device) : Prop where
  waiting : e.f R.ACQ_DRAIN_STAT.WAITING = 0
  drainQ : e.drainQ = rest
  wptr : e.f R.ACQ_DRAIN_WPTR.OFF = w
  confined : Confined drainPieces (drainFlds tl) d e

theorem drainWptr_notMem (tl : Nat) : R.ACQ_DRAIN_WPTR.OFF.key ∉ [R.ACQ_RECMEM.FREE tl, R.ACQ_RECMEM.MAX_USED tl].map Fld.key := by
  simp only [List.map_cons, List.map_nil, List.mem_cons, List.not_mem_nil, or_false, Fld.key, R.ACQ_DRAIN_WPTR.OFF, R.ACQ_RECMEM.FREE, R.ACQ_RECMEM.MAX_USED]
  omega

theorem Tx.drainPut_wptr (t : Tx d0) (pad w size : Nat) (bs : List Byte) (len : Nat) (hpos : 0 < size) (hsize : size < 2 ^ 32) :
    (t.drainPut pad w size bs len).d.f R.ACQ_DRAIN_WPTR.OFF = ((if pad = 0 then w else 0) + len) % size / 256 := by
  have hlt := Nat.mod_lt ((if pad = 0 then w else 0) + len) hpos
  refine (Tx.w_f_same _ _ _).trans (Nat.mod_eq_of_lt ?_)
  rw [show 2 ^ R.ACQ_DRAIN_WPTR.OFF.width = 2 ^ 24 from rfl]
  omega

/-- The record leaves the queue, and its shot the tile. -/
theorem Tx.drained_spec (t : Tx d0) (tl id att : Nat) (rest : List (Nat × Nat × Nat)) :
    Drained tl rest (t.d.f R.ACQ_DRAIN_WPTR.OFF) t.d ((((t.upd (.drainQ rest)).freeShot tl id att).showAbove).wb R.ACQ_DRAIN_STAT.WAITING false).d := by
  have hfree := (t.upd (.drainQ rest)).freeShot_confined tl id att
  generalize (t.upd (.drainQ rest)).freeShot tl id att = u at hfree
  have hshow := u.showAbove_confined
  have hq : Confined drainPieces (drainFlds tl) t.d (t.upd (.drainQ rest)).d := (t.upd_confined _ (ps := [.drainQ])).mono (by decide) (by simp)
  have hdrainQ : u.showAbove.d.drainQ = rest := (show u.showAbove.d.drainQ = u.d.drainQ from hshow.same .drainQ (by decide)).trans (hfree.same .drainQ (by decide))
  refine ⟨(Tx.w_f_same _ _ _).trans rfl, hdrainQ, ?_, ?_⟩
  · exact (Tx.w_f_other _ _ _ _ (by decide)).trans ((hshow.f (by decide)).trans (hfree.f (drainWptr_notMem tl)))
  · exact ((hq.within hfree (by decide) (by simp [drainFlds])).within hshow (by decide) (by simp [drainFlds])).wb (by simp [drainFlds]) _

theorem Tx.drainOne_drained (t : Tx d0) {tl id att : Nat} {rest : List (Nat × Nat × Nat)} {x : Shot} (hq : t.d.drainQ = (tl, id, att) :: rest)
    (hx : t.d.shotOf tl id att = some x) (hgood : t.d.hsBad x tl = none) (hroom : t.d.drainFull (t.d.drainPad x.length) x.length = false)
    (hsize : (t.d.ring 0).size < 2 ^ 32) :
    Drained tl rest (((if t.d.drainPad x.length = 0 then 256 * t.d.f R.ACQ_DRAIN_WPTR.OFF else 0) + x.length) % (t.d.ring 0).size / 256) t.d t.drainOne.d := by
  have hpos : 0 < (t.d.ring 0).size := by
    by_contra hzero
    simp [Device.drainFull, show (t.d.ring 0).size = 0 by omega] at hroom
  rw [t.drainOne_eq hq hx hgood, hroom, if_neg Bool.false_ne_true]
  have hbytes : Confined drainPieces (drainFlds tl) t.d (t.drainBytes tl x).2.d := Confined.drainBytes ((Confined.refl _).mono (by simp) (by simp)) x
  have hput := hbytes.drainPut (t.d.drainPad x.length) (256 * t.d.f R.ACQ_DRAIN_WPTR.OFF) (t.d.ring 0).size (t.drainBytes tl x).1 x.length
  have hwptr := (t.drainBytes tl x).2.drainPut_wptr (t.d.drainPad x.length) (256 * t.d.f R.ACQ_DRAIN_WPTR.OFF) (t.d.ring 0).size (t.drainBytes tl x).1 x.length hpos hsize
  obtain ⟨hwaiting, hdrainQ, hkept, hconf⟩ := Tx.drained_spec ((t.drainBytes tl x).2.drainPut (t.d.drainPad x.length) (256 * t.d.f R.ACQ_DRAIN_WPTR.OFF)
    (t.d.ring 0).size (t.drainBytes tl x).1 x.length) tl id att rest
  exact ⟨hwaiting, hdrainQ, hkept.trans hwptr, hput.trans hconf⟩

theorem exec_drainRecord (s : State) : exec .drainRecord s = .next { s with dev := (Tx.start s.dev).drainOne.d } := rfl

/-- Settles O37. The drain does the one record or waits; the writes of EN have their cases in `RingWritten`. -/
theorem drainAndRings : Obligations.DrainAndRings := by
  unfold Obligations.DrainAndRings
  refine ⟨fun s hq => ?_, fun s x hx hgood => ?_, fun s data hon htest => ?_, fun s n data hon htest => ?_⟩
  · let t := (Tx.start s.dev).wb R.ACQ_DRAIN_STAT.WAITING false
    have hdrain : (Tx.start s.dev).drainOne = t := by
      rw [Tx.drainOne, show (Tx.start s.dev).d.drainQ = [] from hq]
    have hconf : Confined [] [R.ACQ_DRAIN_STAT.WAITING] (Tx.start s.dev).d t.d := Tx.w_confined _ _ _
    refine ⟨{ s with dev := t.d }, by rw [exec_drainRecord, hdrain], Tx.w_f_same _ _ _, hconf.fields, ?_⟩
    exact congrArg (fun d => { s with dev := d }) (hconf.eq_taking.trans rfl)
  · intro d size w r pad stays hsize
    obtain ⟨⟨tl, id, att⟩, hhead, hshot⟩ := Option.bind_eq_some_iff.mp hx
    obtain ⟨rest, hq⟩ := List.head?_eq_some_iff.mp hhead
    have hbad : (Tx.start s.dev).d.hsBad x tl = none := by
      rw [hq] at hgood
      exact hgood
    let t := (Tx.start s.dev).drainOne
    refine ⟨{ s with dev := t.d }, rfl, fun hstays => ?_, fun hgoes => ?_⟩
    · have hdrain : t = (Tx.start s.dev).wb R.ACQ_DRAIN_STAT.WAITING true := ((Tx.start s.dev).drainOne_eq hq hshot hbad).trans (if_pos hstays)
      have hconf : Confined [] [R.ACQ_DRAIN_STAT.WAITING] (Tx.start s.dev).d t.d := hdrain ▸ Tx.w_confined _ _ _
      refine ⟨?_, hconf.fields, congrArg (fun d => { s with dev := d }) (hconf.eq_taking.trans rfl)⟩
      rw [hdrain]
      exact Tx.w_f_same _ _ _
    · obtain ⟨hwaiting, hdrainQ, hwptr, hconf⟩ := (Tx.start s.dev).drainOne_drained hq hshot hbad hgoes hsize
      refine ⟨hwaiting, hdrainQ.trans ?_, hwptr, congrArg (fun d => { s with dev := d }) (hconf.eq_taking.trans rfl)⟩
      rw [show d.drainQ = _ from hq, List.tail_cons]
  · intro d why
    obtain ⟨e, hexec, hthresh, hw⟩ := drainEnable_settles s data hon htest
    refine ⟨_, hexec, hthresh, fun ⟨hoff, hen, hok⟩ => ?_, fun ⟨hoff, hen, hno⟩ => hw.refused hoff hen hno, fun ⟨hup, hen, hidle⟩ => hw.closed hup hen hidle,
      fun ⟨hup, hen, hrun⟩ => hw.denied hup hen hrun, hw.others, fun hno => ?_, fun q x hup hen hidle hx hop hring hothers => ?_⟩
    · obtain ⟨hup, hring, hwptr, -⟩ := hw.opened hoff hen hok
      exact ⟨hup, hring, hwptr⟩
    · have hconf := hw.confined hno
      exact ⟨hconf.fields.mono (by decide), afterAccess_ringWritten hconf⟩
    · have hended := hw.ended hup hen hidle q q.isLt x hx ⟨hop, hring⟩ fun p hp hne z hz => hothers ⟨p, hp⟩ z (fun h => hne (congrArg Fin.val h)) hz
      refine ⟨hended.rptr, hended.cur, hended.busy, hended.out, hended.loud.fields.mono ?_, afterAccess_ringEnded hended⟩
      simp [drainCtlFlds, ringFlds, cqFlds, ringEn, ringWptr, ringDenied, ringShown, ringRptr]
  · intro d why
    have hw := (Tx.accessed s.dev).ringEnable_spec (n := n + 1) (by omega) (data.toNat.testBit 0) htest
    refine ⟨_, exec_streamRingEnable s n data hon, fun ⟨hoff, hen, hok⟩ => ?_, fun ⟨hoff, hen, hno⟩ => hw.refused hoff hen hno,
      fun ⟨hup, hen, hidle⟩ => hw.closed hup hen hidle, fun ⟨hup, hen, hrun⟩ => hw.denied hup hen hrun, hw.others, fun hno => ?_,
      fun q x hup hen hidle hx hop hring hothers => ?_⟩
    · obtain ⟨hup, hring, hwptr, hgaps⟩ := hw.opened hoff hen hok
      exact ⟨hup, hring, hwptr, hgaps (by omega)⟩
    · have hconf := hw.confined hno
      exact ⟨hconf.fields.mono (by simp [ringFlds, ringEn, ringWptr, ringDenied, ringShown]), afterAccess_ringWritten hconf⟩
    · have hended := hw.ended hup hen hidle q q.isLt x hx ⟨hop, hring⟩ fun p hp hne z hz => hothers ⟨p, hp⟩ z (fun h => hne (congrArg Fin.val h)) hz
      refine ⟨hended.rptr, hended.cur, hended.busy, hended.out, hended.loud.fields.mono ?_, afterAccess_ringEnded hended⟩
      simp [ringFlds, cqFlds, ringEn, ringWptr, ringDenied, ringShown, ringRptr]

end Sys2Proof.Machine
end

section
/-! SUPPORT. Shots in record memory: what the operations on them keep of their tile, of the other tiles, and of the SRAM (R295 to R299). -/
namespace Sys2Proof.Machine

variable {d0 : Device}

/-! Shots -/

/-- The operation leaves a shot the shot that it is. -/
def KeepsName (g : Shot → Shot) : Prop := ∀ s, (g s).id = s.id ∧ (g s).attempt = s.attempt ∧ (g s).freed = s.freed

theorem Tx.modShot_shots (t : Tx d0) (tl id att : Nat) (g : Shot → Shot) :
    ((t.modShot tl id att g).d.tile tl).shots = (t.d.tile tl).shots.map (fun s => if s.id == id && s.attempt == att && !s.freed then g s else s) := by
  rw [Tx.modShot, Tx.modTile_tile_same]

theorem Tx.modShot_shotOf (t : Tx d0) (tl id att id' att' : Nat) {g : Shot → Shot} (hg : KeepsName g) :
    (t.modShot tl id' att' g).d.shotOf tl id att =
      (t.d.shotOf tl id att).map (fun s => if s.id == id' && s.attempt == att' && !s.freed then g s else s) := by
  rw [Device.shotOf, t.modShot_shots, List.find?_map, Device.shotOf]
  congr 2
  funext s
  obtain ⟨hid, hatt, hfreed⟩ := hg s
  simp only [Function.comp_apply]
  split <;> simp [*]

/-- A part of the shots that the operation does not change is kept. -/
theorem Tx.modShot_map (t : Tx d0) {β : Type} (q : Shot → β) (tl id att id' att' : Nat) {g : Shot → Shot} (hg : KeepsName g) (hq : ∀ s, q (g s) = q s) :
    ((t.modShot tl id' att' g).d.shotOf tl id att).map q = (t.d.shotOf tl id att).map q := by
  rw [t.modShot_shotOf tl id att id' att' hg, Option.map_map]
  congr 1
  funext s
  simp only [Function.comp_apply]
  split
  · exact hq s
  · rfl

theorem Tx.modShot_same (t : Tx d0) (tl id att : Nat) {g : Shot → Shot} (hg : KeepsName g) :
    (t.modShot tl id att g).d.shotOf tl id att = (t.d.shotOf tl id att).map g := by
  rw [t.modShot_shotOf tl id att id att hg]
  cases hs : t.d.shotOf tl id att with
  | none => rfl
  | some s => rw [Option.map_some, Option.map_some, if_pos (List.find?_some hs)]

/-- Two devices hold the same shots of a tile as they are named, by what `q` tells of them. -/
def ShotsKept {β : Type} (q : Shot → β) (tl : Nat) (d e : Device) : Prop := ∀ id att, (e.shotOf tl id att).map q = (d.shotOf tl id att).map q

theorem ShotsKept.trans {β : Type} {q : Shot → β} {tl : Nat} {d e g : Device} (h : ShotsKept q tl d e) (h' : ShotsKept q tl e g) : ShotsKept q tl d g :=
  fun id att => (h' id att).trans (h id att)

theorem ShotsKept.of_shots {β : Type} (q : Shot → β) {tl : Nat} {d e : Device} (h : (e.tile tl).shots = (d.tile tl).shots) : ShotsKept q tl d e :=
  fun id att => by rw [Device.shotOf, Device.shotOf, h]

/-! The lines of a tile's records -/

/-- The line is one of the tile's record memory or header store. -/
def RecordLine (tl l : Nat) : Prop := (classBase 2 tl ≤ l ∧ l < classBase 2 tl + 16384) ∨ (classBase 4 tl ≤ l ∧ l < classBase 4 tl + 256)

theorem recAddr_line (tl line : Nat) {off : Nat} (h : off < 64) : RecordLine tl (recAddr tl line off / 64) ∧ recAddr tl line off % 64 = off := by
  have hlt := Nat.mod_lt line (show 0 < 16384 by decide)
  simp only [RecordLine, recAddr]
  omega

theorem hsAddr_line (tl line : Nat) : RecordLine tl (hsAddr tl line / 64) ∧ hsAddr tl line % 64 = 0 := by
  have hlt := Nat.mod_lt line (show 0 < 256 by decide)
  simp only [RecordLine, hsAddr]
  omega

/-- What a write of a part of a shot's record keeps: the other tiles, the tile's capture and the segments that wait, and the lines that are not its
records'. -/
structure RecKept (tl : Nat) (d e : Device) : Prop where
  onlyTile : OnlyTile tl d e
  cap : TileKept (fun x => (x.cap, x.segQ)) d e
  sram : ∀ a, ¬ RecordLine tl (a / 64) → e.sram.get a = d.sram.get a

namespace RecKept

variable {tl : Nat} {d e g : Device}

theorem refl (tl : Nat) (d : Device) : RecKept tl d d := ⟨fun _ _ => rfl, fun _ => rfl, fun _ _ => rfl⟩

theorem trans (h : RecKept tl d e) (h' : RecKept tl e g) : RecKept tl d g :=
  ⟨h.onlyTile.trans h'.onlyTile, h.cap.trans h'.cap, fun a ha => (h'.sram a ha).trans (h.sram a ha)⟩

theorem of_same (htiles : Same d e .tiles) (hsram : Same d e .sram) : RecKept tl d e :=
  ⟨.of_tile (Device.tile_congr htiles), .of_tile _ (Device.tile_congr htiles), fun a _ => by rw [show e.sram = d.sram from hsram]⟩

theorem of_confined {ps : List Piece} {Gs : List Fld} (h : Confined ps Gs d e) (htiles : Piece.tiles ∉ ps) (hsram : Piece.sram ∉ ps) : RecKept tl d e :=
  .of_same (h.same _ htiles) (h.same _ hsram)

end RecKept

section
variable (t : Tx d0) (tl : Nat)

theorem Tx.modTile_recKept {g : Tile → Tile} (hg : ∀ x, ((g x).cap, (g x).segQ) = (x.cap, x.segQ)) : RecKept tl t.d (t.modTile tl g).d :=
  ⟨t.modTile_onlyTile tl g, t.modTile_kept tl hg, fun _ _ => rfl⟩

theorem Tx.modShot_recKept (id att : Nat) (g : Shot → Shot) : RecKept tl t.d (t.modShot tl id att g).d := t.modTile_recKept tl fun _ => rfl

/-- The lines written are a record's. -/
theorem Tx.putSram_recKept {u v : Tx d0} (htiles : v.d.tiles = u.d.tiles) {a : Nat} {bs : List Byte} (hsram : v.d.sram = u.d.sram.put a bs)
    (hline : RecordLine tl (a / 64)) (hlen : a % 64 + bs.length ≤ 64) : RecKept tl u.d v.d := by
  refine ⟨.of_tile (Device.tile_congr htiles), .of_tile _ (Device.tile_congr htiles), fun b hb => ?_⟩
  have hne : b / 64 ≠ a / 64 := fun h => hb (h ▸ hline)
  rw [hsram, Store.get_put_other _ _ _ _ (by omega)]

theorem Tx.wrote_recKept (l : Nat) : RecKept tl t.d (t.wrote l).d := by
  unfold Tx.wrote
  split
  · exact .of_same rfl rfl
  · exact .refl _ _

theorem Tx.writeLine_recKept {l : Nat} (hline : RecordLine tl l) (bs : List Byte) : RecKept tl t.d (t.writeLine l bs).d := by
  have hover : RecKept tl t.d (t.overwritten l).d := .of_confined (t.overwritten_confined l) (by decide) (by decide)
  refine (hover.trans (Tx.wrote_recKept _ tl l)).trans (Tx.putSram_recKept tl rfl (a := l * 64) rfl ?_ ?_)
  · rwa [Nat.mul_div_cancel _ (by decide)]
  · simp

theorem Tx.writeIn_recKept {a : Nat} {bs : List Byte} (hline : RecordLine tl (a / 64)) (hlen : a % 64 + bs.length ≤ 64) :
    RecKept tl t.d (t.writeIn a bs).d := by
  let u := t.wrote (a / 64)
  have hwrote : RecKept tl t.d u.d := t.wrote_recKept tl (a / 64)
  have hclear : RecKept tl t.d (if u.d.tagOf (a / 64) = 2 then u.upd (.lines (a / 64) (List.replicate 64 0)) else u).d := by
    split
    · refine hwrote.trans (Tx.putSram_recKept tl rfl (a := a / 64 * 64) rfl ?_ ?_)
      · rwa [Nat.mul_div_cancel _ (by decide)]
      · simp
    · exact hwrote
  refine (Tx.each_keeps (fun v => RecKept tl t.d v.d) _ (List.range bs.length) (fun i t => t.upd (.err (a + i) 0)) hclear fun i _ v hv =>
    hv.trans (.of_same rfl rfl)).trans (Tx.putSram_recKept tl rfl rfl hline hlen)

theorem Tx.writeBytes_line {a : Nat} {bs : List Byte} (hlen : a % 64 + bs.length ≤ 64) : t.writeBytes a bs = t.writePart a bs := by
  rw [Tx.writeBytes, List.take_of_length_le (by omega), List.drop_of_length_le (by omega)]
  rfl

theorem Tx.writeBytes_recKept {a : Nat} {bs : List Byte} (hline : RecordLine tl (a / 64)) (hlen : a % 64 + bs.length ≤ 64) :
    RecKept tl t.d (t.writeBytes a bs).d := by
  rw [t.writeBytes_line hlen, Tx.writePart]
  split
  · exact .refl _ _
  · split
    · exact t.writeLine_recKept tl hline bs
    · exact t.writeIn_recKept tl hline hlen

theorem Shot.header_length (x : Shot) (tl : Nat) : (x.header tl).length = 32 := by simp [Shot.header, length_leBytes]

theorem Tx.putHeader_recKept (id att : Nat) : RecKept tl t.d (t.putHeader tl id att).d := by
  unfold Tx.putHeader
  split
  · exact .refl _ _
  · next x _ =>
    obtain ⟨hrec, hoff⟩ := recAddr_line tl x.base (off := 0) (by decide)
    obtain ⟨hhs, hoff'⟩ := hsAddr_line tl x.hs
    have hlen := x.header_length tl
    exact (t.writeBytes_recKept tl hrec (by omega)).trans (Tx.writeBytes_recKept _ tl hhs (by omega))

theorem Tx.flagTile_recKept (mask : Nat) : RecKept tl t.d (t.flagTile tl mask).d := by
  unfold Tx.flagTile
  split
  · exact .refl _ _
  · exact .of_same rfl rfl

end

end Sys2Proof.Machine
end

section
/-! SUPPORT. The write of a capture's segment (R291, R296, R299). -/
namespace Sys2Proof.Machine

variable {d0 : Device}

/-! The segment's header -/

theorem Tx.segHeader_confined (t : Tx d0) (tl : Nat) (c : Capture) (xs : List Int) : Confined [.freeN] [] t.d (t.segHeader tl c xs).2.d := by
  have hopen : ∀ (u : Tx d0) (b : Bool), Confined [.freeN] [] u.d (if b = true then u.open else (0, u)).2.d := by
    intro u b
    split
    · exact u.upd_confined _
    · exact (Confined.refl _).mono (by simp) (by simp)
  exact (hopen _ _).trans (hopen _ _)

theorem Tx.segHeader_length (t : Tx d0) (tl : Nat) (c : Capture) (xs : List Int) : (t.segHeader tl c xs).1.length = 64 := by
  simp [Tx.segHeader, length_leBytes]

theorem length_sampleBytes (xs : List Int) : (sampleBytes xs).length = 2 * xs.length := by
  induction xs with
  | nil => rfl
  | cons x r ih =>
    rw [sampleBytes, List.flatMap_cons, List.length_append, ← sampleBytes, ih, length_leBytes, List.length_cons]
    omega

/-! The write -/

/-- The segment as it is written to its shot's record. -/
def Device.newSeg (d : Device) (tl : Nat) (x : Shot) (header samples : List Byte) : Seg :=
  { header := setByte header 6 (rb header 6 ||| (x.flags &&& 0x40))
    samples := samples ++ List.replicate ((64 - samples.length % 64) % 64) (0 : Byte), line := x.used, hs := (d.tile tl).hs }

theorem Device.newSeg_lines (d : Device) (tl : Nat) (x : Shot) (header samples : List Byte) :
    (d.newSeg tl x header samples).lines = 1 + (samples.length + 63) / 64 := by
  simp only [Seg.lines, Device.newSeg, List.length_append, List.length_replicate]
  omega

/-- The shot has one more segment. -/
def Shot.withSeg (g : Seg) (s : Shot) : Shot := { s with segs := s.segs ++ [g], used := s.used + g.lines, flags := s.flags ||| rb g.header 6 }

def Shot.oneLess (s : Shot) : Shot := { s with owed := s.owed - 1 }

/-- The tile's header store has one line less to come. -/
def Tile.nextHs (x : Tile) : Tile := { x with hs := (x.hs + 1) % 256 }

/-- The lines of a segment, with its shot's header, are written. -/
def Tx.putSeg (t : Tx d0) (tl id att : Nat) (x : Shot) (g : Seg) : Tx d0 :=
  let t := (t.writeBytes (recAddr tl (x.base + g.line) 0) g.header).writeBytes (hsAddr tl g.hs) g.header
  let t := t.each (List.range (g.lines - 1)) (fun i t =>
    t.writeLine (recAddr tl (x.base + g.line + 1 + i) 0 / 64) ((g.samples.drop (64 * i)).take 64))
  (t.putHeader tl id att).flagTile tl (rb g.header 6 &&& 0x7F)

/-- The shot is told of a segment that its reservation has room for. -/
def Tx.countSeg (t : Tx d0) (tl id att : Nat) (g : Seg) : Tx d0 :=
  ((t.modShot tl id att Shot.oneLess).modTile tl Tile.nextHs).modShot tl id att (Shot.withSeg g)

section
variable (t : Tx d0) {tl id att : Nat} {x : Shot} {header samples : List Byte}

theorem Tx.writeSeg_none (h : t.d.shotOf tl id att = none) : t.writeSeg tl id att header samples = (false, t) := by
  rw [Tx.writeSeg, h]

theorem Tx.writeSeg_over (h : t.d.shotOf tl id att = some x) (hover : x.lines < recordLines x.results.length (x.segLines + (1 + (samples.length + 63) / 64))) :
    t.writeSeg tl id att header samples = (false, (t.modShot tl id att Shot.oneLess).resvOvf tl id att) := by
  rw [← t.d.newSeg_lines tl x header samples] at hover
  rw [Tx.writeSeg, h]
  exact if_pos hover

theorem Tx.writeSeg_fits (h : t.d.shotOf tl id att = some x) (hfits : recordLines x.results.length (x.segLines + (1 + (samples.length + 63) / 64)) ≤ x.lines) :
    t.writeSeg tl id att header samples =
      (true, (t.countSeg tl id att (t.d.newSeg tl x header samples)).putSeg tl id att x (t.d.newSeg tl x header samples)) := by
  rw [← t.d.newSeg_lines tl x header samples] at hfits
  rw [Tx.writeSeg, h]
  exact if_neg (Nat.not_lt.mpr hfits)

end

/-! What it may change -/

/-- What the write of a segment may change beside the error log. -/
def segPieces : List Piece := [.pba, .evNow] ++ recPieces

namespace Confined

section
variable {ps : List Piece} {Gs : List Fld} {d : Device} {t : Tx d0} (h : Confined ps Gs d t.d) (hps : segPieces ⊆ ps) (hlog : LogCovered ps Gs d)
include h hps hlog

theorem resvOvf (tl id att : Nat) (hGs : R.ACQ_EVT.RESV_OVF tl ∈ Gs) : Confined ps Gs d (t.resvOvf tl id att).d := by
  have hrec : recPieces ⊆ ps := fun p hp => hps (List.mem_append_right _ hp)
  exact ((h.modShot hrec tl id att _).putHeader hrec hlog tl id att).ev hGs fun p hp => hps (List.mem_append_left _ hp)

theorem putSeg (tl id att : Nat) (x : Shot) (g : Seg) : Confined ps Gs d (t.putSeg tl id att x g).d := by
  have hrec : recPieces ⊆ ps := fun p hp => hps (List.mem_append_right _ hp)
  have hlines : linePieces ⊆ ps := fun p hp => hrec (List.mem_append_right _ hp)
  refine Confined.flagTile (Confined.putHeader ?_ hrec hlog _ _ _) hrec _ _
  exact Tx.each_keeps (fun u => Confined ps Gs d u.d) _ _ _ ((h.writeBytes hlines hlog _ _).writeBytes hlines hlog _ _) fun _ _ _ hu => hu.writeLine hlines hlog _ _

theorem writeSeg (tl id att : Nat) (header samples : List Byte) (hGs : R.ACQ_EVT.RESV_OVF tl ∈ Gs) :
    Confined ps Gs d (t.writeSeg tl id att header samples).2.d := by
  have hrec : recPieces ⊆ ps := fun p hp => hps (List.mem_append_right _ hp)
  cases hx : t.d.shotOf tl id att with
  | none => rwa [t.writeSeg_none hx]
  | some x =>
    by_cases hover : x.lines < recordLines x.results.length (x.segLines + (1 + (samples.length + 63) / 64))
    · rw [t.writeSeg_over hx hover]
      exact (h.modShot hrec _ _ _ _).resvOvf hps hlog tl id att hGs
    · rw [t.writeSeg_fits hx (by omega)]
      exact (((h.modShot hrec _ _ _ _).modTile hrec _ _).modShot hrec _ _ _ _).putSeg hps hlog _ _ _ _ _

end

end Confined

end Sys2Proof.Machine
end

section
/-! SUPPORT. What the write of a segment keeps, and what it makes of the shot. -/
namespace Sys2Proof.Machine

variable {d0 : Device}

section
variable (t : Tx d0) (tl : Nat)

theorem Tx.resvOvf_recKept (id att : Nat) : RecKept tl t.d (t.resvOvf tl id att).d := by
  have hev : ∀ u : Tx d0, RecKept tl u.d (u.ev (R.ACQ_EVT.RESV_OVF tl)).d := fun u => .of_confined (u.ev_confined _) (by decide) (by decide)
  exact ((t.modShot_recKept tl id att _).trans (Tx.putHeader_recKept _ tl id att)).trans (hev _)

theorem Tx.putSeg_recKept (id att : Nat) (x : Shot) {g : Seg} (hg : g.header.length = 64) : RecKept tl t.d (t.putSeg tl id att x g).d := by
  obtain ⟨hrec, hoff⟩ := recAddr_line tl (x.base + g.line) (off := 0) (by decide)
  obtain ⟨hhs, hoff'⟩ := hsAddr_line tl g.hs
  have hheader := (t.writeBytes_recKept tl hrec (bs := g.header) (by omega)).trans (Tx.writeBytes_recKept _ tl hhs (bs := g.header) (by omega))
  refine (RecKept.trans ?_ (Tx.putHeader_recKept _ tl id att)).trans (Tx.flagTile_recKept _ tl _)
  exact Tx.each_keeps (fun u => RecKept tl t.d u.d) _ _ _ hheader fun i _ u hu => hu.trans (u.writeLine_recKept tl (recAddr_line tl _ (by decide)).1 _)

theorem Tx.countSeg_recKept (id att : Nat) (g : Seg) : RecKept tl t.d (t.countSeg tl id att g).d := by
  let a := t.modShot tl id att Shot.oneLess
  let b := a.modTile tl Tile.nextHs
  exact ((t.modShot_recKept tl id att _).trans (a.modTile_recKept tl (g := Tile.nextHs) fun _ => rfl)).trans (b.modShot_recKept tl id att _)

theorem Tx.writeSeg_recKept (id att : Nat) {header : List Byte} (hlen : header.length = 64) (samples : List Byte) :
    RecKept tl t.d (t.writeSeg tl id att header samples).2.d := by
  cases hx : t.d.shotOf tl id att with
  | none =>
    rw [t.writeSeg_none hx]
    exact .refl _ _
  | some x =>
    by_cases hover : x.lines < recordLines x.results.length (x.segLines + (1 + (samples.length + 63) / 64))
    · rw [t.writeSeg_over hx hover]
      exact (t.modShot_recKept tl id att _).trans (Tx.resvOvf_recKept _ tl id att)
    · rw [t.writeSeg_fits hx (by omega)]
      exact (t.countSeg_recKept tl id att _).trans (Tx.putSeg_recKept _ tl id att x (by simp [Device.newSeg, setByte, hlen]))

end

/-! The segments of the shot -/

section
variable (t : Tx d0) (tl id att : Nat)

/-- The lines of a shot are written, and no part of a tile is touched but its flags. -/
theorem Confined.tile_written {ps : List Piece} {Gs : List Fld} {d e : Device} (h : Confined ps Gs d e) (hps : Piece.tiles ∉ ps) (tl id att : Nat) :
    e.shotOf tl id att = d.shotOf tl id att := by
  rw [Device.shotOf, Device.shotOf, h.tile hps]

theorem wideLog (ps : List Piece) (Gs : List Fld) (d : Device) : LogCovered (.eccLog :: ps) (logFlds ++ Gs) d := .inr ⟨by simp, by simp⟩

/-- The pieces of a record's lines. -/
def lineOnly : List Piece := [.eccLog, .flags, .pba, .evNow] ++ linePieces

theorem Tx.putHeader_lines : Confined lineOnly logFlds t.d (t.putHeader tl id att).d := by
  have h : Confined lineOnly logFlds t.d t.d := (Confined.refl _).mono (by simp) (by simp)
  have hlog : LogCovered lineOnly logFlds t.d := .inr ⟨by decide, List.Subset.refl _⟩
  unfold Tx.putHeader
  split
  · exact h
  · exact (h.writeBytes (by decide) hlog _ _).writeBytes (by decide) hlog _ _

theorem Tx.putSeg_lines (x : Shot) (g : Seg) : Confined lineOnly logFlds t.d (t.putSeg tl id att x g).d := by
  have h : Confined lineOnly logFlds t.d t.d := (Confined.refl _).mono (by simp) (by simp)
  have hlog : LogCovered lineOnly logFlds t.d := .inr ⟨by decide, List.Subset.refl _⟩
  have hlines : linePieces ⊆ lineOnly := by decide
  have hsamples := Tx.each_keeps (fun u => Confined lineOnly logFlds t.d u.d) _ (List.range (g.lines - 1))
    (fun i t => t.writeLine (recAddr tl (x.base + g.line + 1 + i) 0 / 64) ((g.samples.drop (64 * i)).take 64))
    ((h.writeBytes hlines hlog (recAddr tl (x.base + g.line) 0) g.header).writeBytes hlines hlog (hsAddr tl g.hs) g.header)
    fun _ _ _ hu => hu.writeLine hlines hlog _ _
  have hheader := hsamples.trans (Tx.putHeader_lines _ tl id att)
  exact .ite hheader (hheader.upd rfl (by simp [Upd.hits, lineOnly]))

theorem keepsName_oneLess : KeepsName Shot.oneLess := fun _ => ⟨rfl, rfl, rfl⟩

def Shot.overflowed (s : Shot) : Shot := { s with hflags := s.hflags ||| 4 }

theorem Tx.resvOvf_shotOf : (t.resvOvf tl id att).d.shotOf tl id att = (t.d.shotOf tl id att).map Shot.overflowed := by
  let a := t.modShot tl id att Shot.overflowed
  have hev := (a.putHeader tl id att).ev_confined (R.ACQ_EVT.RESV_OVF tl)
  exact (hev.tile_written (by decide) tl id att).trans (((a.putHeader_lines tl id att).tile_written (by decide) tl id att).trans
    (t.modShot_same tl id att fun _ => ⟨rfl, rfl, rfl⟩))

theorem Tx.countSeg_shotOf (g : Seg) : (t.countSeg tl id att g).d.shotOf tl id att = (t.d.shotOf tl id att).map (fun x => x.oneLess.withSeg g) := by
  rw [Tx.countSeg, Tx.modShot_same _ tl id att (g := Shot.withSeg g) (fun _ => ⟨rfl, rfl, rfl⟩)]
  have htile : ((t.modShot tl id att Shot.oneLess).modTile tl Tile.nextHs).d.shotOf tl id att =
      (t.modShot tl id att Shot.oneLess).d.shotOf tl id att := by
    rw [Device.shotOf, Tx.modTile_tile_same, Device.shotOf, Tile.nextHs]
  rw [htile, t.modShot_same tl id att keepsName_oneLess, Option.map_map]
  rfl

/-- What the write of a segment of a shot's capture makes of the shot (R296). -/
structure SegOutcome (tl id att : Nat) (x : Shot) (fits : Bool) (e : Device) : Prop where
  segs : (e.shotOf tl id att).map (fun s => s.segs.length) = some (x.segs.length + fits.toNat)
  overflow : fits = false → e.f (R.ACQ_EVT.RESV_OVF tl) = 1

theorem Tx.writeSeg_outcome {x : Shot} (h : t.d.shotOf tl id att = some x) (header samples : List Byte) :
    (t.writeSeg tl id att header samples).1 = decide (recordLines x.results.length (x.segLines + (1 + (samples.length + 63) / 64)) ≤ x.lines) ∧
      SegOutcome tl id att x (t.writeSeg tl id att header samples).1 (t.writeSeg tl id att header samples).2.d := by
  by_cases hfits : recordLines x.results.length (x.segLines + (1 + (samples.length + 63) / 64)) ≤ x.lines
  · rw [t.writeSeg_fits h hfits, decide_eq_true hfits]
    refine ⟨rfl, ?_, by simp⟩
    rw [(Tx.putSeg_lines _ tl id att x _).tile_written (by decide), t.countSeg_shotOf, h]
    simp [Shot.withSeg, Shot.oneLess]
  · rw [t.writeSeg_over h (by omega), decide_eq_false hfits]
    refine ⟨rfl, ?_, fun _ => Tx.ev_f_same _ _ rfl⟩
    rw [Tx.resvOvf_shotOf, t.modShot_same tl id att keepsName_oneLess, h]
    simp [Shot.overflowed, Shot.oneLess]

end

end Sys2Proof.Machine
end

section
/-! SUPPORT. A segment ends: its capture counts it, and its shot may be ready to drain (R291, R302, R310). -/
namespace Sys2Proof.Machine

variable {d0 : Device}

/-! The capture -/

/-- The capture under way, where there is one, is the segment's. -/
def Device.segOwn (d : Device) (tl : Nat) (c : Capture) : Bool := (d.tile tl).cap.all (fun y => y.shot == c.shot && y.attempt == c.attempt)

/-- The capture under way has had its last segment. -/
def Device.capEnds (d : Device) (tl : Nat) (c : Capture) : Bool :=
  d.segOwn tl c && (d.tile tl).segQ.isEmpty && (d.tile tl).cap.any (fun y => y.stage == 3 && decide (rn y.crec 6 2 ≤ y.segs))

/-- A segment that was written is counted. -/
def Tx.segCounted (t : Tx d0) (tl : Nat) (own done : Bool) : Tx d0 :=
  if done then (t.inc (R.ACQ_CNT.SEGMENTS tl)).when own (fun t => t.inc (R.ACQ_STAT.SEGDONE tl)) else t

theorem Tx.segCounted_confined (t : Tx d0) (tl : Nat) (own done : Bool) :
    Confined [] [R.ACQ_CNT.SEGMENTS tl, R.ACQ_STAT.SEGDONE tl] t.d (t.segCounted tl own done).d := by
  have h : Confined [] [R.ACQ_CNT.SEGMENTS tl, R.ACQ_STAT.SEGDONE tl] t.d t.d := (Confined.refl _).mono (by simp) (by simp)
  have hinc := h.inc (F := R.ACQ_CNT.SEGMENTS tl) (by simp)
  exact .ite (.ite (hinc.inc (by simp)) hinc) h

theorem Tx.segWritten_eq (t : Tx d0) (tl : Nat) (c : Capture) (done : Bool) :
    t.segWritten tl c done = if t.d.capEnds tl c then (t.segCounted tl (t.d.segOwn tl c) done).capOver tl else t.segCounted tl (t.d.segOwn tl c) done := by
  have htile : ∀ own, (t.segCounted tl own done).d.tile = t.d.tile := fun own => (t.segCounted_confined tl own done).tile (by simp)
  simp only [Tx.segCounted] at htile ⊢
  cases hcap : (t.d.tile tl).cap with
  | none => simp [Tx.segWritten, Device.capEnds, Device.segOwn, htile, hcap]
  | some x =>
    simp only [Tx.segWritten, Device.capEnds, Device.segOwn, htile, hcap, Option.all_some, Option.any_some]
    refine if_congr ?_ rfl rfl
    simp only [Bool.and_eq_true, beq_iff_eq, decide_eq_true_eq]
    tauto

theorem Tx.noteBusy_confined (t : Tx d0) (tl : Nat) : Confined [.tiles] [] t.d (t.noteBusy tl).d := by
  have h : Confined [.tiles] [] t.d t.d := (Confined.refl _).mono (by simp) (by simp)
  unfold Tx.noteBusy
  split
  · exact h
  · exact .ite (t.modTile_confined _ _) h

theorem Tx.noteBusy_onlyTile (t : Tx d0) (tl : Nat) : OnlyTile tl t.d (t.noteBusy tl).d := by
  unfold Tx.noteBusy
  split
  · exact fun _ _ => rfl
  · split
    · exact t.modTile_onlyTile _ _
    · exact fun _ _ => rfl

theorem Tx.noteBusy_shots (t : Tx d0) (tl : Nat) : ((t.noteBusy tl).d.tile tl).shots = (t.d.tile tl).shots ∧
    ((t.noteBusy tl).d.tile tl).segQ = (t.d.tile tl).segQ := by
  unfold Tx.noteBusy
  split
  · exact ⟨rfl, rfl⟩
  · split
    · rw [Tx.modTile_tile_same]
      exact ⟨rfl, rfl⟩
    · exact ⟨rfl, rfl⟩

/-- What the end of a capture makes of the device (R291). -/
structure CapEnded (tl : Nat) (d e : Device) : Prop where
  cap : (e.tile tl).cap = none
  state : e.f (R.ACQ_STAT.STATE tl) = 0
  segQ : (e.tile tl).segQ = (d.tile tl).segQ
  shots : (e.tile tl).shots = (d.tile tl).shots
  onlyTile : OnlyTile tl d e
  confined : Confined [.tiles] [R.ACQ_STAT.STATE tl] d e

theorem Tx.capOver_spec (t : Tx d0) (tl : Nat) : CapEnded tl t.d (t.capOver tl).d := by
  obtain ⟨hshots, hsegQ⟩ := t.noteBusy_shots tl
  let a := t.noteBusy tl
  let b := a.modTile tl (fun x => { x with cap := none })
  have hb : b.d.tile tl = { a.d.tile tl with cap := none } := a.modTile_tile_same tl _
  have hcap : (b.d.tile tl).cap = none := by rw [hb]
  have hover : t.capOver tl = b.w (R.ACQ_STAT.STATE tl) 0 := b.showCap_none hcap
  have htile : (t.capOver tl).d.tile = b.d.tile := by rw [hover]; rfl
  refine ⟨by rw [htile, hcap], ?_, by rw [htile, hb, ← hsegQ], by rw [htile, hb, ← hshots], ?_, ?_⟩
  · rw [hover]
    exact (Tx.w_f_same _ _ _).trans (Nat.zero_mod _)
  · exact ((t.noteBusy_onlyTile tl).trans (a.modTile_onlyTile tl _)).trans (.of_tile htile)
  · rw [hover]
    exact (((t.noteBusy_confined tl).within (a.modTile_confined tl _) (by simp) (by simp)).mono (by simp) (by simp)).w (by simp) _

/-! Readiness -/

theorem Tx.tryReady_confined (t : Tx d0) (tl : Nat) : Confined [.tiles, .drainQ] [] t.d (t.tryReady tl).d :=
  .each _ _ fun s _ u => ((u.modShot_confined tl s.id s.attempt (fun s => { s with ready := some u.now.toNat })).mono (by simp) (by simp)).upd rfl
    (by simp [Upd.hits])

theorem Tx.tryReady_recKept (t : Tx d0) (tl : Nat) : RecKept tl t.d (t.tryReady tl).d :=
  Tx.each_keeps (fun u => RecKept tl t.d u.d) _ _ _ (.refl _ _) fun s _ u hu =>
    (hu.trans (u.modShot_recKept tl s.id s.attempt (fun s => { s with ready := some u.now.toNat }))).trans (.of_same rfl rfl)

theorem Tx.tryReady_shots (t : Tx d0) (tl : Nat) : ShotsKept (fun s => s.segs.length) tl t.d (t.tryReady tl).d :=
  Tx.each_keeps (fun u => ShotsKept (fun s => s.segs.length) tl t.d u.d) _ _ _ (fun _ _ => rfl) fun s _ u hu =>
    (hu.trans fun id att => u.modShot_map _ tl id att s.id s.attempt (g := fun s => { s with ready := some u.now.toNat }) (fun _ => ⟨rfl, rfl, rfl⟩) fun _ => rfl).trans
      (.of_shots _ rfl)

/-! The whole -/

/-- The samples of a segment as they are stored: those before the ADC's history are 0. -/
def segSamples (c : Capture) (from' : Int) (samples : List Int) : List Int :=
  (samples.take c.count).zipIdx.map (fun (x, k) => if c.first + k < from' then 0 else x)

/-- The segment leaves the queue, cut or whole. -/
def Tx.segTaken (t : Tx d0) (tl : Nat) (c : Capture) (rest : List Capture) : Tx d0 :=
  let a := t.modTile tl (fun x => { x with segQ := rest })
  if c.flags &&& 4 = 0 then a else a.ev (R.ACQ_EVT.TRUNC tl)

/-- The segment's samples, its header and its lines are written. -/
def Tx.segStored (t : Tx d0) (tl : Nat) (c : Capture) (xs : List Int) : Bool × Tx d0 :=
  (t.segHeader tl c xs).2.writeSeg tl c.shot c.attempt (t.segHeader tl c xs).1 (if (rb c.crec 34).testBit 0 then [] else sampleBytes xs)

theorem effSegmentEnd_eq (t : Tx d0) {tl : Nat} {c : Capture} {rest : List Capture} (samples : List Int) (hq : (t.d.tile tl).segQ = c :: rest)
    (hlast : c.last ≤ t.d.now.toNat) (hcomb : t.d.combed tl = false) : ∃ from' : Int,
      effSegmentEnd tl samples t = (((t.segTaken tl c rest).segStored tl c (segSamples c from' samples)).2.segWritten tl c
        ((t.segTaken tl c rest).segStored tl c (segSamples c from' samples)).1).tryReady tl := by
  let a := t.modTile tl (fun x => { x with segQ := rest })
  have hcomb' : a.d.combed tl = false := by
    rw [Device.combed, t.modTile_tile_same]
    exact hcomb
  refine ⟨4 * a.d.adcStart tl, ?_⟩
  rw [effSegmentEnd, hq]
  refine (if_neg (Nat.not_lt.mpr hlast)).trans ?_
  have hseen : (t.modTile tl (fun x => { x with segQ := rest })).seen tl c.first.toNat (samples.take c.count) = (samples.take c.count, a) :=
    if_neg (by simp [hcomb', a])
  dsimp only
  rw [hseen]
  rfl

end Sys2Proof.Machine
end

section
/-! SUPPORT. The end of a segment as a whole. -/
namespace Sys2Proof.Machine

variable {d0 : Device}

/-! The parts of it -/

/-- What the segment's leaving the queue makes of the device. -/
structure SegTaken (tl : Nat) (c : Capture) (rest : List Capture) (d e : Device) : Prop where
  tile : e.tile tl = { d.tile tl with segQ := rest }
  onlyTile : OnlyTile tl d e
  trunc : e.f (R.ACQ_EVT.TRUNC tl) = if c.flags &&& 4 = 0 then d.f (R.ACQ_EVT.TRUNC tl) else 1
  confined : Confined [.tiles, .pba, .evNow] [R.ACQ_EVT.TRUNC tl] d e

theorem Tx.segTaken_spec (t : Tx d0) (tl : Nat) (c : Capture) (rest : List Capture) : SegTaken tl c rest t.d (t.segTaken tl c rest).d := by
  let a := t.modTile tl (fun x => { x with segQ := rest })
  have ha := t.modTile_confined tl (fun x => { x with segQ := rest })
  have htile : a.d.tile tl = { t.d.tile tl with segQ := rest } := t.modTile_tile_same tl _
  have hev := a.ev_confined (R.ACQ_EVT.TRUNC tl)
  unfold Tx.segTaken
  split
  · next h => exact ⟨htile, t.modTile_onlyTile tl _, by rw [if_pos h]; rfl, ha.mono (by simp) (by simp)⟩
  · next h =>
    have hsame := hev.tile (by decide)
    refine ⟨(congrFun hsame tl).trans htile, (t.modTile_onlyTile tl _).trans (.of_tile hsame), ?_, (ha.mono (by simp) (by simp)).within hev (by simp) (by simp)⟩
    rw [if_neg h]
    exact a.ev_f_same _ rfl

theorem Tx.segStored_recKept (t : Tx d0) (tl : Nat) (c : Capture) (xs : List Int) : RecKept tl t.d (t.segStored tl c xs).2.d :=
  (RecKept.of_confined (t.segHeader_confined tl c xs) (by decide) (by decide)).trans
    (Tx.writeSeg_recKept _ tl c.shot c.attempt (t.segHeader_length tl c xs) _)

/-- What the end of a segment may change beside the error log. -/
def segEndPieces : List Piece := [.freeN, .drainQ] ++ segPieces

def segEndFlds (tl : Nat) : List Fld :=
  [R.ACQ_EVT.TRUNC tl, R.ACQ_EVT.RESV_OVF tl, R.ACQ_CNT.SEGMENTS tl, R.ACQ_STAT.SEGDONE tl, R.ACQ_STAT.STATE tl]

theorem Confined.segStored {ps : List Piece} {Gs : List Fld} {d : Device} {t : Tx d0} (h : Confined ps Gs d t.d) (hps : segEndPieces ⊆ ps)
    (hlog : LogCovered ps Gs d) (tl : Nat) (c : Capture) (xs : List Int) (hGs : R.ACQ_EVT.RESV_OVF tl ∈ Gs) : Confined ps Gs d (t.segStored tl c xs).2.d := by
  have hheader := h.within (t.segHeader_confined tl c xs) (fun p hp => hps (List.mem_append_left _ (by simp_all))) (by simp)
  exact hheader.writeSeg (fun p hp => hps (List.mem_append_right _ hp)) hlog _ _ _ _ _ hGs

/-- The stored bytes of a segment, in lines (R299). -/
theorem length_segSamples (c : Capture) (from' : Int) (samples : List Int) : (segSamples c from' samples).length = min c.count samples.length := by
  simp [segSamples]

/-- What the count of a segment makes of the device: it ends the capture with its last one. -/
structure SegCounted (tl : Nat) (c : Capture) (done : Bool) (d e : Device) : Prop where
  cap : (e.tile tl).cap = if d.capEnds tl c then none else (d.tile tl).cap
  state : d.capEnds tl c = true → e.f (R.ACQ_STAT.STATE tl) = 0
  segQ : (e.tile tl).segQ = (d.tile tl).segQ
  shots : (e.tile tl).shots = (d.tile tl).shots
  onlyTile : OnlyTile tl d e
  segments : done = true → d.f (R.ACQ_CNT.SEGMENTS tl) < 2 ^ (R.ACQ_CNT.SEGMENTS tl).width →
    e.f (R.ACQ_CNT.SEGMENTS tl) = satInc (R.ACQ_CNT.SEGMENTS tl).width (d.f (R.ACQ_CNT.SEGMENTS tl))
  segdone : done = true → d.segOwn tl c = true → d.f (R.ACQ_STAT.SEGDONE tl) < 2 ^ (R.ACQ_STAT.SEGDONE tl).width →
    e.f (R.ACQ_STAT.SEGDONE tl) = satInc (R.ACQ_STAT.SEGDONE tl).width (d.f (R.ACQ_STAT.SEGDONE tl))
  confined : Confined [.tiles] [R.ACQ_CNT.SEGMENTS tl, R.ACQ_STAT.SEGDONE tl, R.ACQ_STAT.STATE tl] d e

theorem segEnd_keys (tl : Nat) : (R.ACQ_CNT.SEGMENTS tl).key ≠ (R.ACQ_STAT.SEGDONE tl).key ∧ (R.ACQ_CNT.SEGMENTS tl).key ≠ (R.ACQ_STAT.STATE tl).key ∧
    (R.ACQ_STAT.SEGDONE tl).key ≠ (R.ACQ_STAT.STATE tl).key := by
  simp only [Fld.key, R.ACQ_CNT.SEGMENTS, R.ACQ_STAT.SEGDONE, R.ACQ_STAT.STATE]
  omega

theorem Tx.inc_f_same (t : Tx d0) (F : Fld) (h : t.d.f F < 2 ^ F.width) : (t.inc F).d.f F = satInc F.width (t.d.f F) := t.add_f_same F 1 h

theorem Tx.segWritten_spec (t : Tx d0) (tl : Nat) (c : Capture) (done : Bool) : SegCounted tl c done t.d (t.segWritten tl c done).d := by
  obtain ⟨hcount, hstate, hdone⟩ := segEnd_keys tl
  let u := t.segCounted tl (t.d.segOwn tl c) done
  have hu : Confined [] [R.ACQ_CNT.SEGMENTS tl, R.ACQ_STAT.SEGDONE tl] t.d u.d := t.segCounted_confined _ _ _
  have htile : u.d.tile = t.d.tile := hu.tile (by simp)
  have hsegments : done = true → t.d.f (R.ACQ_CNT.SEGMENTS tl) < 2 ^ (R.ACQ_CNT.SEGMENTS tl).width →
      u.d.f (R.ACQ_CNT.SEGMENTS tl) = satInc (R.ACQ_CNT.SEGMENTS tl).width (t.d.f (R.ACQ_CNT.SEGMENTS tl)) := by
    rintro rfl hlt
    have hinc := t.inc_f_same _ hlt
    rw [← hinc]
    change (if t.d.segOwn tl c then (t.inc (R.ACQ_CNT.SEGMENTS tl)).inc (R.ACQ_STAT.SEGDONE tl) else t.inc (R.ACQ_CNT.SEGMENTS tl)).d.f _ = _
    split
    · exact Tx.add_f_other _ _ _ 1 hcount
    · rfl
  have hsegdone : done = true → t.d.segOwn tl c = true → t.d.f (R.ACQ_STAT.SEGDONE tl) < 2 ^ (R.ACQ_STAT.SEGDONE tl).width →
      u.d.f (R.ACQ_STAT.SEGDONE tl) = satInc (R.ACQ_STAT.SEGDONE tl).width (t.d.f (R.ACQ_STAT.SEGDONE tl)) := by
    rintro rfl hown hlt
    have hother : (t.inc (R.ACQ_CNT.SEGMENTS tl)).d.f (R.ACQ_STAT.SEGDONE tl) = t.d.f (R.ACQ_STAT.SEGDONE tl) := t.add_f_other _ _ 1 hcount.symm
    have hu' : u = (t.inc (R.ACQ_CNT.SEGMENTS tl)).inc (R.ACQ_STAT.SEGDONE tl) := by simp [u, Tx.segCounted, Tx.when, hown]
    rw [hu', Tx.inc_f_same _ _ (by rwa [hother]), hother]
  rw [t.segWritten_eq]
  split
  · next h =>
    obtain ⟨hcap, hstate0, hsegQ, hshots, honly, hconf⟩ := u.capOver_spec tl
    refine ⟨by rw [if_pos h, hcap], fun _ => hstate0, by rw [hsegQ, htile], by rw [hshots, htile], (OnlyTile.of_tile htile).trans honly, fun hd hlt => ?_,
      fun hd hown hlt => ?_, (hu.mono (by simp) (by simp)).within hconf (by simp) (by simp)⟩
    · exact (hconf.f (by simpa using hstate)).trans (hsegments hd hlt)
    · exact (hconf.f (by simpa using hdone)).trans (hsegdone hd hown hlt)
  · next h =>
    exact ⟨by rw [if_neg h, htile], fun hends => absurd hends h, by rw [htile], by rw [htile], .of_tile htile, hsegments, hsegdone, hu.mono (by simp) (by simp)⟩

end Sys2Proof.Machine
end

section
/-! SUPPORT. The command SEGMENT_END. -/
namespace Sys2Proof.Machine

variable {d0 : Device}

/-- The end of a segment: it is taken, stored and counted, and its shot may be ready. -/
def Tx.segEnded (t : Tx d0) (tl : Nat) (c : Capture) (rest : List Capture) (xs : List Int) : Tx d0 :=
  (((t.segTaken tl c rest).segStored tl c xs).2.segWritten tl c ((t.segTaken tl c rest).segStored tl c xs).1).tryReady tl

/-- The segment's own lines. -/
def segLinesOf (c : Capture) (n : Nat) : Nat := 1 + ((if (rb c.crec 34).testBit 0 then 0 else 2 * n) + 63) / 64

/-- What the end of the oldest segment that waits makes of the device. -/
structure SegEnded (tl : Nat) (c : Capture) (rest : List Capture) (n : Nat) (d e : Device) : Prop where
  segQ : (e.tile tl).segQ = rest
  trunc : e.f (R.ACQ_EVT.TRUNC tl) = if c.flags &&& 4 = 0 then d.f (R.ACQ_EVT.TRUNC tl) else 1
  fits : ∀ x, d.shotOf tl c.shot c.attempt = some x → recordLines x.results.length (x.segLines + segLinesOf c n) ≤ x.lines →
    (e.shotOf tl c.shot c.attempt).map (fun s => s.segs.length) = some (x.segs.length + 1) ∧
    (d.f (R.ACQ_CNT.SEGMENTS tl) < 2 ^ (R.ACQ_CNT.SEGMENTS tl).width →
      e.f (R.ACQ_CNT.SEGMENTS tl) = satInc (R.ACQ_CNT.SEGMENTS tl).width (d.f (R.ACQ_CNT.SEGMENTS tl))) ∧
    (d.segOwn tl c = true → d.f (R.ACQ_STAT.SEGDONE tl) < 2 ^ (R.ACQ_STAT.SEGDONE tl).width →
      e.f (R.ACQ_STAT.SEGDONE tl) = satInc (R.ACQ_STAT.SEGDONE tl).width (d.f (R.ACQ_STAT.SEGDONE tl)))
  overflow : ∀ x, d.shotOf tl c.shot c.attempt = some x → x.lines < recordLines x.results.length (x.segLines + segLinesOf c n) →
    (e.shotOf tl c.shot c.attempt).map (fun s => s.segs.length) = some x.segs.length ∧ e.f (R.ACQ_EVT.RESV_OVF tl) = 1
  onlyTile : OnlyTile tl d e
  sram : ∀ a, ¬ RecordLine tl (a / 64) → e.sram.get a = d.sram.get a
  cap : (e.tile tl).cap = if d.segOwn tl c && rest.isEmpty && (d.tile tl).cap.any (fun y => y.stage == 3 && decide (rn y.crec 6 2 ≤ y.segs)) then none
    else (d.tile tl).cap
  state : (d.segOwn tl c && rest.isEmpty && (d.tile tl).cap.any (fun y => y.stage == 3 && decide (rn y.crec 6 2 ≤ y.segs))) = true →
    e.f (R.ACQ_STAT.STATE tl) = 0
  confined : d.logStale = true → Confined segEndPieces (segEndFlds tl) d e

theorem Confined.segEnded {ps : List Piece} {Gs : List Fld} {d : Device} {t : Tx d0} (h : Confined ps Gs d t.d) (hps : segEndPieces ⊆ ps) {tl : Nat}
    (hGs : segEndFlds tl ⊆ Gs) (hlog : LogCovered ps Gs d) (c : Capture) (rest : List Capture) (xs : List Int) :
    Confined ps Gs d (t.segEnded tl c rest xs).d := by
  have hG : ∀ F ∈ segEndFlds tl, F ∈ Gs := fun F hF => hGs hF
  have htaken := h.within (t.segTaken_spec tl c rest).confined (fun p hp => hps (by revert p; decide)) (by simpa [segEndFlds] using hG _ (by simp [segEndFlds]))
  have hstored := htaken.segStored hps hlog tl c xs (hG _ (by simp [segEndFlds]))
  have hcounted := hstored.within (Tx.segWritten_spec _ tl c ((t.segTaken tl c rest).segStored tl c xs).1).confined (fun p hp => hps (by revert p; decide)) (fun F hF => hG F (by simp_all [segEndFlds]))
  exact hcounted.within (Tx.tryReady_confined _ tl) (fun p hp => hps (by revert p; decide)) (by simp)

theorem segEndFlds_notMem (tl : Nat) : R.TB_STAT.AWAKE.key ∉ (segEndFlds tl).map Fld.key ∧ ∀ F ∈ segEndFlds tl, F.key ∉ logFlds.map Fld.key := by
  refine ⟨?_, fun F hF => notMem_logFlds ?_⟩
  · simp only [segEndFlds, List.map_cons, List.map_nil, List.mem_cons, List.not_mem_nil, or_false, Fld.key, R.ACQ_EVT.TRUNC, R.ACQ_EVT.RESV_OVF,
      R.ACQ_CNT.SEGMENTS, R.ACQ_STAT.SEGDONE, R.ACQ_STAT.STATE, R.TB_STAT.AWAKE]
    omega
  · simp only [segEndFlds, List.mem_cons, List.not_mem_nil, or_false] at hF
    rcases hF with rfl | rfl | rfl | rfl | rfl <;>
      simp only [Fld.key, R.ACQ_EVT.TRUNC, R.ACQ_EVT.RESV_OVF, R.ACQ_CNT.SEGMENTS, R.ACQ_STAT.SEGDONE, R.ACQ_STAT.STATE] <;> omega

theorem segEnd_distinct (tl : Nat) :
    (∀ F ∈ [R.ACQ_CNT.SEGMENTS tl, R.ACQ_STAT.SEGDONE tl], F.key ≠ (R.ACQ_EVT.RESV_OVF tl).key ∧ F.key ≠ (R.ACQ_EVT.TRUNC tl).key) ∧
    (R.ACQ_EVT.TRUNC tl).key ≠ (R.ACQ_EVT.RESV_OVF tl).key ∧
    ∀ F ∈ [R.ACQ_EVT.TRUNC tl, R.ACQ_EVT.RESV_OVF tl], F.key ∉ [R.ACQ_CNT.SEGMENTS tl, R.ACQ_STAT.SEGDONE tl, R.ACQ_STAT.STATE tl].map Fld.key := by
  simp only [List.mem_cons, List.not_mem_nil, or_false, forall_eq_or_imp, forall_eq, List.map_cons, List.map_nil, Fld.key,
    R.ACQ_EVT.TRUNC, R.ACQ_EVT.RESV_OVF, R.ACQ_CNT.SEGMENTS, R.ACQ_STAT.SEGDONE, R.ACQ_STAT.STATE]
  omega

theorem Confined.sramGet {ps : List Piece} {Gs : List Fld} {d e : Device} (h : Confined ps Gs d e) (hps : Piece.sram ∉ ps) (a : Nat) :
    e.sram.get a = d.sram.get a := by rw [show e.sram = d.sram from h.same .sram hps]

/-- What the store of a segment makes of its shot, by the room that the reservation has. -/
theorem Tx.segStored_outcome (t : Tx d0) (tl : Nat) (c : Capture) (xs : List Int) {x : Shot} (hx : t.d.shotOf tl c.shot c.attempt = some x) :
    (t.segStored tl c xs).1 = decide (recordLines x.results.length (x.segLines + segLinesOf c xs.length) ≤ x.lines) ∧
      SegOutcome tl c.shot c.attempt x (t.segStored tl c xs).1 (t.segStored tl c xs).2.d := by
  have hlen : 1 + ((if (rb c.crec 34).testBit 0 then [] else sampleBytes xs).length + 63) / 64 = segLinesOf c xs.length := by
    rw [segLinesOf]
    split
    · rfl
    · rw [length_sampleBytes]
  have h : (t.segHeader tl c xs).2.d.shotOf tl c.shot c.attempt = some x := ((t.segHeader_confined tl c xs).tile_written (by decide) _ _ _).trans hx
  rw [← hlen]
  exact Tx.writeSeg_outcome _ tl c.shot c.attempt h _ _

theorem Tx.segStored_f (t : Tx d0) (tl : Nat) (c : Capture) (xs : List Int) {F : Fld} (hF : F ∈ segEndFlds tl) (hne : F.key ≠ (R.ACQ_EVT.RESV_OVF tl).key) :
    (t.segStored tl c xs).2.d.f F = t.d.f F := by
  have hwide : Confined (.eccLog :: segEndPieces) (logFlds ++ [R.ACQ_EVT.RESV_OVF tl]) t.d (t.segStored tl c xs).2.d :=
    Confined.segStored ((Confined.refl _).mono (by simp) (by simp)) (by simp) (wideLog _ _ _) tl c xs (by simp)
  refine hwide.f ?_
  rw [List.map_append, List.mem_append, not_or]
  exact ⟨(segEndFlds_notMem tl).2 F hF, by simpa using hne⟩

theorem Tx.segEnded_spec (t : Tx d0) (tl : Nat) (c : Capture) (rest : List Capture) (xs : List Int) : SegEnded tl c rest xs.length t.d (t.segEnded tl c rest xs).d := by
  obtain ⟨hcountNe, htruncNe, hevNe⟩ := segEnd_distinct tl
  have hstale : t.d.logStale = true → Confined segEndPieces (segEndFlds tl) t.d (t.segEnded tl c rest xs).d := fun h =>
    Confined.segEnded ((Confined.refl _).mono (by simp) (by simp)) (List.Subset.refl _) (List.Subset.refl _)
      (.inl ⟨h, by decide, by decide, (segEndFlds_notMem tl).1⟩) c rest xs
  let a := t.segTaken tl c rest
  let w := a.segStored tl c xs
  let y := w.2.segWritten tl c w.1
  have htaken : SegTaken tl c rest t.d a.d := t.segTaken_spec tl c rest
  have hkept : RecKept tl a.d w.2.d := a.segStored_recKept tl c xs
  have hcount : SegCounted tl c w.1 w.2.d y.d := w.2.segWritten_spec tl c w.1
  have hready := y.tryReady_confined tl
  have hreadyKept := y.tryReady_recKept tl
  have hshots := y.tryReady_shots tl
  have hf : ∀ F ∈ segEndFlds tl, F.key ≠ (R.ACQ_EVT.RESV_OVF tl).key → w.2.d.f F = a.d.f F := fun F hF hne => a.segStored_f tl c xs hF hne
  have hshotOf : a.d.shotOf tl c.shot c.attempt = t.d.shotOf tl c.shot c.attempt := by
    rw [Device.shotOf, htaken.tile, Device.shotOf]
  have hout : ∀ x, t.d.shotOf tl c.shot c.attempt = some x →
      w.1 = decide (recordLines x.results.length (x.segLines + segLinesOf c xs.length) ≤ x.lines) ∧ SegOutcome tl c.shot c.attempt x w.1 w.2.d :=
    fun x hx => a.segStored_outcome tl c xs (hshotOf.trans hx)
  rw [show t.segEnded tl c rest xs = y.tryReady tl from rfl] at *
  clear_value y w a
  have hcap : (w.2.d.tile tl).cap = (t.d.tile tl).cap ∧ (w.2.d.tile tl).segQ = rest := by
    have h := Prod.mk.inj (hkept.cap tl)
    rw [htaken.tile] at h
    exact h
  have hown : w.2.d.segOwn tl c = t.d.segOwn tl c := by rw [Device.segOwn, hcap.1, Device.segOwn]
  have hends : w.2.d.capEnds tl c =
      (t.d.segOwn tl c && rest.isEmpty && (t.d.tile tl).cap.any (fun y => y.stage == 3 && decide (rn y.crec 6 2 ≤ y.segs))) := by
    rw [Device.capEnds, hown, hcap.1, hcap.2]
  have hseg : ∀ x, SegOutcome tl c.shot c.attempt x w.1 w.2.d →
      ((y.tryReady tl).d.shotOf tl c.shot c.attempt).map (fun s => s.segs.length) = some (x.segs.length + w.1.toNat) := fun x ho =>
    ((hshots _ _).trans (ShotsKept.of_shots (fun s => s.segs.length) hcount.shots _ _)).trans ho.segs
  have hyf : ∀ F, (y.tryReady tl).d.f F = y.d.f F := fun F => hready.f (by simp)
  have hkeys : ∀ F ∈ [R.ACQ_CNT.SEGMENTS tl, R.ACQ_STAT.SEGDONE tl], w.2.d.f F = t.d.f F := by
    intro F hF
    obtain ⟨hresv, htrunc⟩ := hcountNe F hF
    have hsub : [R.ACQ_CNT.SEGMENTS tl, R.ACQ_STAT.SEGDONE tl] ⊆ segEndFlds tl := by simp [segEndFlds]
    exact (hf F (hsub hF) hresv).trans (htaken.confined.f (by simpa using htrunc))
  refine ⟨?_, ?_, fun x hx hroom => ?_, fun x hx hover => ?_, ?_, fun b hb => ?_, ?_, fun hend => ?_, hstale⟩
  · exact (Prod.mk.inj (hreadyKept.cap tl)).2.trans (hcount.segQ.trans hcap.2)
  · rw [hyf, hcount.confined.f (hevNe _ (by simp)), hf _ (by simp [segEndFlds]) htruncNe]
    exact htaken.trunc
  · obtain ⟨hfits, ho⟩ := hout x hx
    rw [decide_eq_true hroom] at hfits
    refine ⟨?_, fun hlt => ?_, fun howned hlt => ?_⟩
    · rw [hseg x ho, hfits]
      rfl
    · have hw := hkeys (R.ACQ_CNT.SEGMENTS tl) (by simp)
      rw [hyf, hcount.segments hfits (by rwa [hw]), hw]
    · have hw := hkeys (R.ACQ_STAT.SEGDONE tl) (by simp)
      rw [hyf, hcount.segdone hfits (hown.trans howned) (by rwa [hw]), hw]
  · obtain ⟨hfits, ho⟩ := hout x hx
    rw [decide_eq_false (by omega)] at hfits
    refine ⟨?_, ?_⟩
    · rw [hseg x ho, hfits]
      rfl
    · rw [hyf, hcount.confined.f (hevNe _ (by simp))]
      exact ho.overflow hfits
  · exact (htaken.onlyTile.trans hkept.onlyTile).trans (hcount.onlyTile.trans hreadyKept.onlyTile)
  · exact (hreadyKept.sram b hb).trans ((hcount.confined.sramGet (by decide) b).trans ((hkept.sram b hb).trans (htaken.confined.sramGet (by decide) b)))
  · exact (Prod.mk.inj (hreadyKept.cap tl)).1.trans (hcount.cap.trans (by rw [hends, hcap.1]))
  · rw [hyf]
    exact hcount.state (hends.trans hend)

end Sys2Proof.Machine
end

section
/-! SUPPORT. The command REARM (R288, R290, R309). -/
namespace Sys2Proof.Machine

variable {d0 : Device}

theorem exec_segmentEnd (s : State) (tl : Fin 32) (samples : List Int) {c : Capture} {rest : List Capture} (hq : (s.dev.tile tl).segQ = c :: rest)
    (hlast : c.last ≤ s.dev.now.toNat) (hcomb : s.dev.combed tl = false) :
    ∃ e, exec (.segmentEnd tl samples) s = .next { s with dev := e } ∧ SegEnded tl c rest (min c.count samples.length) (Tx.start s.dev).d e := by
  obtain ⟨from', heq⟩ := effSegmentEnd_eq (Tx.start s.dev) samples hq hlast hcomb
  have hspec := (Tx.start s.dev).segEnded_spec tl c rest (segSamples c from' samples)
  rw [length_segSamples] at hspec
  refine ⟨_, ?_, hspec⟩
  change Host.Outcome.next { s with dev := (effSegmentEnd tl samples (Tx.start s.dev)).d } = _
  rw [heq]
  rfl

/-- The unit is armed again, and notes until when it was busy. -/
def Tx.rearmed (t : Tx d0) (tl : Nat) (c : Capture) : Tx d0 :=
  (((t.modTile tl (fun x => { x with busy := some (rb c.crec 4, c.tick, t.d.now.toNat) })).modTile tl
    (fun x => { x with cap := some { c with stage := 1, arm := t.d.now.toNat } })).showCap tl)

/-- What re-arming makes of the device. -/
structure Rearmed (tl : Nat) (c : Capture) (d e : Device) : Prop where
  tile : e.tile tl = { d.tile tl with busy := some (rb c.crec 4, c.tick, d.now.toNat), cap := some { c with stage := 1, arm := d.now.toNat } }
  state : e.f (R.ACQ_STAT.STATE tl) = 1
  onlyTile : OnlyTile tl d e
  confined : Confined [.tiles] [R.ACQ_STAT.STATE tl, R.ACQ_STAT.INDEX tl] d e

theorem Tx.rearmed_spec (t : Tx d0) (tl : Nat) (c : Capture) : Rearmed tl c t.d (t.rearmed tl c).d := by
  let a := t.modTile tl (fun x => { x with busy := some (rb c.crec 4, c.tick, t.d.now.toNat) })
  let b := a.modTile tl (fun x => { x with cap := some { c with stage := 1, arm := t.d.now.toNat } })
  have htile : b.d.tile tl = { t.d.tile tl with busy := some (rb c.crec 4, c.tick, t.d.now.toNat), cap := some { c with stage := 1, arm := t.d.now.toNat } } := by
    rw [a.modTile_tile_same, t.modTile_tile_same]
  have hshow := b.showCap_confined tl
  have hkept := hshow.tile (by simp)
  have hb : Confined [.tiles] [] t.d b.d := (t.modTile_confined tl _).within (a.modTile_confined tl _) (by simp) (by simp)
  refine ⟨(congrFun hkept tl).trans htile, ?_, ?_, (hb.mono (by simp) (by simp)).within hshow (by simp) (by simp)⟩
  · exact b.showCap_state (by rw [htile])
  · exact ((t.modTile_onlyTile tl _).trans (a.modTile_onlyTile tl _)).trans (.of_tile hkept)

/-- On the 48th tick after the segment the unit has been busy until now. -/
theorem Tx.noteBusy_rearm (t : Tx d0) {tl : Nat} {c : Capture} (hcap : (t.d.tile tl).cap = some c) (hstage : c.stage = 3) (hsegs : c.segs < rn c.crec 6 2)
    (hlast : c.last + 48 = t.d.now.toNat) : t.noteBusy tl = t.modTile tl (fun x => { x with busy := some (rb c.crec 4, c.tick, t.d.now.toNat) }) := by
  have hfree : c.freeAt = t.d.now.toNat := by simp [Capture.freeAt, hstage, hsegs, hlast]
  rw [Tx.noteBusy, hcap]
  refine (if_pos (by omega)).trans ?_
  rw [hfree, show t.now = t.d.now from rfl, Nat.min_self]

theorem exec_rearm (s : State) (tl : Fin 32) {c : Capture} (hcap : (s.dev.tile tl).cap = some c) (hstage : c.stage = 3) (hsegs : c.segs < rn c.crec 6 2)
    (hlast : c.last + 48 = s.dev.now.toNat) (hsrc : rb c.crec 4 ≠ 8) :
    exec (.rearm tl) s = .next { s with dev := (((Tx.start s.dev).rearmed tl c).capKnown tl).d } := by
  let t := Tx.start s.dev
  have hspec := t.rearmed_spec tl c
  have heq : effRearm tl t = ((((t.noteBusy tl).modTile tl (fun x => { x with cap := some { c with stage := 1, arm := t.now.toNat } })).showCap
      tl).capImmediate tl).capKnown tl := by
    rw [effRearm, show (t.d.tile tl).cap = some c from hcap]
    exact if_pos (show (decide (c.stage = 3) && decide (c.segs < rn c.crec 6 2) && decide (c.last + 48 = s.dev.now.toNat)) = true by simp [hstage, hsegs, hlast])
  change Host.Outcome.next { s with dev := (effRearm tl t).d } = _
  rw [heq, t.noteBusy_rearm hcap hstage hsegs hlast]
  change Host.Outcome.next { s with dev := (((t.rearmed tl c).capImmediate tl).capKnown tl).d } = _
  rw [Tx.capImmediate_of_ne _ (c := { c with stage := 1, arm := t.d.now.toNat }) (by rw [hspec.tile]) hsrc]

theorem rearm_settles (s : State) (tl : Fin 32) {c : Capture} (hcap : (s.dev.tile tl).cap = some c) (hstage : c.stage = 3) (hsegs : c.segs < rn c.crec 6 2)
    (hlast : c.last + 48 = s.dev.now.toNat) (hsrc : rb c.crec 4 ≠ 8) :
    ∃ v e, exec (.rearm tl) s = .next { s with dev := e } ∧ Rearmed tl c (Tx.start s.dev).d v ∧
      (s.dev.knownFrom (rb c.crec 4) s.dev.now.toNat = [] → e = v) ∧
      (s.dev.knownFrom (rb c.crec 4) s.dev.now.toNat ≠ [] → ∃ u, CapTaken tl { c with stage := 1, arm := s.dev.now.toNat } u v e) := by
  let t := (Tx.start s.dev).rearmed tl c
  have hspec := (Tx.start s.dev).rearmed_spec tl c
  have hcap' : (t.d.tile tl).cap = some { c with stage := 1, arm := s.dev.now.toNat } := by rw [hspec.tile]; rfl
  have hknown : t.d.knownFrom = s.dev.knownFrom := by
    funext k tick
    rw [Device.knownFrom, hspec.confined.same .run (by decide)]
    rfl
  refine ⟨t.d, _, exec_rearm s tl hcap hstage hsegs hlast hsrc, hspec, fun hnil => ?_, fun hne => ?_⟩
  · rw [Tx.capKnown_nil _ hcap' (by rw [hknown]; exact hnil)]
  · obtain ⟨k, -, -, htake⟩ := Tx.capKnown_first _ hcap' rfl (by rw [hknown]; exact hne)
    rw [htake]
    exact ⟨_, Tx.capTake_spec _ _ _ _ _⟩

end Sys2Proof.Machine
end

section
/-! SUPPORT. The blocks of a stream and its end (R306 to R308, R310). -/
namespace Sys2Proof.Machine

variable {d0 : Device}

theorem Tx.upd_stream (t : Tx d0) (n k : Nat) (x : Stream) : (t.upd (.stream n x)).d.stream k = if k = n then x else t.d.stream k :=
  bget_bset (fun _ => ({} : Stream)) t.d.streams n k x

theorem Device.stream_congr {d e : Device} (h : Same d e .streams) : e.stream = d.stream := by
  funext k
  rw [Device.stream, Device.stream, show e.streams = d.streams from h]

/-! The end of a stream -/

/-- Another slot on which a stream of the tile is active. -/
def Device.otherSlot (d : Device) (n tl : Nat) : Option Nat := (List.range 4).find? (fun k => k != n && (d.stream k).active && (d.stream k).tile == tl)

theorem Device.otherSlot_congr {d e : Device} {n : Nat} (h : ∀ k, k ≠ n → e.stream k = d.stream k) (tl : Nat) : e.otherSlot n tl = d.otherSlot n tl := by
  unfold Device.otherSlot
  congr 1
  funext k
  by_cases hk : k = n
  · simp [hk]
  · rw [h k hk]

theorem Device.otherSlot_lt {d : Device} {n tl k : Nat} (h : d.otherSlot n tl = some k) : k < 4 := List.mem_range.mp (List.mem_of_find?_eq_some h)

/-- The fields that show a stream and its end. -/
def stopFlds (n tl : Nat) : List Fld := [R.ACQ_STRM_STAT.ACTIVE n, R.ACQ_STAT.STREAM tl, R.ACQ_STAT.SLOT tl]

theorem stopFlds_keys (n tl : Nat) : (R.ACQ_STRM_STAT.ACTIVE n).key ≠ (R.ACQ_STAT.STREAM tl).key ∧
    (R.ACQ_STRM_STAT.ACTIVE n).key ≠ (R.ACQ_STAT.SLOT tl).key ∧ (R.ACQ_STAT.STREAM tl).key ≠ (R.ACQ_STAT.SLOT tl).key := by
  simp only [Fld.key, R.ACQ_STRM_STAT.ACTIVE, R.ACQ_STAT.STREAM, R.ACQ_STAT.SLOT]
  omega

/-- What the end of the stream on slot `n` makes of the device. -/
structure StreamStopped (n tl : Nat) (d e : Device) : Prop where
  stream : e.stream n = { d.stream n with active := false }
  active : e.f (R.ACQ_STRM_STAT.ACTIVE n) = 0
  busy : e.f (R.ACQ_STAT.STREAM tl) = if d.otherSlot n tl = none then 0 else d.f (R.ACQ_STAT.STREAM tl)
  slot : e.f (R.ACQ_STAT.SLOT tl) = if d.f (R.ACQ_STAT.SLOT tl) = n then (d.otherSlot n tl).getD n else d.f (R.ACQ_STAT.SLOT tl)
  confined : Confined [.streams] (stopFlds n tl) d e

theorem Tx.streamStop_spec (t : Tx d0) {n tl : Nat} (htile : (t.d.stream n).tile = tl) : StreamStopped n tl t.d (t.streamStop n).d := by
  subst htile
  obtain ⟨hbusy, hslot, hne⟩ := stopFlds_keys n (t.d.stream n).tile
  let u := (t.upd (.stream n { t.d.stream n with active := false })).wb (R.ACQ_STRM_STAT.ACTIVE n) false
  have hu : Confined [.streams] (stopFlds n (t.d.stream n).tile) t.d u.d :=
    Confined.wb ((t.upd_confined _ (ps := [.streams])).mono (by simp) (by simp)) (by simp [stopFlds]) _
  have hactive : u.d.f (R.ACQ_STRM_STAT.ACTIVE n) = 0 := (Tx.w_f_same _ _ _).trans rfl
  have hstream : ∀ k, u.d.stream k = if k = n then { t.d.stream n with active := false } else t.d.stream k := fun k => t.upd_stream n k _
  have hkeep : ∀ F : Fld, F.key ≠ (R.ACQ_STRM_STAT.ACTIVE n).key → u.d.f F = t.d.f F := fun F hF => Tx.w_f_other _ _ _ _ hF
  have hother : u.d.otherSlot n (t.d.stream n).tile = t.d.otherSlot n (t.d.stream n).tile :=
    Device.otherSlot_congr (fun k hk => (hstream k).trans (if_neg hk)) _
  have hstop : t.streamStop n = match u.d.otherSlot n (t.d.stream n).tile with
      | none => u.wb (R.ACQ_STAT.STREAM (t.d.stream n).tile) false
      | some k => if u.f (R.ACQ_STAT.SLOT (t.d.stream n).tile) = n then u.w (R.ACQ_STAT.SLOT (t.d.stream n).tile) k else u := rfl
  rw [hother] at hstop
  clear_value u
  rw [hstop]
  cases hk : t.d.otherSlot n (t.d.stream n).tile with
  | none =>
    refine ⟨(hstream n).trans (if_pos rfl), (Tx.w_f_other _ _ _ _ hbusy).trans hactive, ?_, ?_, hu.wb (by simp [stopFlds]) _⟩
    · rw [if_pos hk]
      exact Tx.w_f_same _ _ _
    · rw [hk, Option.getD_none]
      refine (Tx.w_f_other _ _ _ _ hne.symm).trans ((hkeep _ hslot.symm).trans ?_)
      split
      · next h => exact h
      · rfl
  | some k =>
    have hlt := Device.otherSlot_lt hk
    have hbusy' : u.d.f (R.ACQ_STAT.STREAM (t.d.stream n).tile) = t.d.f (R.ACQ_STAT.STREAM (t.d.stream n).tile) := hkeep _ hbusy.symm
    have hslot' : u.f (R.ACQ_STAT.SLOT (t.d.stream n).tile) = t.d.f (R.ACQ_STAT.SLOT (t.d.stream n).tile) := hkeep _ hslot.symm
    dsimp only
    split
    · next h =>
      refine ⟨(hstream n).trans (if_pos rfl), (Tx.w_f_other _ _ _ _ hslot).trans hactive, ?_, ?_, hu.w (by simp [stopFlds]) _⟩
      · rw [if_neg (by simp [hk])]
        exact (Tx.w_f_other _ _ _ _ hne).trans hbusy'
      · rw [if_pos (hslot'.symm.trans h), hk, Option.getD_some]
        exact (Tx.w_f_same _ _ _).trans (Nat.mod_eq_of_lt hlt)
    · next h =>
      refine ⟨(hstream n).trans (if_pos rfl), hactive, ?_, ?_, hu⟩
      · rw [if_neg (by simp [hk])]
        exact hbusy'
      · rw [if_neg (fun hn => h (hslot'.trans hn))]
        exact hslot'

end Sys2Proof.Machine
end

section
/-! SUPPORT. The blocks of a stream (R307, R308). -/
namespace Sys2Proof.Machine

variable {d0 : Device}

theorem Tx.streamOut_off (t : Tx d0) {n : Nat} (hoff : t.d.b (R.ACQ_STRM_CTL.EN n) = false) : t.streamOut n = t := by
  refine Tx.each_keeps (fun u => u = t) t _ _ rfl fun _ _ u hu => ?_
  subst hu
  unfold Tx.streamOut1
  dsimp only
  split
  · rfl
  · exact if_neg (by simp [Tx.b, hoff])

/-- The next block of a stream joins its buffer, or is dropped. -/
def Tx.blockFormed (t : Tx d0) (n : Nat) (last : Bool) (xs : List Int) : Tx d0 :=
  let x := t.d.stream n
  if x.buffer.length < 256 then
    t.upd (.stream n { x with seq := x.seq + 1, gap := false, fresh := !last
                              buffer := x.buffer ++ [streamBytes (x.start + 40 * x.seq) x.tile (x.seq % 2 ^ 32) x.gap last xs] })
  else ((t.upd (.stream n { x with seq := x.seq + 1, gap := true })).inc (R.ACQ_STRM_STAT.GAPS n)).ev (R.ACQ_STRM_STAT.GAP n)

theorem Tx.streamBlock_eq (t : Tx d0) (n : Nat) (last : Bool) (xs : List Int) (hcomb : (t.streamOut n).d.combed ((t.streamOut n).d.stream n).tile = false) :
    t.streamBlock n last xs = ((t.streamOut n).blockFormed n last xs).streamOut n := by
  unfold Tx.streamBlock
  generalize t.streamOut n = u at hcomb ⊢
  have hseen : ∀ first, u.seen (u.d.stream n).tile first xs = (xs, u) := fun first => if_neg (by simp [hcomb])
  dsimp only
  rw [hseen, Tx.blockFormed]

/-! What a block may change -/

def blockPieces : List Piece := [.streams, .cxl, .pba, .evNow]

def blockFlds (n : Nat) : List Fld := [R.ACQ_STRM_STAT.GAPS n, R.ACQ_STRM_STAT.GAP n, R.ACQ_STRM_WPTR.OFF n]

/-- What the blocks of the stream on slot `n` keep. -/
structure BlockKept (n : Nat) (d e : Device) : Prop where
  confined : Confined blockPieces (blockFlds n) d e
  other : ∀ k, k ≠ n → e.stream k = d.stream k
  same : (e.stream n).tile = (d.stream n).tile ∧ (e.stream n).active = (d.stream n).active

namespace BlockKept

variable {n : Nat} {d e g : Device}

theorem refl (n : Nat) (d : Device) : BlockKept n d d := ⟨(Confined.refl _).mono (by simp) (by simp), fun _ _ => rfl, rfl, rfl⟩

theorem trans (h : BlockKept n d e) (h' : BlockKept n e g) : BlockKept n d g :=
  ⟨h.confined.trans h'.confined, fun k hk => (h'.other k hk).trans (h.other k hk), h'.same.1.trans h.same.1, h'.same.2.trans h.same.2⟩

theorem of_stream {ps : List Piece} {Gs : List Fld} (h : Confined ps Gs d e) (hps : ps ⊆ blockPieces) (hGs : Gs ⊆ blockFlds n) (hstream : e.stream = d.stream) :
    BlockKept n d e := ⟨h.mono hps hGs, fun k _ => by rw [hstream], by rw [hstream], by rw [hstream]⟩

end BlockKept

theorem Tx.upd_blockKept (t : Tx d0) (n : Nat) {x : Stream} (htile : x.tile = (t.d.stream n).tile) (hactive : x.active = (t.d.stream n).active) :
    BlockKept n t.d (t.upd (.stream n x)).d := by
  have hn : (t.upd (.stream n x)).d.stream n = x := (t.upd_stream n n x).trans (if_pos rfl)
  exact ⟨(t.upd_confined _ (ps := [.streams])).mono (by decide) (by simp), fun k hk => (t.upd_stream n k x).trans (if_neg hk), by rw [hn, htile], by rw [hn, hactive]⟩

theorem Tx.ringWrite_confined (t : Tx d0) (n off : Nat) (bs : List Byte) : Confined [.cxl] [] t.d (t.ringWrite n off bs).d :=
  Tx.each_keeps (fun u => Confined [.cxl] [] t.d u.d) _ _ _ (t.upd_confined _) fun _ _ u hu => hu.trans (u.upd_confined _)

theorem Tx.streamOut1_kept (t : Tx d0) (n : Nat) : BlockKept n t.d (t.streamOut1 n).d := by
  unfold Tx.streamOut1
  dsimp only
  split
  · exact .refl _ _
  · next b rest _ =>
    split
    · let u := t.ringWrite (1 + n) (256 * t.f (R.ACQ_STRM_WPTR.OFF n)) b
      have hu := t.ringWrite_confined (1 + n) (256 * t.f (R.ACQ_STRM_WPTR.OFF n)) b
      have hw := u.w_confined (R.ACQ_STRM_WPTR.OFF n) ((256 * t.f (R.ACQ_STRM_WPTR.OFF n) + 256) % (t.d.ring (1 + n)).size / 256)
      have hstream : u.d.stream = t.d.stream := Device.stream_congr (hu.same _ (by simp))
      have hput : BlockKept n t.d (u.w (R.ACQ_STRM_WPTR.OFF n) ((256 * t.f (R.ACQ_STRM_WPTR.OFF n) + 256) % (t.d.ring (1 + n)).size / 256)).d :=
        .of_stream ((hu.mono (ps := [.cxl]) (Gs := [R.ACQ_STRM_WPTR.OFF n]) (by simp) (by simp)).within hw (by simp) (by simp)) (by decide) (by simp [blockFlds]) hstream
      refine hput.trans (Tx.upd_blockKept _ n ?_ ?_)
      · exact congrArg (fun g => (g n).tile) hstream.symm
      · exact congrArg (fun g => (g n).active) hstream.symm
    · exact .refl _ _

theorem Tx.streamOut_kept (t : Tx d0) (n : Nat) : BlockKept n t.d (t.streamOut n).d :=
  Tx.each_keeps (fun u => BlockKept n t.d u.d) _ _ _ (.refl _ _) fun _ _ u hu => hu.trans (u.streamOut1_kept n)

theorem Tx.dropBlock_kept (t : Tx d0) (n : Nat) : BlockKept n t.d ((t.inc (R.ACQ_STRM_STAT.GAPS n)).ev (R.ACQ_STRM_STAT.GAP n)).d :=
  have hev := (t.inc (R.ACQ_STRM_STAT.GAPS n)).ev_confined (R.ACQ_STRM_STAT.GAP n)
  have h := ((t.w_confined (R.ACQ_STRM_STAT.GAPS n) _).mono (ps := [.pba, .evNow]) (Gs := [R.ACQ_STRM_STAT.GAPS n, R.ACQ_STRM_STAT.GAP n]) (by simp)
    (by simp)).within hev (by simp) (by simp)
  .of_stream h (by decide) (by simp [blockFlds]) (Device.stream_congr (h.same .streams (by decide)))

theorem Tx.blockFormed_kept (t : Tx d0) (n : Nat) (last : Bool) (xs : List Int) : BlockKept n t.d (t.blockFormed n last xs).d := by
  unfold Tx.blockFormed
  dsimp only
  split
  · exact t.upd_blockKept n rfl rfl
  · exact (t.upd_blockKept n (x := { t.d.stream n with seq := (t.d.stream n).seq + 1, gap := true }) rfl rfl).trans (Tx.dropBlock_kept _ n)

theorem BlockKept.combed {n : Nat} {d e : Device} (h : BlockKept n d e) : e.combed (e.stream n).tile = d.combed (d.stream n).tile := by
  have htile : e.tile = d.tile := h.confined.tile (by decide)
  have hcalib : e.calib = d.calib := h.confined.same .calib (by decide)
  rw [Device.combed, Device.combed, h.same.1, htile, hcalib]

theorem Tx.streamBlock_kept (t : Tx d0) (n : Nat) (last : Bool) (xs : List Int) (hcomb : t.d.combed (t.d.stream n).tile = false) :
    BlockKept n t.d (t.streamBlock n last xs).d := by
  have hout := t.streamOut_kept n
  rw [t.streamBlock_eq n last xs (hout.combed.trans hcomb)]
  exact (hout.trans (Tx.blockFormed_kept _ n last xs)).trans (Tx.streamOut_kept _ n)

/-! A block of a stream whose ring is off -/

/-- What a block makes of the device where it cannot leave: it joins the buffer, or is dropped for want of room. -/
structure BlockFormed (n : Nat) (last : Bool) (xs : List Int) (d e : Device) : Prop where
  stream : e.stream n =
    let x := d.stream n
    let full := decide (256 ≤ x.buffer.length)
    { x with seq := x.seq + 1, gap := full, fresh := if full then x.fresh else !last
             buffer := if full then x.buffer else x.buffer ++ [streamBytes (x.start + 40 * x.seq) x.tile (x.seq % 2 ^ 32) x.gap last xs] }
  gaps : d.f (R.ACQ_STRM_STAT.GAPS n) < 2 ^ (R.ACQ_STRM_STAT.GAPS n).width → e.f (R.ACQ_STRM_STAT.GAPS n) =
    if 256 ≤ (d.stream n).buffer.length then satInc (R.ACQ_STRM_STAT.GAPS n).width (d.f (R.ACQ_STRM_STAT.GAPS n)) else d.f (R.ACQ_STRM_STAT.GAPS n)
  gap : 256 ≤ (d.stream n).buffer.length → e.f (R.ACQ_STRM_STAT.GAP n) = 1
  other : ∀ k, k ≠ n → e.stream k = d.stream k
  confined : Confined [.streams, .pba, .evNow] [R.ACQ_STRM_STAT.GAPS n, R.ACQ_STRM_STAT.GAP n] d e

theorem gaps_key_ne (n : Nat) : (R.ACQ_STRM_STAT.GAPS n).key ≠ (R.ACQ_STRM_STAT.GAP n).key := by
  simp only [Fld.key, R.ACQ_STRM_STAT.GAPS, R.ACQ_STRM_STAT.GAP]
  omega

theorem Tx.blockFormed_spec (t : Tx d0) (n : Nat) (last : Bool) (xs : List Int) : BlockFormed n last xs t.d (t.blockFormed n last xs).d := by
  have hother := (t.blockFormed_kept n last xs).other
  unfold Tx.blockFormed at *
  dsimp only at *
  split
  · next h =>
    have hroom : ¬ 256 ≤ (t.d.stream n).buffer.length := by omega
    rw [if_pos h] at hother
    refine ⟨((t.upd_stream n n _).trans (if_pos rfl)).trans ?_, fun _ => (if_neg hroom).symm, fun hfull => absurd hfull hroom, hother,
      (t.upd_confined _ (ps := [.streams])).mono (by simp) (by simp)⟩
    simp [hroom]
  · next h =>
    have hfull : 256 ≤ (t.d.stream n).buffer.length := by omega
    rw [if_neg h] at hother
    let u := t.upd (.stream n { t.d.stream n with seq := (t.d.stream n).seq + 1, gap := true })
    let v := u.inc (R.ACQ_STRM_STAT.GAPS n)
    have hev := v.ev_confined (R.ACQ_STRM_STAT.GAP n)
    have hu : Confined [.streams, .pba, .evNow] [R.ACQ_STRM_STAT.GAPS n, R.ACQ_STRM_STAT.GAP n] t.d u.d := (t.upd_confined _ (ps := [.streams])).mono (by simp) (by simp)
    refine ⟨?_, fun hlt => ?_, fun _ => v.ev_f_same _ rfl, hother, (hu.inc (by simp)).within hev (by simp) (by simp)⟩
    · refine (congrFun (Device.stream_congr (hev.same _ (by decide))) n).trans (((t.upd_stream n n _).trans (if_pos rfl)).trans ?_)
      simp [hfull]
    · rw [if_pos hfull]
      exact (hev.f (by simpa using gaps_key_ne n)).trans (u.inc_f_same _ hlt)

end Sys2Proof.Machine
end

section
/-! SUPPORT. The commands STREAM_BLOCK and STREAM_END, and the statement about segments and streams. -/
namespace Sys2Proof.Machine

variable {d0 : Device}

theorem bne_zero_eq (n : Nat) : (n != 0) = decide (n ≠ 0) := by
  cases n <;> rfl

/-- The stream on slot `n` ends, where the block is its last. -/
def Tx.stopIf (t : Tx d0) (n : Nat) (last : Bool) : Tx d0 := if last then t.streamStop n else t

/-- The block that a slot's stream forms on this tick is its last. -/
def Device.lastBlock (d : Device) (n : Nat) : Bool :=
  !d.running || ((d.stream n).len != 0 && decide ((d.stream n).len ≤ 40 * ((d.stream n).seq + 1)))

/-- The ticks of the block that the run has covered. -/
def Device.blockLeft (d : Device) (n : Nat) : Nat :=
  if d.running then 40 else min 40 (d.run.ended.toNat - ((d.stream n).start + 40 * (d.stream n).seq))

theorem effStreamBlock_eq (t : Tx d0) {n : Nat} (samples : List Int) (hactive : (t.d.stream n).active = true)
    (hnow : t.d.now.toNat = (t.d.stream n).start + 40 * ((t.d.stream n).seq + 1)) : effStreamBlock n samples t =
      (if t.d.blockLeft n = 0 then t else t.streamBlock n (t.d.lastBlock n) (samples.take (4 * t.d.blockLeft n))).stopIf n (t.d.lastBlock n) := by
  rw [Device.lastBlock, bne_zero_eq]
  refine if_pos ?_
  rw [hactive, Bool.true_and]
  exact decide_eq_true hnow

/-- The stream has reached its LENGTH. -/
def Device.streamFull (d : Device) (n : Nat) : Bool :=
  (d.stream n).len != 0 && decide ((d.stream n).start + (d.stream n).len ≤ d.now.toNat)

theorem effStreamEnd_eq (t : Tx d0) {n : Nat} (samples : List Int) (hactive : (t.d.stream n).active = true)
    (hend : t.d.running = false ∨ t.d.streamFull n = true) :
    ∃ left, effStreamEnd n samples t = (if left = 0 then t else t.streamBlock n true (samples.take (4 * left))).streamStop n := by
  refine ⟨_, if_neg ?_⟩
  rw [Device.streamFull, bne_zero_eq] at hend
  rw [hactive]
  rcases hend with hrun | hfull
  · simp [Tx.running, hrun]
  · intro h
    have hnot : (!(decide ((t.d.stream n).len ≠ 0) && decide ((t.d.stream n).start + (t.d.stream n).len ≤ t.d.now.toNat))) = true := (Bool.and_eq_true_iff.mp h).2
    rw [hfull] at hnot
    cases hnot

/-- What a stop that the last block brings makes of the device. -/
structure StopDone (n tl : Nat) (last : Bool) (d e : Device) : Prop where
  stream : e.stream n = { d.stream n with active := (d.stream n).active && !last }
  active : last = true → e.f (R.ACQ_STRM_STAT.ACTIVE n) = 0
  confined : Confined [.streams] (stopFlds n tl) d e

theorem Tx.stopIf_spec (t : Tx d0) {n tl : Nat} (last : Bool) (htile : (t.d.stream n).tile = tl) : StopDone n tl last t.d (t.stopIf n last).d := by
  cases last with
  | false => exact ⟨by simp [Tx.stopIf], by simp, (Confined.refl _).mono (by simp) (by simp)⟩
  | true =>
    obtain ⟨hstream, hactive, -, -, hconf⟩ := t.streamStop_spec htile
    exact ⟨by rw [Bool.not_true, Bool.and_false]; exact hstream, fun _ => hactive, hconf⟩

theorem strmEn_notMem (n : Nat) : (R.ACQ_STRM_CTL.EN n).key ∉ [R.ACQ_STRM_STAT.GAPS n, R.ACQ_STRM_STAT.GAP n].map Fld.key := by
  simp only [List.map_cons, List.map_nil, List.mem_cons, List.not_mem_nil, or_false, Fld.key, R.ACQ_STRM_CTL.EN, R.ACQ_STRM_STAT.GAPS, R.ACQ_STRM_STAT.GAP]
  omega

theorem Tx.streamBlock_off (t : Tx d0) {n : Nat} (last : Bool) (xs : List Int) (hoff : t.d.b (R.ACQ_STRM_CTL.EN n) = false)
    (hcomb : t.d.combed (t.d.stream n).tile = false) : t.streamBlock n last xs = t.blockFormed n last xs := by
  have hout := t.streamOut_off hoff
  have hoff' := ((t.blockFormed_spec n last xs).confined.fields.b (strmEn_notMem n)).trans hoff
  rw [t.streamBlock_eq n last xs ((t.streamOut_kept n).combed.trans hcomb), hout, Tx.streamOut_off _ hoff']

theorem blockFlds_notMem (n tl : Nat) : (∀ F ∈ stopFlds n tl, F.key ∉ (blockFlds n).map Fld.key) ∧
    ∀ F ∈ [R.ACQ_STRM_STAT.GAPS n, R.ACQ_STRM_STAT.GAP n], F.key ∉ (stopFlds n tl).map Fld.key := by
  simp only [stopFlds, blockFlds, List.mem_cons, List.not_mem_nil, or_false, forall_eq_or_imp, forall_eq, List.map_cons, List.map_nil, Fld.key,
    R.ACQ_STRM_STAT.ACTIVE, R.ACQ_STAT.STREAM, R.ACQ_STAT.SLOT, R.ACQ_STRM_STAT.GAPS, R.ACQ_STRM_STAT.GAP, R.ACQ_STRM_WPTR.OFF]
  omega

/-- What a STREAM_BLOCK makes of a stream whose ring is off. -/
structure BlockDone (n : Nat) (samples : List Int) (d e : Device) : Prop where
  none : d.blockLeft n = 0 → e.stream n = { d.stream n with active := false }
  stream : d.blockLeft n ≠ 0 → e.stream n =
    let x := d.stream n
    let full := decide (256 ≤ x.buffer.length) && d.blockLeft n != 0
    { x with active := !d.lastBlock n, seq := x.seq + 1, gap := full, fresh := if full then x.fresh else !d.lastBlock n
             buffer := if full then x.buffer else
               x.buffer ++ [streamBytes (x.start + 40 * x.seq) x.tile (x.seq % 2 ^ 32) x.gap (d.lastBlock n) (samples.take (4 * d.blockLeft n))] }
  gaps : e.f (R.ACQ_STRM_STAT.GAPS n) = if decide (256 ≤ (d.stream n).buffer.length) && d.blockLeft n != 0 then
    satInc (R.ACQ_STRM_STAT.GAPS n).width (d.f (R.ACQ_STRM_STAT.GAPS n)) else d.f (R.ACQ_STRM_STAT.GAPS n)
  gap : (decide (256 ≤ (d.stream n).buffer.length) && d.blockLeft n != 0) = true → e.f (R.ACQ_STRM_STAT.GAP n) = 1
  active : d.lastBlock n = true → e.f (R.ACQ_STRM_STAT.ACTIVE n) = 0
  confined : Confined [.streams, .pba, .evNow] ([R.ACQ_STRM_STAT.GAPS n, R.ACQ_STRM_STAT.GAP n] ++ stopFlds n (d.stream n).tile) d e

theorem effStreamBlock_spec (t : Tx d0) {n : Nat} (samples : List Int) (hactive : (t.d.stream n).active = true)
    (hnow : t.d.now.toNat = (t.d.stream n).start + 40 * ((t.d.stream n).seq + 1)) (hoff : t.d.b (R.ACQ_STRM_CTL.EN n) = false)
    (hgaps : t.d.f (R.ACQ_STRM_STAT.GAPS n) < 2 ^ (R.ACQ_STRM_STAT.GAPS n).width) (hcomb : t.d.combed (t.d.stream n).tile = false) :
    BlockDone n samples t.d (effStreamBlock n samples t).d := by
  obtain ⟨-, hkeep⟩ := blockFlds_notMem n (t.d.stream n).tile
  rw [effStreamBlock_eq t samples hactive hnow]
  by_cases hleft : t.d.blockLeft n = 0
  · have hlast : t.d.lastBlock n = true := by
      cases hrun : t.d.running with
      | false => simp [Device.lastBlock, hrun]
      | true => simp [Device.blockLeft, hrun] at hleft
    obtain ⟨hstream, hdone, hconf⟩ := t.stopIf_spec (t.d.lastBlock n) (n := n) rfl
    rw [if_pos hleft]
    refine ⟨fun _ => hstream.trans (by simp [hlast]), fun h => absurd hleft h, ?_, fun h => by simp [hleft] at h, hdone,
      hconf.mono (by simp) (by simp)⟩
    rw [hconf.f (hkeep _ (by simp))]
    simp [hleft]
  · rw [if_neg hleft, t.streamBlock_off _ _ hoff hcomb]
    obtain ⟨hblock, hcount, hdropped, -, hformed⟩ := t.blockFormed_spec n (t.d.lastBlock n) (samples.take (4 * t.d.blockLeft n))
    generalize t.blockFormed n (t.d.lastBlock n) (samples.take (4 * t.d.blockLeft n)) = u at hblock hcount hdropped hformed
    obtain ⟨hstream, hdone, hconf⟩ := u.stopIf_spec (t.d.lastBlock n) (n := n) (tl := (t.d.stream n).tile) (by rw [hblock])
    have hne : (t.d.blockLeft n != 0) = true := by simpa using hleft
    refine ⟨fun h => absurd h hleft, fun _ => hstream.trans ?_, ?_, fun hfull => ?_, hdone, (hformed.mono (by simp) (by simp)).within hconf (by simp) (by simp)⟩
    · simp [hblock, hne, hactive]
    · rw [hconf.f (hkeep _ (by simp)), hcount hgaps, hne]
      simp
    · rw [hconf.f (hkeep _ (by simp))]
      exact hdropped (by simpa [hne] using hfull)

end Sys2Proof.Machine
end

section
/-! SUPPORT. The statement about segments, re-arming and stream blocks. -/
namespace Sys2Proof.Machine

variable {d0 : Device}

theorem exec_streamBlock (s : State) (n : Fin 4) (samples : List Int) :
    exec (.streamBlock n samples) s = .next { s with dev := (effStreamBlock n samples (Tx.start s.dev)).d } := rfl

theorem exec_streamEnd (s : State) (n : Fin 4) (samples : List Int) :
    exec (.streamEnd n samples) s = .next { s with dev := (effStreamEnd n samples (Tx.start s.dev)).d } := rfl

/-- What a STREAM_END makes of the device: a block may leave or be formed first. -/
structure StreamDone (n : Nat) (d e : Device) : Prop where
  stream : (e.stream n).active = false
  active : e.f (R.ACQ_STRM_STAT.ACTIVE n) = 0
  busy : e.f (R.ACQ_STAT.STREAM (d.stream n).tile) = if d.otherSlot n (d.stream n).tile = none then 0 else d.f (R.ACQ_STAT.STREAM (d.stream n).tile)
  slot : e.f (R.ACQ_STAT.SLOT (d.stream n).tile) =
    if d.f (R.ACQ_STAT.SLOT (d.stream n).tile) = n then (d.otherSlot n (d.stream n).tile).getD n else d.f (R.ACQ_STAT.SLOT (d.stream n).tile)
  confined : Confined blockPieces (blockFlds n ++ stopFlds n (d.stream n).tile) d e

theorem effStreamEnd_spec (t : Tx d0) {n : Nat} (samples : List Int) (hactive : (t.d.stream n).active = true)
    (hend : t.d.running = false ∨ t.d.streamFull n = true) (hcomb : t.d.combed (t.d.stream n).tile = false) :
    StreamDone n t.d (effStreamEnd n samples t).d := by
  obtain ⟨left, heq⟩ := effStreamEnd_eq t samples hactive hend
  have hkept : BlockKept n t.d (if left = 0 then t else t.streamBlock n true (samples.take (4 * left))).d := by
    split
    · exact .refl _ _
    · exact t.streamBlock_kept n true _ hcomb
  rw [heq]
  generalize (if left = 0 then t else t.streamBlock n true (samples.take (4 * left))) = u at hkept
  obtain ⟨hstream, hdone, hbusy, hslot, hconf⟩ := u.streamStop_spec hkept.same.1
  obtain ⟨hkeep, -⟩ := blockFlds_notMem n (t.d.stream n).tile
  have hother := Device.otherSlot_congr hkept.other (t.d.stream n).tile
  have hf : ∀ F ∈ stopFlds n (t.d.stream n).tile, u.d.f F = t.d.f F := fun F hF => hkept.confined.f (hkeep F hF)
  refine ⟨by rw [hstream], hdone, ?_, ?_, (hkept.confined.mono (by simp) (by simp)).within hconf (by decide) (by simp)⟩
  · rw [hbusy, hother, hf _ (by simp [stopFlds])]
  · rw [hslot, hother, hf _ (by simp [stopFlds])]

theorem streamEndFlds_subset (n tl : Nat) : blockFlds n ++ stopFlds n tl ⊆
    [R.ACQ_STRM_STAT.GAPS n, R.ACQ_STRM_STAT.GAP n, R.ACQ_STRM_STAT.ACTIVE n, R.ACQ_STAT.STREAM tl, R.ACQ_STAT.SLOT tl, R.ACQ_STRM_WPTR.OFF n] := by
  simp [blockFlds, stopFlds]

theorem not_recordLine {tl a : Nat} (hrec : a / 64 < classBase 2 tl ∨ classBase 2 tl + 16384 ≤ a / 64)
    (hhs : a / 64 < classBase 4 tl ∨ classBase 4 tl + 256 ≤ a / 64) : ¬ RecordLine tl (a / 64) := by
  rw [RecordLine]
  omega

/-- Settles O36: each command's outcome is read off what it makes of the device (`SegEnded`, `Rearmed`, `BlockDone`, `StreamDone`). -/
theorem segmentsAndStreams : Obligations.SegmentsAndStreams := by
  unfold Obligations.SegmentsAndStreams
  refine ⟨fun s tl samples c rest hq hlast hcnt => ?_, fun s tl c hcap hstage hsegs hlast hsrc => ?_, fun s n samples hactive hnow hoff hgaps => ?_,
    fun s n samples hactive => ?_⟩
  · intro d bytes lines segs own capDone hcomb
    obtain ⟨e, hexec, h⟩ := exec_segmentEnd s tl samples hq hlast hcomb
    refine ⟨_, hexec, h.segQ, h.trunc, fun x hx => ⟨fun hroom => ?_, fun hover => h.overflow x hx hover⟩, h.onlyTile,
      fun a hrec hhs => h.sram a (not_recordLine hrec hhs), h.cap, h.state, fun hstale => ?_⟩
    · obtain ⟨hone, hcount, hdone⟩ := h.fits x hx hroom
      exact ⟨hone, hcount hcnt, hdone⟩
    · have hconf := h.confined hstale
      exact ⟨hconf.fields, congrArg (fun d => { s with dev := d }) (hconf.eq_taking.trans rfl)⟩
  · intro d evs
    obtain ⟨v, e, hexec, hrearmed, hidle, htake⟩ := rearm_settles s tl hcap hstage hsegs hlast hsrc
    refine ⟨fun hne => ?_, fun hnil => ?_⟩
    · obtain ⟨u, ⟨x, hx, hcrec, harm, hsegs', hstage', -⟩, hstate, -, honly⟩ := htake hne
      refine ⟨_, hexec, ?_, hstate, fun k hk => (honly k hk).trans (hrearmed.onlyTile k hk)⟩
      rw [hx, Option.map_some, harm, hstage', hsegs']
    · obtain rfl := hidle hnil
      exact ⟨_, hexec, hrearmed.tile, hrearmed.state, hrearmed.onlyTile, hrearmed.confined.fields,
        congrArg (fun d => { s with dev := d }) (hrearmed.confined.eq_taking.trans rfl)⟩
  · intro d x last left full hcomb
    have h := effStreamBlock_spec (Tx.start s.dev) samples hactive hnow hoff hgaps hcomb
    exact ⟨_, exec_streamBlock s n samples, h.none, h.stream, h.gaps, h.gap, h.active, h.confined.fields,
      congrArg (fun d => { s with dev := d }) (h.confined.eq_taking.trans rfl)⟩
  · intro d x atLen other hend hcomb
    have h := effStreamEnd_spec (Tx.start s.dev) samples hactive hend hcomb
    exact ⟨_, exec_streamEnd s n samples, h.stream, h.active, h.busy, h.slot, h.confined.fields.mono (streamEndFlds_subset n x.tile),
      congrArg (fun d => { s with dev := d }) (h.confined.eq_taking.trans rfl)⟩

end Sys2Proof.Machine
end
